-- ==== Sys2Proof/Word.lean ====
section
/-! DEFINITION. Words and the plainest arithmetic on them (00_scope R6-R10). -/
namespace Sys2Proof

/-- One byte of memory. -/
abbrev Byte := BitVec 8

/-- A queue counter C0-C15 (06_programs R148). -/
abbrev U32 := BitVec 32

/-- Bytes of a tile unit (R6, glossary TU). -/
def tuBytes : Nat := 16384

/-- One nanosecond in the timekeeper's unit of 2^-16 ns (R27). -/
def nsUnit : Nat := 65536

end Sys2Proof
end

