-- ==== Sys2Proof/Packet.lean ====
section
/-! DEFINITION. Packets, handshake blocks and slot names: data that commands carry and the state holds. -/
namespace Sys2Proof

/-- A Mladben packet (12_mladben R290). `hdr` is bytes 16-63 of the first unit, `data` the bytes of the later units. -/
structure Packet where
  type : Nat
  vc : Nat
  poison : Bool := false
  mc : Bool := false
  len : Nat := 1
  hops : Nat := 0
  dest : Nat := 0
  src : Nat := 0
  txid : Nat := 0
  hdr : Nat := 0
  data : List Byte := []
  /-- Reserved bits of the link header as received. -/
  rsvd : Nat := 0
  deriving DecidableEq, Repr

/-- A unit of a packet in a frame slot (R289). -/
structure FabUnit where
  pkt : Packet
  /-- Number of the unit within the packet; 0 is the S unit. -/
  n : Nat
  p : Bool := false
  deriving DecidableEq, Repr

/-- The handshake block of R303. -/
structure Handshake where
  version : Nat := 1
  grade : Nat := 0
  modid : Nat := 0
  port : Nat := 0
  mode : Nat := 0
  rev : Bool := false
  fresh : Bool := true
  incarn : Nat := 0
  seen : Nat := 0
  next : Nat := 0
  limits : List Nat := []
  deriving DecidableEq, Repr

/-- A frame's control area, unit descriptors and units (R288, R289). Units are packets with the unit number they carry. -/
structure Frame where
  ctype : Nat
  nak : Bool := false
  nakcnt : Nat := 0
  incarn : Nat := 0
  seq : Nat := 0
  ack : Nat := 0
  freed : List (Nat × Nat) := []
  units : List FabUnit := []
  /-- Handshake block of R303 in RESYNC and RESYNC_DONE frames. -/
  hs : Option Handshake := none
  /-- Bytes of the slots after the last unit, 0 where none are given: a sender fills idle slots with zeros (log 101). -/
  idle : List Byte := []
  /-- The CRC that the frame carries (R288). -/
  crc : Nat := 0
  deriving DecidableEq, Repr

/-- A transaction of this module that waits for a response. -/
structure Outst where
  type : Nat
  /-- Queue and instruction that issued it; 0xFFFF for firmware. -/
  queue : Nat := 0xFFFF
  seq : Nat := 0
  /-- A replica read (R229): the flash TU, the entry of the replica table, the quarter of the TU read, the identifier of the first of the
  four reads, and the bytes once they have arrived clean. -/
  tu : Option Nat := none
  entry : Nat := 0
  part : Nat := 0
  first : Nat := 0
  got : List Byte := []
  deriving DecidableEq, Repr

/-- Header operands of a control instruction: MOD, TAG, WAITREF, SIGREF, DEADLINE and the index word (07_tile R163). -/
structure Hdr where
  mod : Nat := 0
  tag : Nat := 0xFFFF
  wait : Nat := 0
  sig : Nat := 0
  dl : Nat := 0
  ixc : Nat := 0
  deriving DecidableEq, Repr

/-- A binding slot: CLASS of R135, logical unit number and slot or partition. -/
structure SlotRef where
  cls : Nat
  unit : Nat
  slot : Nat
  deriving DecidableEq, Repr

/-- An error that an outer-product engine detects in one of its memories (17_errors R405, 14_progress R346). -/
inductive OpeErr where
  /-- Corrected, in a structure of R405: 3 accumulator file, 4 operand buffers, 6 accumulator park. -/
  | corrected (src : Nat)
  /-- Uncorrectable, in a line of the operand buffers, numbered within the engine (R83). -/
  | line (l : Nat)
  /-- Uncorrectable, in the data of a cell of a partition's tile, by number row by row (R90). -/
  | cell (p t k : Nat)
  /-- Uncorrectable, in the control state of a partition (R103). -/
  | control (p : Nat)
  /-- Uncorrectable, in the k-th line that stages the image of the operation that starts (R83, R94). -/
  | staging (k : Nat)
  /-- Uncorrectable, in the k-th 64-bit word of the parked image that is brought back (R405). -/
  | park (k : Nat)
  /-- Bad parity, in 512-byte word w of the k-th image in the drain buffer (R346). -/
  | drain (k w : Nat)
  deriving DecidableEq, Repr

/-- A write of a doorbell register: its size in bytes and the value (R7, R159). -/
structure DbWrite where
  size : Nat
  val : Nat
  deriving DecidableEq, Repr

/-- What the receiver of a DATA frame finds beside the frame: the slots whose units are read from the receive buffer with bad parity (R346). -/
structure FrameCheck where
  struck : List Nat := []
  deriving DecidableEq, Repr

/-- What the end of a die-to-die link finds in a unit: whether its CRC holds (R21), and whether it is read from the link's buffers with bad
parity (R346). -/
structure UnitCheck where
  ok : Bool
  struck : Bool := false
  deriving DecidableEq, Repr

/-- What a scrub finds in a line of HBM: an error beyond correction (R406), and whether the line's latest word left the controller's write queue
with bad parity (R346). -/
structure LineCheck where
  bad : Bool
  parity : Bool := false
  deriving DecidableEq, Repr

/-- Who misses in its TLB: a context's access by a unit, numbered 256 x class + unit; class 8 is a kaolin core and 9 an NMU (R240). -/
structure Walker where
  ctx : Nat
  unit : Nat
  deriving DecidableEq, Repr

end Sys2Proof
end

