-- ==== Sys2Proof/Syntax.lean ====
section
/-! DEFINITION. The commands of the module: one constructor for each row of the table, in its order, each with its rule and
with the operands by which the sender says what happens (log 9, log 10). -/
namespace Sys2Proof

/-- A command: a write or read of a register, a message, a tile instruction at a unit, or an event of the module. -/
inductive Instr where
  /-- R9: A host write to a BAR0 register or field that has no row of its own updates it according to its access code. -/
  | regWrite (off size val : Nat)
  /-- R29: A 32-bit read of GLB_FT bits [31:0] latches bits [63:32] for the next upper read by the same requester. -/
  | glbFtLowRead (req : Nat)
  /-- R37: A write of GLB_FT_CTL.RESTEP steps FT to the source time in either direction when no user context is ACTIVE and a source time is known. -/
  | restep
  /-- R40: A write of GLB_FT_NEXTSEC that disagrees with the current second is applied as a correction under R36. -/
  | nextsecWrite (sec : Nat)
  /-- R31: A rising edge of SB_TSYNC increments GLB_FT_NEXTSEC and, in reference mode, gives FT its phase and advances lock. -/
  | tsyncEdge
  /-- R35: No SB_TSYNC edge for 1.1 s clears TSYNC_OK and, in reference mode, takes a LOCKED module to HOLDOVER. -/
  | tsyncTimeout
  /-- R35: Loss of a valid SB_TIMEREF clears REF_OK, and a module locked in reference mode goes to HOLDOVER. -/
  | refLoss
  /-- R35: The HOLDOVER time reaches GLB_FT_CTL.HOLD_LIMIT, and the module enters FREE. -/
  | holdoverLimit
  /-- R33: At each EXCH period, each active port or half-port sends a time request stamped t1. -/
  | timeExchangeStart
  /-- R33: A received time request is stamped t2, and a reply carrying t1, t2 and t3 is sent. -/
  | timeRequest (port t1 frac hop st : Nat)
  /-- R33: A received time reply on the parent yields offset and path delay, which drive parent choice, correction under R36 and lock state. -/
  | timeReply (port t1 t2 t3 hop st : Nat)
  /-- R25: A forwarded doorbell arrives on VC1 at the kaolin core of the queue's home quarter. -/
  | doorbellForward (q : Nat)
  /-- R133: A write of a new tail index makes entries available, or is discarded with QMG_INT.DB_BAD set. -/
  | dbTail (q size val : Nat)
  /-- R143: A write of the completion-ring consumer index frees completion-ring slots. -/
  | dbCrhead (q : Nat) (w : DbWrite)
  /-- R147: Writing DB_CTL.RESUME continues a HALTED or ERROR queue at its next instruction. -/
  | dbCtlResume (q : Nat) (w : DbWrite)
  /-- R147: Writing DB_CTL.ABORT moves DB_HEAD and the fetch pointer to the tail, cancels any set-aside instruction, and idles the queue once in-flight work completes. -/
  | dbCtlAbort (q : Nat) (w : DbWrite)
  /-- R161: The QMG command creates a queue from the descriptor in QMG_CMD_DATA after checking it. -/
  | cqCreate
  /-- R161: The QMG command changes the descriptor of an IDLE, unbound queue. -/
  | cqModify
  /-- R161: The QMG command stops dispatch and discards doorbells, then disables the queue once its in-flight instructions have completed. -/
  | cqDestroy
  /-- R161: The QMG command returns a queue descriptor in QMG_CMD_DATA. -/
  | cqRead
  /-- R161: The QMG command allocates a cleared flag block to a context. -/
  | flagAlloc
  /-- R152: The QMG command frees a flag block on which no queue waits. -/
  | flagFree
  /-- R161: The QMG command assigns a context its range of operation tags. -/
  | tagRange
  /-- R158: The QMG command sets a context's error ring. -/
  | errRing
  /-- R162: A host write to a flag word in the FLG window sets or clears that flag. -/
  | flagHostWrite (f val : Nat)
  /-- R139: A kaolin core fetches a queue's next entry, checks its header, evaluates its wait, reserves a tag and a ring slot, computes indexed fields, and executes it or writes it into the EIQ. -/
  | instructionDispatch (q : Nat)
  /-- R141: Once a kaolin core has stalled STALL_MAX cycles on a full EIQ share, it moves the instruction into the queue's pending register. -/
  | setAside (q : Nat)
  /-- R141: The set-aside instruction is written into the EIQ share once the unit frees an entry. -/
  | setAsideWrite (q : Nat)
  /-- R136: Firmware binds a READY queue to a free slot that its affinity allows, in order of preference. -/
  | queueBind (q : Nat) (r : SlotRef)
  /-- R136: A bound queue that has been IDLE for 10 µs loses its slot. -/
  | queueIdleUnbind (q : Nat)
  /-- R175: The control instruction completes at dispatch with no effect. -/
  | nop (q : Nat) (h : Hdr)
  /-- R156: The control instruction waits on a flag reference, with its own timeout. -/
  | wait (q : Nat) (h : Hdr) (tmo : Nat)
  /-- R153: The control instruction applies its signal reference at dispatch. -/
  | sig (q : Nat) (h : Hdr)
  /-- R178: The control instruction clears a flag and, with COPY, copies the flag's COUNT into a counter. -/
  | clr (q : Nat) (h : Hdr)
  /-- R38: The control instruction holds its queue until FT reaches the given value. -/
  | gate (q : Nat) (h : Hdr) (ft : Nat)
  /-- R38: FT reaches a GATE's value, and the queue is released. -/
  | gateExpiry (q : Nat)
  /-- R180: The slot marker blocks its share at the head until its wait is satisfied, then increments the slot's DEP count. -/
  | dep (r : SlotRef)
  /-- R181: The slot marker completes once earlier instructions and in-flight transfers of its slot have drained and its wait is satisfied. -/
  | lbar (r : SlotRef)
  /-- R140: The control instruction holds the queue until every earlier instruction of the queue has completed. -/
  | fence (q : Nat) (h : Hdr)
  /-- R179: The control instruction stops dispatch, and the queue enters HALTED once earlier instructions complete. -/
  | halt (q : Nat) (h : Hdr)
  /-- R149: The control instruction writes a counter, or arms a comparator. -/
  | cset (q : Nat) (h : Hdr) (dst rel value : Nat)
  /-- R148: The control instruction adds a signed value to a counter modulo 2^32. -/
  | cadd (q : Nat) (h : Hdr) (dst addend : Nat)
  /-- R150: The control instruction compares a counter and, if the relation holds, moves the fetch pointer by a signed offset. -/
  | cmpb (q : Nat) (h : Hdr) (ctr rel ctr2 value offset : Nat)
  /-- R179: The control instruction completes once every earlier instruction of its program has completed, and always writes a record. -/
  | end_ (q : Nat) (h : Hdr)
  /-- R154: A flag's controller applies all updates of one 4-cc cycle together, then serves the waiters in order. -/
  | flagUpdateCycle (f : Nat)
  /-- R157: A wait's timeout expires, and a wait not yet served completes with WAIT_TIMEOUT and writes a wait record. -/
  | waitTimeout (q : Nat) (seq : Option Nat)
  /-- R146: An instruction's writes are acknowledged, its signal is applied and its completion record is written, and after an error the queue stops under R147. -/
  | instructionComplete (q seq : Nat)
  /-- R210: Under LATE_ABORT, an instruction without effect by its deadline, or a GATHER, is aborted with DEADLINE_MISS. -/
  | deadlineAbort (q seq : Nat)
  /-- R182: The OPE instruction runs outer-product steps over NKB K-blocks into an accumulator tile. -/
  | opa (r : SlotRef)
  /-- R96: The row-port instruction loads a tile from an image in memory. -/
  | accld (r : SlotRef)
  /-- R92: The row-port instruction zeroes a tile and its merge count. -/
  | accz (r : SlotRef)
  /-- R93: The row-port instruction drains a tile image through the drain buffer to memory or to a VU. -/
  | accdr (r : SlotRef)
  /-- R98: The row-port instruction moves a tile to park places of its quarter. -/
  | accpk (r : SlotRef)
  /-- R98: The row-port instruction brings a parked image back in REPLACE or MERGE mode. -/
  | accup (r : SlotRef)
  /-- R183: The OPE instruction drains a tile that the NMUs merge into, or initialise, an A64 image in HBM. -/
  | gacc (r : SlotRef)
  /-- R84: In each cycle the array either issues one step for every partition or is frozen, and the freeze causes are counted. -/
  | opeIssueCycle (n : Nat) (gated : Bool) (errs : List OpeErr)
  /-- R79: A step reaches stage 23, merges its block sum into the cells, and the tile's in-flight counter falls. -/
  | opeCellWrite (n : Nat) (errs : List OpeErr)
  /-- R91: The row port starts the oldest pending operation whose tile has no steps in flight and whose buffer space is available. -/
  | rowPortOpStart (n : Nat) (errs : List OpeErr)
  /-- R100: On a firmware stop request, a partition finishes its current K-block and reports the K index at which it stopped. -/
  | opeStop (n p : Nat)
  /-- R101: Firmware changes an engine's partition mode once no slot is bound and nothing is held under the old mode. -/
  | partModeChange (n mode gang : Nat) (gside : Bool)
  /-- R258: Firmware releases a fenced partition: it zeroes the tiles, frees lines and drain space, and clears the fault. -/
  | fenceRelease (n p : Nat)
  /-- R110: The MVU instruction multiplies a streamed weight matrix by up to eight resident vectors. -/
  | mvx (r : SlotRef) (groups : Nat) (struck : List Nat)
  /-- R116: On a firmware stop request, the MVU consumes no further weight group and reports where it stopped. -/
  | mvuStop (n : Nat)
  /-- R113: A held write to an MVU vector slot lands once the MVX reading that slot completes. -/
  | vectorSlotWrite (n slot : Nat)
  /-- R119: The VU instruction applies an element-wise function, a LUT, a softmax or a table load. -/
  | vop (r : SlotRef) (struck : List Nat)
  /-- R124: The VU instruction quantises a drain, an MVU result, an image or a block array into a block format. -/
  | qnt (r : SlotRef) (struck : List Nat)
  /-- R120: The VU instruction reduces each row to one value. -/
  | vred (r : SlotRef) (struck : List Nat)
  /-- R124: The VU grants landing space to a waiting OPE drain once scratch is free. -/
  | vuDrainGrant (r : SlotRef)
  /-- R125: A write of VU_SEED_Ss seeds the slot's stochastic-rounding generator from the slot's next QNT. -/
  | vuSeedWrite (n slot seed : Nat)
  /-- R126: A write clears the quantisation counters of the selected VU slots. -/
  | vuCntClr (n mask : Nat)
  /-- R207: The SE instruction arms or re-arms a stream context under a new generation. -/
  | sarm (r : SlotRef)
  /-- R206: The SE instruction cancels every generation of a stream. -/
  | scan (r : SlotRef)
  /-- R186: The SE instruction copies TUs or a vector to memory, an operand buffer or MVU slots. -/
  | tcopy (r : SlotRef)
  /-- R268: The SE instruction copies TUs onto the sediment stack for a micro-batch and layer, spilling if needed. -/
  | push (r : SlotRef)
  /-- R270: The SE instruction returns TUs of a micro-batch's top entry in push order. -/
  | pop (r : SlotRef)
  /-- R223: The SE instruction raises the pin counts of pooled TUs, all or nothing. -/
  | pin (r : SlotRef)
  /-- R223: The SE instruction lowers the pin counts of pooled TUs. -/
  | unpin (r : SlotRef)
  /-- R276: The SE instruction has the NMUs apply an optimiser to parameter blocks. -/
  | upd (r : SlotRef)
  /-- R189: An ARMED stream takes an active place on its SE and reads its descriptor. -/
  | streamActivate (se : Nat)
  /-- R199: Every 4 cc an SE issues one fetch for the chosen stream or slot whose limits are free. -/
  | seFetchIssue (u : Nat) (side : Bool)
  /-- R193: A fetched TU arrives: it lands at its place or is discarded as silt, and entry signals, DONE or CANCELLED follow. -/
  | tuLand (n t : Nat) (struck : List Nat)
  /-- R193: The descriptor write-back of a finished arming is acknowledged, and ENDREF is applied. -/
  | streamWritebackAck (se k : Nat)
  /-- R210: A stream with RT and ABORT set that is not DONE at its DEADLINE is cancelled with DEADLINE_MISS. -/
  | streamDeadline (n : Nat)
  /-- R314: The RCE instruction opens a bucket at this member and sends a GRANT to the predecessor. -/
  | bopen (r : SlotRef)
  /-- R321: The RCE instruction merges the member's own blocks into a bucket. -/
  | bput (r : SlotRef)
  /-- R323: The RCE instruction closes a round and writes the result. -/
  | bclose (r : SlotRef)
  /-- R337: The RCE instruction all-gathers narrow shards and writes them widened into TUs. -/
  | gather (r : SlotRef)
  /-- R334: The RCE instruction moves the context to a new layout epoch and completes once old-epoch work has retired. -/
  | epoch (r : SlotRef)
  /-- R326: FT reaches a bucket's CLOSE under carry or drop, and the round passes at this member. -/
  | roundClose (id epoch : Nat)
  /-- R324: At CLOSE + GRACE, an all-reduce gives up shards whose finals have not all landed. -/
  | finalGraceExpiry (id epoch : Nat)
  /-- R312: The RCE command sets a parallel group on an RCE and a group channel. -/
  | grpSet
  /-- R343: The RCE command clears a group from an RCE. -/
  | grpClr
  /-- R318: A received GRANT permits this member to send its bucket data to its successor. -/
  | grant (p : Packet)
  /-- R322: Received reduction partials or final blocks are merged or landed and then forwarded. -/
  | rdata (p : Packet)
  /-- R325: Received all-gather or broadcast data lands in MAIN and is forwarded. -/
  | mdata (p : Packet)
  /-- R337: A received gather grant permits sending shards of the same SEQ. -/
  | ggrant (p : Packet)
  /-- R337: Received narrow gather data is widened, written as TUs and forwarded. -/
  | gdata (p : Packet)
  /-- R340: A received REVOKE makes this member treat the data it holds for the killed member as late. -/
  | revoke (p : Packet)
  /-- R292: A received read request is served, or answered DENIED. -/
  | rdReq (p : Packet)
  /-- R292: A received write request is written and acknowledged, or denied. -/
  | wrReq (p : Packet)
  /-- R152: A flag set, clear or wait request reaches the flag's controller and is checked against block ownership. -/
  | flagUpd (f ctx op q : Nat)
  /-- R291: Read response data lands at the requester, poisoned if its status is not OK. -/
  | rdRsp (p : Packet)
  /-- R291: A write acknowledgement reaches the requester. -/
  | wrAck (p : Packet)
  /-- R151: A flag notification or completion record arrives on VC2 at a waiting kaolin core or at the hub. -/
  | notify (q : Nat)
  /-- R293: A DROP notice makes the requester complete the named transaction as poisoned, or the RCE lose the blocks. -/
  | drop (p : Packet)
  /-- R291: A management packet on VC0 carries fault records, kill sweeps or recovery traffic to firmware. -/
  | mgmt (p : Packet)
  /-- R291: A CTRL gate notice arrives on VC1 at a quarter. -/
  | gateNotice (p : Packet)
  /-- R411: A CTRL freeze-status notice from a freezing partner arrives on a port. -/
  | freezeStatusNotice (p : Packet)
  /-- R299: A packet for another module is checked, has HOPS decremented, is routed or multicast, and is forwarded by cut-through. -/
  | packetTransit (port id : Nat)
  /-- R294: A port starts a frame, fills its slots by VC priority within credits, and stores it in the replay FIFO. -/
  | frameTransmit (port : Nat) (struck : List Nat)
  /-- R287: After every 1,024 frames the sender sends a marker frame for deskew. -/
  | markerFrame (port : Nat)
  /-- R298: A received DATA frame is checked, accepted in SEQ order or NAKed, and its ACK and FREED counts are applied. -/
  | frameReceived (port : Nat) (f : Frame) (corr uncorr : Nat) (check : FrameCheck)
  /-- R298: ACK has not advanced for 4 µs while frames are outstanding, so the sender rewinds to the FIFO mark. -/
  | replayTimeout (port : Nat)
  /-- R298: After 16 consecutive NAK episodes for one SEQ, RETRY_LIMIT is set and the port resets. -/
  | retryLimit (port : Nat)
  /-- R302: A port finishes training and enters RESYNC. -/
  | trainComplete (port pol fail : Nat) (rev : Bool)
  /-- R302: A lane loses signal, and the port resets to TRAIN, retraining degraded if allowed. -/
  | lossOfSignal (port lane : Nat)
  /-- R304: A received RESYNC frame's handshake block is compared, and state is either kept or treated as lost. -/
  | resync (port : Nat) (f : Frame)
  /-- R351: A surviving port's buffer holds no unit of the partner's old incarnation, so it sends RESYNC_DONE. -/
  | survivorDrained (port : Nat)
  /-- R304: A received RESYNC_DONE, with one also sent, moves the port to ACTIVE. -/
  | resyncDone (port : Nat) (f : Frame)
  /-- R353: A port has stayed out of ACTIVE for LINK_TMO, so its queued packets are dropped and its state is discarded. -/
  | linkTmo (port : Nat)
  /-- R302: Setting FAB_CTL.ENh starts training, and clearing it returns the port to DOWN, dropping queued packets. -/
  | fabCtlEn (port : Nat) (v : Bool)
  /-- R302: Writing FAB_CTL.RESETh returns the port or half-port to TRAIN, keeping its state. -/
  | fabCtlReset (port : Nat)
  /-- R286: A write of FAB_CTL.HALF changes the port mode only while both halves are DOWN. -/
  | fabCtlHalf (p : Nat) (v : Bool)
  /-- R310: A write of the module identifier is taken only while every port is DOWN. -/
  | fabModidWrite (id : Nat)
  /-- R21: A 64-byte unit arrives on a die-to-die link, and its CRC is checked and replay requested on failure. -/
  | d2dUnitReceived (link : Nat) (check : UnitCheck)
  /-- R21: After 16 consecutive failed replays, a die-to-die link is declared failed, a fatal error. -/
  | d2dLinkFailed (link : Nat)
  /-- R219: An access to a non-resident pooled granule starts a fill, joins one, or bypasses the pool. -/
  | poolMiss (ctx va : Nat) (write : Bool)
  /-- R219: A fill from the home completes, and the waiting accesses are served. -/
  | poolFillDone (key : Nat)
  /-- R220: With free TUs below LOW, the evictor frees the oldest candidates until HIGH is reached. -/
  | evictorRun (stack : Nat)
  /-- R221: A dirty TU's write-back is acknowledged, and the TU is freed unless it was written meanwhile. -/
  | writebackAck (key : Nat)
  /-- R221: A refused write-back leaves the TU resident and dirty with an image pin. -/
  | writebackRefused (key : Nat)
  /-- R226: A flash read delivers its TU. -/
  | flashReadDone (tu : Nat) (bad : Bool)
  /-- R226: A flash program completes; for a recovery it updates the map and replaces the pool TU. -/
  | flashWriteDone (tu : Nat)
  /-- R227: When spare blocks no longer suffice for writes, the flash tier turns read-only. -/
  | ftlReadOnly
  /-- R228: The FTL command releases a range of logical TUs and ends any recovery pending on them. -/
  | discard
  /-- R230: The FTL command retries every marked TU against the replica table. -/
  | recover
  /-- R240: A TLB miss walks the context's page table and checks each entry. -/
  | tableWalk (who : Walker) (va : Nat)
  /-- R248: FAULT_TMO of a stalled fault expires, and the fault is aborted. -/
  | faultTimeout (fid : Nat)
  /-- R248: The MMU command retries or aborts a pending fault. -/
  | faultResolve
  /-- R242: An ATS translation completion arrives and fills the translation cache, or refuses the page. -/
  | atsCompletion (ctx addr host : Nat) (write ok : Bool)
  /-- R243: A page request group response arrives and retries the translation or faults with cause 6. -/
  | prgResponse (idx pasid code : Nat)
  /-- R242: A host invalidation request discards cached translations and completes after the accesses using them are acknowledged. -/
  | atsInvalidation (pasid page n : Nat)
  /-- R378: The host clears PRI Enable, and every outstanding page request is treated as refused. -/
  | priDisable
  /-- R260: The MMU command creates a context from an entry. -/
  | ctxCreate
  /-- R260: The MMU command modifies a context entry. -/
  | ctxModify
  /-- R260: The MMU command returns a context entry. -/
  | ctxRead
  /-- R254: The MMU command places a context in KILLING and sweeps its resources until it is KILLED. -/
  | ctxKill
  /-- R257: The MMU command returns a KILLED context to FREE once nothing remains in flight. -/
  | ctxDestroy
  /-- R249: The MMU command stops, parks and saves a context's queues on the named units. -/
  | preempt
  /-- R253: The MMU command returns a SUSPENDED context to ACTIVE and rebinds and restores its queues. -/
  | resume
  /-- R241: The MMU command invalidates translations of a range and completes after the old accesses and epoch references drain. -/
  | tlbInv
  /-- R258: The MMU command drains the tiles of a fenced partition to host memory without changing them. -/
  | fenceDump
  /-- R284: A write of a sediment-stack region field is discarded, with SED_INT.BUSY set, while the context's stack is in use. -/
  | sedConfigWrite (off val : Nat)
  /-- R347: Duplicated FIFO pointers disagree, so the FIFO's contents are discarded and reclaimed through the named path. -/
  | fifoDupMismatch (kind n : Nat)
  /-- R361: Writing GLB_LDG_CTL.SNAP latches every ledger class and instance in one cycle. -/
  | snap
  /-- R361: Writing GLB_LDG_CTL.CHECK takes a snapshot and starts checking every instance. -/
  | check
  /-- R361: A ledger check finishes and reports its first failure. -/
  | ledgerCheckDone
  /-- R381: The CXL link leaves L0: outstanding T2 reads return poison and host writes are discarded. -/
  | hostLinkDown
  /-- R381: The CXL link returns to L0. -/
  | hostLinkUp (rate width : Nat) (flit256 lopt cxl cache mem : Bool)
  /-- R382: Function Level Reset restores configuration space, MSI-X and HIF registers. -/
  | flr
  /-- R388: A CXL Reset resets the whole module. -/
  | cxlReset
  /-- R373: A vector's moderation interval ends, and its pending sets are sent once. -/
  | msixModExpiry (v : Nat)
  /-- R374: The host commits the HDM decoder, and firmware builds the window from free direct-region frames. -/
  | hdmCommit (frames : List Nat)
  /-- R375: A host CXL.mem read of a window line is served and entered in the snoop filter. -/
  | hostMemRead (off : Nat) (cached excl : Bool)
  /-- R375: A host CXL.mem write to a window line is applied. -/
  | hostMemWrite (off : Nat) (data : List Byte) (poison : Bool)
  /-- R375: The host's back-invalidate response arrives, and the waiting unit access proceeds. -/
  | birsp (line : Nat) (keep : Bool)
  /-- R376: A host snoop on CXL.cache is answered RspIHitI. -/
  | hostSnoop
  /-- R380: A received flit fails IDE integrity and is discarded. -/
  | ideIntegrityFailure
  /-- R380: IDE keys are programmed or refreshed over Secured CMA-SPDM. -/
  | ideKm
  /-- R379: A DOE object arrives and is passed to its protocol, or discarded if too long. -/
  | doeObject (proto type len : Nat) (payload : List Byte)
  /-- R368: The mailbox command returns the device's identity. -/
  | identify
  /-- R368: The mailbox command lists the supported logs. -/
  | getSupportedLogs
  /-- R368: The mailbox command returns a log. -/
  | mailboxGetLog
  /-- R368: The mailbox command returns firmware information. -/
  | getFwInfo
  /-- R393: The mailbox command stages a piece of a new firmware image. -/
  | transferFw (off : Nat) (data : List Byte)
  /-- R392: The mailbox command verifies the staged image and writes it to the boot area, for the next reset. -/
  | activateFw
  /-- R368: The mailbox command returns health information. -/
  | getHealthInfo
  /-- R368: The mailbox command returns the timestamp. -/
  | getTimestamp
  /-- R398: The attestation request returns the identity key, the serial number and the endorsement. -/
  | getIdentity (path : Nat)
  /-- R399: The attestation request returns the selected measurements signed with the next identity index. -/
  | quote (path : Nat) (payload : List Byte)
  /-- R397: The attestation request returns signed measurement-log events. -/
  | getLog (path : Nat) (payload : List Byte)
  /-- R400: A CMA-SPDM request is signed with the identity key, taking an index. -/
  | cmaSpdmRequest (payload : List Byte)
  /-- R401: The SEC command returns the identity response in SEC_DATA. -/
  | secGetIdentity
  /-- R401: The SEC command returns a quote in SEC_DATA. -/
  | secQuote
  /-- R401: The SEC command returns measurement-log events. -/
  | secGetLog
  /-- R394: The SEC command extends M4–M7 with a digest and logs the event. -/
  | extend
  /-- R401: The SEC command with its key value resets the module. -/
  | secReset
  /-- R395: When 64 indices of the block remain, bedrock writes the next index block to the index record. -/
  | indexReserve
  /-- R396: The index-record write is acknowledged, and requests waiting on it are signed. -/
  | indexRecordWritten
  /-- R394: A change of security state extends M3, or closes it when the log is nearly full. -/
  | securityStateChange (io cm : Bool)
  /-- R394: Setting RAS_CTL.RO_EN enables read-out and extends M3. -/
  | roEn
  /-- R393: A PLDM firmware update stages, verifies and writes a new image while the running firmware continues. -/
  | pldmFirmwareUpdate (op off : Nat) (data : List Byte)
  /-- R393: A PLDM ActivateFirmware asking for self-contained activation is refused. -/
  | activateFirmware (selfContained : Bool)
  /-- R437: An MCTP control message is answered by the management endpoint. -/
  | mctpControl (eid : Nat)
  /-- R438: A PLDM platform request reads a sensor or the state sensor. -/
  | pldmSensorRead (id : Nat)
  /-- R438: A PLDM request sets the out-of-band cap effecter. -/
  | pldmSetEffecter (w : Nat)
  /-- R384: SB_PWR_EN held asserted for 10 ms starts the rail sequence, if HOST_PERST_N is deasserted. -/
  | sbPwrEnAssert (early : Bool)
  /-- R448: SB_PWR_EN low for 100 µs takes every rail down in reverse order. -/
  | sbPwrEnDeassert
  /-- R388: HOST_PERST_N low for 10 µs resets the module and holds it in reset. -/
  | hostPerstNAssert
  /-- R384: Release of HOST_PERST_N starts start-up if SB_PWR_EN is asserted. -/
  | hostPerstNDeassert
  /-- R429: A rail fails to reach regulation in its window, and start-up stops with SB_FAULT_N asserted. -/
  | railFault (vmarl : Bool)
  /-- R385: Bedrock finishes its ROM self-test and fuse load and enables the sideband outputs. -/
  | romStageEnd
  /-- R390: Bedrock verifies the firmware image and releases stage 1, or fails or enters recovery. -/
  | imageVerified
  /-- R23: The die-to-die links finish training, and bedrock measures and releases stage 2. -/
  | d2dTrained
  /-- R384: Stage 2 finishes: bedrock locks RWL fields, steps FT, blows SVN fuses and sets GLB_BOOT.READY. -/
  | ready (frames : List (Nat × Nat × Nat)) (wm : List (Nat × Nat)) (cqt ctxt stall : Nat)
  /-- R387: A start-up stage fails, so the failure is recorded, SB_FAULT_N asserted, and recovery or FAILED entered. -/
  | startupFailure (code link : Nat)
  /-- R430: Input below 40 V for 1 ms sets PWR_INT.VIN_LOW. -/
  | vinLow
  /-- R430: Input below 36 V or above 63 V takes every rail down as a loss of power. -/
  | vinOutOfRange (gone : Bool)
  /-- R430: Once the input has stayed in range for 100 ms while SB_PWR_EN is asserted, the module restarts with cause 0x07. -/
  | inputRestart
  /-- R432: Every 10 µs input power is measured and the issue duty adjusted against the effective cap. -/
  | paceStep (p : Nat)
  /-- R432: Duty has stood at 1 with power above the cap for 10 ms, so SB_ALERT_N is asserted. -/
  | dutyFloorTimeout
  /-- R433: An armed pacing entry's FT value is reached; its cap becomes the pacing cap and it disarms. -/
  | paceEntryTrigger (n : Nat)
  /-- R434: Every 1 ms the sensors and telemetry are read, and level changes act. -/
  | thermalSample (temps : List Int) (vin watts : Nat) (rails : List Nat)
  /-- R435: Every 10 ms while THROTTLE holds, the thermal cap falls by 2 %. -/
  | thermalCapStep
  /-- R435: After a trip, once every sensor has cleared THROTTLE, the module restarts. -/
  | tripRestart
  /-- R435: The external comparator at a HARD level takes every rail down and holds SB_THERMTRIP_N. -/
  | hardThermal
  /-- R406: The controller scrubs lines, writing back corrected ones and marking uncorrectable ones. -/
  | hbmScrub (a : Nat) (corrected : Bool) (check : LineCheck)
  /-- R410: A module-fatal error latches RAS_FATAL, stops dispatch and new requests, and asserts SB_FAULT_N. -/
  | moduleFatalError (src die unit : Nat)
  /-- R410: RAS_CTL.HOLD after a fatal error expires, and the module resets with cause 0x04, or freezes instead. -/
  | fatalHoldExpiry
  /-- R411: A taken falling edge of SB_FREEZE_N stops every clock at the same cycle and puts the stacks in self-refresh. -/
  | freezeRequest
  /-- R411: Writing RAS_CTL.SWFREEZE freezes the module. -/
  | swfreeze
  /-- R416: The first read of GLB_FRZ after ready returns the previous life's ending and clears it. -/
  | glbFrzRead
  /-- R413: The TAP instruction selects boundary scan for external test. -/
  | extest (val : Nat)
  /-- R413: The TAP instruction samples or preloads the boundary scan. -/
  | samplePreload (val : Nat)
  /-- R413: The TAP instruction shifts out the 32-bit identification code. -/
  | idcode
  /-- R413: The TAP instruction shifts out the freeze status, the FT at the stop and the fatal source. -/
  | frzStat
  /-- R414: The TAP instruction selects a chain or array item for read-out. -/
  | frzSel (val : Nat)
  /-- R413: The TAP instruction shifts out the selected item, if the module is frozen and read-out is enabled. -/
  | frzRead (n : Nat)
  /-- R413: The TAP instruction selects the 1-bit bypass register. -/
  | bypass
  /-- R421: FT reaches a whole multiple of the dump interval, and a gather starts or the instant is counted as missed. -/
  | dumpInstant
  /-- R421: Writing PMC_CTL.GATHER starts a demand gather. -/
  | pmcGather
  /-- R422: A gather finishes, and its dump record is written to the dump ring. -/
  | pmcGatherDone
  /-- R420: A read of PMC_CVIEW latches the chained value of the selected counter. -/
  | pmcCviewRead
  /-- R425: A kaolin core's sampling countdown reaches 0, and it reloads and tags the instruction it is dispatching. -/
  | sampleCountdown (q : Nat)
  /-- R35: SB_TIMEREF becomes present and within ±100 ppm, so REF_OK is set and a module whose SRC allows the reference may begin ACQUIRING. -/
  | timerefPresent
  /-- R376: The host answers a CXL.cache RdCurr with data or completes a WOWrInv/WOWrInvF, so T2 reads land, host replica reads arrive and record writes are acknowledged for their interrupts. -/
  | cxlCacheCompletion (n : Nat)
  /-- R243: No PRG response arrives within FAULT_TMO after firmware sent a page request group, and the fault is raised with cause 6. -/
  | priTimeout (idx : Nat)
  /-- R373: The host unmasks an MSI-X vector or clears the function mask, and a vector whose pending bit is set in the PBA is sent. -/
  | msixUnmask (masked : List Nat) (fmask : Bool)
  /-- R384: Firmware stage 1 finishes training the HBM stacks, and die-to-die link training begins. -/
  | hbmTrained
  /-- R448: SB_PWR_EN asserted less than 1 s after a deassertion takes effect when that 1 s has passed, and the rail sequence begins. -/
  | pwrEnDeferredStart
  deriving DecidableEq, Repr

end Sys2Proof
end

