-- ==== Sys2Proof/Config.lean ====
section
/-! DEFINITION. What an implementation fixes and the spec leaves open: opaque constants without a value. -/
namespace Sys2Proof.Config

/-- The fixed routing hash of SRC, DEST and VC (12_mladben R299): the spec gives no formula. Log 11. -/
opaque routeHash : Nat → Nat → Nat → Nat

/-- Free values: what a half-slot that no tile holds contains, by number of the free value and cell (log 6). 60 bits: word, status. -/
opaque staleCell : Nat → Nat → Nat

/-- Free values of one number each, by number of the free value (log 6). -/
opaque freeNat : Nat → Nat

/-- Free values: does the flit that fails IDE integrity hold the answer of the fetch at a place of an SE's tracker? By number of the free value,
SE and place (R380, log 6). -/
opaque flitHeld : Nat → Nat → Nat → Bool

/-- Wear of the flash, by the bytes programmed: average erase cycles consumed and spare blocks remaining, as percentages, bytes rewritten for read
disturb and retention, and blocks retired (R227, R233). They are the translation layer's own. Log 83. -/
opaque flashUsed : Nat → Nat
opaque flashSpare : Nat → Nat
opaque flashRefresh : Nat → Nat
opaque flashRetired : Nat → Nat

/-- The ROM tables of the vector unit: 1 EXP2F, 2 RECIP, 3 RSQRT, 1,040 bytes each (05_vu R121). Log 7. -/
opaque romTable : Nat → List Byte

/-- Free values: how far a quarter's copy of FT lies from the timekeeper's count, in 2^-16 ns and before the bound of R27 is applied, by 4 x number of
the correction + quarter (02_fabric_time R27). Log 71. -/
opaque copySkew : Nat → Int

/-- Free values: the inverse square root of a negative number m x 2^e in UPD, as mantissa and exponent (11_training R278). Log 6. -/
opaque rsqrtNeg : Int → Int → Int × Int

/-! Cryptography (16_bedrock R390, R394, R395, R399), log 8: the spec names the algorithms; here each is a function of its inputs. -/

/-- SHAKE256 with 64 bytes of output (R394). -/
opaque shake256 : List Byte → List Byte

/-- Digest of the key store for a key slot (R390). -/
opaque keyDigest : Nat → List Byte

/-- XMSS verification of a message under a public key (R390): key, message, signature. -/
opaque xmssVerify : List Byte → List Byte → List Byte → Bool

/-- XMSS^MT signature of the identity key with an index over a message (R395, R399): serial, index, message. -/
opaque identitySign : Nat → Nat → List Byte → List Byte

/-- Identity public key and endorsement of the module with a serial number (R398). -/
opaque identityKey : Nat → List Byte
opaque endorsement : Nat → List Byte

/-- Data measured into M0: ROM version, grade, fused SVN and key revocations (R394); the spec gives no encoding. -/
opaque romData : Nat → Nat → Bool → Bool → List Byte

/-- Data measured into M3: IDE on CXL.io, IDE on CXL.cache and CXL.mem, read-out enabled (R394); the spec gives no encoding. -/
opaque secState : Bool → Bool → Bool → List Byte

/-- Units beyond a largest packet that the far end of a die-to-die link holds for a VC, by 16 x link + VC: the limits are set at training and are not
visible (12_mladben R308; log 65). -/
opaque d2dRoom : Nat → Nat

/-- Free values: payloads that the spec does not lay out, by number of the free value (log 6). -/
opaque freeBytes : Nat → List Byte

/-- Silicon revision in IDCODE (17_errors R413); the spec gives none. -/
opaque revision : Nat

/-- Free values: 72-bit words of a frozen module's items as stored, by the life's number, the selection and the word (17_errors R413, R414; log 6):
the spec gives neither the code of the check bits nor the order of a chain. -/
opaque frozenWord : Nat → Nat → Nat → Nat

/-- Free values: pins as the boundary-scan register captures them, by number of the free value (R413; log 6). -/
opaque boundary : Nat → Nat

end Sys2Proof.Config
end

