-- ==== Sys2Proof/Machine/Bits.lean ====
section
/-! DEFINITION. Bit fields, sign extension and byte order (00_scope R6). -/
namespace Sys2Proof.Machine

/-- Bits [lo + w - 1 : lo] of x. -/
def bits (x lo w : Nat) : Nat := (x / 2 ^ lo) % 2 ^ w

/-- Bit i of x. -/
def bit (x i : Nat) : Bool := x.testBit i

/-- 1 for true. -/
def b2n (b : Bool) : Nat := if b then 1 else 0

/-- x placed with its bit 0 at lo, cut to w bits. -/
def put (lo w x : Nat) : Nat := (x % 2 ^ w) * 2 ^ lo

/-- The w-bit word x read as a signed number. -/
def sext (w x : Nat) : Int :=
  let y := x % 2 ^ w
  if y < 2 ^ (w - 1) then (y : Int) else (y : Int) - (2 ^ w : Nat)

/-- A signed number as a w-bit word. -/
def toWord (w : Nat) (x : Int) : Nat := (x % (2 ^ w : Nat)).toNat

/-- The n bytes of x, least significant first (R6). -/
def leBytes : Nat → Nat → List Byte
  | 0, _ => []
  | n + 1, x => BitVec.ofNat 8 x :: leBytes n (x / 256)

/-- The number that a little-endian byte list spells (R6). -/
def leNat : List Byte → Nat
  | [] => 0
  | b :: bs => b.toNat + 256 * leNat bs

/-- Number of bits of x: 0 for 0 (09_memory R220). -/
def bitLen (x : Nat) : Nat := if x = 0 then 0 else Nat.log2 x + 1

/-- x rounded up to a multiple of m, in multiples. -/
def ceilDiv (x m : Nat) : Nat := (x + m - 1) / m

/-- Indices below n, in order. -/
def upTo (n : Nat) : List Nat := List.range n

/-- Indices of the set bits of x below n. -/
def setBits (n x : Nat) : List Nat := (List.range n).filter (fun i => x.testBit i)

/-- Saturating at m. -/
def sat (m x : Nat) : Nat := min m x

/-- Signed clamp. -/
def clampInt (lo hi x : Int) : Int := max lo (min hi x)

/-- Sum of a list. -/
def sumNat : List Nat → Nat
  | [] => 0
  | x :: xs => x + sumNat xs

/-- Floor of x / 2^k for a signed x. -/
def sdiv2 (x : Int) (k : Nat) : Int := x / (2 ^ k : Nat)

/-! The generator of R125 -/

/-- One step of the generator. -/
def rngNext (s : Nat) : Nat :=
  let s := s ^^^ (s * 2 ^ 13 % 2 ^ 64)
  let s := s ^^^ (s / 2 ^ 7)
  s ^^^ (s * 2 ^ 17 % 2 ^ 64)

/-- A seed of 0 is replaced (R125). -/
def rngSeed (s : Nat) : Nat := if s = 0 then 0x9E3779B97F4A7C15 else s

/-- n draws from a state, with the state after them. -/
def rngDraws : Nat → Nat → List Nat × Nat
  | s, 0 => ([], s)
  | s, n + 1 =>
    let t := rngNext s
    let r := rngDraws t n
    (bits t 48 16 :: r.1, r.2)

end Sys2Proof.Machine
end

