-- ==== Sys2Proof/Machine/Maps.lean ====
section
/-! DEFINITION. Finite maps by number as sorted lists: plain data, one form for each map. -/
namespace Sys2Proof.Machine

/-- A map from numbers, keys rising. -/
abbrev Map (α : Type) := List (Nat × α)

/-- The entry of key k. -/
def mget {α : Type} : Map α → Nat → Option α
  | [], _ => none
  | (j, a) :: m, k => if j = k then some a else mget m k

/-- The entry of key k, or d where there is none. -/
def mgetD {α : Type} (m : Map α) (k : Nat) (d : α) : α := (mget m k).getD d

/-- m with k mapped to a. -/
def mput {α : Type} : Map α → Nat → α → Map α
  | [], k, a => [(k, a)]
  | (j, b) :: m, k, a =>
    if k < j then (k, a) :: (j, b) :: m
    else if k = j then (k, a) :: m
    else (j, b) :: mput m k a

/-- m without key k. -/
def mdel {α : Type} (m : Map α) (k : Nat) : Map α := m.filter (fun e => e.1 != k)

/-- Does m have key k? -/
def mhas {α : Type} (m : Map α) (k : Nat) : Bool := (mget m k).isSome

/-- Change the entry of k, absent reading as d. -/
def mupd {α : Type} (m : Map α) (k : Nat) (d : α) (f : α → α) : Map α := mput m k (f (mgetD m k d))

/-- Change the entry of k where there is one. -/
def madj {α : Type} (m : Map α) (k : Nat) (f : α → α) : Map α :=
  m.map (fun e => if e.1 = k then (e.1, f e.2) else e)

/-- The entries of m. -/
def mvals {α : Type} (m : Map α) : List α := m.map (·.2)

/-- Keys for which p holds. -/
def mkeys {α : Type} (m : Map α) (p : α → Bool) : List Nat := (m.filter (fun e => p e.2)).map (·.1)

/-- Entries that p keeps. -/
def mfilter {α : Type} (m : Map α) (p : Nat → α → Bool) : Map α := m.filter (fun e => p e.1 e.2)

/-- How many entries p holds of. -/
def mcount {α : Type} (m : Map α) (p : α → Bool) : Nat := (m.filter (fun e => p e.2)).length

/-- Put x into a sorted list without repeats. -/
def sins : Nat → List Nat → List Nat
  | x, [] => [x]
  | x, y :: ys => if x < y then x :: y :: ys else if x = y then y :: ys else y :: sins x ys

/-- Take x out of a list. -/
def sdel (x : Nat) (l : List Nat) : List Nat := l.filter (fun y => y != x)

/-- Is x in the list? -/
def smem (x : Nat) (l : List Nat) : Bool := l.contains x

/-- The first number below n not in the list, from 0. -/
def firstFree (n : Nat) (used : List Nat) : Option Nat := (List.range n).find? (fun i => !(used.contains i))

end Sys2Proof.Machine
end

