-- ==== Sys2Proof/Machine/Mem.lean ====
section
/-! DEFINITION. Byte memory as a list of (address, byte) pairs in one canonical form: addresses strictly rising, and no
entry 0, which is what an unlisted address reads as (assumption log 3). -/
namespace Sys2Proof.Machine

/-- Byte memory. -/
abbrev Mem := List Host.Cell

/-- What an address without an entry reads as. DESIGN CHOICE, log 3. -/
def memDefault : Byte := 0

/-- The byte at address a. -/
def memRead : Mem → Nat → Byte
  | [], _ => memDefault
  | (b, x) :: m, a => if b = a then x else memRead m a

/-- m without an entry for a. -/
def memErase : Mem → Nat → Mem
  | [], _ => []
  | (b, x) :: m, a => if b = a then m else (b, x) :: memErase m a

/-- m with an entry (a, x) at its place. -/
def memInsert : Mem → Nat → Byte → Mem
  | [], a, x => [(a, x)]
  | (b, y) :: m, a, x =>
    if a < b then (a, x) :: (b, y) :: m
    else if a = b then (a, x) :: m
    else (b, y) :: memInsert m a x

/-- m with byte x at address a. -/
def memWrite (m : Mem) (a : Nat) (x : Byte) : Mem :=
  if x = memDefault then memErase m a else memInsert m a x

/-- n bytes from address a. -/
def memReads (m : Mem) (a : Nat) : Nat → List Byte
  | 0 => []
  | n + 1 => memRead m a :: memReads m (a + 1) n

/-- m with the bytes bs from address a. -/
def memWrites (m : Mem) (a : Nat) : List Byte → Mem
  | [] => m
  | x :: bs => memWrites (memWrite m a x) (a + 1) bs

/-- The canonical form holds: addresses strictly rising, no entry 0. -/
def memWf : Mem → Bool
  | [] => true
  | [(_, x)] => x != memDefault
  | (a, x) :: (b, y) :: m => x != memDefault && (a < b) && memWf ((b, y) :: m)

/-- The n-byte little-endian number at address a. -/
def memNat (m : Mem) (a n : Nat) : Nat := leNat (memReads m a n)

/-- m with the n-byte little-endian number x at address a. -/
def memPutNat (m : Mem) (a n x : Nat) : Mem := memWrites m a (leBytes n x)

end Sys2Proof.Machine
end

