-- ==== Sys2Proof/Machine/Formats.lean ====
section
/-! DEFINITION. Integer formats, exact block sums, accumulator merges, images and quantisation (03_integer_formats, 04_ope R95-R97). -/
namespace Sys2Proof.Machine

/-! Exact values and rounding (R41, R42, R74) -/

/-- The exact value m x 2^e. -/
structure Dy where
  m : Int := 0
  e : Int := 0
  deriving DecidableEq, Repr

/-- 2^k for k that is not negative, as an integer; 1 otherwise. -/
def pow2 (k : Int) : Int := (2 : Int) ^ k.toNat

/-- n / 2^k rounded half to even. -/
def rneShift (n : Int) (k : Nat) : Int :=
  let d : Int := (2 : Int) ^ k
  let q := n / d
  let r := n % d
  if 2 * r > d ∨ (2 * r = d ∧ q % 2 = 1) then q + 1 else q

/-- m x 2^e in units of 2^x, rounded half to even: rne(v / 2^x). -/
def Dy.rne (v : Dy) (x : Int) : Int :=
  if v.e ≥ x then v.m * pow2 (v.e - x) else rneShift v.m (x - v.e).toNat

/-- Exact sum. -/
def Dy.add (a b : Dy) : Dy :=
  let e := min a.e b.e
  { m := a.m * pow2 (a.e - e) + b.m * pow2 (b.e - e), e := e }

/-- a ≤ b as exact values. -/
def Dy.le (a b : Dy) : Bool :=
  let e := min a.e b.e
  decide (a.m * pow2 (a.e - e) ≤ b.m * pow2 (b.e - e))

/-! Block formats (R43-R47). Codes: 0 BSI8, 1 BSI4, 2 BSI4X, 3 BSI2, 4 GSI3, 5 BSI16, 6 RSI16, 8 A64, 9 A32 -/

/-- Element width. -/
def elemBits (code : Nat) : Nat :=
  match code with
  | 0 => 8 | 1 => 4 | 2 => 4 | 3 => 2 | 4 => 3 | 5 => 16 | 6 => 16 | _ => 0

/-- Bytes of one block's element field (R44, R46). -/
def elemBytes (code : Nat) : Nat := if code = 4 then 16 else 4 * elemBits code

/-- A block read: its exponent, each element as a mantissa in units of 2^(e - sh), whether it came from an escape slot, and marks. -/
structure Blk where
  e : Int := 0
  /-- 3 for GSI3, where mantissas are held at e - 3 (R52); 0 otherwise. -/
  sh : Nat := 0
  ms : List Int := []
  esc : List Bool := []
  poison : Bool := false
  raised : Bool := false
  deriving DecidableEq, Repr

/-- Signed element i of a packed field (R44). -/
def packed (code : Nat) (f : Nat) (i : Nat) : Int := sext (elemBits code) (bits f (elemBits code * i) (elemBits code))

/-- A GSI3 block from its 128-bit field (R43, R46, R52). -/
def gsi3Blk (f : Nat) : Blk :=
  { e := sext 10 (bits f 112 10), sh := 3, poison := f.testBit 122, raised := f.testBit 123
    ms := (List.range 32).map (fun i => packed 4 (bits f 0 96) i * pow2 (3 - (bits f (96 + 2 * (i / 4)) 2 : Int)))
    esc := [] }

/-- Value of an escape slot for element i, slot 0 first (R45). -/
def escapeAt (w i : Nat) : Option Int :=
  if w.testBit 13 && decide (bits w 8 5 = i) then some (sext 8 (bits w 0 8))
  else if w.testBit 29 && decide (bits w 24 5 = i) then some (sext 8 (bits w 16 8))
  else none

/-- A block of an E8 format from its element field, scale byte and escape word (R43-R45). -/
def bsiBlk (code f scale escw : Nat) : Blk :=
  { e := sext 8 scale, sh := 0
    ms := (List.range 32).map (fun i => if code = 2 then (escapeAt escw i).getD (packed 2 f i) else packed code f i)
    esc := if code = 2 then (List.range 32).map (fun i => (escapeAt escw i).isSome) else [] }

/-- An RSI16 block from its element field and header (R47). -/
def rsiBlk (f h : Nat) : Blk :=
  { e := sext 10 (bits h 0 10), ms := (List.range 32).map (packed 6 f), poison := h.testBit 11, raised := h.testBit 10 }

/-- Exact value of element i of a block. -/
def Blk.val (b : Blk) (i : Nat) : Dy := { m := b.ms.getD i 0, e := b.e - b.sh }

/-- The 32 exact values of a block. -/
def Blk.vals (b : Blk) : List Dy := (List.range 32).map b.val

/-- Bytes of the scale plane per block (R172). -/
def scaleBytes (code : Nat) : Nat := if code = 4 then 0 else if code = 6 then 2 else 1

/-- Bytes rounded up to whole 64-byte lines. -/
def pad64 (n : Nat) : Nat := ceilDiv n 64 * 64

/-- Bytes of a block array of n elements (R172). -/
def arrayBytes (code n : Nat) : Nat :=
  let b := n / 32
  if code = 4 then 16 * b
  else pad64 (elemBytes code * b) + pad64 (scaleBytes code * b) + (if code = 2 then pad64 (4 * b) else 0)

/-- Bytes of a vector of n elements in an MVU slot: the order of R172 without padding. -/
def vectorBytes (code n : Nat) : Nat :=
  let b := n / 32
  if code = 4 then 16 * b else elemBytes code * b + scaleBytes code * b + (if code = 2 then 4 * b else 0)

/-- Block k of planes at byte offsets: elements, scales and escapes. -/
def blkAt (code : Nat) (m : List Byte) (eoff soff xoff k : Nat) : Blk :=
  let rd (off n : Nat) : Nat := leNat ((m.drop off).take n)
  match code with
  | 4 => gsi3Blk (rd (eoff + 16 * k) 16)
  | 6 => rsiBlk (rd (eoff + 64 * k) 64) (rd (soff + 2 * k) 2)
  | _ => bsiBlk code (rd (eoff + elemBytes code * k) (elemBytes code)) (rd (soff + k) 1) (rd (xoff + 4 * k) 4)

/-- Block k of a block array of n elements (R172). -/
def arrayBlk (code n : Nat) (m : List Byte) (k : Nat) : Blk :=
  let b := n / 32
  let s := pad64 (elemBytes code * b)
  blkAt code m 0 s (s + pad64 (scaleBytes code * b)) k

/-- Block k of a vector in an MVU slot. -/
def vectorBlk (code n : Nat) (m : List Byte) (k : Nat) : Blk :=
  let b := n / 32
  let s := elemBytes code * b
  blkAt code m 0 s (s + scaleBytes code * b) k

/-! Tiles (R49, R50) -/

/-- Lines of operand buffer that a tile of a format takes (R81). -/
def tileLines (code : Nat) : Nat :=
  match code with
  | 3 => 9 | 4 => 16 | 1 => 17 | 2 => 21 | 0 => 33 | _ => 0

/-- Block n of a tile whose TUs are given, BSI8 as two TUs, under R49 and R50. For BSI8 the line picks the TU. -/
def tileBlk (code : Nat) (tus : List (List Byte)) (line g : Nat) : Blk :=
  let n := 4 * line + g
  match code with
  | 0 =>
    let m := tus.getD (line / 64) []
    let l := line % 64
    bsiBlk 0 (leNat ((m.drop (0x1000 + 128 * l + 32 * g)).take 32)) (leNat ((m.drop (0x40 + 4 * l + g)).take 1)) 0
  | _ => blkAt code (tus.getD 0 []) 0x1000 0x40 0x240 n

/-- Header fields of a TU (R217). -/
def tuFmt (tu : List Byte) : Nat := (tu.getD 0 0).toNat
def tuPoison (tu : List Byte) : Bool := (tu.getD 1 0).toNat.testBit 0

/-! Block sums (R52, R53) -/

/-- The exact sum of a block pair, with the two exponents it is placed and policed by, and its marks. -/
structure BlkSum where
  s : Int := 0
  /-- Exponent at which s is held. -/
  es : Int := 0
  /-- Exponent for the cell's exponent policy. -/
  e : Int := 0
  poison : Bool := false
  esc : Bool := false
  deriving DecidableEq, Repr

/-- Sum of products of two lists. -/
def dot : List Int → List Int → Int
  | a :: as, b :: bs => a * b + dot as bs
  | _, _ => 0

/-- The block sum of two operand blocks (R52, R53). -/
def blockSum (a b : Blk) : BlkSum :=
  let e := a.e + b.e
  let es := e - a.sh - b.sh
  if a.poison || b.poison then { es := es, e := e, poison := true }
  else { s := dot a.ms b.ms, es := es, e := e, esc := a.esc.any id || b.esc.any id }

/-! A64 cells (R55-R58) -/

/-- An A64 cell: M, X and its status nibble: bit 0 BOUND_LOST, 1 SAT, 2 POISON, 3 ESC. -/
structure Cell where
  m : Int := 0
  x : Int := -128
  st : Nat := 0
  deriving DecidableEq, Repr

/-- The smallest r ≥ 1, among n tries from r0, for which f r holds; r0 + n when none does. -/
def leastFrom (f : Nat → Bool) : Nat → Nat → Nat
  | 0, r => r
  | n + 1, r => if f r then r else leastFrom f n (r + 1)

/-- An exact sum v merged into a cell at a floor exponent x; the flag says that it renormalised (R56). -/
def Cell.place (c : Cell) (v : Dy) (x : Int) : Cell × Bool :=
  let fits (m : Int) : Bool := decide (-(2 ^ 55) ≤ m) && decide (m ≤ 2 ^ 55 - 1)
  let m := v.rne x
  let wide := !fits m
  let x' := if wide then x + (leastFrom (fun r => fits (v.rne (x + r))) 1100 1 : Nat) else x
  let c' := { c with st := if wide then c.st ||| 1 else c.st }
  if x' > 127 then ({ m := if v.m > 0 then 2 ^ 55 - 1 else -(2 ^ 55), x := 127, st := c'.st ||| 3 }, true)
  else ({ c' with m := v.rne x', x := x' }, wide)

/-- merge_block of R56 with ESC and POISON of R53; a saturated cell merges no product and so takes no ESC; the flag counts a renormalisation or saturation. -/
def Cell.mergeBlock (c : Cell) (b : BlkSum) : Cell × Bool :=
  let c := { c with st := c.st ||| (if b.poison then 4 else 0) ||| (if b.esc && !c.st.testBit 1 then 8 else 0) }
  if c.st.testBit 1 || decide (b.s = 0) then (c, false)
  else c.place (Dy.add ⟨c.m, c.x⟩ ⟨b.s, b.es⟩) (max c.x (b.e - 24))

/-- A cell merge: another cell added, status ORed (R58). -/
def Cell.mergeCell (c d : Cell) : Cell × Bool :=
  let c' := { c with st := c.st ||| d.st }
  if c.st.testBit 1 || decide (d.m = 0) then (c', false)
  else c'.place (Dy.add ⟨c.m, c.x⟩ ⟨d.m, d.x⟩) (max c.x d.x)

/-- Word of R55. -/
def Cell.word (c : Cell) : Nat := toWord 8 c.x + toWord 56 c.m * 256

/-- Cell of a word and status nibble. -/
def Cell.ofWord (w st : Nat) : Cell := { m := sext 56 (w / 256), x := sext 8 w, st := st % 16 }

/-! A32 rows (R64, R65) -/

/-- A tile row: mantissas, shared exponent, status nibble. -/
structure Row where
  ms : List Int := []
  x : Int := -128
  st : Nat := 0
  deriving DecidableEq, Repr

/-- merge_row of R65 on exact addends at a floor exponent from the non-zero ones. -/
def Row.place (w : Row) (vs : List Dy) (x : Int) : Row × Bool :=
  let fits (m : Int) : Bool := decide (-(2 ^ 31) ≤ m) && decide (m ≤ 2 ^ 31 - 1)
  let ok (y : Int) : Bool := vs.all (fun v => fits (v.rne y))
  let wide := !ok x
  let x' := if wide then x + (leastFrom (fun r => ok (x + r)) 1100 1 : Nat) else x
  let st := if wide then w.st ||| 1 else w.st
  if x' > 127 then
    ({ ms := vs.map (fun v => clampInt (-(2 ^ 31)) (2 ^ 31 - 1) (v.rne 127)), x := 127, st := st ||| 3 }, true)
  else ({ ms := vs.map (fun v => v.rne x'), x := x', st := st }, wide)

/-- merge_row of R65 for one step's block sums, with the marks of R53 on the row. -/
def Row.mergeBlocks (w : Row) (bs : List BlkSum) : Row × Bool :=
  let w := { w with st := w.st ||| (if bs.any (·.poison) then 4 else 0) ||| (if bs.any (·.esc) && !w.st.testBit 1 then 8 else 0) }
  let nz := bs.filter (fun b => b.s ≠ 0)
  match nz with
  | [] => (w, false)
  | b :: rest =>
    if w.st.testBit 1 then (w, false)
    else
      let emax := rest.foldl (fun m c => max m c.e) b.e
      w.place ((List.range bs.length).map (fun j =>
        Dy.add ⟨w.ms.getD j 0, w.x⟩ ⟨(bs.getD j {}).s, (bs.getD j {}).es⟩)) (max w.x (emax - 12))

/-- A row merge: another row added, status ORed (R58). -/
def Row.mergeRow (w v : Row) : Row × Bool :=
  let w' := { w with st := w.st ||| v.st }
  if w.st.testBit 1 || v.ms.all (fun m => m = 0) then (w', false)
  else
    w'.place ((List.range (max w.ms.length v.ms.length)).map (fun j => Dy.add ⟨w.ms.getD j 0, w.x⟩ ⟨v.ms.getD j 0, v.x⟩)) (max w.x v.x)

/-! Accumulator tiles and images (R64, R87, R95-R97). Shapes: 0 128x128, 1 64x128, 2 128x64, 3 64x64, 4 256x64, 5 64x256 -/

/-- Result rows and columns of a shape. -/
def shapeDims (sh : Nat) : Nat × Nat :=
  match sh with
  | 0 => (128, 128) | 1 => (64, 128) | 2 => (128, 64) | 3 => (64, 64) | 4 => (256, 64) | 5 => (64, 256) | _ => (0, 0)

/-- Cells of a shape. -/
def shapeCells (sh : Nat) : Nat := (shapeDims sh).1 * (shapeDims sh).2

/-- Cells of a tile row in A32 (R64, R89). -/
def rowLen (sh : Nat) : Nat := if sh = 0 ∨ sh = 1 then 128 else 64

/-- Tile rows in A32 (R64). -/
def tileRows (sh : Nat) : Nat := shapeCells sh / rowLen sh

/-- Bytes in each of the exponent and status areas of an A32 image (R95). -/
def rowArea (sh : Nat) : Nat := max 128 (tileRows sh)

/-- Bytes of an image (R95, R97). -/
def imageBytes (a32 : Bool) (sh : Nat) : Nat :=
  if a32 then 4 * shapeCells sh + 2 * rowArea sh + 128 else 8 * shapeCells sh + shapeCells sh / 2 + 128

/-- Spans of 16 KiB of an image (R97). -/
def imageSpans (a32 : Bool) (sh : Nat) : Nat := ceilDiv (imageBytes a32 sh) 16384

/-- An accumulator tile: cells or rows, absent ones zeroed, and its merge count (R56, R64, R92). -/
structure Tile where
  a32 : Bool
  shape : Nat
  cells : Map Cell := []
  rows : Map Row := []
  merges : Nat := 0
  deriving DecidableEq, Repr

def Tile.cell (t : Tile) (n : Nat) : Cell := mgetD t.cells n {}
def Tile.row (t : Tile) (k : Nat) : Row := mgetD t.rows k {}

/-- The tile as ACCZ leaves it (R56, R64, R92). -/
def Tile.zero (a32 : Bool) (shape : Nat) : Tile := { a32 := a32, shape := shape }

/-- OR of the status nibbles (R96). -/
def Tile.statusOr (t : Tile) : Nat :=
  if t.a32 then (mvals t.rows).foldl (fun a r => a ||| r.st) 0 else (mvals t.cells).foldl (fun a c => a ||| c.st) 0

/-- Cells or rows with a status bit (R63, R96). -/
def Tile.countBit (t : Tile) (i : Nat) : Nat :=
  if t.a32 then mcount t.rows (fun r => r.st.testBit i) else mcount t.cells (fun c => c.st.testBit i)

/-- The image header of R96. -/
def imageHeader (t : Tile) (ft gen epoch : Nat) : List Byte :=
  leBytes 128 (put 0 8 (if t.a32 then 9 else 8) + put 8 8 t.shape + put 16 8 t.statusOr + put 32 32 (t.countBit 0)
    + put 64 64 t.merges + put 128 64 ft + put 192 8 gen + put 200 8 epoch)

/-- The image of a tile (R95). -/
def imageOf (t : Tile) (ft gen epoch : Nat) : List Byte :=
  let n := shapeCells t.shape
  let h := imageHeader t ft gen epoch
  if t.a32 then
    let l := rowLen t.shape
    (List.range n).flatMap (fun i => leBytes 4 (toWord 32 ((t.row (i / l)).ms.getD (i % l) 0)))
    ++ (List.range (rowArea t.shape)).map (fun k => BitVec.ofNat 8 (toWord 8 (t.row k).x))
    ++ (List.range (rowArea t.shape)).map (fun k => BitVec.ofNat 8 (t.row k).st)
    ++ h
  else
    (List.range n).flatMap (fun i => leBytes 8 (t.cell i).word)
    ++ (List.range (n / 2)).map (fun i => BitVec.ofNat 8 ((t.cell (2 * i)).st + 16 * (t.cell (2 * i + 1)).st))
    ++ h

/-- The n-byte number at an offset of a byte list. -/
def bytesAt (m : List Byte) (off n : Nat) : Nat := leNat ((m.drop off).take n)

/-- The tile that an image of a descriptor and shape holds; cells or rows whose bytes lie in a line that p marks take POISON
(R95, R451). -/
def tileOfImage (a32 : Bool) (sh : Nat) (m : List Byte) (p : Nat → Bool) : Tile :=
  let n := shapeCells sh
  if a32 then
    let l := rowLen sh
    let g := rowArea sh
    let hdr := 4 * n + 2 * g
    let all := p (hdr / 64)
    { a32 := true, shape := sh, merges := bytesAt m (hdr + 8) 8
      rows := (List.range (tileRows sh)).map (fun k =>
        let bad := all || p ((4 * n + k) / 64) || p ((4 * n + g + k) / 64) || (List.range (4 * l)).any (fun i => p ((4 * l * k + i) / 64))
        (k, { ms := (List.range l).map (fun j => sext 32 (bytesAt m (4 * (l * k + j)) 4))
              x := sext 8 (bytesAt m (4 * n + k) 1)
              st := bytesAt m (4 * n + g + k) 1 % 16 ||| (if bad then 4 else 0) })) }
  else
    let hdr := 8 * n + n / 2
    let all := p (hdr / 64)
    { a32 := false, shape := sh, merges := bytesAt m (hdr + 8) 8
      cells := (List.range n).map (fun i =>
        let bad := all || p (8 * i / 64) || p ((8 * n + i / 2) / 64)
        (i, Cell.ofWord (bytesAt m (8 * i) 8) (bits (bytesAt m (8 * n + i / 2) 1) (4 * (i % 2)) 4 ||| (if bad then 4 else 0)))) }

/-- Offset of an image's header. -/
def imageHdrOff (a32 : Bool) (sh : Nat) : Nat := imageBytes a32 sh - 128

/-- Merge an image's tile into a tile: cells by R58 or rows by R58, counts summed plus one (R98). The second part counts
renormalisations. -/
def Tile.mergeTile (t u : Tile) : Tile × Nat :=
  if t.a32 then
    let r := (List.range (tileRows t.shape)).map (fun k => (k, (t.row k).mergeRow (u.row k)))
    ({ t with rows := r.map (fun e => (e.1, e.2.1)), merges := t.merges + u.merges + 1 }, (r.filter (fun e => e.2.2)).length)
  else
    let r := (List.range (shapeCells t.shape)).map (fun k => (k, (t.cell k).mergeCell (u.cell k)))
    ({ t with cells := r.map (fun e => (e.1, e.2.1)), merges := t.merges + u.merges + 1 }, (r.filter (fun e => e.2.2)).length)

/-- Merge the block sums of one K-block: `f i j` is the sum for result row i, column j (R54, R56, R65). -/
def Tile.mergeKBlock (t : Tile) (f : Nat → Nat → BlkSum) : Tile × Nat :=
  let cols := (shapeDims t.shape).2
  if t.a32 then
    let l := rowLen t.shape
    let r := (List.range (tileRows t.shape)).map (fun k =>
      (k, (t.row k).mergeBlocks ((List.range l).map (fun j => f ((k * l + j) / cols) ((k * l + j) % cols)))))
    ({ t with rows := r.map (fun e => (e.1, e.2.1)), merges := t.merges + 1 }, (r.filter (fun e => e.2.2)).length)
  else
    let r := (List.range (shapeCells t.shape)).map (fun n => (n, (t.cell n).mergeBlock (f (n / cols) (n % cols))))
    ({ t with cells := r.map (fun e => (e.1, e.2.1)), merges := t.merges + 1 }, (r.filter (fun e => e.2.2)).length)

/-- Exact value of cell n of a tile. -/
def Tile.value (t : Tile) (n : Nat) : Dy :=
  if t.a32 then
    let l := rowLen t.shape
    ⟨(t.row (n / l)).ms.getD (n % l) 0, (t.row (n / l)).x⟩
  else ⟨(t.cell n).m, (t.cell n).x⟩

/-- POISON of cell n of a tile. -/
def Tile.poisonAt (t : Tile) (n : Nat) : Bool :=
  if t.a32 then (t.row (n / rowLen t.shape)).st.testBit 2 else (t.cell n).st.testBit 2

/-- POISON set in a cell, or in its row, in A32 (R90). -/
def Tile.poisonCell (t : Tile) (n : Nat) : Tile :=
  if n ≥ shapeCells t.shape then t
  else if t.a32 then { t with rows := mupd t.rows (n / rowLen t.shape) {} (fun r => { r with st := r.st ||| 4 }) }
  else { t with cells := mupd t.cells n {} (fun c => { c with st := c.st ||| 4 }) }

/-! Pairings (R51) -/

/-- Cycles per K-block of a pairing and whether A32 is allowed; none where the pairing is not accepted (R51). -/
def pairing (a b : Nat) : Option (Nat × Bool) :=
  let four (c : Nat) : Bool := decide (c = 1) || decide (c = 2)
  if a = 0 ∧ b = 0 then some (32, false)
  else if four a && four b then some (8, true)
  else if (decide (a = 4) && four b) || (four a && decide (b = 4)) then some (8, false)
  else if a = 3 ∧ b = 3 then some (4, true)
  else if (a = 3 ∧ b = 1) ∨ (a = 1 ∧ b = 3) then some (8, true)
  else none

/-! Quantisation (R70-R76) -/

/-- Range [N, P] of a target, with the ternary option (R43, R70). -/
def range (code : Nat) (tern : Bool) : Int × Int :=
  match code with
  | 0 => (-128, 127) | 1 => (-8, 7) | 2 => (-8, 7) | 3 => (if tern then -1 else -2, 1) | 4 => (-4, 3) | _ => (-32768, 32767)

/-- Scale range of a format (R43). -/
def scaleRange (code : Nat) : Int × Int := if code = 4 ∨ code = 6 then (-512, 511) else (-128, 127)

/-- N x 2^e ≤ v ≤ P x 2^e. -/
def inRange (r : Int × Int) (e : Int) (v : Dy) : Bool := Dy.le ⟨r.1, e⟩ v && Dy.le v ⟨r.2, e⟩

/-- Does exponent e hold a block: for BSI4X all but at most two elements in range and those within the escape range (R70, R71)? -/
def holds (code : Nat) (tern : Bool) (vs : List Dy) (e : Int) : Bool :=
  let r := range code tern
  let out := vs.filter (fun v => !inRange r e v)
  if code = 2 then decide (out.length ≤ 2) && out.all (inRange (-128, 127) e) else out.isEmpty

/-- AUTO exponent: the smallest in the scale range that holds the block, else the top (R70-R72). -/
def autoExp (code : Nat) (tern : Bool) (vs : List Dy) : Int :=
  let sr := scaleRange code
  let n := (sr.2 - sr.1).toNat
  sr.1 + (leastFrom (fun k => holds code tern vs (sr.1 + k)) n 0 : Nat)

/-- Rounding of a value in units of 2^e: half to even, or stochastic with the 16-bit draw r (R74). -/
def roundAt (sr : Bool) (r : Nat) (v : Dy) (e : Int) : Int :=
  if sr then
    let t16 : Int := if v.e + 16 ≥ e then v.m * pow2 (v.e + 16 - e) else v.m / pow2 (e - v.e - 16)
    (t16 + r) / 65536
  else v.rne e

/-- A quantised block and what it counts (R76). -/
structure QBlk where
  e : Int := 0
  codes : List Int := []
  /-- Micro-exponents, for GSI3. -/
  us : List Nat := []
  /-- Escapes: slot 0 then slot 1. -/
  escs : List (Nat × Int) := []
  raised : Bool := false
  /-- Narrowed from a raised RSI16 block (R46). -/
  mark : Bool := false
  poison : Bool := false
  clamps : Nat := 0
  deriving DecidableEq, Repr

/-- u_g of a group: the largest 0-3 under which every element is in range (R72). -/
def microExp (e : Int) (vs : List Dy) : Nat :=
  let ok (u : Nat) : Bool := vs.all (inRange (-4, 3) (e - u))
  if ok 3 then 3 else if ok 2 then 2 else if ok 1 then 1 else 0

/-- |a| ≥ |b|. -/
def magGe (a b : Dy) : Bool := Dy.le ⟨b.m.natAbs, b.e⟩ ⟨a.m.natAbs, a.e⟩

/-- Insert an index into a list kept by falling magnitude, ties by rising index. -/
def insMag (vs : List Dy) (i : Nat) : List Nat → List Nat
  | [] => [i]
  | j :: l => if magGe (vs.getD j {}) (vs.getD i {}) then j :: insMag vs i l else i :: j :: l

/-- Quantise the 32 exact values of a block: mode 0 AUTO, 1 FIXED-CLAMP, 2 FIXED-RAISE at exponent fe; draws r i (R70-R74). -/
def quantise (code : Nat) (tern sr : Bool) (mode : Nat) (fe : Int) (vs : List Dy) (draw : Nat → Nat) (poison : Bool) : QBlk :=
  let raise := decide (mode = 2) && !holds code tern vs fe
  let e := if mode = 0 || raise then autoExp code tern vs else fe
  let r := range code tern
  let clamp1 (lo hi x : Int) : Int × Nat := if x < lo then (lo, 1) else if x > hi then (hi, 1) else (x, 0)
  let us := if code = 4 then (List.range 8).map (fun g => microExp e ((vs.drop (4 * g)).take 4)) else []
  let outs := if code = 2 then (List.range vs.length).filter (fun i => !inRange r e (vs.getD i {})) else []
  let slots := ((outs.foldl (fun l i => insMag vs i l) []).take 2)
  let slots := if slots.length = 2 ∧ slots.getD 0 0 > slots.getD 1 0 then slots.reverse else slots
  let escs := slots.map (fun i => (i, clamp1 (-128) 127 (roundAt sr (draw i) (vs.getD i {}) e)))
  let cs := (List.range vs.length).map (fun i =>
    if slots.contains i then (0, 0)
    else clamp1 r.1 r.2 (roundAt sr (draw i) (vs.getD i {}) (e - (us.getD (i / 4) 0 : Nat))))
  { e := e, codes := cs.map (·.1), us := us, escs := escs.map (fun p => (p.1, p.2.1)), raised := raise, poison := poison
    clamps := sumNat (cs.map (·.2)) + sumNat (escs.map (fun p => p.2.2)) }

/-- Element field of a quantised block (R44, R46). -/
def QBlk.field (q : QBlk) (code : Nat) : List Byte :=
  let w := elemBits code
  let f := (List.range 32).foldl (fun a i => a + put (w * i) w (toWord w (q.codes.getD i 0))) 0
  if code = 4 then
    leBytes 16 (f + (List.range 8).foldl (fun a g => a + put (96 + 2 * g) 2 (q.us.getD g 0)) 0 + put 112 10 (toWord 10 q.e)
      + put 122 1 (b2n q.poison) + put 123 1 (b2n (q.raised || q.mark)))
  else leBytes (4 * w) f

/-- Scale bytes of a quantised block (R43, R47). -/
def QBlk.scale (q : QBlk) (code : Nat) : List Byte :=
  match code with
  | 4 => []
  | 6 => leBytes 2 (toWord 10 q.e + put 10 1 (b2n q.raised) + put 11 1 (b2n q.poison))
  | _ => leBytes 1 (toWord 8 q.e)

/-- Escape word of a BSI4X block (R45). -/
def QBlk.escWord (q : QBlk) : Nat :=
  match q.escs with
  | [] => 0
  | [a] => toWord 8 a.2 + put 8 5 a.1 + put 13 1 1
  | a :: b :: _ => toWord 8 a.2 + put 8 5 a.1 + put 13 1 1 + put 16 8 (toWord 8 b.2) + put 24 5 b.1 + put 29 1 1

/-- Zeros to a multiple of 64 bytes. -/
def padTo64 (l : List Byte) : List Byte := l ++ List.replicate (pad64 l.length - l.length) 0

/-- The block array of quantised blocks (R172). -/
def blockArray (code : Nat) (qs : List QBlk) : List Byte :=
  if code = 4 then qs.flatMap (·.field 4)
  else padTo64 (qs.flatMap (·.field code)) ++ padTo64 (qs.flatMap (·.scale code))
    ++ (if code = 2 then padTo64 (qs.flatMap (fun q => leBytes 4 q.escWord)) else [])

/-- The same without padding, as an MVU slot holds it (R113, R172). -/
def vectorArray (code : Nat) (qs : List QBlk) : List Byte :=
  qs.flatMap (·.field code) ++ qs.flatMap (·.scale code) ++ (if code = 2 then qs.flatMap (fun q => leBytes 4 q.escWord) else [])

/-- A TU header (R217). -/
def tuHeader (fmt flags gen epoch lines posns ft : Nat) : List Byte :=
  leBytes 64 (put 0 8 fmt + put 8 8 flags + put 16 8 gen + put 24 8 epoch + put 32 8 lines + put 40 8 posns + put 64 64 ft)

/-- A list cut or zero-padded to n bytes. -/
def fit (n : Nat) (l : List Byte) : List Byte := (l ++ List.replicate (n - l.length) 0).take n

/-- A TU of a tile's quantised blocks in block-number order, BAX 0 (R49, R50); for BSI8 half k. -/
def tuOf (code k : Nat) (hdr : List Byte) (qs : List QBlk) : List Byte :=
  let qs := if code = 0 then (qs.drop (256 * k)).take 256 else qs
  let planes := qs.flatMap (·.scale code)
  let esc := if code = 2 then qs.flatMap (fun q => leBytes 4 q.escWord) else []
  fit 16384 (hdr ++ (if code = 4 then fit 0xFC0 [] else fit 0xFC0 (fit 0x200 planes ++ esc)) ++ qs.flatMap (·.field code))

end Sys2Proof.Machine
end

