-- ==== Sys2Proof/Machine/StateA.lean ====
section
/-! DEFINITION. The parts of the state for fabric time, registers, queues, flags, memory, contexts, fabric and host
(02, 06, 09, 10, 12 and 15 of the spec). Absent map entries read as the reset value. -/
namespace Sys2Proof.Machine

/-- Fuses: set before stage 1 is released and fixed while powered (R1, R14). -/
structure Fuses where
  /-- GLB_GRADE.GRADE: 1 NYL-340, 2 NYL-336, 3 NYL-328 (R1). -/
  grade : Nat := 1
  /-- GLB_OPE_PRESENT (R14). -/
  opePresent : Nat := 0xFFFFFFFFFFFFFFFF
  /-- Revocation fuses of the two firmware signing keys (R390, R401). -/
  krev0 : Bool := false
  krev1 : Bool := false
  /-- Serial number (R398). -/
  serial : Nat := 0
  deriving DecidableEq, Repr

/-- Lock states of R35. -/
inductive Lock where
  | free | acquiring | locked | holdover
  deriving DecidableEq, Repr

/-- What a time partner last advertised (R32, R34). -/
structure TimePartner where
  hop : Nat := 15
  state : Nat := 0
  deriving DecidableEq, Repr

/-- Fabric time and its discipline (02_fabric_time). -/
structure FabTime where
  /-- Whole nanoseconds, 64 bits (R29). -/
  ns : Nat := 0
  /-- 16-bit fraction (R27). -/
  frac : Nat := 0
  lock : Lock := .free
  hop : Nat := 0xF
  parent : Nat := 0x3F
  disjoint : Bool := false
  depth : Bool := false
  tsyncOk : Bool := false
  refOk : Bool := false
  /-- GLB_FT_NEXTSEC (R31). -/
  nextSec : Nat := 0
  /-- GLB_FT_OFFSET, signed ps (R40). -/
  offsetPs : Int := 0
  steps : Nat := 0
  losses : Nat := 0
  /-- Consecutive measurements within the lock window (R35). -/
  good : Nat := 0
  /-- Consecutive exchanges missing or outside the loss window (R35). -/
  bad : Nat := 0
  /-- FT minus source time as last measured, in 2^-16 ns; none: no source time known (R37). -/
  src : Option Int := none
  /-- Offset still to be slewed out, in 2^-16 ns, positive when FT is behind (R36). -/
  slew : Int := 0
  /-- The module has reached ready in this life (R28, R36). -/
  everReady : Bool := false
  /-- Upper halves latched by 32-bit reads, per requester (R29). -/
  latch : Map Nat := []
  partners : Map TimePartner := []
  /-- The exchange last started with the parent has had no reply yet (R35). -/
  open_ : Bool := false
  /-- Path delay of the last exchange with the parent, in 2^-16 ns (R33). -/
  delay : Int := 0
  /-- The quarters' copies of FT, as what each lies ahead of the timekeeper's count in 2^-16 ns (R27). -/
  copies : Map Int := []
  /-- Corrections of the copies so far: numbers of free values, the model's own field (log 71). -/
  fixes : Nat := 0
  deriving DecidableEq, Repr

/-- Registers held by address. -/
structure RegFile where
  /-- Writable register fields by bit address 8 x offset + low bit; absent = reset value. -/
  csr : Map Nat := []
  /-- Event counts of the W1C bits by bit address (R155). -/
  evc : Map Nat := []
  /-- Event counters by offset: WRAP x 2^48 + COUNT (R109, R418). -/
  cnt : Map Nat := []
  deriving DecidableEq, Repr

/-- MSI-X and its moderation (R371-R373). -/
structure Irq where
  /-- Messages sent, per vector. -/
  sent : Map Nat := []
  /-- Masked vectors. -/
  masked : List Nat := []
  fmask : Bool := false
  /-- Pending-bit array. -/
  pba : List Nat := []
  /-- Vectors inside their moderation interval, with the FT at which it ends. -/
  busy : Map Nat := []
  /-- Vectors set again inside their interval. -/
  again : List Nat := []
  deriving DecidableEq, Repr

/-- Queue states of R134. -/
inductive QState where
  | disabled | idle | ready | bound | waiting | halted | error | preempted
  deriving DecidableEq, Repr

/-- Comparator K0-K3 (R149). -/
structure Comparator where
  armed : Bool := false
  ctr : Nat := 0
  rel : Nat := 0
  value : Nat := 0
  sig : Nat := 0
  deriving DecidableEq, Repr

/-- A wait registered at a flag's controller (R154). -/
structure Waiter where
  flag : Nat
  mode : Nat
  ctr : Nat
  q : Nat
  /-- Sequence number of the slot marker that waits; none for a queue at dispatch. -/
  seq : Option Nat
  ft : Nat
  deriving DecidableEq, Repr

/-- A flag word (R151). -/
structure Flag where
  state : Bool := false
  sv : Bool := false
  setter : Nat := 0
  count : Nat := 0
  deriving DecidableEq, Repr

/-- A wait withdrawn unserved at its timeout, with the FT and the flag's word at expiry (R156, R157). -/
structure Expiry where
  wait : Waiter
  ft : Nat
  word : Flag
  deriving DecidableEq, Repr

/-- A fetched instruction that has not been dispatched yet (R139). -/
structure Cur where
  raw : Nat
  /-- FT of fetch, base of the deadline (R38). -/
  ft : Nat
  /-- FT at which the queue became WAITING on the flag (R156). -/
  waitFt : Option Nat := none
  /-- The wait has been served (R154). -/
  served : Bool := false
  /-- The entry could not be fetched intact: status code and detail (R452). -/
  bad : Option (Nat × Nat) := none
  /-- The fetch fault on which the queue waits (R246). -/
  fid : Option Nat := none
  /-- It has passed step 2 (R139). -/
  checked : Bool := false
  /-- It has failed step 2, or its wait has reached a block that is not its context's: byte and reason (R139, R152). -/
  failed : Option (Nat × Nat) := none
  /-- Its wait has timed out (R157). -/
  expired : Option Expiry := none
  deriving DecidableEq, Repr

/-- An instruction in the EIQ or in a unit (R135, R165). -/
structure Entry where
  q : Nat
  seq : Nat
  raw : Nat
  ctx : Nat
  /-- Sums added to the indexable fields, by SEL (R167). -/
  ix : Map Nat := []
  deriving DecidableEq, Repr

/-- An instruction in flight: from step 4 of R139 to its record (R142). -/
structure InFlight where
  seq : Nat
  /-- Tag held; none for an instruction that failed step 2. -/
  tag : Nat
  op : Nat
  /-- Byte 16 of its body: FUNC of a vector operation (R185). -/
  fn : Nat := 0
  sig : Nat
  mode : Nat
  /-- Absolute deadline; 0 = none (R38). -/
  deadline : Nat
  prog : Nat
  /-- Outcomes met: status code to detail word (R176). -/
  outs : Map Nat := []
  gen : Nat := 0
  unit : Nat := 0xFFFF
  /-- FENCE, HALT or END waiting for earlier instructions (R179). -/
  ctl : Bool := false
  /-- The unit has finished with it; INSTRUCTION_COMPLETE may run. -/
  done : Bool := false
  /-- It has had an effect (R210). -/
  effect : Bool := false
  /-- Fault on which it is stopped (R245). -/
  fid : Option Nat := none
  /-- FT of fetch, dispatch, issue at the head of the share, and first effect (R426). -/
  ft : Nat := 0
  dft : Nat := 0
  ift : Option Nat := none
  eft : Option Nat := none
  /-- OPE_FROZEN at issue, cycles held, and bytes read and written (R426). -/
  frz0 : Nat := 0
  held : Nat := 0
  bytes : Nat := 0
  deriving DecidableEq, Repr

/-- A completion record held behind a faulting write (R370). -/
structure HeldRec where
  idx : Nat
  bytes : List Byte
  /-- Tag that its instruction holds until it is written or discarded (R142). -/
  tag : Option Nat := none
  deriving DecidableEq, Repr

/-- What holds a queue beside its own next instruction. -/
inductive Hold where
  | none | fence | halt | gate (ft : Nat)
  deriving DecidableEq, Repr

/-- A command queue (R129-R134, R148). -/
structure Queue where
  st : QState := .disabled
  /-- The 64-byte descriptor of R130. -/
  desc : Nat := 0
  head : Nat := 0
  fetch : Nat := 0
  tail : Nat := 0
  crTail : Nat := 0
  crHead : Nat := 0
  reserved : Nat := 0
  slot : Option SlotRef := none
  home : Nat := 0
  cur : Option Cur := none
  aside : Option Entry := none
  ctrs : Map Nat := []
  comps : Map Comparator := []
  fl : List InFlight := []
  nextSeq : Nat := 0
  prog : Nat := 0
  hold : Hold := .none
  /-- Error stop that takes effect at rebinding (R147). -/
  errPend : Bool := false
  aborting : Bool := false
  destroying : Bool := false
  readyFt : Nat := 0
  idleFt : Nat := 0
  /-- Interrupt vector read at CQ_CREATE or CQ_MODIFY (R372). -/
  vector : Option Nat := none
  held : List HeldRec := []
  /-- Instruction whose write to a full EIQ share stalls its core (R141). -/
  stalled : Option Entry := none
  /-- FT at which the stall began. -/
  stall : Nat := 0
  /-- The tail that a doorbell has told its core, and how far beyond it a CMPB has moved the fetch pointer (R25, R150). -/
  seen : Nat := 0
  beyond : Nat := 0
  /-- The stop request of a PREEMPT or a kill has reached the slot (R249). -/
  saved : List Entry := []
  /-- The slot left at PREEMPT (R253). -/
  left : Option SlotRef := none
  /-- Slot count D of completed DEPs (R196). -/
  dep : Nat := 0
  /-- A PREEMPT waits for the instruction at its head (R249, R252). -/
  stopping : Bool := false
  /-- Its state when it was pre-empted: ERROR and HALTED come back at rebinding (R147, R253). -/
  was : QState := .bound
  deriving DecidableEq, Repr

/-- One update that has reached a flag's controller (R154). -/
structure FlagUpdate where
  set : Bool
  /-- Setting queue; none for the host. -/
  queue : Option Nat
  deriving DecidableEq, Repr

/-- A doorbell on its way to a queue's core, with the home quarter it was sent to (R25). -/
structure Bell where
  q : Nat
  home : Nat
  tail : Option Nat := none
  crHead : Option Nat := none
  deriving DecidableEq, Repr

/-- Queue manager and flags (06). -/
structure Qmg where
  queues : Map Queue := []
  /-- Shares of the EIQs by slot key. -/
  eiq : Map (List Entry) := []
  /-- Slots to bound queues. -/
  slots : Map Nat := []
  /-- Doorbells forwarded on VC1 and not yet arrived, oldest first (R25). -/
  doorbells : List Bell := []
  /-- The queue that had its turn last, by 8 x kaolin core + priority (R138). -/
  turn : Map Nat := []
  flags : Map Flag := []
  /-- Owner of each allocated block (R152). -/
  owner : Map Nat := []
  upd : Map (List FlagUpdate) := []
  waiters : List Waiter := []
  /-- Notifications in flight on VC2 to a queue (R151). -/
  notes : List Nat := []
  /-- Slot markers whose wait has been served: queue and sequence number (R180). -/
  marks : List (Nat × Nat) := []
  deriving DecidableEq, Repr

/-- A command in progress of a command block (R160). -/
structure Cmd where
  busy : Bool := false
  op : Nat := 0
  arg : Nat := 0
  result : Nat := 0
  deriving DecidableEq, Repr

/-- Context states (R236). -/
inductive CtxState where
  | free | active | suspended | killing | killed
  deriving DecidableEq, Repr

/-- A context (R234-R236). -/
structure Ctx where
  st : CtxState := .free
  /-- The 128-byte entry of R235 as last written. -/
  entry : Nat := 0
  epoch : Nat := 0
  tagFirst : Nat := 0
  tagCount : Nat := 0
  /-- Next automatic tag (R142). -/
  tagNext : Nat := 0
  errBase : Nat := 0
  errN : Nat := 0
  errSet : Bool := false
  errSeq : Nat := 0
  errPos : Nat := 0
  errFull : Bool := false
  /-- Error records that wait for a host translation or a snoop, oldest first, PHASE and place still open (R158, R242). -/
  errWait : List (List Byte) := []
  /-- Resources still held by packets in flight after a kill, and its packets on their way out (R255). -/
  infl : Nat := 0
  flying : List Packet := []
  deriving DecidableEq, Repr

/-- A pending translation fault (R245). -/
structure PageFault where
  ctx : Nat
  addr : Nat
  cause : Nat
  write : Bool
  ft : Nat
  joined : Nat := 0
  /-- Instructions stopped at it: queue and sequence number. -/
  stopped : List (Nat × Nat) := []
  /-- Queues whose ring fetch stopped at it. -/
  fetches : List Nat := []
  /-- Streams stopped at it. -/
  streams : List Nat := []
  /-- Queues whose records are held by it (R370). -/
  rings : List Nat := []
  deriving DecidableEq, Repr

/-- A translation held by a TLB: leaf word and page size (R240). -/
structure TlbEntry where
  ctx : Nat
  page : Nat
  size : Nat
  leaf : Nat
  /-- The TLB that holds it: the shared one of quarter 0-3, or 4 plus a unit's number (R240). -/
  tlb : Nat
  deriving DecidableEq, Repr

/-- A host translation of the ATC (R242, R377). -/
structure AtcEntry where
  pasid : Nat
  page : Nat
  host : Nat
  write : Bool
  deriving DecidableEq, Repr

/-- An outstanding page request (R243, R378). -/
structure PageReq where
  ctx : Nat
  addr : Nat
  write : Bool
  index : Nat
  ft : Nat
  /-- PASID of the request (R234). -/
  pasid : Nat
  deriving DecidableEq, Repr

/-- An ATS translation request: context, page and PASID (R234, R242). -/
structure AtsReq where
  ctx : Nat
  page : Nat
  pasid : Nat
  deriving DecidableEq, Repr

/-- An invalidation whose completion waits for accesses in flight: record writes before it, fetches by engine and tracker entry, descriptor
write-backs by engine and address, fills and write-backs of the pool by key (R241, R242). -/
structure InvWait where
  lines : Nat := 0
  fetches : List (Nat × Nat) := []
  backs : List (Nat × Nat) := []
  tus : List Nat := []
  deriving DecidableEq, Repr

/-- The TLB_INV in progress: its context, first address and pages, and the accesses in flight when it began (R241, R260). -/
structure TlbInv where
  ctx : Nat
  first : Nat
  pages : Nat
  wait : InvWait
  deriving DecidableEq, Repr

/-- A completion record of a killed context that waits for a host translation or a snoop: its address, bytes, tag and vector (R254, R256). -/
structure KillRec where
  ctx : Nat
  at_ : Nat
  bytes : List Byte
  tag : Option Nat
  vector : Option Nat
  deriving DecidableEq, Repr

/-- MMU and contexts (10). -/
structure Mmu where
  ctxs : Map Ctx := []
  tlb : List TlbEntry := []
  atc : List AtcEntry := []
  /-- ATS requests outstanding. -/
  ats : List AtsReq := []
  faults : Map PageFault := []
  /-- Pages that ATS or PRI has refused: context, page and cause 5 or 6 (R243, R244). -/
  refused : List (Nat × Nat × Nat) := []
  prg : List PageReq := []
  prgNext : Nat := 0
  priOn : Bool := true
  priAlloc : Nat := 512
  /-- Invalidations whose completions are owed to the host, and the completions sent (R242). -/
  invs : List InvWait := []
  invDone : Nat := 0
  inv : Option TlbInv := none
  killRecs : List KillRec := []
  /-- Longest vacate time of the PREEMPT in progress. -/
  preemptFt : Nat := 0
  deriving DecidableEq, Repr

/-- A pool entry of a granule (R218). -/
structure PoolTu where
  /-- T1: home is a logical TU; otherwise a host address. -/
  t1 : Bool
  home : Nat
  stack : Nat
  owner : Nat
  /-- Pool index on the stack when resident. -/
  index : Nat := 0
  resident : Bool := false
  filling : Bool := false
  dirty : Bool := false
  pin : Nat := 0
  poisonPin : Bool := false
  imagePin : Bool := false
  last : Nat := 0
  /-- Device virtual address at which its owner reached it (R241). -/
  va : Nat := 0
  /-- A write-back is in flight; the eviction it serves stands unless abandoned (R221, R223). -/
  wb : Bool := false
  evict : Bool := false
  /-- Written again while its write-back was in flight (R221). -/
  again : Bool := false
  /-- The home refuses the write-back in flight (R221). -/
  refused : Bool := false
  /-- PINs that have joined its fill: 65,536 x queue plus sequence number (R219). -/
  joined : List Nat := []
  /-- Bytes of host memory under a write-back that the host has not acknowledged (R221, R381). -/
  old : List Byte := []
  /-- Page of host memory that its leaf names, before the host translates it (R241, R242). -/
  page : Option Nat := none
  /-- Writes that reached the granule while it was being filled, oldest first, with their offsets: they follow the fill (R219). -/
  writes : List (Nat × List Byte) := []
  deriving DecidableEq, Repr

/-- n places that firmware uses of its HBM region in a quarter, from `place` on (they count from 4,096), for a context (R250, R251). -/
structure Aside where
  q : Nat
  place : Nat
  n : Nat
  ctx : Nat
  deriving DecidableEq, Repr

/-- Memory of all tiers (09). -/
structure Memory where
  hbm : Mem := []
  host : Mem := []
  /-- Flash bytes at logical TU x 16 KiB + offset (R226). -/
  flash : Mem := []
  /-- Accumulator parks at quarter x 64 MiB + place x 16 KiB + offset (R98). -/
  park : Mem := []
  /-- Local memories of the kaolin cores, at (8 x quarter + core) x 64 KiB + offset (R11). What their firmware keeps there the spec does not give. -/
  kc : Mem := []
  /-- HBM lines marked poisoned, by DPA / 64 (R406). -/
  badLines : List Nat := []
  /-- Host lines that a CXL.cache read reports poisoned, by address / 64 (R203). -/
  hostBad : List Nat := []
  /-- Park places that hold an image: key quarter x 4,096 + first place, value descriptor of R96 and the context (R98). -/
  parked : Map (Nat × Nat) := []
  /-- What firmware has written to its HBM region (R250, R251). -/
  aside : List Aside := []
  /-- Flash TUs marked uncorrectable (R229). -/
  marked : List Nat := []
  /-- Marked TUs whose recovery is in progress (R229). -/
  recovering : List Nat := []
  flashRo : Bool := false
  unrecLast : Nat := 0
  pool : Map PoolTu := []
  /-- Frames per stack: FW, DIRECT and POOL counts (R214). -/
  frames : Map (Nat × Nat × Nat) := []
  /-- Low and high water marks per stack (R232). -/
  wm : Map (Nat × Nat) := []
  /-- Entries of each stack's controller write queue that are not written to DRAM yet (R346, R355). -/
  wq : Map Nat := []
  /-- Bytes programmed over the life of the flash, background work included (R227). -/
  wear : Nat := 0
  /-- Flash writes accepted and not yet programmed, in order (R226): TU and bytes. -/
  progQ : List (Nat × List Byte) := []
  /-- Flash reads outstanding, by TU. -/
  readQ : List Nat := []
  /-- Stacks whose evictor has begun and has not come to HIGH (R220). -/
  evOn : List Nat := []
  deriving DecidableEq, Repr

/-- Port states (R302). -/
inductive PortState where
  | down | train | resync | active | failed
  deriving DecidableEq, Repr

/-- A packet in the transmit queue of a VC, with the units that are here (R297). -/
structure PartPkt where
  pkt : Packet
  here : Nat
  sent : Nat := 0
  /-- Units that carry P (R289). -/
  ps : List Nat := []
  /-- The receive buffer it is forwarded from: port identifier and number of the packet there. -/
  src : Option (Nat × Nat) := none
  /-- Its units come over a die-to-die link, by the number of the crossing; `here` counts those that have come (R22). -/
  via : Option Nat := none
  /-- Units that have entered the crossbar queue of the port and VC (R346). -/
  moved : Nat := 0
  /-- The die-to-die link whose far buffer holds the units that have not entered it yet, and the die that sent them (R308). -/
  hop : Option (Nat × Nat) := none
  deriving DecidableEq, Repr

/-- A packet that crosses a die-to-die link (R19, R22, R308). -/
structure Crossing where
  id : Nat
  link : Nat
  /-- The die it leaves. -/
  die : Nat
  pkt : Packet
  /-- Units on the near side, and units that have crossed. -/
  here : Nat
  sent : Nat := 0
  /-- Units that carry P. -/
  ps : List Nat := []
  /-- The receive buffer it is forwarded from. -/
  src : Option (Nat × Nat) := none
  /-- The port whose transmit queue it goes to; none: the far die itself. -/
  out : Option Nat := none
  /-- A time message on its way to the hub: the port it came on and its receive stamp (R33). -/
  stamp : Option (Nat × Nat) := none
  deriving DecidableEq, Repr

/-- A time message that has come on a port in a frame, with its receive stamp in 2^-16 ns and its header bytes 16-63 (R33, R34). -/
structure TimeMsg where
  port : Nat
  at_ : Nat
  hdr : Nat
  deriving DecidableEq, Repr

/-- A packet in a port's receive buffer (R295, R297). -/
structure RxPkt where
  id : Nat
  pkt : Packet
  here : Nat := 1
  ps : List Nat := []
  /-- Its header has been forwarded, and the copies that have not left whole. -/
  taken : Bool := false
  outs : Nat := 0
  /-- Units of it that have left the buffer. -/
  freed : Nat := 0
  /-- Received from an earlier incarnation of the partner (R351). -/
  old : Bool := false
  /-- A copy is owed to the port's own die, which takes it whole (R301). -/
  mine : Bool := false
  deriving DecidableEq, Repr

/-- A port or half-port, by port identifier (R285-R306). -/
structure Port where
  st : PortState := .down
  width : Nat := 0
  degraded : Bool := false
  rev : Bool := false
  pol : Nat := 0
  fail : Nat := 0
  partner : Option Handshake := none
  /-- Own incarnation increment since module reset (R304). -/
  incarnInc : Nat := 0
  /-- Incarnation of the partner last seen; 0 if none. -/
  partnerInc : Nat := 0
  fresh : Bool := true
  seq : Nat := 0
  /-- Next SEQ expected from the partner. -/
  next : Nat := 0
  /-- ACK last received. -/
  ack : Nat := 0
  nakcnt : Nat := 0
  nakOn : Bool := false
  /-- Last partner NAKCNT seen. -/
  partnerNak : Nat := 0
  /-- Consecutive NAK episodes for the same SEQ (R298). -/
  episodes : Nat := 0
  episodeSeq : Nat := 0
  sent : Map Nat := []
  freedIn : Map Nat := []
  limit : Map Nat := []
  freedOut : Map Nat := []
  rxUsed : Map Nat := []
  /-- Replay FIFO: frames sent and not acknowledged. -/
  replay : List Frame := []
  /-- Frames still to be resent after a rewind. -/
  resend : List Frame := []
  tx : Map (List PartPkt) := []
  rx : List RxPkt := []
  rxNext : Nat := 0
  framesSinceMarker : Nat := 0
  rsSent : Bool := false
  rsGot : Bool := false
  /-- FT at which RESYNC_DONE began to be withheld (R351). -/
  rsFt : Option Nat := none
  /-- Has left ACTIVE and not returned, and the FT at which it left (R353). -/
  left : Bool := false
  leftFt : Nat := 0
  /-- FT from which ACK has not advanced while frames are outstanding (R298). -/
  ackFt : Nat := 0
  doneSent : Bool := false
  doneGot : Bool := false
  /-- Last frame put on the lanes. -/
  out : Option Frame := none
  /-- Weighted round-robin place among VC3 and the group channels (R294). -/
  wrr : Nat := 0
  wrrLeft : Nat := 0
  /-- In this handshake the state of the link is not kept, so RESYNC_DONE brings the last FREED counts (R304, R351). -/
  lost : Bool := false
  deriving DecidableEq, Repr

/-- A die-to-die link (R19-R23, R308). -/
structure D2d where
  /-- Consecutive failed replays (R21). -/
  fails : Nat := 0
  /-- The unit next to come is a replay of one that failed its CRC (R21). -/
  retry : Bool := false
  failed : Bool := false
  trained : Bool := false
  units : Nat := 0
  /-- Units sent, and units that have left the far buffer, by 16 x sending die + VC (R19, R295, R308). -/
  sent : Map Nat := []
  freed : Map Nat := []
  /-- The crossing whose unit is to be replayed from the mark (R21). -/
  again : Option Nat := none
  /-- Weighted round-robin place among VC3 and the group channels, with the turns left, by sending die (R294, R308). -/
  wrr : Map (Nat × Nat) := []
  deriving DecidableEq, Repr

/-- A packet delivered to a die that its unit has not taken yet, with what it occupies: a port's receive buffer, or the far buffer of a die-to-die
link, by link and sending die (R295, R308). -/
structure Held where
  pkt : Packet
  port : Option (Nat × Nat) := none
  link : Option (Nat × Nat) := none
  deriving DecidableEq, Repr

/-- Fabric (12). -/
structure Fab where
  ports : Map Port := []
  d2d : Map D2d := []
  /-- FAB_MODID has been written (R302). -/
  modidSet : Bool := false
  /-- Packets delivered to this module's dies and not yet taken by their unit. -/
  inbox : List Packet := []
  /-- What the packets of the inbox that came over a link occupy, in the order of arrival. -/
  held : List Held := []
  /-- Requests taken by their responder that wait for the host (R242, R376). -/
  waits : List Packet := []
  /-- Packets on their way over the die-to-die links, oldest first, and the number of the next (R22). -/
  crossing : List Crossing := []
  crossNext : Nat := 0
  /-- Time messages received and not yet taken by the timekeeper (R34). -/
  timeIn : List TimeMsg := []
  /-- Read and write requests of this module that are outstanding, by TXID. -/
  outst : Map Outst := []
  txidNext : Nat := 0
  /-- Number of the free value drawn as incarnation at module reset (R304, log 6): the model's own field. -/
  draw : Nat := 0
  deriving DecidableEq, Repr

/-- What the mailbox or the management endpoint answers (R368, R393, R437, R438). -/
inductive Answer where
  | success
  | invalidInput
  | unsupported
  | busy
  | alreadyInUpdateMode
  | activationNotSupported
  /-- VerifyComplete or a failed verification with the failure code of R390. -/
  | verify (fail : Nat)
  | value (v : Int)
  deriving DecidableEq, Repr

/-- A record write outstanding at the host: the vector that follows it, its address, and what the host's memory held before (R370, R381). -/
structure CacheWr where
  vector : Option Nat
  addr : Nat
  old : List Byte
  /-- PASID of the request (R234). -/
  pasid : Nat
  deriving DecidableEq, Repr

/-- Host attachment (15). -/
structure HostIf where
  linkUp : Bool := false
  cxl : Bool := false
  cacheOn : Bool := false
  memOn : Bool := false
  rate : Nat := 0
  width : Nat := 0
  flit256 : Bool := false
  lopt : Bool := false
  ideIo : Bool := false
  ideCm : Bool := false
  ideEpoch : Nat := 0
  committed : Bool := false
  winSize : Nat := 0
  /-- DPA of the frame of each window granule (R374). -/
  win : List Nat := []
  /-- Snoop filter: lines by DPA / 64, with exclusive or shared (R375). -/
  filter : Map Bool := []
  /-- Back-invalidate snoops outstanding: line and whether it invalidates. -/
  bisnp : Map Bool := []
  /-- Record writes that the host has not acknowledged (R370, R376). -/
  cacheOut : List CacheWr := []
  doeError : Bool := false
  /-- Last mailbox answer and its payload. -/
  mbox : Option Answer := none
  mboxData : List Byte := []
  /-- Protocol of the last DOE object accepted, as R379 lists them. -/
  doe : Option Nat := none
  /-- Data and poison of the last host read of the window. -/
  rdData : List Byte := []
  /-- Reads of the window that wait for room in a snoop filter: address, and whether the host may modify the line (R375). -/
  rdWait : List (Nat × Bool) := []
  rdBad : Bool := false
  /-- Host snoops answered with RspIHitI (R376). -/
  snoops : Nat := 0
  deriving DecidableEq, Repr

end Sys2Proof.Machine
end

