-- ==== Sys2Proof/Machine/StateB.lean ====
section
/-! DEFINITION. The parts of the state for boot, security, errors, counters and power (16-20 of the spec). -/
namespace Sys2Proof.Machine

/-- How far start-up has come (R384, R403). -/
inductive Phase where
  /-- No rail is up. -/
  | off
  /-- Rails coming up or in regulation with the module held in reset. -/
  | rails
  /-- Bedrock's ROM stage. -/
  | rom
  /-- Image verification. -/
  | verify
  /-- Firmware stage 1: HBM not yet trained. -/
  | stage1
  /-- Firmware stage 1: die-to-die links not yet trained. -/
  | hbmDone
  /-- Firmware stage 2. -/
  | stage2
  | ready
  | recovery
  | failed
  deriving DecidableEq, Repr

/-- Start-up, reset and the pins of J-SIDE and HOST_PERST_N (R384-R388, R402, R403, R445-R448). -/
structure Boot where
  phase : Phase := .off
  /-- GLB_RESET_CAUSE (R402). -/
  cause : Nat := 1
  fail : Nat := 0
  link : Nat := 0xFF
  pwrEn : Bool := false
  /-- HOST_PERST_N is asserted. -/
  perst : Bool := true
  /-- Sideband outputs are enabled (R385). -/
  outs : Bool := false
  faultN : Bool := false
  tripN : Bool := false
  /-- A HARD level has taken the rails down (R435). -/
  hard : Bool := false
  /-- A TRIP holds the module before the 40 ms point, or before 0 ms where it was frozen (R435). -/
  trip : Bool := false
  /-- The input left its range; a restart is due (R430). -/
  inputLost : Bool := false
  /-- Less than 1 s since the rails went down; an assertion waits (R448). -/
  deferred : Bool := false
  /-- HOST_CLKREQ_N (R444). -/
  clkreq : Bool := false
  /-- GLB_GRADE and GLB_OPE_PRESENT have been loaded from fuses (R1, R14). -/
  fusesLoaded : Bool := false
  /-- RWL fields are locked (R9). -/
  locked : Bool := false
  deriving DecidableEq, Repr

/-- One event of the measurement log (R394). -/
structure MeasEvent where
  reg : Nat
  ft : Nat
  digest : List Byte
  deriving DecidableEq, Repr

/-- A request for an identity signature (R400). Path: 0 SEC, 1 DOE, 2 MCTP, 3 CMA-SPDM. Kind: 2 QUOTE, 3 GET_LOG, 4 SPDM. -/
structure SigReq where
  path : Nat
  kind : Nat
  payload : List Byte
  deriving DecidableEq, Repr

/-- Bedrock (R389-R401). -/
structure Sec where
  /-- Bedrock's 256 KiB of SRAM, on no chain (R12, R413). What its firmware keeps there the spec does not give. -/
  sram : Mem := []
  /-- Image and key in the boot area: header, body, signature, key. Empty: none. -/
  bootArea : List Byte := []
  staged : List Byte := []
  /-- Update in progress: 0 none, 1 mailbox, 2 PLDM (R393). -/
  path : Nat := 0
  verified : Bool := false
  svnFuse : Nat := 0
  imgSvn : Nat := 0
  imgKey : Nat := 0
  meas : Map (List Byte) := []
  log : List MeasEvent := []
  m3closed : Bool := false
  /-- NEXT of the index record (R395). -/
  idxRec : Nat := 0
  next : Nat := 0
  blkEnd : Nat := 0
  /-- A record write is in flight. -/
  writing : Bool := false
  queue : List SigReq := []
  data : Mem := []
  /-- Last response given on each path: object type and payload. -/
  resp : Map (Nat × List Byte) := []
  /-- Next index not used when the last life that reserved a block ended (R395). -/
  lastNext : Nat := 0
  /-- Read-out enabled (RAS_CTL.RO_EN). -/
  roEn : Bool := false
  deriving DecidableEq, Repr

/-- RAS collector, freeze and TAP (R404-R416). -/
structure Ras where
  /-- RAS_FATAL and its FT. -/
  v : Bool := false
  more : Bool := false
  die : Nat := 0
  unit : Nat := 0
  src : Nat := 0
  fatalFt : Nat := 0
  /-- The module is stopped by a fatal error in this life. -/
  stop : Bool := false
  /-- Log producer index, and sequence number. -/
  idx : Nat := 0
  seq : Nat := 0
  wrapped : Bool := false
  kept : List (List Byte) := []
  /-- Corrected errors per source: FT second and count. -/
  ce : Map (Nat × Nat) := []
  froze : Bool := false
  fatal : Bool := false
  frozen : Bool := false
  frozenFt : Nat := 0
  tapIr : Nat := 2
  tapSel : Nat := 0
  /-- What the TAP shifted out last. -/
  tapOut : List Nat := []
  /-- Boundary-scan values last captured. -/
  scan : Nat := 0
  /-- Last value a read command returned: GLB_FRZ, GLB_FT low word, PMC_CVIEW. -/
  readVal : Nat := 0
  deriving DecidableEq, Repr

/-- A gather in progress (R419-R422). -/
structure Gather where
  demand : Bool
  /-- FT instant, or FT of the write of PMC_CTL. -/
  instant : Nat
  /-- FT of the first latch. -/
  first : Nat := 0
  /-- Address and entries of the list, and the ring with its K, as they stood at the start. -/
  list : Nat
  n : Nat
  dump : Nat
  k : Nat
  ctx : Nat
  unsync : Bool := false
  /-- Entries as read; none until the list has been read. -/
  ids : Option (List Nat) := none
  /-- Values latched, by entry. -/
  vals : Map Nat := []
  deriving DecidableEq, Repr

/-- Sampling state of a kaolin core (R425). -/
structure KcSample where
  count : Nat := 65536
  gen : Nat := 1
  /-- Sample in flight: queue and sequence number. -/
  live : Option (Nat × Nat) := none
  preempted : Bool := false
  deriving DecidableEq, Repr

/-- Performance counters (18). -/
structure Pmc where
  gather : Option Gather := none
  demandPend : Option Nat := none
  missed : Nat := 0
  seq : Nat := 0
  idx : Nat := 0
  step : Bool := false
  sampSeq : Nat := 0
  sampIdx : Nat := 0
  /-- Sample records that wait for an address translation, oldest first (R242, R426). -/
  sampWait : List (List Byte) := []
  kc : Map KcSample := []
  /-- Last instant dumped or missed. -/
  lastInstant : Nat := 0
  /-- Core cycles of 0.4 ns passed, in half cycles, as slots and gated cycles count them (R423, R432; log 4). -/
  half : Nat := 0
  /-- Cycles in which a slot made progress and that are not accounted for yet, by slot key (R423). -/
  work : Map Nat := []
  deriving DecidableEq, Repr

/-- A pacing entry (R433). -/
structure Pace where
  ft : Nat := 0
  armed : Bool := false
  w : Nat := 0
  deriving DecidableEq, Repr

/-- A sensor (R434): current and maximum in units of 0.125 C, and level held 0-3. -/
structure Sensor where
  t : Int := 0
  max : Int := 0
  level : Nat := 0
  deriving DecidableEq, Repr

/-- Marl controller (19). -/
structure Pwr where
  duty : Nat := 64
  oob : Nat := 0
  pace : Nat := 0
  /-- Thermal cap: power at entry in W, and falls of 2 % since; none without a THROTTLE level (R435). -/
  therm : Option (Nat × Nat) := none
  entries : Map Pace := []
  vin : Nat := 0
  watts : Nat := 0
  vinLow : Bool := false
  sensors : Map Sensor := []
  rails : Map Nat := []
  /-- Causes of SB_ALERT_N: duty floor (R432), THROTTLE (R435). -/
  alertDuty : Bool := false
  alertTherm : Bool := false
  /-- MCTP endpoint identifier assigned by the bus owner (R437). -/
  eid : Nat := 0
  /-- Last PLDM or MCTP answer. -/
  mctp : Option Answer := none
  /-- PlatformEventMessages sent: sensor, level, and whether the threshold was crossed upwards (R437). -/
  events : List (Nat × Nat × Bool) := []
  deriving DecidableEq, Repr

end Sys2Proof.Machine
end

