-- ==== Sys2Proof/Machine/StateC.lean ====
section
/-! DEFINITION. The parts of the state for the outer-product engines, the matrix-vector and vector units, the stream engines, the
sediment stacks, the collective engines and the ledger (04, 05, 08, 11, 13 and 14 of the spec). -/
namespace Sys2Proof.Machine

/-! Outer-product engines (04) -/

/-- What a stream's TU is: its stream and generation, its number k, and where it stands in the block list (R193). -/
structure TuTag where
  stream : Nat
  gen : Nat
  k : Nat
  entry : Nat := 0
  tu : Nat := 0
  deriving DecidableEq, Repr

/-- A tile landed in operand-buffer lines (R81, R82, R200). Line numbers count within the engine. -/
structure ObufTile where
  lines : Nat
  /-- The tile units as landed: two for BSI8. -/
  tus : List (List Byte) := []
  /-- The place was marked poisoned with every element 0 (R200). -/
  blank : Bool := false
  /-- A feeder has begun to read it (R206). -/
  begun : Bool := false
  /-- The last step that reads it has issued; the lines are released once that step has passed stage 3 (R82). -/
  leaving : Bool := false
  /-- The stream's TU that landed here, for release by SCAN (R206) and for the recorded position (R249). -/
  by_ : Option TuTag := none
  deriving DecidableEq, Repr

/-- A step in the pipeline (R79). -/
structure OpeStep where
  part : Nat
  tile : Nat
  /-- Stage reached. -/
  age : Nat := 0
  /-- Operand blocks of the K-block that this step closes: result rows and result columns. -/
  kb : Option (List Blk × List Blk) := none
  /-- Zero the tile before this step's effect (R182 Z). -/
  zero : Bool := false
  /-- First lines of the tiles of which this is the last step to read them. -/
  rel : List Nat := []
  q : Nat
  seq : Nat
  /-- The OPA's last step. -/
  final : Bool := false
  /-- Cell writes suppressed by a fence (R103). -/
  dead : Bool := false
  deriving DecidableEq, Repr

/-- An OPA in progress (R77-R86, R182). -/
structure OpaRun where
  e : Entry
  /-- Next K-block and the steps of it already issued. -/
  kb : Nat := 0
  cyc : Nat := 0
  started : Bool := false
  /-- Operand tiles that carried poison, as 4 x K-tile + 2 x side + second tile. -/
  bad : List Nat := []
  /-- Operand tiles of the K-block in progress in which a line error was met, as 2 x side + second tile (R83). -/
  struck : List Nat := []
  deriving DecidableEq, Repr

/-- A partition of an engine (R81, R87, R101-R104). -/
structure OPart where
  /-- OPE_FAULT byte: 0 none, 1 format mismatch, 2 control-state error, 3 killed context. -/
  fence : Nat := 0
  /-- Tile named by the OPA whose fault fenced the partition, and its queue (R258). -/
  fenceTile : Nat := 0
  fenceQ : Nat := 0
  fenceCtx : Nat := 0
  run : Option OpaRun := none
  tiles : Map Tile := []
  /-- Stop request (R100), and the K index last reported. -/
  stopAsk : Bool := false
  stopAt : Option Nat := none
  /-- Half-slots zeroed by a release and not used since (R258). -/
  clean : List Nat := []
  deriving DecidableEq, Repr

/-- An image in the drain buffer (R93). -/
structure DrainImg where
  part : Nat
  e : Entry
  tile : Tile
  bytes : List Byte
  /-- 512-byte units held. -/
  units : Nat
  /-- A GACC's cells that are already at the destination, where a fault stopped it (R246). -/
  done : Nat := 0
  deriving DecidableEq, Repr

/-- Lines of a row-port operation's source that were staged before a fault stopped it, with those of them that are in error; they lie in a firmware
park place (none: firmware HBM; R246, R251). -/
structure Staged where
  part : Nat
  e : Entry
  place : Option Nat := none
  bytes : List Byte := []
  bad : List Nat := []
  deriving DecidableEq, Repr

/-- An outer-product engine, by logical number. -/
structure Ope where
  mode : Nat := 0
  gang : Nat := 0xF
  gside : Bool := false
  parts : Map OPart := []
  obuf : Map ObufTile := []
  /-- Lines with a landing that is released at once, because an aborted OPA would have read it, and how many landings for earlier OPAs come first
  (R210). -/
  drop : List (Nat × Nat) := []
  /-- Lines that an earlier OPA, by sequence number, keeps for an OPA that has been aborted: they are released as it ends (R210). -/
  unkeep : List (Nat × Nat) := []
  pipe : List OpeStep := []
  drains : List DrainImg := []
  /-- Images that a PREEMPT set aside and that wait for room in the drain buffer, oldest first, each with its park place (none: firmware HBM;
  R249, R251, R253). -/
  back : List (DrainImg × Option Nat) := []
  staged : List Staged := []
  /-- Row-port operations handed over and not started, with their partitions, oldest first (R91). -/
  pend : List (Nat × Entry) := []
  /-- Whether the last cycle was frozen, and its causes A, B, SLOT, DRAIN (R84). -/
  frz : Bool := false
  causeA : Bool := false
  causeB : Bool := false
  causeSlot : Bool := false
  causeDrain : Bool := false
  deriving DecidableEq, Repr

/-! Matrix-vector units (05) -/

/-- A vector in a slot (R113, R205). -/
structure MvuVec where
  fmt : Nat
  n : Nat
  bytes : List Byte
  poison : Bool := false
  deriving DecidableEq, Repr

/-- An MVX in progress (R110-R116). -/
structure MvxRun where
  e : Entry
  /-- Next weight group. -/
  g : Nat := 0
  /-- Accumulators at O x v + o. -/
  acc : Map Row := []
  merges : Nat := 0
  deriving DecidableEq, Repr

/-- A matrix-vector unit. -/
structure Mvu where
  vecs : Map MvuVec := []
  run : Option MvxRun := none
  stopped : Bool := false
  /-- Output and K index at which it stopped. -/
  stopAt : Option (Nat × Nat) := none
  /-- Writes to vector slots held while an MVX reads the slot: slot, vector, queue and sequence number of the writer. -/
  held : List (Nat × MvuVec × Nat × Nat) := []
  /-- Finished MVX whose result waits for a QNT: VU, slot, O, V, accumulators and the entry. -/
  result : Option MvxRun := none
  deriving DecidableEq, Repr

/-! Vector units (05) -/

/-- A vector instruction that has stopped at an output block: its result blocks so far, and how many of them are written (R246, R250). -/
structure VuRun where
  q : Nat
  seq : Nat
  outs : List QBlk := []
  pos : Nat := 0
  deriving DecidableEq, Repr

/-- A binding slot of a VU (R118-R126). -/
structure VuSlot where
  /-- The generator's state (R125). -/
  rng : Nat := 0
  /-- A seed written while a QNT is in progress (R125). -/
  seedNext : Option Nat := none
  /-- The QNT in progress: queue and sequence number (R125). -/
  qnt : Option (Nat × Nat) := none
  run : Option VuRun := none
  /-- The slot's own table; before any LDTBL it reads as zeros: DESIGN CHOICE, log 78. -/
  table : List Byte := []
  /-- Drains granted and landed: source engine and partition, scratch units and the drained tile with its poison-free image. -/
  landed : List (Nat × Nat × Nat × Tile) := []
  /-- Scratch units of issued instructions that have not completed: queue, sequence number, units (R118). -/
  scr : List (Nat × Nat × Nat) := []
  deriving DecidableEq, Repr

/-- A vector unit. -/
structure Vu where
  slots : Map VuSlot := []
  deriving DecidableEq, Repr

/-! Stream engines (08) -/

/-- One arming of a stream: what its transfers and its write-back need (R191, R193, R207). -/
structure Arming where
  gen : Nat := 0
  /-- Descriptor address, and bytes 0-47 as read. -/
  at_ : Nat := 0
  desc : Nat := 0
  /-- Queue that armed it. -/
  q : Nat := 0
  poisoned : Nat := 0
  late : Nat := 0
  silt : Nat := 0
  /-- Next k. -/
  k : Nat := 0
  /-- Entries issued whole with ESIG and not signalled yet, each as the first k after it; and the last bound signalled. -/
  sigs : List Nat := []
  sigDone : Nat := 0
  darm : Nat := 0
  /-- Its end has been written back: it is fetched again only because a PREEMPT released what it had landed (R249). -/
  ended : Bool := false
  deriving DecidableEq, Repr

/-- A stream context (R189, R190). -/
structure Stream where
  /-- State code of R190; HELD is computed. -/
  st : Nat := 0
  ctx : Nat := 0
  slot : SlotRef := ⟨6, 0, 0⟩
  cur : Arming := {}
  /-- The previous generation while transfers of it are outstanding. -/
  old : Option Arming := none
  /-- Earlier generations of which landed places are still to be read, oldest first. -/
  past : List Arming := []
  /-- TUs of earlier generations that a PREEMPT released unread: they are fetched anew first (R249, R253). -/
  redo : List TuTag := []
  /-- An arming accepted while the stream is CANCELLING, its order of arming, and whether a SCAN has cancelled it too (R189, R206, R207). -/
  next : Option Arming := none
  nextOrder : Nat := 0
  nextOff : Bool := false
  /-- The last generation given (R207). -/
  gen : Nat := 0
  /-- Next entry and TU to issue, and the entry as read. -/
  entry : Nat := 0
  tu : Nat := 0
  ent : Option Nat := none
  /-- Order of arming (R189). -/
  order : Nat := 0
  /-- SCAN instructions that wait for CANCELLED: queue and sequence number. -/
  scans : List (Nat × Nat) := []
  /-- Status that a cancel ends with: 5, 3 at its DEADLINE, 7 on an aborted fault. -/
  endCode : Nat := 5
  /-- Detail of an invalid block-list entry (R192). -/
  illegal : Option Nat := none
  fid : Option Nat := none
  /-- Passed over until RESUME (R189). -/
  parked : Bool := false
  deriving DecidableEq, Repr

/-- A descriptor write-back in flight, with the SCANs that complete once it is acknowledged (R193, R206). -/
structure WriteBack where
  stream : Nat
  ctx : Nat
  q : Nat
  endref : Nat
  code : Nat
  scans : List (Nat × Nat) := []
  /-- Silt that the SCANs report. -/
  silt : Nat := 0
  /-- Address and bytes of the write; whether it has been made, or given up; and the fault that it waits at (R245). -/
  at_ : Nat := 0
  bytes : List Byte := []
  wrote : Bool := false
  fid : Option Nat := none
  deriving DecidableEq, Repr

/-- A fetch in the tracker of an SE (R197). -/
structure Fetch where
  /-- The stream's TU, or none for a slot instruction. -/
  tag : Option TuTag := none
  q : Nat
  seq : Nat := 0
  ctx : Nat
  /-- Bytes read: one TU, or two for a BSI8 pair; and how many of them are poison. -/
  tus : List (List Byte)
  bad : Nat := 0
  transpose : Bool := false
  staged : Bool := false
  /-- MEM: the address of each TU. -/
  addrs : List Nat := []
  /-- OBUF: the engines with the line within each, and the lines of the place. -/
  engines : List (Nat × Nat) := []
  plines : Nat := 0
  /-- Landing is discarded as silt (R206). -/
  silt : Bool := false
  /-- A spill move of a PUSH (R271). -/
  spill : Bool := false
  /-- Places of the sediment stack that a POP's fetch has read. -/
  from_ : List Nat := []
  /-- Addresses that its TUs come from. -/
  src : List Nat := []
  /-- Which of its TUs come from host memory (R381). -/
  t2 : List Bool := []
  /-- A slot instruction's counts of TUs and of destination places when it issued the fetch. -/
  at_ : Nat × Nat := (0, 0)
  deriving DecidableEq, Repr

/-- A slot instruction that moves TUs: TCOPY, PUSH or POP (R195). -/
structure SeJob where
  e : Entry
  /-- TUs taken so far and in all, and places or lines used at the destination. -/
  k : Nat := 0
  total : Nat
  idx : Nat := 0
  /-- Places of the sediment stack still to use: targets of a PUSH, sources of a POP. -/
  places : List Nat := []
  /-- PUSH: moves to the spill region still to issue, and those not yet acknowledged. -/
  moves : List (Nat × Nat) := []
  moving : Nat := 0
  poisoned : Nat := 0
  /-- Ended by an error or an abort: no further fetch. -/
  stop : Bool := false
  deriving DecidableEq, Repr

/-- An UPD in progress: its next block, the blocks left unchanged, and the record as read (R246, R249, R276, R281). -/
structure UpdRun where
  e : Entry
  b : Nat := 0
  bad : Nat := 0
  record : Option Nat := none
  deriving DecidableEq, Repr

/-- A stream engine. -/
structure Se where
  tracker : Map Fetch := []
  jobs : List SeJob := []
  upds : List UpdRun := []
  /-- Turn among streams and slots that have no priority (R199). -/
  turn : Nat := 0
  wbs : List WriteBack := []
  deriving DecidableEq, Repr

/-! Sediment stacks (11) -/

/-- An entry of a micro-batch (R268): its TUs in push order, each as twice its place, plus 1 where it lies in the spill region. -/
structure SedEntry where
  layer : Nat
  places : List Nat := []
  /-- TUs whose writes, by PUSH or by a spill, are not yet acknowledged. -/
  writing : Nat := 0
  deriving DecidableEq, Repr

/-- A micro-batch: reservation, entries, top first (R269), and the places that a POP is still to read. -/
structure SedMb where
  resv : Nat := 0
  entries : List SedEntry := []
  claimed : List Nat := []
  deriving DecidableEq, Repr

/-- The stack of a context (R267, R284). -/
structure Sed where
  base : Nat := 0
  size : Nat := 0
  spbase : Nat := 0
  spsize : Nat := 0
  mbs : Map SedMb := []
  deriving DecidableEq, Repr

/-! Collective engines (13) -/

/-- A group set at an RCE (R311, R312). -/
structure Group where
  ctx : Nat
  m : Nat
  rank : Nat
  pred : Nat
  succ : Nat
  seq : Nat := 0
  deriving DecidableEq, Repr

/-- Bucket states of R317. -/
inductive BktState where
  | open_ | closing | held | carry
  deriving DecidableEq, Repr

/-- A bucket or carry record (R314-R330). -/
structure Bucket where
  st : BktState := .open_
  rce : Nat
  slot : Nat
  q : Nat
  ctx : Nat
  id : Nat
  epoch : Nat
  gc : Nat
  op : Nat
  late : Nat
  ncontrib : Nat
  stage : Nat
  nblk : Nat
  thin : Nat
  close : Nat
  /-- Local rounds completed (R330). -/
  round : Nat := 0
  /-- The round has passed here (R326). -/
  passed : Bool := false
  /-- The BCLOSE of the last round that is at the head of its slot, or has completed. -/
  bclose : Option Entry := none
  /-- Finals given up (R324). -/
  gaveUp : Bool := false
  /-- The successor's data of the round is late: its GRANT differs from this bucket, or it has sent REVOKE (R318, R340). -/
  cut : Bool := false
  /-- Format of landed all-gather or broadcast data (R325). -/
  fmt : Option Nat := none
  /-- Moved data that has landed, as block and rank of origin, with poison (R325; log 23). -/
  landed : Map (Nat × Bool) := []
  /-- Blocks sent on as finals or moved data. -/
  sent : List Nat := []
  /-- Own blocks counted already in this span of rounds (R330). -/
  counted : List Nat := []
  /-- The fault at which what it sends stands (R246). -/
  fid : Option Nat := none
  /-- Blocks whose send an aborted fault has ended, with the kind of the send (log 100). -/
  lost : List (Nat × Nat) := []
  deriving DecidableEq, Repr

/-- A grant of a successor (R318): `n` grants of one CLOSE may be held for successive rounds. -/
structure Grant where
  rce : Nat
  gc : Nat
  close : Nat
  nblk : Nat
  op : Nat
  n : Nat := 1
  deriving DecidableEq, Repr

/-- Narrow data to be sent on once its GGRANT is held (R337). -/
structure GSend where
  origin : Nat
  first : Nat
  k : Nat
  fmt : Nat
  poison : Bool
  data : List Byte
  deriving DecidableEq, Repr

/-- A GGRANT held: 16 x RCE + GC, epoch and SEQ, with what it says of the granter's GATHER (R331, R337). -/
structure GGrant where
  at_ : Nat
  epoch : Nat
  seq : Nat
  nblk : Nat
  fmt : Nat
  /-- Rank of the granter. -/
  origin : Nat
  deriving DecidableEq, Repr

/-- Group data in a slot of an RCE's share of the stream buffer, that a translation stops at a block (R246, R313). -/
structure RceSlot where
  rce : Nat
  pkt : Packet
  /-- Next block to be merged or landed. -/
  next : Nat := 0
  fid : Option Nat := none
  deriving DecidableEq, Repr

/-- A GATHER in progress (R337-R339). -/
structure GatherJob where
  e : Entry
  rce : Nat
  gc : Nat
  seq : Nat
  epoch : Nat
  nfmt : Nat
  wfmt : Nat
  nblk : Nat
  dest : Nat
  /-- Own blocks read so far. -/
  own : Nat := 0
  /-- Blocks landed, by rank x NBLK + block, with poison. -/
  landed : Map (Bool × List Byte) := []
  /-- Ranks whose shard arrived in another NFMT or beyond NBLK. -/
  wrong : List Nat := []
  /-- Tiles written, and those written with POISON. -/
  written : List Nat := []
  poisoned : Nat := 0
  /-- The instruction has completed; data may still wait for a GGRANT. -/
  fin : Bool := false
  sendq : List GSend := []
  /-- Arrived data that holds a stream-buffer slot, as rank, first block and blocks (R313). -/
  slots : List (Nat × Nat × Nat) := []
  deriving DecidableEq, Repr

/-- A BPUT or BOPEN stopped part-done: next block or step, late and poisoned blocks so far, and the carried blocks read, as number, element field and
record word (R246, R328, R329). -/
structure PutRun where
  e : Entry
  b : Nat := 0
  late : Nat := 0
  bad : Nat := 0
  carry : List (Nat × Nat × Nat) := []
  deriving DecidableEq, Repr

/-- The RCEs. -/
structure Rce where
  /-- Groups by 16 x RCE + GC. -/
  groups : Map Group := []
  /-- Buckets by 256 x ID + EPOCH. -/
  buckets : Map Bucket := []
  /-- Grants held, by 256 x ID + EPOCH. -/
  grants : Map Grant := []
  ggrants : List GGrant := []
  /-- Data of buckets in the RCEs' stream-buffer slots, in the order of arrival (R313). -/
  slots : List RceSlot := []
  gathers : List GatherJob := []
  puts : List PutRun := []
  /-- EPOCH instructions pending: entry and the new epoch (R334). -/
  epochs : List (Entry × Nat) := []
  deriving DecidableEq, Repr

/-! Pre-emption (10) -/

/-- What R250 saves of a queue's unit: an OPE partition's OPA, pending row-port operations, unsent images and tiles with their first
firmware place (none: firmware HBM, R251); an MVU's MVX, result and vector slots; a VU slot's generator, table, landed drains and scratch. -/
structure SavedUnit where
  run : Option OpaRun := none
  pend : List Entry := []
  drains : List (DrainImg × Option Nat) := []
  tiles : List (Nat × Tile × Option Nat) := []
  mvx : Option MvxRun := none
  result : Option MvxRun := none
  vecs : Map MvuVec := []
  held : List (Nat × MvuVec × Nat × Nat) := []
  /-- Place in firmware's HBM region of an MVU's accumulators and vector slots (R250). -/
  at_ : Option Nat := none
  vu : VuSlot := {}
  deriving DecidableEq, Repr

/-! Ledger (14) -/

/-- Counts of one class and of one of its parts (R360). -/
structure Ldg where
  taken : Nat := 0
  returned : Nat := 0
  reclaimed : Nat := 0
  deriving DecidableEq, Repr

/-- The ledger by class x 65,536 + part, its snapshot and its check (R361). -/
structure Ledger where
  live : Map Ldg := []
  snap : Map Ldg := []
  snapCap : Map Nat := []
  busy : Bool := false
  quiesce : Bool := false
  kind : Nat := 0
  cls : Nat := 0
  inst_ : Nat := 0
  deriving DecidableEq, Repr

end Sys2Proof.Machine
end

