-- ==== Sys2Proof/Machine/State.lean ====
section
/-! DEFINITION. The state of the module as plain data, its reset value, and the reasons a step can stop. -/
namespace Sys2Proof.Machine

/-- Reasons for a fault. No meaning raises one: the spec describes no way in which a command stops the block. Safe. -/
inductive Fault where
  /-- Raised by nothing. Safe. -/
  | unreachable
  deriving DecidableEq, Repr

/-- Reasons for a refusal. -/
inductive Refusal where
  /-- Raised by an arm of exec whose command has no meaning in the model yet, under the command's mnemonic. Safe. -/
  | notModelled (mnemonic : String)
  deriving DecidableEq, Repr

/-- Everything of the module but its fuses, its fabric time and the queue of commands. -/
structure Core where
  regs : RegFile := {}
  irq : Irq := {}
  unsync : Nat := 0
  qm : Qmg := {}
  cmds : Map Cmd := []
  mmu : Mmu := {}
  mem : Memory := {}
  fab : Fab := {}
  host : HostIf := {}
  boot : Boot := {}
  sec : Sec := {}
  ras : Ras := {}
  pmc : Pmc := {}
  pwr : Pwr := {}
  opes : Map Ope := []
  mvus : Map Mvu := []
  vus : Map Vu := []
  ses : Map Se := []
  streams : Map Stream := []
  armNext : Nat := 0
  seds : Map Sed := []
  /-- Saved units of PREEMPTED queues (R250). -/
  saved : Map SavedUnit := []
  rce : Rce := {}
  ldg : Ledger := {}
  /-- Number of free values taken so far: the model's own field, log 6. -/
  free : Nat := 0
  deriving DecidableEq, Repr

/-- The module: immutable fuses, fabric time, everything else, and the commands that wait, first in first out. -/
structure State where
  fuse : Fuses := {}
  ft : FabTime := {}
  core : Core := {}
  pending : List Instr := []
  deriving DecidableEq, Repr

/-- The module right after reset: unpowered, HOST_PERST_N asserted, no command waiting. Log 1 and 2. -/
def State.reset : State := {}

end Sys2Proof.Machine
end

