-- ==== Sys2Proof/Machine/Ops.lean ====
section
/-! DEFINITION. Named operations over registers, event bits, counters, interrupts and memory that every command uses, and
the lifts that make an outcome of a change of the state. -/
namespace Sys2Proof.Machine

/-- What a meaning answers. -/
abbrev Out := Host.Outcome State Fault Refusal

/-- The module's FT in whole nanoseconds. -/
abbrev State.now (s : State) : Nat := s.ft.ns

/-- FT as the units of a die compare scheduled values with it: a quarter's own copy, the timekeeper's count at the hub (R27). -/
def State.nowAt (s : State) (die : Nat) : Nat :=
  match mget s.ft.copies die with
  | none => s.now
  | some d => (((s.ft.ns * 65536 + s.ft.frac : Nat) + d) / 65536).toNat

/-- A command's effect that leaves the fuses, fabric time and the queue of commands alone. -/
def liftCore (f : State → State) (s : State) : Out := .next { s with core := (f s).core }

/-- A command's effect that may also change the discipline of fabric time (its lock state, parent and counts), but never the value of FT. -/
def liftLock (f : State → State) (s : State) : Out :=
  .next { s with ft := { (f s).ft with ns := s.ft.ns, frac := s.ft.frac }, core := (f s).core }

/-- A command's effect that may also change fabric time: corrections of FT, and the start of a new life. -/
def liftTime (f : State → State) (s : State) : Out := .next { s with ft := (f s).ft, core := (f s).core }

/-- A guarded effect: where the guard does not hold the event does not happen (log 5). -/
def guardBy (p : State → Bool) (f : State → State) (s : State) : State := if p s then f s else s

/-- The module is powered, ready and running (R384, R411). -/
def State.live (s : State) : Bool :=
  decide (s.core.boot.phase = .ready) && !s.core.ras.frozen

/-- Live and not stopped by a module-fatal error (R410). -/
def State.dispatching (s : State) : Bool := s.live && !s.core.ras.stop

/-- An effect of a running module. -/
def whenLive (f : State → State) : State → State := guardBy State.live f

/-- An effect of a running module without a fatal error. -/
def whenDispatching (f : State → State) : State → State := guardBy State.dispatching f

/-- f where p, else the state as it is. -/
def State.iff (s : State) (p : Bool) (f : State → State) : State := if p then f s else s

/-! Register fields -/

/-- A writable register field: block-absolute offset, low bit, width and reset value. -/
structure Fld where
  off : Nat
  lo : Nat
  w : Nat
  rst : Nat := 0
  deriving DecidableEq, Repr

/-- The bit address under which a field is kept. -/
def Fld.key (f : Fld) : Nat := 8 * f.off + f.lo

/-- The value of a register field. -/
def State.reg (s : State) (f : Fld) : Nat := mgetD s.core.regs.csr f.key f.rst

/-- Set a register field. -/
def State.setReg (s : State) (f : Fld) (v : Nat) : State :=
  { s with core.regs.csr := mput s.core.regs.csr f.key (v % 2 ^ f.w) }

/-! Counters (R109, R418) -/

/-- The chained value of the counter at an offset. -/
def State.counter (s : State) (off : Nat) : Nat := mgetD s.core.regs.cnt off 0

/-- Add n to the counter at an offset; the chained value wraps at 2^64 (R418). -/
def State.bump (s : State) (off n : Nat) : State :=
  { s with core.regs.cnt := mput s.core.regs.cnt off ((s.counter off + n) % 2 ^ 64) }

/-- Set the counter at an offset (views that hold a maximum or that fall, R261). -/
def State.setCounter (s : State) (off n : Nat) : State :=
  { s with core.regs.cnt := mput s.core.regs.cnt off (n % 2 ^ 64) }

/-! Block bases (R367 and the register chapters) -/

def glbBase : Nat := 0
def hifBase : Nat := 0x10000
def qmgBase : Nat := 0x20000
def flgBase : Nat := 0x100000
def opeBase (n : Nat) : Nat := 0x200000 + 0x4000 * n
def mvuBase (n : Nat) : Nat := 0x300000 + 0x4000 * n
def vuBase (n : Nat) : Nat := 0x340000 + 0x4000 * n
def seBase (n : Nat) : Nat := 0x380000 + 0x2000 * n
def memBase (s : Nat) : Nat := 0x400000 + 0x10000 * s
def nmuBase (s : Nat) : Nat := memBase s + 0x8000
def sedBase : Nat := memBase 0 + 0xC000
def ftlBase : Nat := 0x480000
def mmuBase : Nat := 0x500000
def fabBase (p : Nat) : Nat := 0x600000 + 0x8000 * p
def fabGBase : Nat := 0x6C0000
def fabRtBase : Nat := 0x6D0000
def fabMcBase : Nat := 0x6E0000
def rceBase (n : Nat) : Nat := 0x700000 + 0x4000 * n
def rceGBase : Nat := 0x780000
def pmcBase : Nat := 0x800000
def rasBase : Nat := 0x900000
def secBase : Nat := 0xA00000
def pwrBase : Nat := 0xB00000

/-! Interrupt vectors (R371-R373) -/

def fldModUsec : Fld := ⟨hifBase + 0x30, 0, 16, 0⟩
def fldEvtMask : Fld := ⟨hifBase + 0x34, 0, 7, 0⟩

/-- Vector and HIF_EVT_MASK bit of the source group that a W1C register at an offset belongs to (R371). -/
def vectorOf (off : Nat) : Option Nat :=
  if off = qmgBase + 0x80 ∨ off = mmuBase + 0x80 ∨ off = rceGBase + 0x80 then some 0
  else if 0x700000 ≤ off ∧ off < 0x780000 then some 0
  else if off = hifBase + 0x80 then some 1
  else if off = 0x880 ∨ off = ftlBase + 0x80 ∨ off = pmcBase + 0x80 then some 2
  else if 0x380000 ≤ off ∧ off < 0x480000 then some 2
  else if 0x600000 ≤ off ∧ off < 0x6C0000 then some 3
  else if off = rasBase + 0x80 then some 4
  else if off = secBase + 0x80 then some 5
  else if off = pwrBase + 0x80 then some 6
  else none

/-- Send vector v now: at most once per HIF_MOD.USEC (R373). -/
def State.sendNow (s : State) (v : Nat) : State :=
  let s := { s with core.irq.sent := mupd s.core.irq.sent v 0 (· + 1) }
  let s := s.bump (hifBase + 0x130) 1
  let u := s.reg fldModUsec
  if u = 0 then s else { s with core.irq.busy := mput s.core.irq.busy v (s.now + 1000 * u) }

/-- Make vector v pending: moderated, masked into the PBA, or sent (R371, R373). -/
def State.sendVector (s : State) (v : Nat) : State :=
  if s.core.irq.fmask || smem v s.core.irq.masked then { s with core.irq.pba := sins v s.core.irq.pba }
  else if mhas s.core.irq.busy v then { s with core.irq.again := sins v s.core.irq.again }
  else s.sendNow v

/-- A hardware set of W1C bit i of the register at an offset: the bit, its event count and its vector (R155, R371). -/
def State.raise (s : State) (off i : Nat) : State :=
  let k := 8 * off + i
  let s := { s with core.regs.csr := mput s.core.regs.csr k 1,
                    core.regs.evc := mput s.core.regs.evc k ((mgetD s.core.regs.evc k 0 + 1) % 65536) }
  match vectorOf off with
  | none => s
  | some v => if (s.reg fldEvtMask).testBit v then s else s.sendVector v

/-- Raise a bit where a condition holds. -/
def State.raiseIf (s : State) (p : Bool) (off i : Nat) : State := if p then s.raise off i else s

/-- A W1C bit as it stands. -/
def State.flagBit (s : State) (off i : Nat) : Bool := mgetD s.core.regs.csr (8 * off + i) 0 = 1

/-! Grade and resources (R1-R4, R13-R15) -/

/-- Engines present (R1, R2). -/
def State.opeCount (s : State) : Nat := if s.fuse.grade = 3 then 48 else if s.fuse.grade = 2 then 56 else 64

/-- HBM stack present (R3). -/
def State.stackPresent (s : State) (k : Nat) : Bool := k < 8 && !(s.fuse.grade = 3 && (k = 3 || k = 7))

/-- Fabric port present (R3). -/
def State.portPresent (s : State) (p : Nat) : Bool := p < 20 && !(s.fuse.grade = 3 && p % 5 = 4)

/-- Physical positions of the logical engines, in ascending order (R15). -/
def State.opePositions (s : State) : List Nat := setBits 64 s.fuse.opePresent

/-- Physical position 16q + e of logical engine n (R15). -/
def State.opePhys (s : State) (n : Nat) : Option Nat := s.opePositions[n]?

/-- Logical number of the engine at a physical position (R15). -/
def State.opeLogical (s : State) (p : Nat) : Option Nat :=
  if s.fuse.opePresent.testBit p then some ((s.opePositions.filter (· < p)).length) else none

/-- Quarter of logical engine n (R13). -/
def State.opeQuarter (s : State) (n : Nat) : Nat := ((s.opePhys n).getD 0) / 16

/-- Logical TUs of the flash tier (R212). -/
def State.flashTus (s : State) : Nat := if s.fuse.grade = 3 then 976562500 else 1953125000

/-- Frames of 2 MiB in a stack (R214). -/
def framesPerStack : Nat := 61035

/-- Bytes of a frame. -/
def frameBytes : Nat := 2097152

/-- DPA of stack k, offset o (R237). -/
def dpa (k o : Nat) : Nat := k * 2 ^ 37 + o

/-- A DPA within the frames of a present stack (R238). -/
def State.dpaOk (s : State) (a : Nat) : Bool :=
  s.stackPresent (a / 2 ^ 37) && a % 2 ^ 37 < framesPerStack * frameBytes

/-! Slots (R135) -/

/-- Kind of unit of a class: 0 OPE, 1 MVU, 2 VU, 3 SE, 4 RCE. -/
def kindOf (cls : Nat) : Nat := if cls ≤ 3 then 0 else cls - 3

/-- Key of a slot in the maps of the state. -/
def slotKey (r : SlotRef) : Nat := kindOf r.cls * 65536 + r.unit * 16 + r.slot

/-- A slot made progress for n cycles (R423). -/
def State.worked (s : State) (r : SlotRef) (n : Nat) : State := { s with core.pmc.work := mupd s.core.pmc.work (slotKey r) 0 (· + n) }

/-- Binding slots per unit (R135). -/
def slotsOf (cls : Nat) : Nat :=
  match cls with
  | 0 => 1 | 1 => 2 | 2 => 2 | 3 => 4 | 4 => 1 | 5 => 4 | 6 => 8 | 7 => 4 | _ => 0

/-- EIQ entries per slot (R135). -/
def shareOf (cls : Nat) : Nat :=
  match cls with
  | 0 => 64 | 1 => 32 | 2 => 32 | 3 => 16 | 4 => 64 | 5 => 16 | 6 => 8 | 7 => 16 | _ => 0

/-- Units of a class (R11, R2). -/
def State.unitsOf (s : State) (cls : Nat) : Nat :=
  if cls ≤ 3 then s.opeCount
  else match cls with
    | 4 => 8 | 5 => 16 | 6 => 32 | 7 => 16 | _ => 0

/-- Quarter of a unit of a class (R13). -/
def State.quarterOf (s : State) (cls u : Nat) : Nat :=
  if cls ≤ 3 then s.opeQuarter u
  else match cls with
    | 4 => u / 2 | 5 => u / 4 | 6 => u / 8 | 7 => u / 4 | _ => 0

/-- Unit field of completion and fault records (R144). -/
def slotCode (r : SlotRef) : Nat := (put 12 4 r.cls) + (put 4 8 r.unit) + (put 0 4 r.slot)

/-! Ledger (R348, R360) -/

/-- Key of a ledger class and part. -/
def ldgKey (cls i : Nat) : Nat := cls * 65536 + i

/-- Take n units of a class. -/
def State.take (s : State) (cls i n : Nat) : State :=
  { s with core.ldg.live := mupd s.core.ldg.live (ldgKey cls i) {} (fun l => { l with taken := (l.taken + n) % 2 ^ 48 }) }

/-- Return n units of a class. -/
def State.give (s : State) (cls i n : Nat) : State :=
  { s with core.ldg.live := mupd s.core.ldg.live (ldgKey cls i) {} (fun l => { l with returned := (l.returned + n) % 2 ^ 48 }) }

/-- Return n units of a class through a reclaiming path. -/
def State.reclaim (s : State) (cls i n : Nat) : State :=
  { s with core.ldg.live := mupd s.core.ldg.live (ldgKey cls i) {} (fun l =>
      { l with returned := (l.returned + n) % 2 ^ 48, reclaimed := (l.reclaimed + n) % 2 ^ 48 }) }

/-- Units held: taken less returned, modulo 2^48 (R348). -/
def Ldg.heldOf (l : Ldg) : Nat := (l.taken + 2 ^ 48 - l.returned % 2 ^ 48) % 2 ^ 48

/-- Units of a class held now. -/
def State.heldUnits (s : State) (cls i : Nat) : Nat := (mgetD s.core.ldg.live (ldgKey cls i) {}).heldOf

/-- Part number of an EIQ in the ledger (R360 class 0x08). -/
def eiqPart (r : SlotRef) : Nat := 256 * kindOf r.cls + r.unit

/-! FT-scheduled actions (R38, R39) -/

/-- Count an action that triggers from an FT value while not LOCKED or HOLDOVER (R39). -/
def State.scheduled (s : State) : State :=
  match s.ft.lock with
  | .free | .acquiring => { s with core.unsync := (s.core.unsync + 1) % 65536 }
  | _ => s

end Sys2Proof.Machine
end

