-- ==== Sys2Proof/Machine/Ras.lean ====
section
/-! DEFINITION. Host memory writes of the hub, the RAS log (17_errors R407-R410), and the sideband fault output. -/
namespace Sys2Proof.Machine

def fldLogBase : Fld := ⟨rasBase + 0x8, 12, 52, 0⟩
def fldLogN : Fld := ⟨rasBase + 0x8, 0, 5, 8⟩
def fldCeThresh : Fld := ⟨rasBase + 0x14, 0, 16, 1024⟩
def fldHold : Fld := ⟨rasBase, 16, 8, 10⟩
def fldFrzOnFatal : Fld := ⟨rasBase, 2, 1, 0⟩
def fldFrzEn : Fld := ⟨rasBase, 1, 1, 1⟩
def rasInt : Nat := rasBase + 0x80

/-- Bytes written to host memory through CXL.cache (R376); while the link is down they are discarded and counted (R381). A line written whole is
no longer poisoned (R204). -/
def State.hostWrite (s : State) (a : Nat) (bs : List Byte) : State :=
  if s.core.host.linkUp then
    { s with core.mem.host := memWrites s.core.mem.host a bs,
             core.mem.hostBad := s.core.mem.hostBad.filter (fun l => !(decide (a ≤ l * 64) && decide (l * 64 + 64 ≤ a + bs.length))) }.bump
      (hifBase + 0x110) bs.length
  else ((s.bump (hifBase + 0x138) 1).raise (hifBase + 0x80) 1)

/-- Bytes read from host memory, and whether they are poison: a line that the host reports so, or any while the link is down (R203, R376, R381). -/
def State.hostRead (s : State) (a n : Nat) : List Byte × Bool :=
  if s.core.host.linkUp then
    (memReads s.core.mem.host a n, s.core.mem.hostBad.any (fun l => decide (l * 64 < a + n) && decide (a < l * 64 + 64)))
  else (leBytes n 0, true)

/-- log2 of the records of the module log (R415). -/
def State.logN (s : State) : Nat :=
  let n := s.reg fldLogN
  if 6 ≤ n ∧ n ≤ 16 then n else 8

/-- The 64 bytes of a log record (R409). -/
def rasRecord (type phase cls src die unit ctx addr ft detail count seq : Nat) : List Byte :=
  leBytes 64 (put 0 8 type + put 8 1 phase + put 9 3 cls + put 16 8 src + put 24 8 die + put 32 16 unit
    + put 48 16 ctx + put 64 64 addr + put 128 64 ft + put 192 64 detail + put 256 32 count + put 496 16 seq)

/-- Write a record to the module log and keep it among the latest 256 (R409). -/
def State.rasLog (s : State) (type cls src die unit ctx addr detail count : Nat) : State :=
  let n := s.logN
  let i := s.core.ras.idx
  let phase := if (i / 2 ^ n) % 2 = 0 then 1 else 0
  let rec_ := rasRecord type phase cls src die unit ctx addr s.now detail count s.core.ras.seq
  let ovf := s.core.ras.wrapped
  let i' := (i + 1) % 2 ^ (n + 1)
  let s := { s with core.ras.kept := (rec_ :: s.core.ras.kept).take 256,
                    core.ras.seq := (s.core.ras.seq + 1) % 65536 }
  if s.reg fldLogBase = 0 then s
  else
    let a := s.reg fldLogBase * 4096 + 64 * (i % 2 ^ n)
    let s := { s with core.ras.idx := i', core.ras.wrapped := s.core.ras.wrapped || decide (i' % 2 ^ n = 0) }
    let s := s.raiseIf ovf rasInt 0
    if s.core.host.linkUp then s.hostWrite a rec_ else (s.hostWrite a rec_).bump (rasBase + 0x130) 1

/-- A contained uncorrected error: logged, RAS_INT.UC set (R404, R409). -/
def State.rasUc (s : State) (src die unit ctx addr n : Nat) : State :=
  (s.rasLog 0x10 1 src die unit ctx addr 0 n).raise rasInt 2

/-- A corrected error of a source; a storm record at the threshold (R409). -/
def State.rasCe (s : State) (src die : Nat) : State :=
  let sec := s.now / 1000000000
  let old := mgetD s.core.ras.ce src (sec, 0)
  let n := if old.1 = sec then old.2 + 1 else 1
  let s := { s with core.ras.ce := mput s.core.ras.ce src (sec, n) }
  let th := s.reg fldCeThresh
  if th ≠ 0 ∧ n = th then (s.rasLog 0x10 0 src die 0xFFFF 0xFFFF 0 0 n).raise rasInt 1 else s

/-- A module-fatal error (R410): the first is latched, a second sets MORE; dispatch stops, SB_FAULT_N is asserted. -/
def State.fatalError (s : State) (src die unit : Nat) : State :=
  if s.core.ras.v && s.core.ras.stop then { s with core.ras.more := true }
  else
    let s := { s with core.ras.v := true, core.ras.more := false, core.ras.die := die, core.ras.unit := unit, core.ras.src := src,
                      core.ras.fatalFt := s.now, core.ras.stop := true,
                      core.boot.faultN := true }
    (s.rasLog 0x10 3 src die 0xFFFF 0xFFFF 0 0 1).raise rasInt 4

end Sys2Proof.Machine
end

