-- ==== Sys2Proof/Machine/PoolOps.lean ====
section
/-! DEFINITION. Reading and writing the tiers at their own addresses, and the tile pool's fills, evictions and write-backs
(09_memory_tiers_and_tile_pool). -/
namespace Sys2Proof.Machine

/-- Where a device virtual address leads (R215). -/
inductive Loc where
  | hbm (a : Nat)
  | flash (a : Nat)
  | host (a : Nat)
  | pool1 (a stack : Nat)
  | pool2 (a stack : Nat)
  deriving DecidableEq, Repr

def memInt (k : Nat) : Nat := memBase k + 0x80
def ftlInt : Nat := ftlBase + 0x80

/-! HBM (R212, R406) -/

/-- Is any line of [a, a + n) marked poisoned? -/
def State.hbmPoison (s : State) (a n : Nat) : Bool :=
  s.core.mem.badLines.any (fun l => decide (l * 64 < a + n) && decide (a < l * 64 + 64))

/-- 64-byte words of a stack's write queue that data may fill, and those that records may (R346, R355). -/
def wqData : Nat := 240
def wqRecords : Nat := 256

/-- m words are accepted by the write queue of stack k, which fills up to `cap`; those that came before make room by being written to DRAM
(R344, R354, R360 class 0x10). -/
def State.wqPut (s : State) (k m cap : Nat) : State :=
  let n := mgetD s.core.mem.wq k 0
  let now := min (n + m) (max cap (min n wqRecords))
  let s := (s.take 0x10 k m).give 0x10 k (n + m - now)
  { s with core.mem.wq := mput s.core.mem.wq k now }

/-- What the write queues hold is written to DRAM, as in every nanosecond of the module by itself: DESIGN CHOICE, log 96. -/
def State.wqDrain (s : State) : State :=
  { (s.core.mem.wq.foldl (fun s e => s.give 0x10 e.1 e.2) s) with core.mem.wq := [] }

/-- HBM bytes written, through the controller's write queue; a line written whole loses its mark (R406). -/
def State.hbmWrite (s : State) (a : Nat) (bs : List Byte) (cap : Nat := wqData) : State :=
  let n := bs.length
  let s := s.wqPut (a / 2 ^ 37) (ceilDiv (a % 64 + n) 64) cap
  { s with core.mem.hbm := memWrites s.core.mem.hbm a bs,
           core.mem.badLines := s.core.mem.badLines.filter (fun l => !(decide (a ≤ l * 64) && decide (l * 64 + 64 ≤ a + n))) }.bump
    (memBase (a / 2 ^ 37) + 0x108) n

/-- Mark the line of a DPA poisoned, as an uncorrectable read or a scrub does (R406). -/
def State.markLine (s : State) (a : Nat) : State :=
  { s with core.mem.badLines := sins (a / 64) s.core.mem.badLines }.bump (rasBase + 0x110) 1

/-! Flash (R226-R230) -/

/-- RECOVER completes once every marked TU has been retried (R233). -/
def State.ftlSettle (s : State) : State :=
  if (mgetD s.core.cmds 4 {}).busy && s.core.mem.recovering.isEmpty then
    { s with core.cmds := mupd s.core.cmds 4 {} (fun c => { c with busy := false, result := 0 }) }
  else s

/-- The recovery of a TU is abandoned, as a program has written it: no replica is written (R229). -/
def State.endRecovery (s : State) (tu : Nat) : State :=
  if smem tu s.core.mem.recovering then
    { s with core.mem.recovering := sdel tu s.core.mem.recovering, core.mem.progQ := s.core.mem.progQ.filter (fun e => e.1 ≠ tu) }.ftlSettle
  else s

/-- A TU has been programmed: its bytes with what is rewritten and retired meanwhile, and the warning at 80 percent of the rated wear (R227; the
wear is the translation layer's, log 83). -/
def State.programmed (s : State) : State :=
  let old := s.core.mem.wear
  let more := Config.flashRefresh (old + tuBytes) - Config.flashRefresh old
  let new := old + tuBytes + more
  let s := ((({ s with core.mem.wear := new }).bump (ftlBase + 0x110) (tuBytes + more)).bump (ftlBase + 0x118) more).bump (ftlBase + 0x120)
    (Config.flashRetired new - Config.flashRetired old)
  s.raiseIf (decide (Config.flashUsed old < 80) && decide (80 ≤ Config.flashUsed new)) ftlInt 4

/-- A write of a TU or of a part of it to flash, merged and programmed whole: it abandons a recovery, and a whole TU of good data ends a mark
(R204, R222, R226, R229, R230). A write that a read-only tier refuses does not come here (R227). -/
def State.flashWrite (s : State) (a : Nat) (bs : List Byte) : State :=
  if s.core.mem.flashRo then s
  else
    let whole := decide (a % tuBytes = 0) && decide (bs.length = tuBytes)
    let s := { s with core.mem.flash := memWrites s.core.mem.flash a bs }.endRecovery (a / tuBytes)
    let s := if whole && !tuPoison bs then { s with core.mem.marked := sdel (a / tuBytes) s.core.mem.marked } else s
    (s.bump (ftlBase + 0x108) bs.length).programmed

/-- Is the TU of a flash address marked? -/
def State.flashMarked (s : State) (a : Nat) : Bool := smem (a / tuBytes) s.core.mem.marked

/-! The pool (R218-R224) -/

/-- Key of a granule's entry: twice the logical TU, or twice the host granule plus 1. -/
def poolKey : Loc → Option (Nat × Nat)
  | .pool1 a k => some (2 * (a / tuBytes), k)
  | .pool2 a k => some (2 * (a / tuBytes) + 1, k)
  | _ => none

/-- First DPA of the pool region of a stack; firmware lays a stack out as firmware, direct, pool frames (log 14). -/
def State.poolBase (s : State) (k : Nat) : Nat :=
  let f := mgetD s.core.mem.frames k (0, 0, 0)
  dpa k ((f.1 + f.2.1) * frameBytes)

/-- DPA of pool TU i of stack k. -/
def State.poolDpa (s : State) (k i : Nat) : Nat := s.poolBase k + i * tuBytes

/-- Pool TUs of stack k: 128 per frame (R214). -/
def State.poolTus (s : State) (k : Nat) : Nat := (mgetD s.core.mem.frames k (0, 0, 0)).2.2 * 128

/-- Pool indices of stack k in use: resident or being filled. -/
def State.poolUsed (s : State) (k : Nat) : List Nat :=
  (s.core.mem.pool.filter (fun e => e.2.stack = k && (e.2.resident || e.2.filling))).map (fun e => e.2.index)

/-- Free pool TUs of stack k. -/
def State.poolFree (s : State) (k : Nat) : Nat := s.poolTus k - (s.poolUsed k).length

/-- Resident TUs of a context on all stacks (R219). -/
def State.residentOf (s : State) (ctx : Nat) : Nat :=
  mcount s.core.mem.pool (fun p => p.owner = ctx && p.resident)

def fldAgeShift (k : Nat) : Fld := ⟨memBase k + 0x28, 0, 5, 10⟩

/-- Age class of an entry (R220). -/
def State.ageClass (s : State) (k : Nat) (p : PoolTu) : Nat :=
  min 63 (bitLen ((s.now - p.last) / 2 ^ s.reg (fldAgeShift k)))

/-- An eviction candidate (R220). -/
def PoolTu.candidate (p : PoolTu) : Bool :=
  p.resident && p.pin = 0 && !p.poisonPin && !p.imagePin && !p.filling && !p.wb

/-- The better of two candidates: higher age class, then lower pool index (R220). -/
def State.olderOf (s : State) (k : Nat) (a b : Nat × PoolTu) : Nat × PoolTu :=
  let ca := s.ageClass k a.2
  let cb := s.ageClass k b.2
  if cb > ca ∨ (cb = ca ∧ b.2.index < a.2.index) then b else a

/-- The candidate to evict on stack k among entries that p keeps. -/
def State.evictee (s : State) (k : Nat) (p : PoolTu → Bool) : Option (Nat × PoolTu) :=
  match s.core.mem.pool.filter (fun e => e.2.stack = k && e.2.candidate && p e.2) with
  | [] => none
  | e :: es => some (es.foldl (s.olderOf k) e)

/-- Set a pool entry. -/
def State.setPool (s : State) (key : Nat) (p : PoolTu) : State :=
  { s with core.mem.pool := mput s.core.mem.pool key p }

/-- The location of a TU's home. -/
def PoolTu.homeLoc (p : PoolTu) : Loc := if p.t1 then .flash (p.home * tuBytes) else .host p.home

/-- A TU with POISON set in its header (R203). -/
def poisonHeader (bs : List Byte) : List Byte := bs.set 1 (bs.getD 1 0 ||| 1)

/-- A dirty TU's contents as they stand, written to its home; LAST is not set (R221). Poisoned lines stay poisoned: in flash by the TU's header, in
host memory line by line (R204). -/
def State.writeHome (s : State) (p : PoolTu) : State :=
  let a := s.poolDpa p.stack p.index
  let bs := memReads s.core.mem.hbm a tuBytes
  let bad := s.core.mem.badLines.filter (fun l => decide (a ≤ l * 64) && decide (l * 64 < a + tuBytes))
  let s := (s.bump (memBase p.stack + 0x138) 1).bump (memBase p.stack + 0x100) tuBytes
  if p.t1 then s.flashWrite (p.home * tuBytes) (if bad.isEmpty then bs else poisonHeader bs)
  else
    let s := s.hostWrite p.home bs
    { s with core.mem.hostBad := bad.foldl (fun l b => sins ((p.home + (b * 64 - a)) / 64) l) s.core.mem.hostBad }

/-- Does the home refuse a write-back: a read-only flash tier, or a CXL.cache write that fails (R221)? -/
def State.homeRefuses (s : State) (p : PoolTu) : Bool := if p.t1 then s.core.mem.flashRo else !s.core.host.linkUp

/-- A refused write-back: the TU stays resident and dirty with an image pin, and WB_ERR is set (R221). -/
def State.refuseWb (s : State) (key : Nat) (p : PoolTu) : State :=
  (s.setPool key { p with imagePin := true, wb := false, evict := false }).raise (memInt p.stack) 2

/-- Does an invalidation still wait for an access? -/
def InvWait.owed (i : InvWait) : Bool := decide (i.lines ≠ 0) || !i.fetches.isEmpty || !i.backs.isEmpty || !i.tus.isEmpty

/-- Accesses end: invalidations that waited for the last of theirs are completed (R242). -/
def State.invPass (s : State) (f : InvWait → InvWait) : State :=
  let l := s.core.mmu.invs.map f
  { s with core.mmu.inv := s.core.mmu.inv.map (fun x => { x with wait := f x.wait }), core.mmu.invs := l.filter InvWait.owed,
           core.mmu.invDone := s.core.mmu.invDone + (l.filter (fun i => !i.owed)).length }

/-- No fill or write-back of a pool TU is in flight any more. -/
def State.tuDone (s : State) (key : Nat) : State := s.invPass (fun i => { i with tus := i.tus.filter (· ≠ key) })

/-- Free a resident TU; an entry that still has pins stays, not resident (R223). -/
def State.freeTu (s : State) (key : Nat) (p : PoolTu) : State :=
  let s := ((s.bump (memBase p.stack + 0x130) 1).give 0xF p.stack 1).tuDone key
  if p.pin = 0 then { s with core.mem.pool := mdel s.core.mem.pool key }
  else s.setPool key { p with resident := false, dirty := false, wb := false, evict := false }

/-- Begin a write-back: the contents as they stand go to the home, unless it refuses them (R221). -/
def State.startWb (s : State) (key : Nat) (p : PoolTu) : State :=
  let refused := s.homeRefuses p
  let old := if p.t1 || refused then [] else memReads s.core.mem.host p.home tuBytes
  let s := if refused then s else s.writeHome p
  s.setPool key { p with wb := true, evict := true, again := false, refused := refused, old := old }

/-- A write-back to host memory that fails before it is acknowledged: host memory stands as before it (R221, R381). -/
def State.undoWb (s : State) (key : Nat) (p : PoolTu) : State :=
  { s with core.mem.host := if p.old.isEmpty then s.core.mem.host else memWrites s.core.mem.host p.home p.old }.setPool key
    { p with refused := true, old := [] }

/-- A miss waits until a TU's write-back has been acknowledged; the eviction begins where it has not (R219, R220). -/
def State.askEvict (s : State) (key : Nat) : State :=
  match mget s.core.mem.pool key with
  | some p => if p.wb then s.setPool key { p with evict := true } else s.startWb key p
  | none => s

/-- Water marks of a stack: LOW and HIGH (R232). -/
def State.wm (s : State) (k : Nat) : Nat × Nat := mgetD s.core.mem.wm k (0, 0)

/-- Set MEM_INT.LOW where the free TUs have just fallen below LOW. -/
def State.lowCheck (s : State) (k before : Nat) : State :=
  s.raiseIf (decide ((s.wm k).1 ≤ before) && decide (s.poolFree k < (s.wm k).1)) (memInt k) 3

/-- The writes that waited for a fill, over a TU's bytes. -/
def PoolTu.written (p : PoolTu) (bs : List Byte) : List Byte :=
  p.writes.foldl (fun bs w => bs.take w.1 ++ w.2 ++ bs.drop (w.1 + w.2.length)) bs

/-- Do the writes that waited for a fill replace the whole TU? -/
def PoolTu.whole (p : PoolTu) : Bool := p.writes.any (fun w => decide (w.1 = 0) && decide (w.2.length = tuBytes))

/-- Fill from the home: the bytes land in the pool TU, then the writes that waited. A marked flash TU lands with POISON set in its header and a
poison pin; host lines reported poisoned stay so (R204, R219, R229). A TU that lands poisoned is reported (R232). -/
def State.fillFrom (s : State) (key : Nat) (p : PoolTu) : State :=
  let a := s.poolDpa p.stack p.index
  let bad := p.t1 && s.flashMarked (p.home * tuBytes) && !p.whole
  let got := if p.t1 then memReads s.core.mem.flash (p.home * tuBytes) tuBytes else (s.hostRead p.home tuBytes).1
  let lines := if p.t1 || p.whole then [] else (List.range 256).filter (fun i => (s.hostRead (p.home + 64 * i) 64).2)
  let bs := p.written (if bad then poisonHeader got else got)
  let s := s.hbmWrite a bs
  let s := { s with core.mem.badLines := lines.foldl (fun l i => sins (a / 64 + i) l) s.core.mem.badLines }
  let s := s.raiseIf (bad || !lines.isEmpty || (bs.getD 1 0).toNat.testBit 0) (memInt p.stack) 0
  let s := if p.t1 then s.bump (ftlBase + 0x100) tuBytes else s.bump (hifBase + 0x108) tuBytes
  (s.tuDone key).setPool key { p with resident := true, filling := false, dirty := p.dirty || !p.writes.isEmpty, poisonPin := bad, last := s.now, writes := [], joined := [] }

/-- What a miss takes: a free pool TU, that of a TU to be evicted, or nothing (R219, R222). -/
inductive Take where
  | bypass
  | free (i : Nat)
  | evict (key : Nat) (p : PoolTu)
  deriving DecidableEq, Repr

/-- The eviction on stack k that a miss waits for: one in progress, else the best candidate, among entries that f keeps (R219, R220). -/
def State.takeEvict (s : State) (k : Nat) (f : PoolTu → Bool) : Take :=
  match s.core.mem.pool.find? (fun e => e.2.stack = k && e.2.wb && e.2.evict && f e.2) with
  | some e => .evict e.1 e.2
  | none => match s.evictee k f with
    | some e => .evict e.1 e.2
    | none => .bypass

/-- What a miss of a context on stack k takes: the context's own eviction when it is at its quota, else a free TU, else an eviction (R219, R222). -/
def State.takeFrom (s : State) (ctx k quota : Nat) : Take :=
  if decide (s.residentOf ctx ≥ quota) && decide (ctx ≠ 0) then s.takeEvict k (fun p => p.owner = ctx)
  else match firstFree (s.poolTus k) (s.poolUsed k) with
    | some i => .free i
    | none => s.takeEvict k (fun _ => true)

/-- Take a pool TU for a miss: its index, or none for a bypass. A dirty TU is not freed here: the access waits for its write-back (R220). -/
def State.takeTu (s : State) (ctx k quota : Nat) : State × Option Nat :=
  match s.takeFrom ctx k quota with
  | .bypass => (s, none)
  | .free i => (s, some i)
  | .evict key p => if p.dirty || p.wb then (s, none) else (s.freeTu key p, some p.index)

/-- Entry of a granule, made where there is none. -/
def State.poolEntry (s : State) (key k ctx : Nat) : PoolTu :=
  mgetD s.core.mem.pool key
    { t1 := decide (key % 2 = 0), home := if key % 2 = 0 then key / 2 else key / 2 * tuBytes, stack := k, owner := ctx }

/-- RES_QUOTA of a context (R224, R235). -/
def State.resQuota (s : State) (ctx : Nat) : Nat := bits (mgetD s.core.mmu.ctxs ctx {}).entry 160 32

/-- PIN_QUOTA of a context. -/
def State.pinQuota (s : State) (ctx : Nat) : Nat := bits (mgetD s.core.mmu.ctxs ctx {}).entry 128 32

/-- An access to a pooled granule: a hit sets LAST; a miss fills at once where a pool TU can be had, and otherwise bypasses the pool
(R218, R219, R222). POOL_MISS and POOL_FILL_DONE are the same with the fill taken apart (log 15). -/
def State.poolTouch (s : State) (ctx va : Nat) (l : Loc) (write : Bool) : State :=
  match poolKey l with
  | none => s
  | some (key, k) =>
    let p := s.poolEntry key k ctx
    if p.resident then
      (s.setPool key { p with last := s.now, dirty := p.dirty || write, again := p.again || (p.wb && write) }).bump (memBase k + 0x110) 1
    else if p.filling then s.bump (memBase k + 0x120) 1
    else
      let before := s.poolFree k
      let r := s.takeTu ctx k (s.resQuota ctx)
      match r.2 with
      | none => (r.1.bump (memBase k + 0x128) 1).raise (memInt k) 1
      | some i =>
        let s := (r.1.bump (memBase k + 0x118) 1).take 0xF k 1
        let s := s.fillFrom key { p with index := i, last := s.now, filling := true, owner := ctx, va := va / tuBytes * tuBytes }
        let p := s.poolEntry key k ctx
        (s.setPool key { p with dirty := p.dirty || write }).lowCheck k before

/-- Would a miss of a context on the granule of a key wait for an eviction, or its write be refused by a read-only home? The pool as it stands after
it (R219, R222, R227). -/
def State.claim (s : State) (ctx key k : Nat) (write : Bool) : Except (Option Nat) State :=
  let p := s.poolEntry key k ctx
  let q : PoolTu := { p with resident := true, owner := ctx, last := s.now }
  if p.resident || p.filling then .ok s
  else match s.takeFrom ctx k (s.resQuota ctx) with
    | .bypass => if write && p.t1 && s.core.mem.flashRo then .error none else .ok s
    | .free i => .ok (s.setPool key { q with index := i })
    | .evict d x =>
      if x.dirty || x.wb then .error (some d)
      else .ok ({ s with core.mem.pool := mdel s.core.mem.pool d }.setPool key { q with index := x.index })

/-- Bytes of a pooled granule and whether they are poison: of its pool TU while resident, all of it poison under a poison pin, else of its home, with
the writes that wait for a fill (R204, R215, R219, R222, R229). -/
def State.poolRead (s : State) (p : PoolTu) (off n : Nat) : List Byte × Bool :=
  if p.resident then
    let a := s.poolDpa p.stack p.index + off
    (memReads s.core.mem.hbm a n, p.poisonPin || s.hbmPoison a n)
  else
    let home (o k : Nat) : List Byte × Bool := if p.t1 then
        (memReads s.core.mem.flash (p.home * tuBytes + o) k, s.flashMarked (p.home * tuBytes))
      else s.hostRead (p.home + o) k
    if p.writes.isEmpty then home off n
    else (((p.written (home 0 tuBytes).1).drop off).take n, !p.whole && (home off n).2)

/-- Bytes at a location and whether they are poison (R215, R229). -/
def State.locRead (s : State) (l : Loc) (n : Nat) : List Byte × Bool :=
  match l with
  | .hbm a => (memReads s.core.mem.hbm a n, s.hbmPoison a n)
  | .flash a =>
    if s.flashMarked a then
      (memReads (memWrite s.core.mem.flash (a / tuBytes * tuBytes + 1)
        (memRead s.core.mem.flash (a / tuBytes * tuBytes + 1) ||| 1)) a n, true)
    else (memReads s.core.mem.flash a n, false)
  | .host a => s.hostRead a n
  | .pool1 a k => s.poolRead (s.poolEntry (2 * (a / tuBytes)) k 0) (a % tuBytes) n
  | .pool2 a k => s.poolRead (s.poolEntry (2 * (a / tuBytes) + 1) k 0) (a % tuBytes) n

/-- Bytes written to a pooled granule: to its pool TU, after its fill, or past the pool to its home. A recovery of its home is abandoned; a whole TU
releases the image pin and the poison pin (R204, R219, R222, R224, R229). -/
def State.poolWrite (s : State) (key : Nat) (p : PoolTu) (off : Nat) (bs : List Byte) (cap : Nat := wqData) : State :=
  let whole := decide (off = 0) && decide (bs.length = tuBytes)
  if p.resident then
    let s := s.hbmWrite (s.poolDpa p.stack p.index + off) bs cap
    let s := if p.t1 then s.endRecovery p.home else s
    if whole then s.setPool key { p with imagePin := false, poisonPin := false } else s
  else if p.filling then (if p.t1 then s.endRecovery p.home else s).setPool key { p with writes := p.writes ++ [(off, bs)], imagePin := p.imagePin && !whole }
  else
    let s := if whole && mhas s.core.mem.pool key then s.setPool key { p with imagePin := false } else s
    if p.t1 then s.flashWrite (p.home * tuBytes + off) bs else s.hostWrite (p.home + off) bs

/-- Bytes written at a location (R215). -/
def State.locWrite (s : State) (l : Loc) (bs : List Byte) (cap : Nat := wqData) : State :=
  match l with
  | .hbm a => s.hbmWrite a bs cap
  | .flash a => s.flashWrite a bs
  | .host a => s.hostWrite a bs
  | .pool1 a k => let key := 2 * (a / tuBytes); s.poolWrite key (s.poolEntry key k 0) (a % tuBytes) bs cap
  | .pool2 a k => let key := 2 * (a / tuBytes) + 1; s.poolWrite key (s.poolEntry key k 0) (a % tuBytes) bs cap

end Sys2Proof.Machine
end

