-- ==== Sys2Proof/Machine/Space.lean ====
section
/-! DEFINITION. Device virtual addresses: the table walk, translation caches, and reads and writes through them
(10_translation R237-R244). -/
namespace Sys2Proof.Machine

/-- Why an access cannot go ahead. -/
inductive Stop where
  | none
  /-- A translation fault of a cause at an address (R244). -/
  | fault (cause addr : Nat)
  /-- An ATS translation is outstanding (R242). -/
  | ats (addr : Nat)
  /-- The host may hold a line of it, which a back-invalidate snoop must give back (R375). -/
  | snoop (line : Nat) (inv : Bool)
  /-- It misses the pool, and the write-back of the TU to be evicted is to be acknowledged first (R219, R220). -/
  | evict (key : Nat)
  /-- A write to flash while the tier is read-only (R227). -/
  | readOnly
  deriving DecidableEq, Repr

/-- What a translation answers. -/
inductive Tr where
  | ok (l : Loc)
  | fault (cause : Nat)
  | ats (addr : Nat)
  deriving DecidableEq, Repr

/-- A context as it stands. -/
def State.ctx (s : State) (c : Nat) : Ctx := mgetD s.core.mmu.ctxs c {}

/-- Scratch units that a slot of a VU holds: of its instructions and of its landed drains (R118, R124). -/
def VuSlot.units (x : VuSlot) : Nat := sumNat (x.landed.map (fun d => d.2.2.1)) + sumNat (x.scr.map (·.2.2))

/-- What a fetch holds until it lands: tracker entries, and stream-buffer slots where it is staged (R197, R198, R255). -/
def Fetch.entries (f : Fetch) : Nat := f.tus.length * (if f.staged then 2 else 1)

/-- A context's layout epoch (R235). -/
def State.epochOf (s : State) (c : Nat) : Nat := (s.ctx c).epoch

/-- Change a context. -/
def State.updCtx (s : State) (c : Nat) (f : Ctx → Ctx) : State :=
  { s with core.mmu.ctxs := mupd s.core.mmu.ctxs c {} f }

/-- FLAGS byte of a context's entry (R235): bit 0 ATS, 1 PRI, 2 HTA, 3 SPILL, 4 FMODE. -/
def Ctx.flag (c : Ctx) (i : Nat) : Bool := c.entry.testBit (8 + i)
def Ctx.pasid (c : Ctx) : Nat := bits c.entry 32 20
/-- Level-0 table of a context. -/
def Ctx.root (c : Ctx) : Nat := bits c.entry 76 44 * 4096

/-- Page size of a leaf at a level: 1 GiB, 2 MiB, 64 KiB or 4 KiB (R237, R239). -/
def leafSize (level leaf : Nat) : Nat :=
  if level = 2 then 2 ^ 30 else if level = 3 then 2 ^ 21 else if leaf.testBit 3 then 65536 else 4096

/-- Does a leaf pass the checks of R238, R242 (else cause 4)? -/
def State.leafOk (s : State) (c : Ctx) (level idx e : Nat) : Bool :=
  let kind := bits e 9 3
  let size := leafSize level e
  let addr := bits e 12 44 * 4096
  let base := if size = 65536 then addr - (idx % 16) * 4096 else addr
  let stack := bits e 60 3
  let pooled := decide (kind = 3) || decide (kind = 4)
  let t2 := decide (kind = 2) || decide (kind = 4)
  decide (bits e 63 1 = 0) && decide (bits e 56 4 = 0) && decide (bits e 4 4 = 0) && decide (kind ≤ 4)
    && (pooled || decide (stack = 0))
    && !(decide (size = 4096) && (decide (kind = 1) || pooled))
    && (if size = 65536 then decide (bits e 12 4 = idx % 16) else decide (addr % size = 0))
    && (if kind = 0 then s.dpaOk base && s.dpaOk (base + size - 1) && decide (base / 2 ^ 37 = (base + size - 1) / 2 ^ 37) else true)
    && (if kind = 1 ∨ kind = 3 then decide ((base + size) / tuBytes ≤ s.flashTus) else true)
    && (!pooled || s.stackPresent stack)
    && (!t2 || (if e.testBit 8 then c.flag 2 else c.flag 0))

/-- Does a non-leaf entry pass the checks of R238 (else cause 4)? -/
def State.nonLeafOk (s : State) (e : Nat) : Bool :=
  decide (bits e 63 1 = 0) && decide (bits e 56 4 = 0) && decide (bits e 4 4 = 0) && decide (bits e 60 3 = 0)
    && decide (bits e 8 4 = 0) && decide (bits e 3 1 = 0) && s.dpaOk (bits e 12 44 * 4096)

/-- Index of an address at a level (R237). -/
def levelIndex (level va : Nat) : Nat := if level = 0 then bits va 48 8 else bits va (48 - 9 * level) 9

/-- The walk from a level: the leaf with its level, or a cause, level by level in the order 7, 1, 4 (R244). -/
def State.walkFrom (s : State) (c : Ctx) (va : Nat) : Nat → Nat → Nat → Except Nat (Nat × Nat)
  | 0, _, _ => .error 4
  | fuel + 1, level, table =>
    let idx := levelIndex level va
    let a := table + 8 * idx
    let e := memNat s.core.mem.hbm a 8
    if s.hbmPoison a 8 then .error 7
    else if !e.testBit 0 then .error 1
    else if e.testBit 1 then
      if level < 2 then .error 4
      else if s.leafOk c level idx e then .ok (level, e) else .error 4
    else if level = 4 then .error 4
    else if s.nonLeafOk e then s.walkFrom c va fuel (level + 1) (bits e 12 44 * 4096)
    else .error 4

/-- The walk of a context's table for an address (R237-R240). -/
def State.walk (s : State) (ctx va : Nat) : Except Nat (Nat × Nat) :=
  let c := s.ctx ctx
  if s.dpaOk c.root then s.walkFrom c va 5 0 c.root else .error 4

/-- The location a leaf gives an address, with causes 3 and 2 and the ATS cache (R215, R242, R244, R377). -/
def State.useLeaf (s : State) (ctx va : Nat) (write se : Bool) (e size : Nat) : Tr :=
  let kind := bits e 9 3
  let addr := bits e 12 44 * 4096
  let a := addr / size * size + va % size
  let stack := bits e 60 3
  if kind = 1 ∧ !se then .fault 3
  else if write && !e.testBit 2 then .fault 2
  else match kind with
    | 0 => .ok (.hbm a)
    | 1 => .ok (.flash a)
    | 3 => .ok (.pool1 a stack)
    | _ =>
      if e.testBit 8 then .ok (if kind = 2 then .host a else .pool2 a stack)
      else
        match s.core.mmu.atc.find? (fun t => t.pasid = (s.ctx ctx).pasid && t.page = a / 4096) with
        | none => match s.core.mmu.refused.find? (fun t => t.1 = ctx && t.2.1 = a / 4096) with
          | some t => .fault t.2.2
          | none => .ats a
        | some t =>
          if write && !t.write then .fault 2
          else .ok (if kind = 2 then .host (t.host * 4096 + a % 4096) else .pool2 (t.host * 4096 + a % 4096) stack)

/-- The leaf that a context's address has: cached in some TLB, or else found by a walk (R240; log 85). -/
def State.leafOf (s : State) (ctx va : Nat) : Except Nat (Nat × Nat) :=
  match s.core.mmu.tlb.find? (fun t => t.ctx = ctx && t.page = va / t.size) with
  | some t => .ok (t.leaf, t.size)
  | none =>
    match s.walk ctx va with
    | .error c => .error c
    | .ok (level, e) => .ok (e, leafSize level e)

/-- Translate one address for an access (R240). CTX 0 names device physical addresses (log 16). -/
def State.xlate (s : State) (ctx va : Nat) (write se : Bool) : Tr :=
  if ctx = 0 then (if s.dpaOk va then .ok (.hbm va) else .fault 4)
  else
    match s.leafOf ctx va with
    | .error c => .fault c
    | .ok (e, size) => s.useLeaf ctx va write se e size

/-- The page of host memory that an address's leaf names, where the host translates it through ATS (R242). -/
def State.hostPage (s : State) (ctx va : Nat) : Option Nat :=
  match s.leafOf ctx va with
  | .ok (e, size) =>
    if (bits e 9 3 = 2 ∨ bits e 9 3 = 4) ∧ !e.testBit 8 then some ((bits e 12 44 * 4096 / size * size + va % size) / 4096) else none
  | .error _ => none

/-- Does the host translate an address of a context through ATS, in pages [page, page + n) of its PASID (R242)? -/
def State.viaAts (s : State) (ctx va page n : Nat) : Bool :=
  match s.hostPage ctx va with
  | some p => decide (page ≤ p) && decide (p < page + n)
  | none => false

/-- The same of any byte of a tile unit. -/
def State.tuViaAts (s : State) (ctx va page n : Nat) : Bool := [0, 4096, 8192, 12288, 16383].any (fun d => s.viaAts ctx (va + d) page n)

/-- The entries that a walk reads, from a level on, by address (R237, R240). -/
def State.walkReads (s : State) (va : Nat) : Nat → Nat → Nat → List Nat
  | 0, _, _ => []
  | fuel + 1, level, table =>
    let a := table + 8 * levelIndex level va
    let e := memNat s.core.mem.hbm a 8
    a :: (if !s.hbmPoison a 8 && e.testBit 0 && !e.testBit 1 && decide (level ≠ 4) && s.nonLeafOk e then
      s.walkReads va fuel (level + 1) (bits e 12 44 * 4096) else [])

/-- An access of n bytes cut at multiples of a size: address and length of each piece. -/
def pieces (size : Nat) : Nat → Nat → Nat → List (Nat × Nat)
  | 0, _, _ => []
  | fuel + 1, va, n =>
    if n = 0 then []
    else
      let k := min n (size - va % size)
      (va, k) :: pieces size fuel (va + k) (n - k)

/-- Do n bytes of one tile unit lie together in flash or in one granule of the pool? -/
def State.oneTu (s : State) (ctx va n : Nat) (write se : Bool) : Bool :=
  match s.xlate ctx va write se with
  | .ok (.flash _) => true
  | .ok (.pool1 _ _) => true
  | .ok (.pool2 a k) => decide (a % tuBytes = va % tuBytes)
    && (List.range ((va % 4096 + n - 1) / 4096)).all (fun i =>
      let d := 4096 * (i + 1) - va % 4096
      decide (s.xlate ctx (va + d) write se = .ok (.pool2 (a + d) k)))
  | _ => false

/-- The pieces of an access: a tile unit in flash or in the pool is one, all else is cut at 4 KiB pages. -/
def State.cut (s : State) (ctx va n : Nat) (write se : Bool) : List (Nat × Nat) :=
  (pieces tuBytes (n / tuBytes + 2) va n).flatMap (fun p => if s.oneTu ctx p.1 p.2 write se then [p] else pieces 4096 6 p.1 p.2)

/-- The first line of an access to HBM that the snoop filter makes wait: any line it holds for a write, one that the host may have modified
for a read (R375; log 30). -/
def State.snooped (s : State) (a n : Nat) (write : Bool) : Option Nat :=
  (s.core.host.filter.find? (fun e => decide (e.1 * 64 < a + n) && decide (a < e.1 * 64 + 64) && (write || e.2))).map (·.1)

/-- The stop that a piece of an access meets, and the pool as the pieces before it leave it. -/
def State.checkPiece (s pool : State) (ctx : Nat) (write se : Bool) (p : Nat × Nat) : Stop × State :=
  match s.xlate ctx p.1 write se with
  | .fault c => (.fault c p.1, pool)
  | .ats a => (.ats a, pool)
  | .ok l => match l, poolKey l with
    | .hbm a, _ => match s.snooped a p.2 write with
      | some l => (.snoop l write, pool)
      | none => (.none, pool)
    | .flash _, _ => (if write && s.core.mem.flashRo then .readOnly else .none, pool)
    | _, some (key, k) => match pool.claim ctx key k write with
      | .ok t => (.none, t)
      | .error (some d) => (.evict d, pool)
      | .error none => (.readOnly, pool)
    | _, none => (.none, pool)

/-- Bytes of an access before the first piece that stops. -/
def State.reach (s : State) (ctx va n : Nat) (write se : Bool) : Nat :=
  ((s.cut ctx va n write se).foldl (fun (acc : Nat × Stop × State) p => match acc.2.1 with
    | .none =>
      let r := s.checkPiece acc.2.2 ctx write se p
      (if r.1 = .none then acc.1 + p.2 else acc.1, r.1, r.2)
    | _ => acc) (0, .none, s)).1

/-- The first stop that an access of n bytes meets. -/
def State.vcheck (s : State) (ctx va n : Nat) (write se : Bool) : Stop :=
  ((s.cut ctx va n write se).foldl (fun (acc : Stop × State) p => match acc.1 with
    | .none => s.checkPiece acc.2 ctx write se p
    | _ => acc) (.none, s)).1

/-- Bytes read, and whether any is poison; call after vcheck answered none. -/
def State.vget (s : State) (ctx va n : Nat) (se : Bool) : List Byte × Bool :=
  (s.cut ctx va n false se).foldl (fun acc p =>
    match s.xlate ctx p.1 false se with
    | .ok l => let r := s.locRead l p.2; (acc.1 ++ r.1, acc.2 || r.2)
    | _ => (acc.1 ++ leBytes p.2 0, true)) ([], false)

/-- Bytes read from a stack, with the report of a line in error (R232). -/
def State.hbmTouch (s : State) (a n : Nat) : State :=
  (s.bump (memBase (a / 2 ^ 37) + 0x100) n).raiseIf (s.hbmPoison a n) (memInt (a / 2 ^ 37)) 0

/-- A walk of a context's table is counted, with what it reads (R232, R261). -/
def State.countWalk (s : State) (ctx va : Nat) : State :=
  let s := (s.bump (mmuBase + 0x100) 1).bump (mmuBase + 0x108) 1
  let root := (s.ctx ctx).root
  if s.dpaOk root then (s.walkReads va 5 0 root).foldl (fun s a => s.hbmTouch a 8) s else s

/-- An access whose address no TLB holds walks the table (R240, R261; log 85). -/
def State.missWalk (s : State) (ctx va : Nat) : State :=
  if ctx = 0 || s.core.mmu.tlb.any (fun t => t.ctx = ctx && t.page = va / t.size) then s else s.countWalk ctx va

/-- Pool effects of an access to a location; an entry keeps the page of host memory that its leaf names (R241). -/
def State.touch (s : State) (ctx va : Nat) (l : Loc) (write : Bool) : State :=
  let page := s.hostPage ctx (va / tuBytes * tuBytes)
  let s := s.poolTouch ctx va l write
  match poolKey l with
  | some (key, _) => match mget s.core.mem.pool key with
    | some p => if p.owner = ctx && !p.t1 then s.setPool key { p with page := page } else s
    | none => s
  | none => s

/-- Pool effects and byte counts of an access; a read that joins a fill is served by it and fetches nothing (R219, R232). -/
def State.vtouch (s : State) (ctx va n : Nat) (write se : Bool) : State :=
  (s.cut ctx va n write se).foldl (fun s p =>
    match s.xlate ctx p.1 write se with
    | .ok l =>
      let s := (s.missWalk ctx p.1).touch ctx p.1 l write
      if write then s
      else match l, poolKey l with
        | .hbm a, _ => s.hbmTouch a p.2
        | .flash _, _ => s.bump (ftlBase + 0x100) p.2
        | _, some (key, k) =>
          let x := s.poolEntry key k ctx
          if x.resident then s.hbmTouch (s.poolDpa x.stack x.index + p.1 % tuBytes) p.2
          else if x.filling then s
          else if x.t1 then s.bump (ftlBase + 0x100) p.2
          else s.bump (hifBase + 0x108) p.2
        | _, none => s.bump (hifBase + 0x108) p.2
    | _ => s) s

/-- Bytes written through a context's translation, pool effects included; call after vcheck answered none. -/
def State.vput (s : State) (ctx va : Nat) (bs : List Byte) (se : Bool) (cap : Nat := wqData) : State :=
  ((s.cut ctx va bs.length true se).foldl (fun (acc : State × List Byte) p =>
    match acc.1.xlate ctx p.1 true se with
    | .ok l =>
      let s := (acc.1.missWalk ctx p.1).touch ctx p.1 l true
      (s.locWrite l (acc.2.take p.2) cap, acc.2.drop p.2)
    | _ => (acc.1, acc.2.drop p.2)) (s, bs)).1

/-- The lines of host memory that an access writes whole are marked: a CXL.cache write of poisoned data carries the data-poison indication (R407). -/
def State.markHost (s : State) (ctx va n : Nat) (se : Bool) : State :=
  (s.cut ctx va n true se).foldl (fun s p => match s.xlate ctx p.1 true se with
    | .ok (.host a) => if s.core.host.linkUp then
        { s with core.mem.hostBad := (List.range (p.2 / 64)).foldl (fun l k => sins (a / 64 + k) l) s.core.mem.hostBad } else s
    | _ => s) s

/-- The n-byte number at a device virtual address. -/
def State.vnat (s : State) (ctx va n : Nat) (se : Bool) : Nat := leNat (s.vget ctx va n se).1

/-- Is a page asked for already under the context's PASID, of ATS or of PRI (R234, R242, R243)? -/
def State.atsAsked (s : State) (c page : Nat) : Bool :=
  s.core.mmu.ats.contains ⟨c, page, (s.ctx c).pasid⟩ || s.core.mmu.prg.any (fun p => p.ctx = c && p.addr = page && p.pasid = (s.ctx c).pasid)

/-- Send an ATS translation request under the context's PASID, once (R234, R242, R377). -/
def State.askAts (s : State) (ctx a : Nat) : State :=
  if s.atsAsked ctx (a / 4096) then s
  else { s with core.mmu.ats := s.core.mmu.ats ++ [(⟨ctx, a / 4096, (s.ctx ctx).pasid⟩ : AtsReq)] }.bump (mmuBase + 0x118) 1

/-- Send a back-invalidate snoop for a line, once (R375). -/
def State.askSnoop (s : State) (line : Nat) (inv : Bool) : State :=
  if mhas s.core.host.bisnp line then s
  else { s with core.host.bisnp := mput s.core.host.bisnp line inv }.bump (hifBase + 0x128) 1

/-- Ask for what an access waits for: a host translation, the host's copy of a line, or room in the pool (R219, R242, R375). -/
def State.askFor (s : State) (c : Nat) : Stop → State
  | .ats a => s.askAts c a
  | .snoop l inv => s.askSnoop l inv
  | .evict key => s.askEvict key
  | _ => s

/-- Detail of an access that a read-only flash tier refuses: QUOTA_EXCEEDED of class 0x04, on no stack (R225, R227). -/
def roDetail : Nat := put 0 8 4 + put 8 8 0xFF

/-- An accumulator image written to pooled pages sets the image pin of each of its spans (R224). -/
def State.pinImage (s : State) (c a len : Nat) : State :=
  (List.range (ceilDiv len tuBytes)).foldl (fun s i => match s.xlate c (a + tuBytes * i) true false with
    | .ok l => match poolKey l with
      | some (key, k) => s.setPool key { s.poolEntry key k c with imagePin := true }
      | none => s
    | _ => s) s

end Sys2Proof.Machine
end

