-- ==== Sys2Proof/Machine/Operands.lean ====
section
/-! DEFINITION. Every operand form of a tile instruction: header, body fields, reserved bits, index entries, destination words
and the checks of an encoding (07_tile_instruction_reference R163-R187). An instruction is its 64 bytes as one number. -/
namespace Sys2Proof.Machine

/-- Offending byte and reason code of a failed check (R174). -/
abbrev Bad := Nat × Nat

/-- The lowest offending byte, and at one byte the lowest reason (R174). -/
def firstBad : List Bad → Option Bad
  | [] => none
  | b :: bs =>
    match firstBad bs with
    | none => some b
    | some c => if b.1 < c.1 ∨ (b.1 = c.1 ∧ b.2 ≤ c.2) then some b else some c

/-- Detail word of ILLEGAL_INSTRUCTION (R145). -/
def badDetail (b : Bad) : Nat := b.1 + 256 * b.2

/-- b where p. -/
def check (p : Bool) (b : Bad) : List Bad := if p then [b] else []

/-! The header (R163) -/

def iOp (raw : Nat) : Nat := bits raw 0 8
def iMod (raw : Nat) : Nat := bits raw 8 8
def iTag (raw : Nat) : Nat := bits raw 16 16
def iWait (raw : Nat) : Nat := bits raw 32 32
def iSig (raw : Nat) : Nat := bits raw 64 32
def iDeadline (raw : Nat) : Nat := bits raw 96 32

/-- The n-byte body field at an offset. -/
def iField (raw off n : Nat) : Nat := bits raw (8 * off) (8 * n)

/-- Parts of a flag reference (R153). -/
def refFlag (r : Nat) : Nat := bits r 0 20
def refCtr (r : Nat) : Nat := bits r 24 4
def refMode (r : Nat) : Nat := bits r 28 4

/-- Is an opcode assigned (R175)? -/
def opAssigned (op : Nat) : Bool :=
  decide (op ≤ 0x0B) || [0x0F, 0x10, 0x12, 0x13, 0x14, 0x15, 0x16, 0x18, 0x20, 0x21, 0x22, 0x30, 0x31, 0x32, 0x34, 0x35, 0x36,
    0x37, 0x40, 0x41, 0x50, 0x51, 0x52, 0x53, 0x54].contains op

/-- Carried out by the kaolin core (R140)? -/
def opControl (op : Nat) : Bool :=
  (decide (op ≤ 0x0B) && decide (op ≠ 5) && decide (op ≠ 6)) || decide (op = 0x0F)

/-- Is an opcode executed by a queue's class (R140)? -/
def opForClass (op cls : Nat) : Bool :=
  if opControl op || decide (op = 5) || decide (op = 6) then true
  else if decide (0x10 ≤ op) && decide (op ≤ 0x16) || decide (op = 0x41) then decide (cls ≤ 3)
  else if op = 0x18 then decide (cls = 4)
  else if decide (0x20 ≤ op) && decide (op ≤ 0x22) then decide (cls = 5)
  else if decide (0x30 ≤ op) && decide (op ≤ 0x40) then decide (cls = 6)
  else decide (cls = 7)

/-- MOD bits that an opcode defines (R164, R178, R182, R183, R186). -/
def modMask (op : Nat) : Nat :=
  match op with
  | 0x03 => 1 | 0x0B => 1 | 0x10 => 7 | 0x14 => 1 | 0x16 => 1 | 0x41 => 3 | 0x31 => 1 | 0x32 => 1 | 0x36 => 1 | _ => 0

/-- Body bits an opcode uses: byte offset, low bit and width (R177, R182-R187). Everything else in bytes 16-55 is reserved (R164). -/
def usedBits (op : Nat) : List (Nat × Nat × Nat) :=
  match op with
  | 0x01 => [(16, 0, 32)]
  | 0x04 => [(16, 0, 64)]
  | 0x09 => [(16, 0, 5), (17, 0, 8), (20, 0, 32)]
  | 0x0A => [(16, 0, 4), (20, 0, 32)]
  | 0x0B => [(16, 0, 4), (17, 0, 4), (18, 0, 4), (20, 0, 32), (24, 0, 32)]
  | 0x10 => [(16, 0, 4), (17, 0, 5), (18, 0, 5), (19, 0, 4), (20, 0, 24), (24, 0, 24), (28, 0, 24)]
  | 0x12 => [(16, 0, 4), (19, 0, 4), (24, 0, 56)]
  | 0x13 => [(16, 0, 4), (19, 0, 4)]
  | 0x14 => [(16, 0, 4), (19, 0, 4), (24, 0, 64)]
  | 0x15 => [(16, 0, 4), (19, 0, 4), (20, 0, 12)]
  | 0x16 => [(16, 0, 4), (19, 0, 4), (20, 0, 12)]
  | 0x41 => [(16, 0, 4), (19, 0, 4), (24, 0, 64)]
  | 0x18 => [(16, 0, 5), (17, 0, 5), (18, 0, 8), (19, 0, 1), (20, 0, 16), (22, 0, 16), (24, 0, 56), (32, 0, 56), (40, 0, 32),
      (44, 0, 16), (48, 0, 64)]
  | 0x20 => [(16, 0, 8), (17, 0, 5), (18, 0, 5), (19, 0, 8), (20, 0, 12), (20, 16, 10), (24, 0, 56), (32, 0, 56), (40, 0, 24),
      (44, 0, 16), (46, 0, 8), (48, 0, 64)]
  | 0x21 => [(16, 0, 8), (17, 0, 5), (20, 0, 12), (20, 16, 10), (24, 0, 56), (32, 0, 24), (48, 0, 64)]
  | 0x22 => [(16, 0, 8), (17, 0, 5), (20, 0, 12), (20, 16, 10), (24, 0, 56), (32, 0, 17), (36, 0, 24), (48, 0, 64)]
  | 0x30 => [(16, 0, 18), (24, 0, 56)]
  | 0x31 => [(16, 0, 18)]
  | 0x32 => [(16, 0, 24), (20, 0, 32), (24, 0, 56), (32, 0, 32), (36, 0, 5), (40, 0, 64)]
  | 0x34 => [(16, 0, 16), (18, 0, 16), (20, 0, 24), (24, 0, 56), (32, 0, 24)]
  | 0x35 => [(16, 0, 16), (18, 0, 16), (20, 0, 24), (24, 0, 64)]
  | 0x36 => [(16, 0, 32), (24, 0, 56)]
  | 0x37 => [(16, 0, 32), (24, 0, 56)]
  | 0x40 => [(16, 0, 8), (17, 0, 8), (20, 0, 32), (24, 0, 56), (32, 0, 56), (40, 0, 56), (48, 0, 32)]
  | 0x50 => [(16, 0, 16), (18, 0, 8), (19, 0, 4), (20, 0, 2), (21, 0, 2), (22, 0, 16), (24, 0, 56), (32, 0, 32), (36, 0, 8),
      (40, 0, 64)]
  | 0x51 => [(16, 0, 16), (18, 0, 8), (19, 0, 4), (20, 0, 5), (24, 0, 56), (32, 0, 32), (36, 0, 32)]
  | 0x52 => [(16, 0, 16), (18, 0, 8), (19, 0, 4), (20, 0, 5), (24, 0, 64)]
  | 0x53 => [(18, 0, 8), (19, 0, 4), (20, 0, 5), (21, 0, 5), (24, 0, 56), (32, 0, 32), (40, 0, 64)]
  | 0x54 => [(18, 0, 8), (19, 0, 4)]
  | _ => []

/-- The word whose set bits are the body bits an opcode uses. -/
def usedMask (op : Nat) : Nat :=
  (usedBits op).foldl (fun m t => m ||| ((2 ^ t.2.2 - 1) * 2 ^ (8 * t.1 + t.2.1))) 0

/-- Reserved body bits that are set, one entry per byte (R164). -/
def reservedBad (raw : Nat) : List Bad :=
  let m := usedMask (iOp raw)
  (List.range 40).filterMap (fun i =>
    let b := 16 + i
    if bits raw (8 * b) 8 &&& (255 - bits m (8 * b) 8) ≠ 0 then some (b, 3) else none)

/-! Destination words (R169, R170) -/

/-- Destination kinds an opcode allows, with the offset of its destination word. -/
def destOf (op : Nat) : Option (Nat × List Nat) :=
  match op with
  | 0x14 => some (24, [0, 1])
  | 0x41 => some (24, [0])
  | 0x18 => some (48, [0, 1])
  | 0x20 => some (48, [0, 2, 4])
  | 0x21 => some (48, [0, 2, 4])
  | 0x22 => some (48, [0, 2, 4])
  | 0x32 => some (40, [0, 2, 3, 4])
  | 0x35 => some (24, [0, 3])
  | 0x52 => some (24, [0])
  | 0x53 => some (40, [0])
  | _ => none

/-- Bits of [55:0] that a destination kind lists (R168, R169). -/
def destUsed (kind : Nat) : Nat :=
  match kind with
  | 0 => 2 ^ 56 - 1
  | 1 => 0x3F
  | 2 => 0x77
  | 3 => 0x3FFFFFFF - 0x7FC0
  | 4 => 0x70FF
  | _ => 0

/-- The checks of a destination word at an offset (R169, R170). LDTBL has no destination (R185). -/
def destBad (raw : Nat) : List Bad :=
  match destOf (iOp raw) with
  | none => []
  | some (off, kinds) =>
    let w := iField raw off 8
    let kind := bits w 60 4
    if iOp raw = 0x20 ∧ iField raw 16 1 = 0x0D then
      (List.range 8).filterMap (fun i => if iField raw (off + i) 1 ≠ 0 then some (off + i, 3) else none)
    else
      check (bits w 56 4 ≠ 0) (off + 7, 3)
      ++ check (!kinds.contains kind) (off + 7, 8)
      ++ (List.range 7).filterMap (fun i =>
          if iField raw (off + i) 1 &&& (255 - bits (destUsed kind) (8 * i) 8) ≠ 0 then some (off + i, 3) else none)
      ++ check (kind = 4 && bits w 0 8 = 0) (off, 8)

/-! Index entries (R167) -/

/-- Indexable fields of an instruction: SEL, byte offset, low bit within the instruction, width. -/
def ixFields (raw : Nat) : List (Nat × Nat × Nat × Nat) :=
  let dest (sel off : Nat) : List (Nat × Nat × Nat × Nat) :=
    match bits (iField raw off 8) 60 4 with
    | 0 => [(sel, off, 8 * off, 56)]
    | 3 => [(sel, off, 8 * off + 18, 12)]
    | _ => []
  match iOp raw with
  | 0x04 => [(0, 16, 128, 64)]
  | 0x10 => [(0, 16, 128, 4), (1, 20, 160, 12), (2, 24, 192, 12), (3, 28, 224, 24)]
  | 0x12 => [(0, 16, 128, 4), (1, 24, 192, 56)]
  | 0x13 => [(0, 16, 128, 4)]
  | 0x14 => (0, 16, 128, 4) :: dest 1 24
  | 0x15 => [(0, 16, 128, 4), (1, 20, 160, 12)]
  | 0x16 => [(0, 16, 128, 4), (1, 20, 160, 12)]
  | 0x41 => (0, 16, 128, 4) :: dest 1 24
  | 0x18 => (0, 24, 192, 56) :: (1, 32, 256, 56) :: dest 2 48
  | 0x20 => (0, 24, 192, 56) :: (1, 32, 256, 56) :: (2, 40, 320, 24) :: dest 3 48
  | 0x21 => (if iField raw 16 1 ≥ 2 then [(0, 24, 192, 56)] else []) ++ dest 1 48
  | 0x22 => (0, 24, 192, 56) :: (1, 36, 288, 24) :: dest 2 48
  | 0x30 => [(0, 16, 128, 18), (1, 24, 192, 56)]
  | 0x31 => [(0, 16, 128, 18)]
  | 0x32 => (0, 16, 128, 24) :: (1, 24, 192, 56) :: dest 2 40
  | 0x34 => [(0, 18, 144, 16), (1, 24, 192, 56)]
  | 0x35 => (0, 18, 144, 16) :: dest 1 24
  | 0x36 => [(0, 24, 192, 56)]
  | 0x37 => [(0, 24, 192, 56)]
  | 0x40 => [(0, 24, 192, 56), (1, 32, 256, 56), (2, 48, 384, 32)]
  | 0x50 => [(0, 16, 128, 16), (1, 24, 192, 56), (2, 40, 320, 64)]
  | 0x51 => [(0, 16, 128, 16), (1, 24, 192, 56), (2, 32, 256, 32)]
  | 0x52 => (0, 16, 128, 16) :: dest 1 24
  | 0x53 => (0, 24, 192, 56) :: dest 1 40
  | _ => []

/-- Index entry i. -/
def ixEntry (raw i : Nat) : Nat := bits raw (448 + 16 * i) 16

/-- Sums that the enabled entries add, by SEL, for counters read by c (R148, R167). -/
def ixSums (raw : Nat) (c : Nat → Nat) : Map Nat :=
  (List.range 4).foldl (fun m i =>
    let e := ixEntry raw i
    if e.testBit 15 then mupd m (bits e 12 3) 0 (· + c (bits e 8 4) * 2 ^ bits e 0 6) else m) []

/-- The checks of the index entries and of the effective values (R164, R167, R174). -/
def ixBad (raw : Nat) (ix : Map Nat) : List Bad :=
  ((List.range 4).flatMap (fun i =>
    let e := ixEntry raw i
    if e.testBit 15 then
      check (bits e 6 2 ≠ 0) (56 + 2 * i, 3)
      ++ check (!((ixFields raw).any (fun f => f.1 = bits e 12 3))) (56 + 2 * i, 8)
    else check (bits e 0 8 ≠ 0) (56 + 2 * i, 3) ++ check (bits e 8 7 ≠ 0) (57 + 2 * i, 3)))
  ++ (ixFields raw).flatMap (fun f =>
    check (decide (bits raw f.2.2.1 f.2.2.2 + mgetD ix f.1 0 ≥ 2 ^ f.2.2.2) && mhas ix f.1) (f.2.1, 9))

/-- Effective value of the indexable field at a bit address. -/
def effAt (raw : Nat) (ix : Map Nat) (sel lo w : Nat) : Nat := bits raw lo w + mgetD ix sel 0

def Entry.f (e : Entry) (off n : Nat) : Nat := iField e.raw off n
def Entry.op (e : Entry) : Nat := iOp e.raw
def Entry.mod (e : Entry) (i : Nat) : Bool := (iMod e.raw).testBit i
def Entry.eff (e : Entry) (sel off w : Nat) : Nat := effAt e.raw e.ix sel (8 * off) w

/-- The destination word with its effective address or line (R169). -/
def Entry.dest (e : Entry) : Nat :=
  match destOf e.op with
  | none => 0
  | some (off, _) =>
    let w := e.f off 8
    match (ixFields e.raw).find? (fun t => t.2.1 = off) with
    | none => w
    | some t => if bits w 60 4 = 3 then w + mgetD e.ix t.1 0 * 2 ^ 18 else w + mgetD e.ix t.1 0

def destKind (w : Nat) : Nat := bits w 60 4
def destAddr (w : Nat) : Nat := bits w 0 56

/-- Relations of R173; none for an invalid code. -/
def relHolds (rel a b : Nat) : Bool :=
  match rel with
  | 0 => decide (a = b)
  | 1 => decide (a ≠ b)
  | 2 => decide (a < b)
  | 3 => decide (a ≥ b)
  | 4 => decide (sext 32 a < sext 32 b)
  | 5 => decide (sext 32 a ≥ sext 32 b)
  | _ => false

/-- Format descriptor valid (R48): code in [3:0], BAX in [4], [7:5] reserved; code 7 and codes above 9 are not assigned. -/
def fmtOk (d : Nat) : Bool := decide (d < 32) && decide (d % 16 ≠ 7) && decide (d % 16 < 10)

/-- The checks of a QSPEC at an offset (R171). -/
def qspecBad (off q : Nat) : List Bad :=
  let fmt := bits q 0 8
  let mode := bits q 8 2
  let code := fmt % 16
  check (bits fmt 5 3 ≠ 0) (off, 3)
  ++ check (!fmtOk fmt || code = 8 || code = 9) (off, 7)
  ++ check (mode = 3) (off + 1, 8)
  ++ check (q.testBit 11 && code ≠ 3) (off + 1, 8)
  ++ check ((mode = 1 || mode = 2) && (code ≤ 3 || code = 5)
      && (decide (sext 10 (bits q 16 10) < -128) || decide (sext 10 (bits q 16 10) > 127))) (off + 2, 8)

end Sys2Proof.Machine
end

