-- ==== Sys2Proof/Machine/Samples.lean ====
section
/-! DEFINITION. Sampling of instructions: countdown, tagging and the sample record (18_performance_counters R425, R426). -/
namespace Sys2Proof.Machine

def pmcInt : Nat := pmcBase + 0x80
def fldOwnerV : Fld := ⟨pmcBase + 0x10, 15, 1, 0⟩
def fldOwnerCtx : Fld := ⟨pmcBase + 0x10, 0, 12, 0⟩
def fldSampBase : Fld := ⟨pmcBase + 0x38, 12, 44, 0⟩
def fldSampK : Fld := ⟨pmcBase + 0x40, 28, 4, 0⟩
def fldSampEn : Fld := ⟨pmcBase + 0x40, 8, 1, 0⟩
def fldSampP : Fld := ⟨pmcBase + 0x40, 0, 5, 16⟩
def fldAcl (i : Nat) : Fld := ⟨pmcBase + 0x200 + 4 * i, 0, 32, 0⟩

/-- The owner context of the PMC, if there is one (R421, R428). -/
def State.pmcOwner (s : State) : Option Nat := if s.reg fldOwnerV = 1 then some (s.reg fldOwnerCtx) else none

/-- Change the sampling state of a kaolin core. -/
def State.updKc (s : State) (k : Nat) (f : KcSample → KcSample) : State := { s with core.pmc.kc := mupd s.core.pmc.kc k {} f }

/-- The next value of a core's countdown, uniform from 2^(P-1) up to, not including, 3 x 2^(P-1), and its generator (R125, R425). Bits above
the draw of 16 are taken from a second step. -/
def State.reload (s : State) (g : Nat) : Nat × Nat :=
  let p := max 4 (min 24 (s.reg fldSampP))
  let r := rngDraws (rngSeed g) 2
  (2 ^ (p - 1) + (r.1.getD 0 0 + 65536 * r.1.getD 1 0) % 2 ^ p, r.2)

/-- A dispatch at a kaolin core: its countdown falls, and at 0 the instruction is tagged or counted as skipped (R425). -/
def State.countDispatch (s : State) (k q seq ctx : Nat) : State :=
  let x := mgetD s.core.pmc.kc k {}
  if x.count > 1 then s.updKc k (fun x => { x with count := x.count - 1 })
  else
    let r := s.reload x.gen
    let ok := decide (s.reg fldSampEn = 1) && s.pmcOwner.isSome && (s.reg (fldAcl (ctx / 32))).testBit (ctx % 32) && x.live.isNone
    let s := s.updKc k (fun x => { x with count := r.1, gen := r.2, live := if ok then some (q, seq) else x.live, preempted := !ok && x.preempted })
    if ok then s else s.bump (pmcBase + 0x120) 1

/-- FT nanoseconds in core cycles, saturating (R10, R426). -/
def ccOf (ns : Nat) : Nat := sat (2 ^ 32 - 1) (5 * ns / 2)

/-- A sample record is discarded (R426, R428). -/
def State.sampleLost (s : State) : State := (s.bump (pmcBase + 0x128) 1).raise pmcInt 1

/-- Write the sample records that wait, oldest first, until one that must wait on. -/
def State.flushSamples (s : State) : List (List Byte) → State
  | [] => { s with core.pmc.sampWait := [] }
  | bs :: rest =>
    match s.pmcOwner with
    | none => s.sampleLost.flushSamples rest
    | some c =>
      let n := 2 ^ s.reg fldSampK
      let a := s.reg fldSampBase * 4096 + 64 * (s.core.pmc.sampIdx % n)
      match s.vcheck c a 64 true false with
      | .none =>
        let phase := if (s.core.pmc.sampIdx / n) % 2 = 0 then 1 else 0
        let rec_ := leBytes 64 (leNat bs + put 8 1 phase + put 496 16 s.core.pmc.sampSeq)
        let s := ({ s with core.pmc.sampIdx := (s.core.pmc.sampIdx + 1) % (2 * n), core.pmc.sampSeq := (s.core.pmc.sampSeq + 1) % 65536 }.vput c a rec_
          false).bump (pmcBase + 0x118) 1
        s.flushSamples rest
      | .fault _ _ => { s with core.pmc.sampSeq := (s.core.pmc.sampSeq + 1) % 65536 }.sampleLost.flushSamples rest
      | .readOnly => { s with core.pmc.sampSeq := (s.core.pmc.sampSeq + 1) % 65536 }.sampleLost.flushSamples rest
      | st => { s with core.pmc.sampWait := bs :: rest }.askFor c st

/-- The core that has tagged an instruction. -/
def State.sampledBy (s : State) (q seq : Nat) : Option (Nat × KcSample) := s.core.pmc.kc.find? (fun e => e.2.live = some (q, seq))

/-- A tagged instruction completes: its record is written (R426). A time that it did not come to is that of its completion. -/
def State.sampleDone (s : State) (q : Nat) (i : InFlight) (status ctx : Nat) : State :=
  match s.sampledBy q i.seq with
  | none => s
  | some (k, x) =>
    let s := s.updKc k (fun x => { x with live := none, preempted := false })
    let t (f : Nat) : Nat := ccOf (f - i.ft)
    let ctl := decide (i.unit = 0xFFFF)
    let ope := decide (bits i.unit 12 4 ≤ 3)
    let frz := if ope && i.ift.isSome then sat (2 ^ 32 - 1) (s.counter (opeBase (bits i.unit 4 8) + 0x108) - i.frz0) else 0
    let bs := leBytes 64 (put 0 8 1 + put 9 1 (b2n x.preempted) + put 16 8 i.op + put 24 8 status + put 32 16 q + put 48 16 ctx + put 64 16 i.unit
      + put 80 16 i.tag + put 128 64 i.ft + put 192 32 (t i.dft) + put 224 32 (t (if ctl then i.dft else i.ift.getD s.now))
      + put 256 32 (t (if ctl then s.now else i.eft.getD s.now)) + put 288 32 (t s.now) + put 320 32 frz + put 352 32 (sat (2 ^ 32 - 1) i.held)
      + put 384 64 i.bytes)
    s.flushSamples (s.core.pmc.sampWait ++ [bs])

/-- The owner context is killed: dumps and sampling stop (R426). -/
def State.ownerKilled (s : State) (c : Nat) : State :=
  if s.pmcOwner ≠ some c then s
  else
    let n := (s.core.pmc.kc.filter (fun e => e.2.live.isSome)).length + s.core.pmc.sampWait.length
    let s := { s.setReg fldOwnerV 0 with
      core.pmc.kc := s.core.pmc.kc.map (fun (e : Nat × KcSample) => (e.1, { e.2 with live := none, preempted := false })),
      core.pmc.sampWait := [], core.pmc.gather := none, core.pmc.demandPend := none }
    if n = 0 then s else (s.bump (pmcBase + 0x128) n).raise pmcInt 1

end Sys2Proof.Machine
end

