-- ==== Sys2Proof/Machine/Queues.lean ====
section
/-! DEFINITION. Shared operations of queues: rings, flags, faults, records and completion (06_programs_queues_flags,
10_translation R245-R248). -/
namespace Sys2Proof.Machine

def qmgInt : Nat := qmgBase + 0x80
def mmuInt : Nat := mmuBase + 0x80

/-! Queues and their descriptors (R130) -/

def Queue.ring (q : Queue) : Nat := bits q.desc 0 64
def Queue.crb (q : Queue) : Nat := bits q.desc 64 64
def Queue.ctx (q : Queue) : Nat := bits q.desc 128 12
def Queue.rsz (q : Queue) : Nat := bits q.desc 144 8
def Queue.csz (q : Queue) : Nat := bits q.desc 152 8
def Queue.cls (q : Queue) : Nat := bits q.desc 160 8
def Queue.aff (q : Queue) : Nat := bits q.desc 168 8
def Queue.affv (q : Queue) : Nat := bits q.desc 176 16
def Queue.prio (q : Queue) : Nat := bits q.desc 192 8
def Queue.policy (q : Queue) (i : Nat) : Bool := q.desc.testBit (200 + i)
def Queue.waitTmo (q : Queue) : Nat := bits q.desc 224 32
def Queue.cont (q : Queue) : Bool := q.policy 0
def Queue.lateErr (q : Queue) : Bool := q.policy 1
def Queue.lateAbort (q : Queue) : Bool := q.policy 2
def Queue.complAll (q : Queue) : Bool := q.policy 3
/-- Ring indices count modulo this (R131). -/
def Queue.rmod (q : Queue) : Nat := 2 ^ (q.rsz + 1)
/-- Completion-ring indices count modulo this (R159). -/
def Queue.cmod (q : Queue) : Nat := 2 ^ (q.csz + 1)
/-- Entries from index a up to index b. -/
def Queue.ahead (q : Queue) (a b : Nat) : Nat := (b + q.rmod - a) % q.rmod

/-- A queue as it stands. -/
def State.queue (s : State) (q : Nat) : Queue := mgetD s.core.qm.queues q {}

/-- Set a queue. -/
def State.setQueue (s : State) (q : Nat) (x : Queue) : State :=
  { s with core.qm.queues := mput s.core.qm.queues q x }

/-- Change a queue. -/
def State.updQueue (s : State) (q : Nat) (f : Queue → Queue) : State := s.setQueue q (f (s.queue q))

/-! Tables in HBM (R129, R235) -/

def fldCqtBase : Fld := ⟨qmgBase + 0x18, 0, 56, 0⟩
def fldCtxtBase : Fld := ⟨mmuBase + 0x18, 0, 56, 0⟩

/-- Write a queue's descriptor into the queue table, with its home (R129, R130). -/
def State.tableWrite (s : State) (q : Nat) : State :=
  let x := s.queue q
  let a := s.reg fldCqtBase + 64 * q
  if s.dpaOk a then s.hbmWrite a (leBytes 64 x.desc) else s

/-- STATE code of R236. -/
def CtxState.code : CtxState → Nat
  | .free => 0 | .active => 1 | .suspended => 2 | .killing => 3 | .killed => 4

/-- What an entry keeps of what was written: the fields set elsewhere are ignored (R235). -/
def entryKept (d : Nat) : Nat := bits d 8 440 * 256

/-- An entry as CTX_READ returns it (R235). -/
def Ctx.word (c : Ctx) : Nat :=
  entryKept c.entry + c.st.code + put 448 8 c.epoch + put 512 16 c.tagFirst + put 544 17 c.tagCount
    + (if c.errSet then put 588 44 c.errBase + put 576 5 c.errN else 0)

/-- Keep the context table in HBM as the entry stands (R235). -/
def State.ctxWrite (s : State) (c : Nat) : State :=
  let a := s.reg fldCtxtBase + 128 * c
  if s.dpaOk a then s.hbmWrite a (leBytes 128 (s.ctx c).word) else s

/-- Change one instruction in flight. -/
def Queue.updFl (q : Queue) (seq : Nat) (f : InFlight → InFlight) : Queue :=
  { q with fl := q.fl.map (fun i => if i.seq = seq then f i else i) }

/-- An instruction in flight. -/
def Queue.inst (q : Queue) (seq : Nat) : Option InFlight := q.fl.find? (fun i => i.seq = seq)

/-- Change one instruction in flight of a queue. -/
def State.updInst (s : State) (q seq : Nat) (f : InFlight → InFlight) : State := s.updQueue q (·.updFl seq f)

/-- Records of a queue's completion ring that the host has not read (R143). -/
def Queue.unread (q : Queue) : Nat := (q.crTail + q.cmod - q.crHead) % q.cmod

/-- Free slots of a completion ring: 2^CSZ less those unread by the host or reserved (R143). -/
def Queue.crFree (q : Queue) : Nat := 2 ^ q.csz - (q.unread + q.reserved)

/-- Add an outcome to an instruction: the first detail of a code is kept unless the code counts, when details add up (R176). -/
def InFlight.out (i : InFlight) (code detail : Nat) (counts : Bool) : InFlight :=
  { i with outs := mupd i.outs code 0 (fun d => if counts then d + detail else if mhas i.outs code then d else detail) }

/-- Note an outcome of an instruction in flight. -/
def State.note (s : State) (q seq code detail : Nat) (counts : Bool) : State :=
  s.updInst q seq (·.out code detail counts)

/-- The unit has finished with an instruction. -/
def State.finish (s : State) (q seq : Nat) : State := s.updInst q seq (fun i => { i with done := true, fid := none })

/-- The instruction has had an effect (R210). -/
def State.effect (s : State) (q seq : Nat) : State := s.updInst q seq (fun i => { i with effect := true, eft := i.eft <|> some s.now })

/-- Bytes that an instruction has read or written (R426). -/
def State.moved (s : State) (q seq n : Nat) : State := s.updInst q seq (fun i => { i with bytes := i.bytes + n })

/-- Cycles for which an instruction was held for weights, WINDOW, a destination or a grant (R426). -/
def State.heldBy (s : State) (q seq n : Nat) : State := s.updInst q seq (fun i => { i with held := i.held + n })

/-- The instruction at the head of a share has reached it (R426). -/
def State.stampHead (s : State) (r : SlotRef) : State :=
  match (mgetD s.core.qm.eiq (slotKey r) []).head? with
  | none => s
  | some e => s.updInst e.q e.seq (fun i => { i with ift := i.ift <|> some s.now, frz0 := if r.cls ≤ 3 then s.counter (opeBase r.unit + 0x108) else 0 })

/-- Finish with an error outcome. -/
def State.finishWith (s : State) (q seq code detail : Nat) : State := (s.note q seq code detail false).finish q seq

/-! Statuses (R145, R176) -/

/-- Codes in the order of R176; DEADLINE_MISS stands twice, by POLICY.LATE_ERR. -/
def statusOrder (lateErr : Bool) : List Nat :=
  if lateErr then [8, 0xC, 6, 7, 0xD, 0xE, 5, 4, 1, 3, 2, 0xB, 0xA, 9] else [8, 0xC, 6, 7, 0xD, 0xE, 5, 4, 1, 2, 0xB, 0xA, 9, 3]

/-- The one status reported among outcomes met, with its detail (R176). -/
def statusOf (lateErr : Bool) (outs : Map Nat) : Nat × Nat :=
  match (statusOrder lateErr).find? (fun c => mhas outs c) with
  | none => (0, mgetD outs 0 0)
  | some c => (c, mgetD outs c 0)

/-- Is a status code an error (R145)? -/
def isError (lateErr : Bool) (code : Nat) : Bool :=
  [1, 4, 5, 6, 7, 8, 0xC, 0xD, 0xE].contains code || (decide (code = 3) && lateErr)

/-- The status byte (R145). -/
def statusByte (lateErr : Bool) (code : Nat) : Nat := if isError lateErr code then code + 0x80 else code

/-! Error rings (R158) -/

/-- A record of a context's error ring is discarded and counted; in a kill sweep in MMU_KILL_LOST (R158, R256). -/
def State.errLost (s : State) (c : Nat) : State :=
  if (s.ctx c).st = .killing ∨ (s.ctx c).st = .killed then s.bump (mmuBase + 0x140) 1 else s.bump (qmgBase + 0x130) 1

/-- Write the records of an error ring that wait, oldest first: in the ring's next place with its PHASE, discarded where the write faults, and
left waiting behind a host translation or a snoop, in a kill sweep too (R158, R242, R256, R375). -/
def State.writeErrors (s : State) (c : Nat) : List (List Byte) → State
  | [] => s.updCtx c (fun x => { x with errWait := [] })
  | bs :: rest =>
    let x := s.ctx c
    let n := 2 ^ x.errN
    let a := x.errBase * 4096 + 32 * (x.errPos % n)
    let wait (s : State) : State := s.updCtx c (fun x => { x with errWait := bs :: rest })
    match s.vcheck c a 32 true false with
    | .none =>
      let phase := if (x.errPos / n) % 2 = 0 then 1 else 0
      let s := (s.vput c a (leBytes 32 (leNat bs + put 8 1 phase)) false wqRecords).raiseIf x.errFull qmgInt 2
      (s.updCtx c (fun x => { x with errPos := (x.errPos + 1) % (2 * n), errFull := x.errFull || decide ((x.errPos + 1) % n = 0) })).writeErrors c rest
    | .fault _ _ => (s.errLost c).writeErrors c rest
    | .readOnly => (s.errLost c).writeErrors c rest
    | st => wait (s.askFor c st)

/-- Write a record to a context's error ring; `mk` makes its bytes from PHASE and sequence number, which is used up in any case (R158). -/
def State.errRecord (s : State) (c : Nat) (mk : Nat → Nat → List Byte) : State :=
  let x := s.ctx c
  let s := s.updCtx c (fun x => { x with errSeq := (x.errSeq + 1) % 65536 })
  if !x.errSet then s.errLost c else s.writeErrors c (x.errWait ++ [mk 0 x.errSeq])

/-- The error record of a UC or CF error whose context is known (R408). -/
def State.ctxError (s : State) (c q unit src cls addr n : Nat) : State :=
  let now := s.now
  s.errRecord c (fun p k => leBytes 32 (put 0 8 3 + put 8 1 p + put 9 2 cls + put 16 16 q + put 32 16 unit + put 48 8 src + put 64 56 addr
    + put 128 64 now + put 192 32 (sat (2 ^ 32 - 1) n) + put 240 16 k))

/-! Translation faults (R245-R248) -/

/-- Who stopped at a fault. -/
inductive Stopper where
  | inst (q seq : Nat)
  | fetch (q : Nat)
  | stream (n : Nat)
  | ring (q : Nat)
  /-- The write-back of a stream's descriptor, which keeps the fault's number itself. -/
  | wb
  deriving DecidableEq, Repr

def PageFault.add (f : PageFault) : Stopper → PageFault
  | .inst q seq => { f with stopped := f.stopped ++ [(q, seq)] }
  | .fetch q => { f with fetches := f.fetches ++ [q] }
  | .stream n => { f with streams := f.streams ++ [n] }
  | .ring q => { f with rings := f.rings ++ [q] }
  | .wb => f

/-- What becomes of a faulting access. -/
inductive FaultRes where
  | aborted
  | held (fid : Nat)
  | noId
  deriving DecidableEq, Repr

/-- Bytes of a fault record (R247). -/
def faultRecord (phase seq cause : Nat) (write : Bool) (q unit fid addr ft tag pending : Nat) : List Byte :=
  leBytes 32 (put 0 8 2 + put 8 1 phase + put 9 3 cause + put 12 1 (b2n write) + put 16 16 q + put 32 16 unit + put 48 16 fid
    + put 64 56 addr + put 128 64 ft + put 192 16 tag + put 208 16 (sat 65535 pending) + put 240 16 seq)

/-- Faults pending on a context. -/
def State.faultsOf (s : State) (c : Nat) : Nat := mcount s.core.mmu.faults (fun f => f.ctx = c)

/-- What ATS or PRI refused of a page is forgotten once its fault has ended: a later access asks again (R243). -/
def State.unrefuse (s : State) (c addr : Nat) : State :=
  { s with core.mmu.refused := s.core.mmu.refused.filter (fun r => !(r.1 = c && s.hostPage c addr = some r.2.1)) }

/-- A translation fault: joined, held under a fault ID, or aborted at once, with its record (R245). -/
def State.raiseFault (s : State) (c addr cause : Nat) (write : Bool) (who : Stopper) (q unit tag : Nat) : State × FaultRes :=
  let s := s.missWalk c addr
  match s.core.mmu.faults.find? (fun e => e.2.ctx = c && e.2.addr / 4096 = addr / 4096 && e.2.cause = cause) with
  | some (fid, f) =>
    ({ s with core.mmu.faults := mput s.core.mmu.faults fid { f.add who with joined := f.joined + 1 } }, .held fid)
  | none =>
    let s1 := s.bump (mmuBase + 0x110) 1
    let now := s.now
    if !(s.ctx c).flag 4 || cause = 3 || cause = 4 || cause = 7 then
      let s := s1.errRecord c (fun p n => faultRecord p n cause write q unit 0xFFFF addr now tag (s1.faultsOf c))
      let s := if cause = 5 ∨ cause = 6 then s.unrefuse c addr else s
      (s.raise mmuInt 0, .aborted)
    else
      match firstFree 1024 (s.core.mmu.faults.map (·.1)) with
      | none => (s.bump (mmuBase + 0x128) 1, .noId)
      | some fid =>
        let f : PageFault := ({ ctx := c, addr := addr, cause := cause, write := write, ft := now } : PageFault).add who
        let s := { s1 with core.mmu.faults := mput s1.core.mmu.faults fid f }.take 0xC 0 1
        let s := s.errRecord c (fun p n => faultRecord p n cause write q unit fid addr now tag (s.faultsOf c))
        (s.raise mmuInt 0, .held fid)

/-- An instruction of a unit meets a stop: a fault aborted at once ends it with TRANSLATION_FAULT, a held one stops it, and an ATS
miss leaves it to be tried again (R242, R245, R248). -/
def State.instStop (s : State) (e : Entry) (unit : Nat) (write : Bool) (st : Stop) : State :=
  match st with
  | .readOnly => s.finishWith e.q e.seq 0xE roDetail
  | .fault cause addr =>
    let tag := match (s.queue e.q).inst e.seq with | some i => i.tag | none => 0xFFFF
    let r := s.raiseFault e.ctx addr cause write (.inst e.q e.seq) e.q unit tag
    match r.2 with
    | .aborted => r.1.finishWith e.q e.seq 7 addr
    | .held fid => r.1.updInst e.q e.seq (fun i => { i with fid := some fid })
    | .noId => r.1
  | st => s.askFor e.ctx st

/-! Completion records (R143, R144, R370) -/

/-- Bytes of a completion record (R144). -/
def complRecord (tag status op q gen phase ft detail unit ctx : Nat) : List Byte :=
  leBytes 32 (put 0 16 tag + put 16 8 status + put 24 8 op + put 32 15 q + put 48 8 gen + put 56 1 phase + put 64 64 ft
    + put 128 64 detail + put 192 16 unit + put 208 12 ctx)

/-- Records that the hub's completion-record queue holds (R346). -/
def hubRecords : Nat := 1024

/-- Has the hub room for a record at an address: it lies in HBM, or the queue of records bound for the host is not full (R344, R346)? -/
def State.recordRoom (s : State) (c a : Nat) : Bool :=
  match s.xlate c a true false with
  | .ok (.host _) => !s.core.host.linkUp || decide (s.core.host.cacheOut.length < hubRecords)
  | _ => true

/-- s0 is the state before the record was written. Send a record's interrupt once the host has acknowledged its write; at once for a ring in HBM (R370, R372). -/
def State.recordSent (s0 s : State) (ctx : Nat) (vector : Option Nat) (l : Tr) : State :=
  match l with
  | .ok (.host a) =>
    if s.core.host.linkUp then
      { s with core.host.cacheOut := s.core.host.cacheOut ++ [⟨vector, a, memReads s0.core.mem.host a 32, (s0.ctx ctx).pasid⟩] }
    else s
  | _ => match vector with
    | none => s
    | some v => s.sendVector v

/-- Return the tag that an instruction held, if it held one (R142, R360). -/
def State.freeTag (s : State) (tag : Option Nat) : State := if tag.isSome then s.give 6 0 1 else s

/-- A record of a killed context: written, lost where the write faults, or kept while it waits for a host translation, a snoop or room in the hub
(R254, R256). -/
def State.putKilled (s : State) (r : KillRec) : State :=
  let keep (s : State) : State := { s with core.mmu.killRecs := s.core.mmu.killRecs ++ [r] }
  match s.vcheck r.ctx r.at_ 32 true false with
  | .none =>
    if s.recordRoom r.ctx r.at_ then
      (State.recordSent s (s.vput r.ctx r.at_ r.bytes false wqRecords) r.ctx r.vector (s.xlate r.ctx r.at_ true false)).freeTag r.tag
    else keep s
  | .readOnly => s.freeTag r.tag
  | .fault _ _ => (s.bump (mmuBase + 0x140) 1).freeTag r.tag
  | st => keep (s.askFor r.ctx st)

/-- Write the record of ring index i, or hold it behind a fault; the later records of the ring wait behind it (R246, R370). The tag is free once
the record has been written or discarded (R142). In a kill sweep a record whose write faults is discarded (R256). -/
def State.putRecord (s : State) (q i : Nat) (bs : List Byte) (tag : Option Nat) : State :=
  let x := s.queue q
  let a := x.crb + 32 * (i % 2 ^ x.csz)
  let hold (s : State) : State := s.updQueue q (fun x => { x with held := x.held ++ [⟨i, bs, tag⟩] })
  if (s.ctx x.ctx).st = .killing then s.putKilled ⟨x.ctx, a, bs, tag, x.vector⟩
  else if !x.held.isEmpty then hold s
  else match s.vcheck x.ctx a 32 true false with
    | .none =>
      if s.recordRoom x.ctx a then
        (State.recordSent s (s.vput x.ctx a bs false wqRecords) x.ctx x.vector (s.xlate x.ctx a true false)).freeTag tag
      else hold s
    | .readOnly => s.freeTag tag
    | .fault cause addr =>
      let r := s.raiseFault x.ctx addr cause true (.ring q) q 0xFFFF 0xFFFF
      match r.2 with
      | .aborted => r.1.freeTag tag
      | _ => hold r.1
    | st => hold (s.askFor x.ctx st)

/-- Write the held records of a queue again, in ring order, after a resolution (R248, R370). -/
def State.retryHeld (s : State) (q : Nat) : State :=
  let l := (s.queue q).held
  l.foldl (fun s r => s.putRecord q r.idx r.bytes r.tag) (s.updQueue q (fun x => { x with held := [] }))

/-- Take the next ring place and write a record there; a reserved slot is used up (R143, R144). `held`: the tag that its instruction holds. -/
def State.emitRecord (s : State) (q : Nat) (tag status op gen detail unit : Nat) (held : Option Nat) : State :=
  let x := s.queue q
  let i := x.crTail
  let phase := if (i / 2 ^ x.csz) % 2 = 0 then 1 else 0
  let s := s.setQueue q { x with crTail := (i + 1) % x.cmod, reserved := x.reserved - 1 }
  s.putRecord q i (complRecord tag status op q gen phase s.now detail unit x.ctx) held

/-! Flags (R151-R154) -/

def State.flag (s : State) (f : Nat) : Flag := mgetD s.core.qm.flags f {}
/-- Is a flag's block allocated to a context (R152)? -/
def State.ownsFlag (s : State) (c f : Nat) : Bool := decide (mget s.core.qm.owner (f / 256) = some c)

/-- The updates of one cycle applied to a flag word: sets before clears, COUNT by the sets, SETTER the lowest queue (R154). -/
def applyUpdates (w : Flag) (us : List FlagUpdate) : Flag :=
  let sets := us.filter (·.set)
  let qs := sets.filterMap (·.queue)
  { state := if sets.isEmpty then (if us.isEmpty then w.state else false) else true
    count := (w.count + sets.length) % 65536
    sv := w.sv || !qs.isEmpty
    setter := match qs with
      | [] => w.setter
      | q :: r => r.foldl min q }

/-- Counter n of a queue. -/
def Queue.c (q : Queue) (n : Nat) : Nat := mgetD q.ctrs n 0

/-- Does a wait of a mode hold for a flag word (R153)? -/
def waitHolds (w : Flag) (mode ctrVal : Nat) : Bool :=
  match mode with
  | 1 => w.state
  | 2 => w.state
  | 3 => !w.state
  | 4 => decide ((w.count + 65536 - ctrVal % 65536) % 65536 ≠ 0)
  | _ => true

/-- The effect of a served wait: TAKE clears the flag, COUNT adds 1 to the counter (R153, R154). -/
def State.serve (s : State) (f mode ctr q : Nat) : State :=
  match mode with
  | 2 => { s with core.qm.flags := mput s.core.qm.flags f { s.flag f with state := false } }
  | 4 => s.updQueue q (fun x => { x with ctrs := mput x.ctrs ctr ((x.c ctr + 1) % 2 ^ 32) })
  | _ => s

/-- Serve one waiter if its condition holds: its queue is notified, or its marker marked (R151, R154). -/
def State.serveWaiter (s : State) (w : Waiter) : State :=
  if waitHolds (s.flag w.flag) w.mode ((s.queue w.q).c w.ctr) then
    let s := s.serve w.flag w.mode w.ctr w.q
    let s := { s with core.qm.waiters := s.core.qm.waiters.filter (fun v => !(v.q = w.q && v.seq = w.seq && v.flag = w.flag)) }
    match w.seq with
    | some n => { s with core.qm.marks := s.core.qm.marks ++ [(w.q, n)] }
    | none =>
      let s := s.updQueue w.q (fun x => { x with cur := x.cur.map (fun c => { c with served := true }) })
      { s with core.qm.notes := s.core.qm.notes ++ [w.q] }
  else s

/-- One update cycle of a flag: all its updates together, then its waiters in the order in which they began to wait (R154). -/
def State.flagCycle (s : State) (f : Nat) : State :=
  let us := mgetD s.core.qm.upd f []
  let s := { s with core.qm.flags := mput s.core.qm.flags f (applyUpdates (s.flag f) us),
                    core.qm.upd := mdel s.core.qm.upd f }
  (s.core.qm.waiters.filter (fun w => w.flag = f)).foldl State.serveWaiter s

/-- An update reaches a flag's controller: it counts only while the block is the context's (R152). -/
def State.flagArrive (s : State) (f ctx : Nat) (u : FlagUpdate) : State :=
  if s.ownsFlag ctx f then { s with core.qm.upd := mupd s.core.qm.upd f [] (· ++ [u]) } else s

/-- A set by a queue, applied in one update cycle with whatever else has reached the flag (R146, R154). -/
def State.setFlag (s : State) (f ctx q : Nat) : State := (s.flagArrive f ctx ⟨true, some q⟩).flagCycle f

/-- Apply a signal reference for a completion of a status (R153). -/
def State.signal (s : State) (r ctx q : Nat) (error : Bool) : State :=
  match refMode r with
  | 1 => if error then s else s.setFlag (refFlag r) ctx q
  | 2 => s.setFlag (refFlag r) ctx q
  | 3 => if error then s.setFlag (refFlag r) ctx q else s
  | _ => s

/-! Completion (R146, R147) -/

/-- After an error completion of a queue with POLICY.CONT clear: ERROR, or an error stop kept for the rebinding of a PREEMPTED queue
(R147). -/
def Queue.errorStop (q : Queue) : Queue :=
  if q.cont then q
  else if q.st = .preempted then { q with errPend := true }
  else if q.st = .disabled || q.destroying then q
  else { q with st := .error }

/-- Does the queue have an entry it may dispatch next, or wait for one beyond its tail? -/
def Queue.hasWork (q : Queue) : Bool := q.fetch ≠ q.seen || q.beyond ≠ 0 || q.cur.isSome || q.aside.isSome || q.stalled.isSome

/-- A WAITING queue with nothing to dispatch and nothing that holds it waits for nothing: it is BOUND (R134). -/
def Queue.unwait (q : Queue) : Queue := if q.st = .waiting && !q.hasWork && q.hold = .none then { q with st := .bound } else q

/-- States follow what the queue holds: without work and without instructions in flight it is IDLE; with work it is BOUND when it has a
slot and READY when it has none (R134). -/
def Queue.rest (q : Queue) (now : Nat) : Queue :=
  let q := q.unwait
  match q.st with
  | .idle => if q.hasWork then (if q.slot.isSome then { q with st := .bound } else { q with st := .ready, readyFt := now }) else q
  | .bound => if !q.hasWork && q.fl.isEmpty && q.hold = .none then { q with st := .idle, idleFt := now } else q
  | .ready => if !q.hasWork && q.fl.isEmpty && q.left.isNone then { q with st := .idle, idleFt := now } else q
  | _ => q

/-- Empty a queue's slot. -/
def State.freeSlot (s : State) (q : Nat) : State :=
  match (s.queue q).slot with
  | none => s
  | some r => { s with core.qm.slots := mdel s.core.qm.slots (slotKey r) }.updQueue q (fun x => { x with slot := none })

/-! The park (R98) -/

/-- Places of firmware's HBM region that the accumulators and vector slots of an MVU take (R250). -/
def mvuSpans : Nat := 32

def parkKey (q place : Nat) : Nat := q * 4096 + place

/-- Release the places of an image. -/
def State.parkFree (s : State) (q place n : Nat) : State :=
  { s with core.mem.parked := mdel s.core.mem.parked (parkKey q place) }.give 0x0A q n

/-- Byte address of a place in the model's park store. -/
def parkAddr (q place : Nat) : Nat := q * 67108864 + place * 16384

/-- Is any place of a span held by an image? -/
def State.parkHeld (s : State) (q place n : Nat) : Bool :=
  s.core.mem.parked.any (fun e =>
    let w := e.2.1
    let k := imageSpans (w % 256 = 9) (w / 256)
    decide (e.1 / 4096 = q) && decide (e.1 % 4096 < place + n) && decide (place < e.1 % 4096 + k))

/-- Put an image into the park; the value keeps descriptor and shape, and the owner (R98, R360). -/
def State.parkPut (s : State) (q place ctx : Nat) (t : Tile) (img : List Byte) : State :=
  { s with core.mem.park := memWrites s.core.mem.park (parkAddr q place) img,
           core.mem.parked := mput s.core.mem.parked (parkKey q place) ((if t.a32 then 9 else 8) + 256 * t.shape, ctx) }.take 0x0A q
    (imageSpans t.a32 t.shape)

/-! What firmware sets aside (R250, R251): in its park places 2,048 to 4,095 of a quarter, or in its HBM region there, as places from 4,096 on. -/

/-- The lowest span of n free places among firmware's in a quarter's park. -/
def State.fwPlace (s : State) (q n : Nat) : Option Nat :=
  ((List.range 2048).map (· + 2048)).find? (fun p => decide (p + n ≤ 4096) && !s.parkHeld q p n)

/-- The lowest span of n free places of firmware's HBM region in a quarter. -/
def State.fwSpan (s : State) (q n : Nat) : Option Nat :=
  ((List.range 8192).map (· + 4096)).find? (fun p => s.core.mem.aside.all (fun a => a.q ≠ q || decide (p + n ≤ a.place) || decide (a.place + a.n ≤ p)))

/-- DPA of a place of firmware's HBM region: the last 128 MiB of the firmware frames of the quarter's first stack; `none` where the region is smaller
(DESIGN CHOICE, log 97). -/
def State.fwAddr (s : State) (q place : Nat) : Option Nat :=
  let f := (mgetD s.core.mem.frames (2 * q) (0, 0, 0)).1
  if f < 64 then none else some (dpa (2 * q) ((f - 64) * frameBytes + (place - 4096) * 16384))

/-- Write bytes of a context into n places of firmware's HBM region. -/
def State.hbmAside (s : State) (q n ctx : Nat) (bs : List Byte) : State × Option Nat :=
  match s.fwSpan q n with
  | none => (s, none)
  | some p =>
    let s := { s with core.mem.aside := s.core.mem.aside ++ [({ q := q, place := p, n := n, ctx := ctx } : Aside)] }
    (match s.fwAddr q p with | some a => s.hbmWrite a bs | none => s, some p)

/-- Set an image aside: in firmware's places, or where they run short in its HBM region (R251, R252). -/
def State.setAside (s : State) (n ctx : Nat) (t : Tile) : State × Option Nat :=
  let q := s.opeQuarter n
  let img := imageOf t s.now 0 (s.epochOf ctx)
  match s.fwPlace q (imageSpans t.a32 t.shape) with
  | some p => (s.parkPut q p ctx t img, some p)
  | none => s.hbmAside q (imageSpans t.a32 t.shape) ctx img

/-- Give n places back, of the park or of firmware's HBM region. -/
def State.asideFree (s : State) (q n : Nat) : Option Nat → State
  | none => s
  | some p => if p < 4096 then s.parkFree q p n
    else { s with core.mem.aside := s.core.mem.aside.filter (fun a => !(a.q = q && a.place = p)) }

/-- Give an image's places back. -/
def State.unAside (s : State) (n : Nat) (t : Tile) (p : Option Nat) : State := s.asideFree (s.opeQuarter n) (imageSpans t.a32 t.shape) p

/-- What a pre-emption saved of a queue is dropped, with the places it took (R251). -/
def State.dropSaved (s : State) (q : Nat) : State :=
  match mget s.core.saved q, (s.queue q).left with
  | some x, some r =>
    let l := x.tiles.map (fun t => (t.2.1, t.2.2)) ++ x.drains.map (fun d => (d.1.tile, d.2))
    let s := l.foldl (fun (s : State) (t : Tile × Option Nat) => s.unAside r.unit t.1 t.2) s
    let s := s.asideFree (s.quarterOf r.cls r.unit) mvuSpans x.at_
    { s with core.saved := mdel s.core.saved q }
  | _, _ => { s with core.saved := mdel s.core.saved q }

/-- The records of a completion ring that goes away hold its slots no longer (R255, R348; log 95). -/
def State.dropRing (s : State) (q : Nat) : State :=
  let x := s.queue q
  (s.give 7 q x.unread).setQueue q { x with crHead := x.crTail }

/-- A finished DB_CTL.ABORT or CQ_DESTROY (R147, R161); the queue table follows (R129). An ABORT of a PREEMPTED queue, with nothing in flight too,
leaves it PREEMPTED with the error stop that waits for it: DESIGN CHOICE, log 95. -/
def State.settleStop (s : State) (q : Nat) : State :=
  let x := s.queue q
  if !x.fl.isEmpty || !x.held.isEmpty then s
  else if x.destroying then
    let s := ((s.dropRing q).dropSaved q).freeSlot q
    let s := (s.updQueue q (fun x => { x with
      st := .disabled, destroying := false, aborting := false, desc := 0, ctrs := [], comps := []
      left := none, beyond := 0, errPend := false })).tableWrite q
    let s := { s with core.qm.doorbells := s.core.qm.doorbells.filter (fun d => d.q ≠ q) }
    ({ s with core.cmds := mput s.core.cmds 0 { busy := false, op := 3, arg := q, result := 0 } }).raise qmgInt 3
  else if x.aborting then
    s.updQueue q (fun x => ({ x with aborting := false, st := if x.st = QState.preempted then QState.preempted else QState.idle, idleFt := s.now }).rest s.now)
  else s

/-- Release what an instruction holds and write its record where R143 asks for one (R142, R143). -/
def State.retire (s : State) (q : Nat) (i : InFlight) (code detail : Nat) : State :=
  let x := s.queue q
  let s := s.setQueue q { x with fl := x.fl.filter (fun j => j.seq ≠ i.seq) }
  if code ≠ 0 || x.complAll || i.op = 0x0F then
    s.emitRecord q i.tag (statusByte x.lateErr code) i.op i.gen detail i.unit (some i.tag)
  else ((s.updQueue q (fun x => { x with reserved := x.reserved - 1 })).give 7 q 1).give 6 0 1

/-- The die of a queue: that of the unit it is bound to, else its home quarter (R25, R135). -/
def State.dieOf (s : State) (q : Nat) : Nat :=
  match (s.queue q).slot with
  | some r => s.quarterOf r.cls r.unit
  | none => (s.queue q).home

/-- Lateness of a completion now, with its outcome (R209). -/
def InFlight.lateOut (i : InFlight) (now : Nat) : InFlight :=
  if i.deadline ≠ 0 ∧ now > i.deadline then i.out 3 (now - i.deadline) false else i

/-- Counters of a late completion: SE_DLMISS, the slot's PMC_DLMISS, or PMC_DLMISS_KC (R209, R424). -/
def State.countLate (s : State) (i : InFlight) : State :=
  if !mhas i.outs 3 then s
  else if i.unit = 0xFFFF then s.bump (pmcBase + 0x130) 1
  else
    let cls := bits i.unit 12 4
    let u := bits i.unit 4 8
    let k := bits i.unit 0 4
    let x := if cls ≤ 3 then 4 * u + k else if cls = 4 then 256 + u else if cls = 5 then 264 + 4 * u + k
      else if cls = 6 then 328 + 8 * u + k else 584 + 4 * u + k
    let s := s.bump (pmcBase + 0x10000 + 64 * x + 0x38) 1
    if cls = 6 then s.bump (seBase u + 0x160) 1 else s

/-- Scratch units that an instruction holds in a vector unit's slots. -/
def Vu.scratchOf (v : Vu) (q seq : Nat) : Nat :=
  sumNat (v.slots.flatMap (fun e => (e.2.scr.filter (fun x => x.1 = q && x.2.1 = seq)).map (·.2.2)))

/-- The scratch of an instruction is released as it completes (R118). -/
def State.freeScratch (s : State) (q seq : Nat) : State :=
  s.core.vus.foldl (fun s v =>
    let n := v.2.scratchOf q seq
    if n = 0 then s
    else { s with core.vus := mput s.core.vus v.1 { v.2 with slots := v.2.slots.map (fun (e : Nat × VuSlot) =>
            (e.1, { e.2 with scr := e.2.scr.filter (fun x => !(x.1 = q && x.2.1 = seq)) })) } }.give 0xE v.1 n) s

/-- The completion of one instruction: status, signal, record, release, error stop (R118, R146, R147, R176). -/
def State.completeInst (s : State) (q seq : Nat) : State :=
  match (s.queue q).inst seq with
  | none => s
  | some i =>
    let i := i.lateOut (s.nowAt (s.dieOf q))
    let s := (s.freeScratch q seq).countLate i
    let x := s.queue q
    let st := statusOf x.lateErr i.outs
    let err := isError x.lateErr st.1
    let sigBad := decide (st.1 = 0xC) && decide (8 ≤ st.2 % 256) && decide (st.2 % 256 < 12)
    let s := if sigBad then s else s.signal i.sig x.ctx q err
    let s := (s.retire q i st.1 st.2).sampleDone q i (statusByte x.lateErr st.1) x.ctx
    s.updQueue q (fun x => if err then x.errorStop else x)

/-- Does an instruction's waiting FENCE, HALT or END now have nothing earlier before it (R140, R179)? -/
def Queue.clearBefore (q : Queue) (i : InFlight) : Bool :=
  if i.op = 0x0F then q.fl.all (fun j => j.seq ≥ i.seq || j.prog ≠ i.prog) else q.fl.all (fun j => j.seq ≥ i.seq)

/-- Let FENCE, HALT and END complete whose earlier instructions have all completed, oldest first; at most n of them. -/
def State.settleCtl (s : State) (q : Nat) : Nat → State
  | 0 => s
  | n + 1 =>
    let x := s.queue q
    match x.fl.find? (fun i => i.ctl && x.clearBefore i) with
    | none => s
    | some i =>
      let s := s.completeInst q i.seq
      let s := s.updQueue q (fun x => match i.op with
        | 0x07 => { x with hold := .none }
        | 0x08 => { x with hold := .none, st := if x.st = .error || x.st = .preempted then x.st else .halted, was := if x.st = .preempted then .halted else x.was }
        | _ => x)
      s.settleCtl q n

/-- What follows any completion of a queue. -/
def State.settle (s : State) (q : Nat) : State :=
  let s := s.settleCtl q (s.queue q).fl.length
  (s.updQueue q (fun x => x.rest s.now)).settleStop q

/-- INSTRUCTION_COMPLETE for a finished instruction, and what waited for it (R146). -/
def State.complete (s : State) (q seq : Nat) : State := (s.completeInst q seq).settle q

/-- The held records of a queue are written again, and an abort or destruction that waited for them ends. -/
def State.rewriteHeld (s : State) (q : Nat) : State := (s.retryHeld q).settleStop q

/-- Records that wait for something other than a pending fault are written again: those of completion rings and those of error rings
(R158, R242, R245, R375). -/
def State.retryRecords (s : State) : State :=
  let l := s.core.qm.queues.filter (fun e => !e.2.held.isEmpty && !s.core.mmu.faults.any (fun f => f.2.rings.contains e.1))
  let s := l.foldl (fun s e => s.rewriteHeld e.1) s
  let s := s.core.mmu.killRecs.foldl State.putKilled { s with core.mmu.killRecs := [] }
  (s.core.mmu.ctxs.filter (fun e => !e.2.errWait.isEmpty)).foldl (fun s e => s.writeErrors e.1 (s.ctx e.1).errWait) s

/-! Comparators (R149) -/

/-- Evaluate comparator k: where it is armed and its relation holds, it applies its signal and disarms. -/
def State.compareOne (s : State) (q k : Nat) : State :=
  let x := s.queue q
  let c := mgetD x.comps k {}
  if c.armed && relHolds c.rel (x.c c.ctr) c.value then
    (s.setQueue q { x with comps := mput x.comps k { c with armed := false } }).signal c.sig x.ctx q false
  else s

/-- Evaluate the comparators on a counter that has just been written, lowest number first. -/
def State.compare (s : State) (q ctr : Nat) : State :=
  (List.range 4).foldl (fun s k => if (mgetD (s.queue q).comps k {}).ctr = ctr then s.compareOne q k else s) s

/-- Write a counter of a queue and evaluate its comparators; a write of the value it holds counts as a change: DESIGN CHOICE, log 82 (R148, R149). -/
def State.setCtr (s : State) (q n v : Nat) : State :=
  (s.updQueue q (fun x => { x with ctrs := mput x.ctrs n (v % 2 ^ 32) })).compare q n

end Sys2Proof.Machine
end

