-- ==== Sys2Proof/Machine/Net.lean ====
section
/-! DEFINITION. Mladben packets: fields, the route tables, sending, and the drop rules (12_mladben_fabric R290-R301). -/
namespace Sys2Proof.Machine

/-- The n-byte field of the transaction header at byte offset off, 16 to 63 (R290). -/
def hdrField (p : Packet) (off n : Nat) : Nat := bits p.hdr (8 * (off - 16)) (8 * n)

/-- A header with an n-byte value at byte offset off. -/
def hdrPut (off n v : Nat) : Nat := put (8 * (off - 16)) (8 * n) v

/-- Parts of a DEST or SRC word (R290). -/
def epModule (e : Nat) : Nat := bits e 0 13
def epDie (e : Nat) : Nat := bits e 13 3

def fldModid : Fld := ⟨fabGBase, 0, 13, 0⟩
def fldHops : Fld := ⟨fabGBase + 8, 16, 8, 32⟩

/-- This module's identifier (R290). -/
def State.modid (s : State) : Nat := s.reg fldModid

/-- An endpoint word of this module. -/
def State.ep (s : State) (die : Nat) : Nat := s.modid + put 13 3 die

/-- A port as it stands, by port identifier. -/
def State.port (s : State) (i : Nat) : Port := mgetD s.core.fab.ports i {}

/-- Change a port. -/
def State.updPort (s : State) (i : Nat) (f : Port → Port) : State :=
  { s with core.fab.ports := mupd s.core.fab.ports i {} f }

/-- Half mode of the port that an identifier names (R286). -/
def fldHalf (p : Nat) : Fld := ⟨fabBase p + 8, 4, 1, 0⟩
def State.halfMode (s : State) (i : Nat) : Bool := s.reg (fldHalf (i / 2)) = 1

/-- Does the identifier name a port or half-port that exists now? -/
def State.portNamed (s : State) (i : Nat) : Bool := s.portPresent (i / 2) && (i % 2 = 0 || s.halfMode i)

def fabInt (i : Nat) : Nat := fabBase (i / 2) + 0x80

/-- Route entry of a module and multicast entry of a group, as tables of words (R299, R301, R310). -/
def fldRoute (m : Nat) : Fld := ⟨fabRtBase + 4 * m, 0, 32, 0⟩
def fldMcastLo (g : Nat) : Fld := ⟨fabMcBase + 8 * g, 0, 32, 0⟩
def fldMcastHi (g : Nat) : Fld := ⟨fabMcBase + 8 * g + 4, 0, 32, 0⟩
def State.mcast (s : State) (g : Nat) : Nat := s.reg (fldMcastLo g) + 2 ^ 32 * s.reg (fldMcastHi g)

/-- Port identifier on which a packet to another module leaves, if its route entry is valid and names an ACTIVE port (R293, R299). -/
def State.routeOf (s : State) (src dest vc : Nat) : Option Nat :=
  let e := s.reg (fldRoute (epModule dest))
  if !e.testBit 31 then none
  else
    let i := Config.routeHash src dest vc % (bits e 24 2 + 1)
    let p := bits e (6 * i) 6
    if s.portNamed p && decide ((s.port p).st = .active) then some p else none

/-- Die of a port identifier: the quarter of its port (R13). -/
def dieOfPort (i : Nat) : Nat := i / 10

/-- The link between two dies, by the numbers of GLB_RESET_CAUSE.LINK; none for one die. It is the only path between them (R19, R22; log 65). -/
def linkOf (a b : Nat) : Option Nat :=
  let x := min a b
  let y := max a b
  if x = y ∨ 4 < y then none
  else if y = 4 then some (6 + x)
  else if x = 0 ∧ y = 3 then some 3
  else if y = x + 1 then some x
  else some (4 + x)

/-! The receive buffer of a port (R295) -/

/-- Ledger key of fabric credits and receive units (R360). -/
def portVc (i v : Nat) : Nat := 16 * i + v

/-- A packet of a port's receive buffer. -/
def State.rxPkt (s : State) (i id : Nat) : Option RxPkt := (s.port i).rx.find? (fun x => x.id = id)

/-- Change a packet of a receive buffer. -/
def State.updRx (s : State) (i id : Nat) (f : RxPkt → RxPkt) : State :=
  s.updPort i (fun p => { p with rx := p.rx.map (fun x => if x.id = id then f x else x) })

/-- Units of a VC leave a receive buffer (R295). -/
def State.freeUnits (s : State) (i v n : Nat) (reclaimed : Bool) : State :=
  let s := s.updPort i (fun p => { p with rxUsed := mupd p.rxUsed v 0 (· - n), freedOut := mupd p.freedOut v 0 (fun f => (f + n) % 2 ^ 24) })
  if reclaimed then s.reclaim 3 (portVc i v) n else s.give 3 (portVc i v) n

/-- n more units of a packet leave the buffer; a whole packet that has left is forgotten. -/
def State.freeRx (s : State) (i id n : Nat) (reclaimed : Bool) : State :=
  match s.rxPkt i id with
  | none => s
  | some x =>
    let k := min n (x.here - x.freed)
    let s := s.freeUnits i x.pkt.vc k reclaimed
    if x.freed + k ≥ max 1 x.pkt.len then s.updPort i (fun p => { p with rx := p.rx.filter (fun y => y.id ≠ id) })
    else s.updRx i id (fun y => { y with freed := y.freed + k })

/-- All units of a packet that are here leave; units still to come are discarded as they arrive. -/
def State.discardRx (s : State) (i id : Nat) (reclaimed : Bool) : State :=
  match s.rxPkt i id with
  | none => s
  | some x => (s.updRx i id (fun y => { y with taken := true, outs := 0 })).freeRx i id (x.here - x.freed) reclaimed

/-- A copy of a packet has left whole, or has been dropped: with the last one the packet's units are free (R301), reclaimed where a port discards its
state (R352). -/
def State.copyGone (s : State) (src : Option (Nat × Nat)) (reclaimed : Bool := false) : State :=
  match src with
  | none => s
  | some (j, id) =>
    match s.rxPkt j id with
    | none => s
    | some x => if x.outs ≤ 1 then s.discardRx j id reclaimed else s.updRx j id (fun y => { y with outs := y.outs - 1 })

/-! Die-to-die links and crossbar queues (R295, R308, R344, R346) -/

/-- Units of a VC that the far end of a link holds: a largest packet at least (R297, R308; log 65). -/
def d2dLimit (link v : Nat) : Nat := 65 + Config.d2dRoom (16 * link + v)

/-- Change a link. -/
def State.updD2d (s : State) (l : Nat) (f : D2d → D2d) : State := { s with core.fab.d2d := mupd s.core.fab.d2d l {} f }

/-- Units that a die has sent over a link leave the far buffer (R295, R308). -/
def State.d2dFreed (s : State) (l die v n : Nat) : State :=
  if n = 0 then s else s.updD2d l (fun d => { d with freed := mupd d.freed (16 * die + v) 0 (fun x => (x + n) % 2 ^ 24) })

/-- Units outstanding on a link, as credits count them (R295, R308). -/
def D2d.outst (d : D2d) (die v : Nat) : Nat :=
  (mgetD d.sent (16 * die + v) 0 + 2 ^ 24 - mgetD d.freed (16 * die + v) 0 % 2 ^ 24) % 2 ^ 24

/-- The pointers of a FIFO in words, counted from its release pointer, and its depth (R344). -/
structure Fifo where
  depth : Nat
  wr : Nat
  rd : Nat
  marked : Nat
  freed : Nat
  deriving DecidableEq, Repr

/-- Free words: a full FIFO refuses a word (R344). -/
def Fifo.free (f : Fifo) : Nat := f.depth - (f.wr - f.freed)

/-- The crossbar queue of a port and VC: 32 units; reading frees at once (R344, R346). -/
def xbarFifo (l : List PartPkt) : Fifo := { depth := 32, wr := sumNat (l.map (fun x => x.moved - x.sent)), rd := 0, marked := 0, freed := 0 }

/-- Units enter a crossbar queue in order while it has r free words; what a full queue refuses its writer keeps (R344). The answer lists how many units
of which packet have entered. -/
def xbarFill : Nat → List PartPkt → List PartPkt × List (PartPkt × Nat)
  | _, [] => ([], [])
  | r, x :: xs =>
    let m := min (x.here - x.moved) r
    let y := { x with moved := x.moved + m }
    if y.moved < x.pkt.len then (y :: xs, [(x, m)])
    else (y :: (xbarFill (r - m) xs).1, (x, m) :: (xbarFill (r - m) xs).2)

/-- Units of a packet have entered a crossbar queue, so they have left the receive buffer or the far buffer of the link they came by; those of a multicast
packet stay there until its last copy has left (R295, R301). -/
def State.unitsMoved (s : State) (x : PartPkt) (n : Nat) : State :=
  match x.src, x.hop with
  | some (j, id), _ => if x.pkt.mc then s else s.freeRx j id n false
  | none, some (l, die) => s.d2dFreed l die x.pkt.vc n
  | none, none => s

/-- Fill the crossbar queue of a port's VC. -/
def State.fillXbar (s : State) (o v : Nat) : State :=
  let l := mgetD (s.port o).tx v []
  let r := xbarFill (xbarFifo l).free l
  if r.2.all (fun e => e.2 = 0) then s
  else r.2.foldl (fun s e => s.unitsMoved e.1 e.2) (s.updPort o (fun p => { p with tx := mput p.tx v r.1 }))

/-- Fill every crossbar queue. -/
def State.fillQueues (s : State) : State := s.core.fab.ports.foldl (fun s e => e.2.tx.foldl (fun s t => s.fillXbar e.1 t.1) s) s

/-- Put a packet in the transmit queue of a port's VC. -/
def State.queueTx (s : State) (o v : Nat) (x : PartPkt) : State :=
  (s.updPort o (fun t => { t with tx := mupd t.tx v [] (· ++ [x]) })).fillXbar o v

/-- A packet sets out over the link between two dies, to a port of the far one or to that die itself (R22). -/
def State.cross (s : State) (link die : Nat) (x : PartPkt) (out : Option Nat) (stamp : Option (Nat × Nat) := none) : State :=
  let n := s.core.fab.crossNext
  let s := { s with core.fab.crossNext := n + 1,
                    core.fab.crossing := s.core.fab.crossing ++ [⟨n, link, die, x.pkt, x.here, 0, x.ps, x.src, out, stamp⟩] }
  match out with
  | some o => s.queueTx o x.pkt.vc { x with here := 0, ps := [], src := none, via := some n, hop := some (link, die) }
  | none => s

/-- A packet on a die to a port: into its transmit queue, over the direct link where the port lies on another die (R22, R299). -/
def State.toPort (s : State) (die o : Nat) (x : PartPkt) : State :=
  match linkOf die (dieOfPort o) with
  | none => s.queueTx o x.pkt.vc x
  | some l => s.cross l die x (some o)

/-- A whole packet on a die to a port. -/
def State.queueOut (s : State) (die o : Nat) (p : Packet) : State := s.toPort die o { pkt := p, here := p.len }

/-- A whole packet on a die to the die that its DEST names, over the direct link where that is another one (R22, R299). -/
def State.deliver (s : State) (die : Nat) (p : Packet) : State :=
  match linkOf die (epDie p.dest) with
  | none => { s with core.fab.inbox := s.core.fab.inbox ++ [p] }
  | some l => s.cross l die { pkt := p, here := p.len } none

/-- The port or link that a packet came by. -/
def Held.way (h : Held) : Option Nat × Option (Nat × Nat) := (h.port.map (·.1), h.link)

/-- Is a packet the next that a die may take: the first of the inbox with its SRC, DEST and VC, and the first that came by its port or link for that DEST
and VC (R18, R300)? -/
def State.firstIn (s : State) (p : Packet) : Bool :=
  decide (s.core.fab.inbox.find? (fun x => decide (x.src = p.src) && decide (x.dest = p.dest) && decide (x.vc = p.vc)) = some p)
    && (match s.core.fab.held.find? (fun h => h.pkt = p) with
      | none => true
      | some h => decide (s.core.fab.held.find? (fun x => x.way = h.way && decide (x.pkt.dest = p.dest) && decide (x.pkt.vc = p.vc)) = some h))

/-- A packet leaves the buffer that holds it (R295, R308). -/
def State.unhold (s : State) (p : Packet) : State :=
  match s.core.fab.held.find? (fun h => h.pkt = p) with
  | none => s
  | some h =>
    let s := { s with core.fab.held := s.core.fab.held.erase h }
    match h.port, h.link with
    | some x, _ => s.copyGone (some x)
    | none, some (l, die) => s.d2dFreed l die p.vc (max 1 p.len)
    | none, none => s

/-- Take the first packet that a test picks, where it is its turn: what it says is done by the command itself (R151, R291). -/
def State.takeOne (s : State) (sel : Packet → Bool) : State :=
  match s.core.fab.inbox.find? (fun p => sel p && s.firstIn p) with
  | some p => { s with core.fab.inbox := s.core.fab.inbox.erase p }.unhold p
  | none => s

/-- A packet has come to its die. A CTRL packet other than a notice is firmware's, and its sink takes it at once (R291, R355). -/
def State.toInbox (s : State) (h : Held) : State :=
  let s := { s with core.fab.inbox := s.core.fab.inbox ++ [h.pkt], core.fab.held := s.core.fab.held ++ [h] }
  if h.pkt.type = 0x11 && !(hdrField h.pkt 16 1 = 2 || hdrField h.pkt 16 1 = 3) then
    { s with core.fab.inbox := s.core.fab.inbox.erase h.pkt }.unhold h.pkt
  else s

/-- Take a packet out of the inbox, or a request that waited for the host; none where it is not there or not yet its turn (R18, R295). -/
def State.takePacket (s : State) (p : Packet) : Option State :=
  if s.firstIn p then some ({ s with core.fab.inbox := s.core.fab.inbox.erase p }.unhold p)
  else if s.core.fab.waits.contains p then some { s with core.fab.waits := s.core.fab.waits.erase p }
  else none

/-- Is a type assigned, and may it use a VC (R291, R331)? -/
def typeOnVc (t vc : Nat) : Bool :=
  if t = 0x10 ∨ t = 0x11 then decide (vc = 1)
  else if t = 0x20 ∨ t = 0x21 ∨ t = 0x22 then decide (vc = 3)
  else if t = 0x30 ∨ t = 0x31 ∨ t = 0x32 then decide (vc = 2)
  else if 0x40 ≤ t ∧ t ≤ 0x45 then decide (4 ≤ vc) && decide (vc ≤ 15)
  else if t = 0x50 ∨ t = 0x51 then decide (vc = 0)
  else false

/-- Reserved parts of a type's transaction header, as byte offset, low bit and bits (R34, R291, R293, R331). -/
def hdrReserved (t : Nat) : List (Nat × Nat × Nat) :=
  if t = 0x10 then [(19, 0, 8), (50, 0, 112)]
  else if t = 0x20 ∨ t = 0x21 then [(23, 0, 8), (25, 4, 4), (28, 1, 7)]
  else if t = 0x22 then [(18, 4, 12)]
  else if t = 0x50 then [(18, 0, 16), (29, 0, 280)]
  else if t = 0x40 then [(19, 4, 4), (41, 2, 6), (42, 0, 176)]
  else if t = 0x41 then [(19, 4, 4), (41, 1, 7), (42, 0, 176)]
  else if 0x42 ≤ t ∧ t ≤ 0x45 then [(19, 4, 4), (41, 0, 8), (42, 0, 176)]
  else []

/-- The first check of R293, with the MC rule of R301. -/
def packetOk (p : Packet) : Bool :=
  typeOnVc p.type p.vc && decide (1 ≤ p.len) && decide (p.len ≤ 65) && decide (p.data.length ≤ 64 * (p.len - 1))
    && decide (p.rsvd = 0) && (hdrReserved p.type).all (fun r => bits p.hdr (8 * (r.1 - 16) + r.2.1) r.2.2 = 0) && decide (epDie p.src ≤ 4)
    && (if p.mc then (decide (p.vc = 1) || decide (4 ≤ p.vc)) && decide (p.dest < 4096) else decide (epDie p.dest ≤ 4))

/-- Does a dropped type have a requester that is told (R293)? -/
def noticeTo (p : Packet) : Option Nat :=
  if [0x20, 0x21, 0x22].contains p.type || decide (0x40 ≤ p.type) && decide (p.type ≤ 0x4F) then some p.src
  else if p.type = 0x30 ∨ p.type = 0x31 then some p.dest
  else none

/-- A packet of this module with HOPS set (R290). -/
def State.mkPacket (s : State) (type vc dest srcDie txid hdr : Nat) (data : List Byte) : Packet :=
  { type := type, vc := vc, len := 1 + ceilDiv data.length 64, hops := max 1 (s.reg fldHops), dest := dest, src := s.ep srcDie, txid := txid,
    hdr := hdr, data := data }

/-- Send a packet from a die one way: to this module's dies, or out on its route; false where there is no way. -/
def State.sendOn (s : State) (die : Nat) (p : Packet) : State × Bool :=
  if epModule p.dest = s.modid then (s.deliver die p, true)
  else match s.routeOf p.src p.dest p.vc with
    | some i => (s.queueOut die i p, true)
    | none => (s, false)

/-- Header of a DROP notice (R293). -/
def dropHdr (p : Packet) (reason port : Nat) : Nat :=
  hdrPut 16 1 p.type + hdrPut 17 1 reason + hdrPut 20 4 p.txid + hdrPut 24 2 p.dest + hdrPut 26 2 p.src + hdrPut 28 1 port

/-- Drop a packet at a port identifier, with its count, its event and its notice (R293). -/
def State.dropPacket (s : State) (p : Packet) (reason port : Nat) : State :=
  let s := (s.bump (fabBase (port / 2) + 0x158) 1).raise (fabInt port) 4
  match noticeTo p with
  | none => s
  | some d => ((s.bump (fabBase (port / 2) + 0x160) 1).sendOn (dieOfPort port) (s.mkPacket 0x50 0 d (dieOfPort port) p.txid (dropHdr p reason port) [])).1

/-- First port identifier of the quarter of a die; port 0 for the hub. -/
def diePort (die : Nat) : Nat := if die ≤ 3 then 10 * die else 0

/-- Send a packet that a die of this module makes: multicast copies, the route, or a drop with reason 0x02, counted at the first port of the die's
quarter (R293, R299, R301). A copy for a port that is absent or not ACTIVE is dropped there too (log 72). -/
def State.emit (s : State) (p : Packet) (die : Nat) : State :=
  if p.mc then
    let e := s.mcast p.dest
    if !e.testBit 63 then s.dropPacket p 2 (diePort die)
    else
      let s := (setBits 40 e).foldl (fun s i =>
        if s.portNamed i && decide ((s.port i).st = .active) then s.queueOut die i p else s.dropPacket p 2 (diePort die)) s
      (setBits 5 (bits e 40 5)).foldl (fun s d => s.deliver die { p with dest := s.ep d, mc := false }) s
  else
    let r := s.sendOn die p
    if r.2 then r.1 else s.dropPacket p 2 (diePort die)

/-- Is a packet that a test picks on its way out of this module: in a transmit queue, on a die-to-die link, or sent and not acknowledged (R298)? -/
def State.onItsWay (s : State) (sel : Packet → Bool) : Bool :=
  s.core.fab.ports.any (fun e => e.2.tx.any (fun t => t.2.any (fun x => sel x.pkt)) || e.2.replay.any (fun f => f.units.any (fun u => sel u.pkt)))
    || s.core.fab.crossing.any (fun c => sel c.pkt)

/-- A transaction identifier for a new request. -/
def State.newTx (s : State) (o : Outst) : State × Nat :=
  let t := s.core.fab.txidNext
  ({ s with core.fab.outst := mput s.core.fab.outst t o, core.fab.txidNext := (t + 1) % 2 ^ 32 }, t)

end Sys2Proof.Machine
end

