-- ==== Sys2Proof/Machine/Dispatching.lean ====
section
/-! DEFINITION. Dispatch of a queue's next entry and the control instructions (06_programs R138-R150, 07_tile R163-R179). -/
namespace Sys2Proof.Machine

def fldStallMax : Fld := ⟨qmgBase + 0x20, 0, 16, 512⟩

/-- The kaolin core that serves a queue: one of the eight of its home quarter, by queue number (R138; firmware's choice, log 12). -/
def kcOf (x : Queue) (q : Nat) : Nat := 8 * x.home + q % 8

/-- Is the core of a queue stalled on a full EIQ share (R141)? -/
def State.coreStalled (s : State) (q : Nat) : Bool :=
  s.core.qm.queues.any (fun e => e.2.stalled.isSome && decide (kcOf e.2 e.1 = kcOf (s.queue q) q))

/-- A stall ends otherwise than by setting aside: the kaolin-core cycles of 0.8 ns it lasted are counted (R10, R141). -/
def State.endStall (s : State) (q : Nat) : State :=
  let x := s.queue q
  if x.stalled.isSome then s.bump (qmgBase + 0x108) ((s.now - x.stall) * 5 / 4) else s

/-- May the queue go on with its next instruction, as far as it alone goes (R134, R139, R141, R147)? -/
def State.ready (s : State) (q : Nat) : Bool :=
  let x := s.queue q
  let resting := match x.cur with
    | none => true
    | some c => (c.waitFt.isNone || c.served || c.expired.isSome) && c.fid.isNone && !s.core.qm.notes.contains q
  (decide (x.st = .bound) || decide (x.st = .waiting)) && resting && decide (x.hold = .none) && x.aside.isNone && x.stalled.isNone
    && !x.aborting && !x.destroying && !x.stopping && x.slot.isSome && decide ((s.ctx x.ctx).st = .active) && !s.coreStalled q

/-- Entries that a doorbell has made available to the core (R25, R131, R150). -/
def Queue.avail (x : Queue) : Bool :=
  decide (x.beyond = 0) && decide (0 < x.ahead x.fetch x.seen) && decide (x.ahead x.fetch x.seen ≤ 2 ^ x.rsz)

/-- A tail reaches the queue's core: what a CMPB jumped beyond the old one comes nearer (R25, R150). -/
def Queue.see (x : Queue) (t : Nat) : Queue :=
  if x.ahead x.seen t ≤ x.ahead x.seen x.tail then { x with seen := t, beyond := x.beyond - x.ahead x.seen t } else x

/-- Tags held by instructions of a context: those in flight, and those whose records are held (R142). -/
def State.tagsOf (s : State) (c : Nat) : List Nat :=
  s.core.qm.queues.flatMap (fun e => if e.2.ctx = c then e.2.fl.map (·.tag) ++ e.2.held.filterMap (·.tag) else [])

/-- The next free tag of a context's range in ascending order, wrapping (R142). -/
def State.autoTag (s : State) (c : Nat) : Option Nat :=
  let x := s.ctx c
  let used := s.tagsOf c
  let start := if x.tagFirst ≤ x.tagNext ∧ x.tagNext < x.tagFirst + x.tagCount then x.tagNext - x.tagFirst else 0
  ((List.range x.tagCount).map (fun i => x.tagFirst + (start + i) % x.tagCount)).find? (fun t => !used.contains t)

/-- The checks of the common header, all made together (R139 step 2, R164, R177). -/
def State.headerBad (s : State) (x : Queue) (raw : Nat) : List Bad :=
  let op := iOp raw
  let c := s.ctx x.ctx
  let w := iWait raw
  let g := iSig raw
  check (!opAssigned op) (0, 1)
  ++ check (opAssigned op && !opForClass op x.cls) (0, 2)
  ++ check (iMod raw &&& (255 - modMask op) ≠ 0) (1, 3)
  ++ check (bits w 20 4 ≠ 0) (6, 3)
  ++ check (bits g 20 4 ≠ 0) (10, 3)
  ++ check (refMode w ≠ 0 && !s.ownsFlag x.ctx (refFlag w)) (4, 4)
  ++ check (refMode g ≠ 0 && !s.ownsFlag x.ctx (refFlag g)) (8, 4)
  ++ check (refMode w > 4) (7, 5)
  ++ check (op = 0x01 && refMode w = 0) (7, 8)
  ++ check (op ≠ 0x03 && refMode g > 3) (11, 5)
  ++ check (op = 0x03 && refMode g ≠ 1) (11, 5)
  ++ check (op = 0x02 && refMode g = 0) (11, 8)
  ++ check (iTag raw ≠ 0xFFFF && !(decide (c.tagFirst ≤ iTag raw) && decide (iTag raw < c.tagFirst + c.tagCount))) (2, 6)

/-- The fetch pointer moves past the current entry; past an END the head moves too and a new program begins (R132). -/
def Queue.advance (x : Queue) (end_ : Bool) : Queue :=
  let f := (x.fetch + 1) % x.rmod
  { x with fetch := f, cur := none, head := if end_ then f else x.head, prog := if end_ then x.prog + 1 else x.prog }

/-- WAITING for a tag or a completion-ring slot, with its counter (R142, R143); a queue in ERROR stays there (R147). -/
def State.holdFor (s : State) (q off : Nat) : State :=
  (s.updQueue q (fun x => { x with st := if x.st = .bound then .waiting else x.st })).bump (qmgBase + off) 1

/-- The tag an instruction would take: the next automatic one, or its own where that is free (R142). -/
def State.tagFor (s : State) (c raw : Nat) : Option Nat :=
  if iTag raw = 0xFFFF then s.autoTag c else if (s.tagsOf c).contains (iTag raw) then none else some (iTag raw)

/-- The signal reference of an instruction's own completion: none for a CLR, which clears the flag, and for a CSET that arms a comparator, which
keeps it (R149, R178). -/
def sigOf (raw : Nat) : Nat := if iOp raw = 0x03 || (iOp raw = 0x09 && bits (iField raw 16 1) 4 1 = 1) then 0 else iSig raw

/-! Choice among the queues of a core (R138) -/

/-- Can an access that meets a stop go on: is there something new to ask for, or a fault ID (R242, R245)? -/
def State.stopMoves (s : State) (c : Nat) : Stop → Bool
  | .none => true
  | .ats a => !s.atsAsked c (a / 4096)
  | .snoop l _ => !mhas s.core.host.bisnp l
  | .evict k => match mget s.core.mem.pool k with | some p => !p.wb | none => true
  | .readOnly => true
  | .fault _ _ => decide (s.core.mmu.faults.length < 1024)

/-- Address of the entry that a queue fetches next. -/
def Queue.fetchAt (x : Queue) : Nat := x.ring + 64 * (x.fetch % 2 ^ x.rsz)

/-- Can a ready queue's next instruction go on in this cycle: nothing it waits for is missing (R138, R139)? -/
def State.canGo (s : State) (q : Nat) : Bool :=
  let x := s.queue q
  match x.cur with
  | none => x.avail && s.stopMoves x.ctx (s.vcheck x.ctx x.fetchAt 64 false false)
  | some c =>
    if c.bad.isSome || c.failed.isSome || c.expired.isSome || (!c.checked && (firstBad (s.headerBad x c.raw)).isSome) then decide (x.crFree ≠ 0)
    else (decide (refMode (iWait c.raw) ≠ 0) && !c.served && !(iOp c.raw = 5 || iOp c.raw = 6)) || (decide (x.crFree ≠ 0) && (s.tagFor x.ctx c.raw).isSome)

/-- Deadline of the instruction at the head of a queue; one not fetched yet counts from now (R38, R138). -/
def State.headDeadline (s : State) (q : Nat) : Option Nat :=
  let x := s.queue q
  let c := match x.cur with | some c => (c.raw, c.ft) | none => (s.vnat x.ctx x.fetchAt 64 false, s.now)
  if iDeadline c.1 = 0 then none else some (c.2 + 64 * iDeadline c.1)

/-- Does the core serve queue r before queue q: REALTIME, by the earliest head deadline; else by priority, in turn within one (R138)? Two REALTIME
queues of one deadline go in ascending number: DESIGN CHOICE, log 81. -/
def State.servesBefore (s : State) (r q : Nat) : Bool :=
  let x := s.queue r
  let y := s.queue q
  if x.prio.testBit 7 ≠ y.prio.testBit 7 then x.prio.testBit 7
  else if x.prio.testBit 7 then match s.headDeadline r, s.headDeadline q with
    | some a, some b => decide (a < b) || (decide (a = b) && decide (r < q))
    | some _, none => true
    | none, some _ => false
    | none, none => decide (r < q)
  else if x.prio % 8 ≠ y.prio % 8 then decide (x.prio % 8 > y.prio % 8)
  else
    let last := mgetD s.core.qm.turn (8 * kcOf y q + y.prio % 8) 32767
    decide ((r + 65535 - last) % 32768 < (q + 65535 - last) % 32768)

/-- May the queue dispatch: it is ready, and no other queue of its core that can go is to be served before it (R138)? -/
def State.mayDispatch (s : State) (q : Nat) : Bool :=
  s.ready q && !(s.canGo q && s.core.qm.queues.any (fun e => e.1 ≠ q && decide (kcOf e.2 e.1 = kcOf (s.queue q) q) && s.servesBefore e.1 q
    && s.ready e.1 && s.canGo e.1))

/-- The queue has had its turn (R138). -/
def State.tookTurn (s : State) (q : Nat) : State :=
  let x := s.queue q
  if s.canGo q && !x.prio.testBit 7 then { s with core.qm.turn := mput s.core.qm.turn (8 * kcOf x q + x.prio % 8) q } else s

/-- The record of an entry that could not be fetched intact (R452). -/
def State.skipEntry (s : State) (q code detail : Nat) : State :=
  let x := s.queue q
  if x.crFree = 0 then s.holdFor q 0x120
  else
    let s := (s.setQueue q { (x.advance false) with reserved := x.reserved + 1, st := .bound }).take 7 q 1
    let s := s.emitRecord q 0xFFFF (code + 0x80) 0xFF 0 detail 0xFFFF none
    (s.updQueue q Queue.errorStop).settle q

/-- An instruction that fails step 2: no tag, its record carries TAG as written, its signal applies unless the failure lies in SIGREF; one that
waits for a ring slot has failed for good (R139, R165). -/
def State.failHeader (s : State) (q : Nat) (raw : Nat) (b : Bad) : State :=
  let x := s.queue q
  if x.crFree = 0 then (s.updQueue q (fun x => { x with cur := x.cur.map (fun c => { c with failed := some b }) })).holdFor q 0x120
  else
    let s := (s.setQueue q { (x.advance (decide (iOp raw = 0x0F))) with reserved := x.reserved + 1, st := .bound }).take 7 q 1
    let s := if decide (8 ≤ b.1) && decide (b.1 < 12) then s else s.signal (sigOf raw) x.ctx q true
    let s := s.emitRecord q (iTag raw) 0x8C (iOp raw) 0 (badDetail b) 0xFFFF none
    (s.updQueue q Queue.errorStop).settle q

/-! Control instructions (R177-R179) -/

/-- Body checks of a control instruction beyond its reserved bits (R149, R150, R173, R177). -/
def ctlBad (raw : Nat) : List Bad :=
  match iOp raw with
  | 0x09 =>
    let k := bits (iField raw 16 1) 4 1
    check (k = 1 && iField raw 16 1 % 16 > 3) (16, 8)
    ++ check (k = 0 && iField raw 17 1 ≠ 0) (17, 3)
    ++ check (k = 1 && iField raw 17 1 % 16 > 5) (17, 8)
  | 0x0B => check (iField raw 17 1 % 16 > 5) (17, 8) ++ check (iField raw 24 4 = 0) (24, 0x0E)
  | _ => []

/-- Opcode of the ring entry at an index, as memory holds it. -/
def State.entryOp (s : State) (x : Queue) (i : Nat) : Nat :=
  s.vnat x.ctx (x.ring + 64 * (i % 2 ^ x.rsz)) 1 false

/-- Is a CMPB's target invalid: before DB_HEAD, or forward past an END of the current program among the entries the core knows (R150)? -/
def State.targetBad (s : State) (x : Queue) (idx : Nat) (off : Int) : Bool :=
  if off < 0 then decide ((x.ahead x.head idx : Int) < -off)
  else (List.range (min (off.toNat - 1) (x.ahead idx x.seen - 1))).any (fun i => decide (s.entryOp x (idx + 1 + i) = 0x0F))

/-- Signed offset of a CMPB. -/
def cmpbOff (raw : Nat) : Int := sext 32 (iField raw 24 4)

/-- The ring entries after its own that a CMPB's check of a forward target reads, as it reads them (R150, R232). -/
def State.lookAhead (s : State) (x : Queue) (raw idx : Nat) : State :=
  if iOp raw = 0x0B then
    (List.range (min ((cmpbOff raw).toNat - 1) (x.ahead idx x.seen - 1))).foldl
      (fun s i => s.vtouch x.ctx (x.ring + 64 * ((idx + 1 + i) % 2 ^ x.rsz)) 64 false false) s
  else s

/-- CMPB's check of its target, made with its other body checks (R150, R174). -/
def State.cmpbBad (s : State) (x : Queue) (raw idx : Nat) : List Bad :=
  check (iOp raw = 0x0B && iField raw 24 4 ≠ 0 && s.targetBad x idx (cmpbOff raw)) (24, 0x0E)

/-- Complete a control instruction that the core has carried out. -/
def State.ctlDone (s : State) (q seq : Nat) : State := (s.finish q seq).complete q seq

/-- CLR: the COUNT as it stood goes into the counter, then the clear is applied in one update cycle (R177, R178). -/
def State.doClr (s : State) (q seq raw : Nat) : State :=
  let g := iSig raw
  let x := s.queue q
  let copy := (s.flag (refFlag g)).count
  let s := if (iMod raw).testBit 0 then s.updQueue q (fun x => { x with ctrs := mput x.ctrs (refCtr g) copy }) else s
  ((s.flagArrive (refFlag g) x.ctx ⟨false, some q⟩).flagCycle (refFlag g)).ctlDone q seq

/-- GATE: the queue is held until FT reaches the effective value (R38, R140, R167). -/
def State.doGate (s : State) (q seq raw : Nat) (ix : Map Nat) : State :=
  let v := effAt raw ix 0 128 64
  if s.nowAt (s.dieOf q) ≥ v then s.scheduled.ctlDone q seq
  else s.updQueue q (fun x => { x with hold := .gate v, st := .waiting })

/-- CSET: writes a counter, or arms a comparator with the header's signal reference; one whose relation already holds fires at once
(R148, R149, R178). -/
def State.doCset (s : State) (q seq raw : Nat) : State :=
  let n := iField raw 16 1 % 16
  let v := iField raw 20 4
  if bits (iField raw 16 1) 4 1 = 0 then (s.setCtr q n v).ctlDone q seq
  else
    let rel := iField raw 17 1
    let s := s.updQueue q (fun x => { x with comps := mput x.comps n ⟨true, rel / 16, rel % 16, v, iSig raw⟩ })
    (s.compareOne q n).ctlDone q seq

/-- CADD: adds a signed word modulo 2^32 (R148). -/
def State.doCadd (s : State) (q seq raw : Nat) : State :=
  let n := iField raw 16 1 % 16
  (s.setCtr q n (((s.queue q).c n + iField raw 20 4) % 2 ^ 32)).ctlDone q seq

/-- CMPB: where the relation holds, the fetch pointer moves to the CMPB's index plus the offset; beyond the tail the queue is WAITING for the
doorbell (R150). -/
def State.doCmpb (s : State) (q seq raw idx : Nat) : State :=
  let x := s.queue q
  let off := cmpbOff raw
  let a := x.c (iField raw 16 1 % 16)
  let b := if (iMod raw).testBit 0 then x.c (iField raw 18 1 % 16) else iField raw 20 4
  if relHolds (iField raw 17 1 % 16) a b then
    let far := (off - (x.ahead idx x.seen : Int)).toNat
    (s.setQueue q { x with fetch := (((idx : Int) + off) % (x.rmod : Int)).toNat, beyond := far, st := if far = 0 then x.st else .waiting }).ctlDone q seq
  else s.ctlDone q seq

/-- Carry out a control instruction that has passed its checks (R140). -/
def State.runControl (s : State) (q seq raw idx : Nat) (ix : Map Nat) : State :=
  match iOp raw with
  | 0x03 => s.doClr q seq raw
  | 0x04 => s.doGate q seq raw ix
  | 0x07 => ((s.updQueue q (fun x => { x with hold := .fence })).updInst q seq (fun i => { i with ctl := true })).settle q
  | 0x08 => ((s.updQueue q (fun x => { x with hold := .halt })).updInst q seq (fun i => { i with ctl := true })).settle q
  | 0x09 => s.doCset q seq raw
  | 0x0A => s.doCadd q seq raw
  | 0x0B => s.doCmpb q seq raw idx
  | 0x0F => (s.updInst q seq (fun i => { i with ctl := true })).settle q
  | _ => s.ctlDone q seq

/-- Write an entry into the bound slot's share, or stall the core where the share is full (R139 step 6, R141). -/
def State.intoEiq (s : State) (q : Nat) (e : Entry) : State :=
  let x := s.queue q
  match x.slot with
  | none => s
  | some r =>
    let l := mgetD s.core.qm.eiq (slotKey r) []
    if l.length < shareOf x.cls then ({ s with core.qm.eiq := mput s.core.qm.eiq (slotKey r) (l ++ [e]) }.take 8 (eiqPart r) 1).stampHead r
    else s.updQueue q (fun x => { x with stalled := some e, stall := s.now })

/-- Steps 4 to 6 of R139 for an instruction whose header and wait have passed. -/
def State.launch (s : State) (q : Nat) (c : Cur) : State :=
  let x := s.queue q
  let raw := c.raw
  match s.tagFor x.ctx raw with
  | none => s.holdFor q 0x118
  | some tag =>
    if x.crFree = 0 then s.holdFor q 0x120
    else
      let seq := x.nextSeq
      let idx := x.fetch
      let op := iOp raw
      let ctl := opControl op
      let ix := ixSums raw x.c
      let unit := if ctl then 0xFFFF else match x.slot with | some r => slotCode r | none => 0xFFFF
      let i : InFlight :=
        { seq := seq, tag := tag, op := op, fn := bits raw 128 8, sig := sigOf raw, mode := iMod raw, unit := unit, prog := x.prog, ft := c.ft, dft := s.now,
          deadline := if iDeadline raw = 0 then 0 else c.ft + 64 * iDeadline raw }
      let x := x.advance (decide (op = 0x0F))
      let s := s.setQueue q { x with st := .bound, nextSeq := seq + 1, reserved := x.reserved + 1, fl := x.fl ++ [i] }
      let s := if iTag raw = 0xFFFF then s.updCtx x.ctx (fun k => { k with tagNext := tag + 1 }) else s
      let s := (((s.bump (qmgBase + 0x100) 1).take 6 0 1).take 7 q 1).countDispatch (kcOf x q) q seq x.ctx
      if ctl then
        match firstBad (reservedBad raw ++ ixBad raw ix ++ ctlBad raw ++ s.cmpbBad x raw idx) with
        | some b => ((s.lookAhead x raw idx).finishWith q seq 0xC (badDetail b)).complete q seq
        | none => (s.lookAhead x raw idx).runControl q seq raw idx ix
      else s.intoEiq q ⟨q, seq, raw, x.ctx, ix⟩

/-- Step 3 of R139: evaluate the wait reference, and register with the flag's controller where it does not hold (R154, R156). One whose block has
left the context since step 2 fails as there (R152). -/
def State.evalWait (s : State) (q : Nat) (c : Cur) : State :=
  let w := iWait c.raw
  let f := refFlag w
  let x := s.queue q
  if iOp c.raw = 5 || iOp c.raw = 6 || refMode w = 0 || c.served then s.launch q c
  else if !s.ownsFlag x.ctx f then s.failHeader q c.raw (4, 4)
  else if waitHolds (s.flag f) (refMode w) (x.c (refCtr w)) then
    let s := s.serve f (refMode w) (refCtr w) q
    (s.updQueue q (fun x => { x with cur := some { c with served := true } })).launch q { c with served := true }
  else
    let s := s.setQueue q { x with st := .waiting, cur := some { c with waitFt := some s.now } }
    { s with core.qm.waiters := s.core.qm.waiters ++ [⟨f, refMode w, refCtr w, q, none, s.now⟩] }

/-! Timeouts (R156, R157) -/

/-- Bytes of a wait record (R157). -/
def waitRecord (phase seq mode q flag start waited : Nat) (w : Flag) (tag : Nat) : List Byte :=
  leBytes 32 (put 0 8 1 + put 8 1 phase + put 12 4 mode + put 16 16 q + put 32 20 flag + put 64 64 start + put 128 64 waited
    + (if w.sv then put 192 15 w.setter + put 207 1 1 else 0) + put 208 16 w.count + put 224 16 tag + put 240 16 seq)

/-- A wait that expires now, with the flag's word as it stands (R157). -/
def State.expiryOf (s : State) (w : Waiter) : Expiry := ⟨w, s.now, s.flag w.flag⟩

/-- The wait record, QMG_INT.TMO and the count of a timeout (R157). -/
def State.waitExpired (s : State) (ctx : Nat) (x : Expiry) (tag : Nat) : State :=
  let w := x.wait
  let s := s.errRecord ctx (fun p n => waitRecord p n w.mode w.q w.flag w.ft (x.ft - w.ft) x.word tag)
  (s.raise qmgInt 1).bump (qmgBase + 0x128) 1

/-- Detail word of WAIT_TIMEOUT: the flag, and the time waited in units of 64 ns, saturating (R145). -/
def Expiry.detail (x : Expiry) : Nat := put 0 20 x.wait.flag + put 32 32 (sat (2 ^ 32 - 1) ((x.ft - x.wait.ft) / 64))

/-- Withdraw a queue's own wait at dispatch. -/
def State.withdraw (s : State) (q : Nat) : State :=
  { s with core.qm.waiters := s.core.qm.waiters.filter (fun w => !(w.q = q && w.seq.isNone)),
           core.qm.notes := s.core.qm.notes.filter (· ≠ q) }

/-- The instruction of a timed-out dispatch wait completes with WAIT_TIMEOUT, its signal under its mode, once a ring slot is free; it holds no tag,
and both records carry the header's TAG: DESIGN CHOICE, log 95 (R139, R157). -/
def State.endTimeout (s : State) (q raw : Nat) (e : Expiry) : State :=
  let x := s.queue q
  if x.crFree = 0 then s.holdFor q 0x120
  else
    let s := (s.setQueue q { (x.advance (decide (iOp raw = 0x0F))) with reserved := x.reserved + 1, st := if x.st = .waiting then .bound else x.st }).take 7 q 1
    let s := s.signal (sigOf raw) x.ctx q true
    let s := s.emitRecord q (iTag raw) 0x84 (iOp raw) 0 e.detail 0xFFFF none
    let s := s.waitExpired x.ctx e (iTag raw)
    (s.updQueue q Queue.errorStop).settle q

/-- Steps 2 to 6 of R139 on the fetched entry. -/
def State.runCur (s : State) (q : Nat) : State :=
  match (s.queue q).cur with
  | none => s
  | some c =>
    match c.bad with
    | some (code, detail) => s.skipEntry q code detail
    | none =>
      match c.failed, c.expired with
      | some b, _ => s.failHeader q c.raw b
      | none, some x => s.endTimeout q c.raw x
      | none, none =>
      match firstBad (s.headerBad (s.queue q) c.raw) with
      | some b => if c.checked then s.evalWait q c else s.failHeader q c.raw b
      | none =>
        let c := { c with checked := true }
        (s.updQueue q (fun x => { x with cur := some c })).evalWait q c

/-- An entry has been fetched: DB_HEAD moves past an END (R132). -/
def Queue.fetched (x : Queue) (c : Cur) : Queue :=
  { x with cur := some c, head := if c.bad.isNone && iOp c.raw = 0x0F then (x.fetch + 1) % x.rmod else x.head }

/-- Step 1 of R139: fetch the next entry through the context's translation (R131, R452). -/
def State.fetchNext (s : State) (q : Nat) : State :=
  let x := s.queue q
  let a := x.fetchAt
  match s.vcheck x.ctx a 64 false false with
  | .fault cause addr =>
    let r := s.raiseFault x.ctx addr cause false (.fetch q) q 0xFFFF 0xFFFF
    match r.2 with
    | .aborted => (r.1.updQueue q (fun x => { x with cur := some { raw := 0, ft := s.now, bad := some (7, addr) } })).runCur q
    | .held fid => r.1.updQueue q (fun x => { x with st := .waiting, cur := some { raw := 0, ft := s.now, fid := some fid } })
    | .noId => r.1.updQueue q (fun x => { x with st := .waiting })
  | .none =>
    let g := s.vget x.ctx a 64 false
    let s := s.vtouch x.ctx a 64 false false
    let c : Cur := if g.2 then { raw := 0, ft := s.now, bad := some (1, x.fetch) } else { raw := leNat g.1, ft := s.now }
    let s := if g.2 then (s.rasUc 0x01 x.home 0xFFFF x.ctx a 1).ctxError x.ctx q 0xFFFF 0x01 1 a 1 else s
    (s.updQueue q (fun x => x.fetched c)).runCur q
  | st => s.askFor x.ctx st

/-- INSTRUCTION_DISPATCH: the next entry of a queue goes as far as it can (R139). -/
def State.dispatch (s : State) (q : Nat) : State :=
  if !s.mayDispatch q then s
  else
    let s := s.tookTurn q
    match (s.queue q).cur with
    | some _ => s.runCur q
    | none =>
      if (s.queue q).avail then s.fetchNext q
      else if (s.queue q).beyond ≠ 0 then s.updQueue q (fun x => { x with st := .waiting })
      else s

/-- The next entry of the queue is the instruction `raw`: the same steps with the fetch already made (log 9). -/
def State.dispatchAs (s : State) (q raw : Nat) : State :=
  if !s.mayDispatch q then s
  else
    let s := s.tookTurn q
    match (s.queue q).cur with
    | some c => if c.raw = raw && c.bad.isNone then s.runCur q else s
    | none =>
      if (s.queue q).avail then (s.updQueue q (fun x => x.fetched { raw := raw, ft := s.now })).runCur q
      else s

/-- A control instruction's 64 bytes from its header operands and body (R163). -/
def ctlWord (op : Nat) (h : Hdr) (body : Nat) : Nat :=
  put 0 8 op + put 8 8 h.mod + put 16 16 h.tag + put 32 32 h.wait + put 64 32 h.sig + put 96 32 h.dl + put 128 320 body
    + put 448 64 h.ixc

end Sys2Proof.Machine
end

