-- ==== Sys2Proof/Machine/QueueCmds.lean ====
section
/-! DEFINITION. Doorbells, the QMG commands, dispatch, set-aside and binding (06_programs R129-R162). -/
namespace Sys2Proof.Machine

/-! Command blocks (R160) -/

def fldArg (base n : Nat) : Fld := ⟨base + 8 + 8 * n, 0, 64, 0⟩
def fldData (base i : Nat) : Fld := ⟨base + 0x200 + 4 * i, 0, 32, 0⟩

/-- Argument n of a command block. -/
def State.arg (s : State) (base n : Nat) : Nat := s.reg (fldArg base n)

/-- The first n data words of a command block as one number. -/
def State.cmdData (s : State) (base : Nat) : Nat → Nat
  | 0 => 0
  | n + 1 => s.cmdData base n + s.reg (fldData base n) * 2 ^ (32 * n)

/-- Put a number into the first n data words. -/
def State.putData (s : State) (base v : Nat) : Nat → State
  | 0 => s
  | n + 1 => (s.putData base v n).setReg (fldData base n) (bits v (32 * n) 32)

/-- Result byte of a status code. -/
def resultOf (code : Nat) : Nat := if code = 0 then 0 else code + 0x80

/-- Finish the command of a block: RESULT, BUSY clear and CMD_DONE (R160, R161). -/
def State.cmdDone (s : State) (key code int bit : Nat) : State :=
  { s with core.cmds := mupd s.core.cmds key {} (fun c => { c with busy := false, result := resultOf code }) }.raise int bit

/-- Is the command of a block in progress? -/
def State.cmdBusy (s : State) (key : Nat) : Bool := (mgetD s.core.cmds key {}).busy

/-- Run a command that ends at once: discarded while another is in progress (R160). -/
def State.runCmd (s : State) (key op int bit : Nat) (f : State → State × Nat) : State :=
  if s.cmdBusy key then s
  else
    let r := f { s with core.cmds := mput s.core.cmds key { op := op } }
    r.1.cmdDone key r.2 int bit

/-- Start a command that ends later: its op and a number are kept while it is BUSY. -/
def State.startCmd (s : State) (key op arg : Nat) : State :=
  { s with core.cmds := mput s.core.cmds key { busy := true, op := op, arg := arg } }

/-- Run a QMG command. -/
def State.qmgCmd (s : State) (op : Nat) (f : State → State × Nat) : State := s.runCmd 0 op qmgInt 3 f

/-! Descriptors (R130, R137, R161) -/

/-- Is a descriptor invalid (R130)? The engine checks of R137 are apart. -/
def State.descBad (s : State) (d : Nat) : Bool :=
  let cls := bits d 160 8
  let aff := bits d 168 8
  let v := bits d 176 16
  let st := (s.ctx (bits d 128 12)).st
  decide (bits d 0 12 ≠ 0) || decide (bits d 56 8 ≠ 0) || decide (bits d 64 12 ≠ 0) || decide (bits d 120 8 ≠ 0)
  || decide (bits d 140 4 ≠ 0) || decide (bits d 144 8 < 6) || decide (bits d 144 8 > 14) || decide (bits d 152 8 < 7)
  || decide (bits d 152 8 > 16) || decide (cls > 7) || decide (aff > 3) || decide (bits d 195 4 ≠ 0) || decide (bits d 204 4 ≠ 0)
  || decide (bits d 210 6 ≠ 0) || decide (bits d 216 8 ≠ 0) || decide (bits d 256 256 ≠ 0)
  || (match aff with
      | 0 => decide (v ≠ 0)
      | 1 => decide (v > 3)
      | 2 => decide (cls > 3) && decide (v ≥ s.unitsOf cls)
      | _ => decide (cls > 3) || decide (v > 63))
  || decide (bits d 128 12 = 0) || !(decide (st = .active) || decide (st = .suspended))

/-- Does a descriptor name an absent engine (R137)? -/
def State.descAbsent (s : State) (d : Nat) : Bool :=
  let aff := bits d 168 8
  let v := bits d 176 16
  decide (bits d 160 8 ≤ 3) && ((decide (aff = 2) && decide (v ≥ s.opeCount)) || (decide (aff = 3) && !s.fuse.opePresent.testBit v))

/-- The 64 bytes of a descriptor with HOME set (R138). -/
def withHome (d home : Nat) : Nat := d - put 208 8 (bits d 208 8) + put 208 2 home

/-- Read a queue's entry of the interrupt map; one that is enabled with a vector below 16 or a reserved bit set is treated as disabled
and sets HIF_INT.IMAP_BAD (R372). -/
def State.readMap (s : State) (q : Nat) : State :=
  let r := s.hostRead (s.reg ⟨hifBase + 0x28, 12, 52, 0⟩ * 4096 + 4 * q) 4
  let v := leNat r.1
  let bad := decide (bits v 16 16 ≠ 0) || decide (bits v 11 4 ≠ 0) || (v.testBit 15 && decide (bits v 0 11 < 16))
  let on := v.testBit 15 && !bad && !r.2
  (s.updQueue q (fun x => { x with vector := if on then some (bits v 0 11) else none })).raiseIf (bad && !r.2) (hifBase + 0x80) 5

/-- An unbound queue under a changed descriptor keeps DB_HEAD, its fetch pointer, its tail and its completion-ring indices, modulo the sizes of its
new rings: DESIGN CHOICE, log 95 (R161). -/
def Queue.reDesc (x : Queue) (d : Nat) : Queue :=
  let y := { x with desc := d }
  { y with head := x.head % y.rmod, fetch := x.fetch % y.rmod, tail := x.tail % y.rmod, seen := x.seen % y.rmod,
           crTail := x.crTail % y.cmod, crHead := x.crHead % y.cmod }

/-- CQ_CREATE and CQ_MODIFY on a descriptor (R130, R137, R161). -/
def State.setDesc (s : State) (q d : Nat) (create : Bool) : State × Nat :=
  let x := s.queue q
  let stOk := if create then decide (x.st = .disabled) else decide (x.st = .idle) && x.slot.isNone
  if !stOk || s.descBad d then (s, 0xC)
  else if s.descAbsent d then (s, 6)
  else
    let home := if create then 0 else x.home
    let d := withHome d home
    let y : Queue := if create then { st := .idle, desc := d, idleFt := s.now } else x.reDesc d
    let s := ((s.setQueue q y).give 7 q (x.unread - y.unread)).take 7 q (y.unread - x.unread)
    ((s.readMap q).tableWrite q, 0)

/-- What a doorbell that has come to a quarter does to its queue: slots of the completion ring are freed; a tail that comes to the queue's home is
known to its core, and the state follows. One that comes to an earlier home tells no core, and the binding has: DESIGN CHOICE, log 80. -/
def State.bellIn (s : State) (d : Bell) : State :=
  let x := s.queue d.q
  let s := match d.crHead with
    | some h => (s.updQueue d.q (fun x => { x with crHead := h })).give 7 d.q ((h + x.cmod - x.crHead) % x.cmod)
    | none => s
  match d.tail with
  | some t =>
    if d.home = x.home then s.updQueue d.q (fun x =>
      let x := x.see t
      (if x.st = .waiting && x.cur.isNone && x.hold = .none && x.avail then { x with st := .bound } else x).rest s.now)
    else s
  | none => s

/-- DOORBELL_FORWARD: a forwarded doorbell reaches the cores of the quarter it was sent to; those of one quarter arrive in order (R18, R25, R134,
R138). -/
def execDoorbellForward (q : Nat) (s : State) : Out :=
  liftCore (whenLive (fun s =>
    match s.core.qm.doorbells.find? (fun d => d.q = q) with
    | none => s
    | some d =>
      if s.core.qm.doorbells.find? (fun b => b.home = d.home) = some d then
        { s with core.qm.doorbells := s.core.qm.doorbells.erase d }.bellIn d
      else s)) s

/-- A doorbell write that is discarded (R133, R159). -/
def State.dbBad (s : State) (q : Nat) : State :=
  if (s.ctx (s.queue q).ctx).st = .killing && (s.queue q).st ≠ .disabled then s else s.raise qmgInt 0

/-- A doorbell write to a queue's page reaches the hub: size, alignment and state are checked, and it is counted (R7, R159). -/
def State.dbPage (s : State) (q : Nat) (f : State → State) : State :=
  if q ≥ 32768 then s
  else
    let x := s.queue q
    let s := s.bump (hifBase + 0x100) 1
    if x.st = .disabled then s.raise qmgInt 0
    else if (s.ctx x.ctx).st = .killing then s
    else if x.destroying then s
    else f s

/-- A new tail (R133). -/
def State.newTail (s : State) (q v : Nat) : State :=
  let x := s.queue q
  if v ≥ x.rmod then s.raise qmgInt 0
  else if x.ahead x.head v > 2 ^ x.rsz || x.ahead x.head v < x.ahead x.head x.tail then s.raise qmgInt 0
  else
    let s := s.updQueue q (fun x => { x with tail := v })
    { s with core.qm.doorbells := s.core.qm.doorbells ++ [{ q := q, home := x.home, tail := some v }] }

/-- A new completion-ring consumer index goes to the queue's core (R25, R143). -/
def State.newCrHead (s : State) (q v : Nat) : State :=
  let x := s.queue q
  { s with core.qm.doorbells := s.core.qm.doorbells ++ [{ q := q, home := x.home, crHead := some (v % 2 ^ 17 % x.cmod) }] }

/-- DB_TAIL: 4 bytes, or 8 that carry DB_CRHEAD in the upper half (R133, R159, R369). -/
def execDbTail (q size val : Nat) (s : State) : Out :=
  liftCore (whenDispatching (fun s =>
    if size = 4 then s.dbPage q (fun s => s.newTail q (val % 2 ^ 32))
    else if size = 8 then s.dbPage q (fun s => (s.newTail q (val % 2 ^ 32)).newCrHead q (val / 2 ^ 32))
    else s)) s

/-- DB_CRHEAD, at page offset 4: a write of any size but 4 bytes is discarded (R7, R143, R159). -/
def execDbCrhead (q : Nat) (w : DbWrite) (s : State) : Out :=
  liftCore (whenDispatching (fun s => if w.size = 4 then s.dbPage q (fun s => s.newCrHead q w.val) else s)) s

/-- Half-slots of a tile number (R87). -/
def halves (t : Nat) (a32 : Bool) : List Nat := if a32 then [t] else [t, t + 1]

/-- The tiles that firmware parks around a release and loads again: those of a partition that a format mismatch fenced, but for the faulting OPA's
tile (R251, R258). -/
def OPart.reloads (x : OPart) : Map Tile := if x.fence = 1 then x.tiles.filter (fun e => e.1 ≠ x.fenceTile) else []

/-- Release of a fenced partition: its tiles are zeroed as ACCZ does, after a format mismatch all but the faulting OPA's being parked before and loaded
again after it (R103, R109, R258); what a control-state error left in the drain buffer counts as reclaimed (R347, R360). The row-port operations that the fence
suppressed complete with CANCELLED: DESIGN CHOICE, log 79. -/
def State.releasePart (s : State) (n p : Nat) : State :=
  let o := mgetD s.core.opes n {}
  let imgs := o.drains.filter (fun d => d.part = p)
  let back := (o.back.filter (fun d => d.1.part = p)).map (·.1)
  let lost := ((o.pend.filter (fun e => e.1 = p)).map (·.2)) ++ (imgs ++ back).map (·.e)
  let k := sumNat (imgs.map (·.units))
  let s := if (mgetD o.parts p {}).fence = 2 then s.reclaim 9 n k else s.give 9 n k
  let x := mgetD o.parts p {}
  let parks := x.reloads.foldl (fun (a : State × List (Tile × Option Nat)) t =>
    let r := a.1.setAside n x.fenceCtx t.2
    (r.1, a.2 ++ [(t.2, r.2)])) (s, [])
  let s := parks.2.foldl (fun (s : State) t => (s.unAside n t.1 t.2).bump (opeBase n + 0x188) (imageBytes t.1.a32 t.1.shape)) parks.1
  let per := if o.mode = 3 then 1024 else if o.mode = 0 then 4096 else 2048
  let inPart (l : Nat) : Bool := decide (l / per = p)
  let s := { s with core.opes := mput s.core.opes n { o with
      parts := mput o.parts p {
        tiles := if x.fence = 1 then
            x.tiles.map (fun e => if e.1 = x.fenceTile then (e.1, Tile.zero e.2.a32 e.2.shape) else e) else []
        clean := if x.fence = 1 then
            (List.range 16).filter (fun h => !x.tiles.any (fun e => (halves e.1 e.2.a32).contains h)) else List.range 16 }
      pend := o.pend.filter (fun e => e.1 ≠ p)
      obuf := o.obuf.filter (fun e => !inPart e.1)
      drop := o.drop.filter (fun l => !inPart l.1)
      unkeep := o.unkeep.filter (fun l => !inPart l.1)
      pipe := o.pipe.filter (fun t => t.part ≠ p)
      drains := o.drains.filter (fun d => d.part ≠ p)
      back := o.back.map (fun (d : DrainImg × Option Nat) => if d.1.part = p then ({ d.1 with part := 4 }, d.2) else d)
      staged := o.staged.map (fun x => if x.part = p then { x with part := 4 } else x) } }
  lost.foldl (fun s e => (s.finishWith e.q e.seq 5 0).complete e.q e.seq) s

/-- Engine and partition that a queue's slot names. -/
def Queue.part (x : Queue) : Option (Nat × Nat) :=
  match x.slot with
  | some r => if r.cls ≤ 3 then some (r.unit, r.slot) else none
  | none => none

/-- Cause for which the partition of a queue is fenced; 0 none. -/
def State.fenceOf (s : State) (q : Nat) : Nat :=
  match (s.queue q).part with
  | none => 0
  | some (n, p) => (mgetD (mgetD s.core.opes n {}).parts p {}).fence

/-- Complete the instructions that wait in a queue's share with a status (R256, R258). -/
def State.flushShare (s : State) (q code : Nat) : State :=
  match (s.queue q).slot with
  | none => s
  | some r =>
    let l := mgetD s.core.qm.eiq (slotKey r) []
    let mine := l.filter (fun e => e.q = q)
    let s := { s with core.qm.eiq := mput s.core.qm.eiq (slotKey r) (l.filter (fun e => e.q ≠ q)) }.give 8 (eiqPart r) mine.length
    mine.foldl (fun s e => (s.finishWith q e.seq code 0).complete q e.seq) s

/-- Complete a set-aside instruction with CANCELLED, and one whose stall on a full share has not yet lasted STALL_MAX too: DESIGN CHOICE, log 95
(R141, R147). -/
def State.cancelAside (s : State) (q : Nat) : State :=
  let x := s.queue q
  let l := (x.aside.toList ++ x.stalled.toList)
  let s := (s.endStall q).updQueue q (fun x => { x with aside := none, stalled := none, stall := 0 })
  l.foldl (fun s e => (s.finishWith q e.seq 5 0).complete q e.seq) s

/-- A queue's ring fetch no longer waits at its fault (R452). -/
def State.unfetch (s : State) (q : Nat) : State :=
  { s with core.mmu.faults := s.core.mmu.faults.map (fun f => (f.1, { f.2 with fetches := f.2.fetches.filter (· ≠ q) })) }

/-- DB_CTL.ABORT, and the stop of CQ_DESTROY (R147, R161). -/
def State.abortQueue (s : State) (q : Nat) : State :=
  let fenced := decide (s.fenceOf q = 1) && decide ((s.queue q).st = QState.error)
  let s := ((s.withdraw q).unfetch q).updQueue q (fun x => { x with
    head := x.tail, fetch := x.tail, seen := x.tail, beyond := 0, cur := none, aborting := true
    hold := match x.hold with | .gate v => .gate v | _ => .none })
  let s := s.cancelAside q
  let s := if fenced then s.flushShare q 5 else s
  let s := match (s.queue q).part with
    | some (n, p) => if fenced then s.releasePart n p else s
    | none => s
  s.settle q

/-- BOUND or WAITING, as a bound queue's next instruction can go on or waits on a flag, a fetch, a gate or a doorbell (R134). -/
def Queue.onward (x : Queue) : QState :=
  let waits := match x.cur with | some c => (c.waitFt.isSome && !c.served && c.expired.isNone) || c.fid.isSome | none => decide (x.beyond ≠ 0)
  let gate := match x.hold with | .gate _ => true | _ => false
  if waits || gate then .waiting else .bound

/-- DB_CTL_RESUME: bit 1 set too acts as ABORT alone (R147). -/
def State.dbCtl (s : State) (q val : Nat) : State :=
  if val.testBit 1 then s.abortQueue q
  else if val.testBit 0 then
    let x := s.queue q
    if x.st = .halted || x.st = .error then
      let s := match x.part with
        | some (n, p) => if decide (x.st = QState.error) && s.fenceOf q = 1 then s.releasePart n p else s
        | none => s
      s.updQueue q (fun x => ({ x with st := if x.slot.isSome then x.onward else QState.ready, readyFt := s.now, errPend := false }).rest s.now)
    else s
  else s

/-- A write of DB_CTL, at page offset 0x18: of 4 bytes, or of 8 whose upper half is reserved; any other size is discarded (R7, R159). -/
def State.dbCtlWrite (s : State) (q : Nat) (w : DbWrite) : State :=
  if w.size = 4 || w.size = 8 then s.dbPage q (fun s => s.dbCtl q w.val) else s

/-- DB_CTL_RESUME (R147). -/
def execDbCtlResume (q : Nat) (w : DbWrite) (s : State) : Out := liftCore (whenDispatching (fun s => s.dbCtlWrite q w)) s

/-- DB_CTL_ABORT (R147). -/
def execDbCtlAbort (q : Nat) (w : DbWrite) (s : State) : Out := liftCore (whenDispatching (fun s => s.dbCtlWrite q w)) s

/-! QMG commands (R161) -/

/-- CQ_CREATE (R130, R161). -/
def State.cqCreate (s : State) : State :=
  s.qmgCmd 1 (fun s => s.setDesc (bits (s.arg qmgBase 0) 0 15) (s.cmdData qmgBase 16) true)
/-- CQ_MODIFY (R130, R161). -/
def State.cqModify (s : State) : State :=
  s.qmgCmd 2 (fun s => s.setDesc (bits (s.arg qmgBase 0) 0 15) (s.cmdData qmgBase 16) false)
/-- CQ_DESTROY: BUSY until the queue is DISABLED (R161). -/
def State.cqDestroy (s : State) : State :=
  let q := bits (s.arg qmgBase 0) 0 15
  if s.cmdBusy 0 then s
  else if (s.queue q).st = .disabled then s.qmgCmd 3 (fun s => (s, 0xC))
  else
    let s := s.startCmd 0 3 q
    let s := s.updQueue q (fun x => { x with destroying := true })
    s.abortQueue q
/-- CQ_READ (R161). -/
def State.cqRead (s : State) : State :=
  s.qmgCmd 4 (fun s => (s.putData qmgBase (withHome (s.queue (bits (s.arg qmgBase 0) 0 15)).desc (s.queue (bits (s.arg qmgBase 0) 0 15)).home) 16, 0))

/-- Is a context one that commands may name: 1-4,095, ACTIVE or SUSPENDED (R161)? -/
def State.ctxUsable (s : State) (c : Nat) : Bool :=
  decide (c ≠ 0) && (decide ((s.ctx c).st = .active) || decide ((s.ctx c).st = .suspended))

/-- FLAG_ALLOC: the lowest free block, cleared (R152, R161; which free block is firmware's, log 12). -/
def State.flagAlloc (s : State) : State :=
  s.qmgCmd 0x10 (fun s =>
    let c := bits (s.arg qmgBase 0) 0 12
    if !s.ctxUsable c then (s, 0xC)
    else match firstFree 4096 (s.core.qm.owner.map (·.1)) with
      | none => (s, 0xE)
      | some b =>
        ({ s with core.qm.owner := mput s.core.qm.owner b c,
                  core.qm.flags := s.core.qm.flags.filter (fun e => e.1 / 256 ≠ b),
                  core.qm.upd := s.core.qm.upd.filter (fun e => e.1 / 256 ≠ b) }.setReg (fldArg qmgBase 1) b, 0))

/-- FLAG_FREE: a block that is not allocated gives ILLEGAL_INSTRUCTION as one with a wait does: DESIGN CHOICE, log 95 (R152). -/
def State.flagFree (s : State) : State :=
  s.qmgCmd 0x11 (fun s =>
    let b := bits (s.arg qmgBase 0) 0 12
    if !mhas s.core.qm.owner b || s.core.qm.waiters.any (fun w => w.flag / 256 = b) then (s, 0xC)
    else ({ s with core.qm.owner := mdel s.core.qm.owner b }, 0))

/-- TAG_RANGE (R161). -/
def State.tagRange (s : State) : State :=
  s.qmgCmd 0x12 (fun s =>
    let c := bits (s.arg qmgBase 0) 0 12
    let f := bits (s.arg qmgBase 0) 16 16
    let n := bits (s.arg qmgBase 1) 0 17
    let clash := s.core.mmu.ctxs.any (fun e => e.1 ≠ c && e.2.tagCount ≠ 0 && f < e.2.tagFirst + e.2.tagCount && e.2.tagFirst < f + n)
    if !s.ctxUsable c || n = 0 || n > 65536 || f + n > 65536 || clash then (s, 0xC)
    else if !(s.tagsOf c).isEmpty then (s, 0xE)
    else ((s.updCtx c (fun x => { x with tagFirst := f, tagCount := n, tagNext := f })).ctxWrite c, 0))

/-- ERR_RING: a ring set anew begins at its first place with PHASE 1, and the sequence number and the records that wait go on: DESIGN CHOICE, log 95
(R158, R161). -/
def State.errRing (s : State) : State :=
  s.qmgCmd 0x13 (fun s =>
    let c := bits (s.arg qmgBase 0) 0 12
    let n := bits (s.arg qmgBase 1) 0 5
    if !s.ctxUsable c || n < 7 || n > 16 then (s, 0xC)
    else ((s.updCtx c (fun x => { x with errBase := bits (s.arg qmgBase 1) 12 44, errN := n, errSet := true, errPos := 0, errFull := false })).ctxWrite c, 0))

def execCqCreate (s : State) : Out := liftCore (whenDispatching State.cqCreate) s
def execCqModify (s : State) : Out := liftCore (whenDispatching State.cqModify) s
def execCqDestroy (s : State) : Out := liftCore (whenDispatching State.cqDestroy) s
def execCqRead (s : State) : Out := liftCore (whenDispatching State.cqRead) s
def execFlagAlloc (s : State) : Out := liftCore (whenDispatching State.flagAlloc) s
def execFlagFree (s : State) : Out := liftCore (whenDispatching State.flagFree) s
def execTagRange (s : State) : Out := liftCore (whenDispatching State.tagRange) s
def execErrRing (s : State) : Out := liftCore (whenDispatching State.errRing) s

/-- A QMG command by its OP, as a write of QMG_CMD with GO starts it (R160, R161). -/
def State.qmgGo (s : State) (op : Nat) : State :=
  match op with
  | 0x01 => s.cqCreate | 0x02 => s.cqModify | 0x03 => s.cqDestroy | 0x04 => s.cqRead
  | 0x10 => s.flagAlloc | 0x11 => s.flagFree | 0x12 => s.tagRange | 0x13 => s.errRing
  | _ => s.qmgCmd op (fun s => (s, 0xC))

/-- FLAG_HOST_WRITE: bit 62 sets, bit 63 clears, both set; nothing in an unallocated block (R162). -/
def State.flagWrite (s : State) (f val : Nat) : State :=
  if !mhas s.core.qm.owner (f / 256) || f ≥ 2 ^ 20 then s
  else
    let us := (if val.testBit 62 then [FlagUpdate.mk true none] else []) ++ (if val.testBit 63 then [FlagUpdate.mk false none] else [])
    if us.isEmpty then s else { s with core.qm.upd := mupd s.core.qm.upd f [] (· ++ us) }

/-- FLAG_HOST_WRITE (R162). -/
def execFlagHostWrite (f val : Nat) (s : State) : Out := liftCore (whenDispatching (fun s => s.flagWrite f val)) s

/-- FLAG_UPDATE_CYCLE (R154). -/
def execFlagUpdateCycle (f : Nat) (s : State) : Out := liftCore (whenLive (fun s => s.flagCycle f)) s

/-- INSTRUCTION_DISPATCH (R139). -/
def execInstructionDispatch (q : Nat) (s : State) : Out := liftCore (whenDispatching (fun s => s.dispatch q)) s

/-- Is the share of a queue's slot full? -/
def State.shareFull (s : State) (q : Nat) : Bool :=
  match (s.queue q).slot with
  | some r => decide (shareOf (s.queue q).cls ≤ (mgetD s.core.qm.eiq (slotKey r) []).length)
  | none => false

/-- SET_ASIDE: the stall has lasted STALL_MAX cycles, and the share is still full (R141). -/
def execSetAside (q : Nat) (s : State) : Out :=
  liftCore (whenDispatching (fun s =>
    match (s.queue q).stalled with
    | none => s
    | some e => if !s.shareFull q then s else
      let n := max 1 (s.reg fldStallMax)
      ((s.updQueue q (fun x => { x with stalled := none, stall := 0, aside := some e })).bump (qmgBase + 0x108) n).bump (qmgBase + 0x110) 1)) s

/-- SET_ASIDE_WRITE: the unit has freed an entry (R141). -/
def execSetAsideWrite (q : Nat) (s : State) : Out :=
  liftCore (whenDispatching (fun s =>
    let x := s.queue q
    match x.slot, (x.aside <|> x.stalled) with
    | some _, some e =>
      if !s.shareFull q then
        ((s.endStall q).setQueue q { x with aside := none, stalled := none, stall := 0 }).intoEiq q e
      else s
    | _, _ => s)) s

/-- Units that a queue's affinity allows (R130). -/
def State.affinityOk (s : State) (x : Queue) (u : Nat) : Bool :=
  match x.aff with
  | 0 => true
  | 1 => decide (s.quarterOf x.cls u = x.affv)
  | 2 => decide (u = x.affv)
  | _ => decide (s.opePhys u = some x.affv)

/-- Rank of a READY queue for binding: REALTIME, then priority, then longest READY (R136). -/
def rankAbove (x y : Queue) : Bool :=
  let rx := b2n (x.prio.testBit 7); let ry := b2n (y.prio.testBit 7)
  if rx ≠ ry then decide (rx > ry)
  else if x.prio % 8 ≠ y.prio % 8 then decide (x.prio % 8 > y.prio % 8)
  else decide (x.readyFt < y.readyFt)

/-- May a queue go to a slot as far as its pre-emption allows: back to the slot it left (R253)? -/
def Queue.backTo (x : Queue) (r : SlotRef) : Bool := match x.left with | none => true | some l => decide (slotKey l = slotKey r)

/-- May a READY queue go to a slot, were it free: its class and affinity, its context, the slot it left, the engine's mode and its fence
(R101, R135, R136, R253, R258)? -/
def State.suits (s : State) (q : Nat) (r : SlotRef) : Bool :=
  let x := s.queue q
  decide (x.st = .ready) && x.slot.isNone && decide (r.cls = x.cls) && decide (r.slot < slotsOf x.cls) && decide (r.unit < s.unitsOf x.cls)
  && decide ((s.ctx x.ctx).st = .active) && s.affinityOk x r.unit && x.backTo r
  && (if x.cls ≤ 3 then decide ((mgetD s.core.opes r.unit {}).mode = x.cls)
        && (let p := mgetD (mgetD s.core.opes r.unit {}).parts r.slot {}; decide (p.fence = 0) || (decide (p.fenceQ = q) && x.left.isSome)) else true)

/-- May a queue be bound to a slot now: the slot is free, and no queue of a higher rank suits it (R136)? -/
def State.mayBind (s : State) (q : Nat) (r : SlotRef) : Bool :=
  s.suits q r && !mhas s.core.qm.slots (slotKey r)
  && !s.core.qm.queues.any (fun e => e.1 ≠ q && s.suits e.1 r && rankAbove e.2 (s.queue q))

/-- Bind a queue: its home quarter follows the unit (R136, R138). -/
def State.bind (s : State) (q : Nat) (r : SlotRef) : State :=
  let home := s.quarterOf r.cls r.unit
  let s := { s with core.qm.slots := mput s.core.qm.slots (slotKey r) q }
  let s := s.updQueue q (fun x => { (x.see x.tail) with slot := some r, st := .bound, home := home, left := none, desc := withHome x.desc home })
  s.tableWrite q

/-- QUEUE_IDLE_UNBIND: 10 us IDLE (R136). -/
def execQueueIdleUnbind (q : Nat) (s : State) : Out :=
  liftCore (whenLive (fun s =>
    let x := s.queue q
    if x.st = .idle && x.slot.isSome && decide (s.now ≥ x.idleFt + 10000) then s.freeSlot q else s)) s

end Sys2Proof.Machine
end

