-- ==== Sys2Proof/Machine/Flash.lean ====
section
/-! DEFINITION. The tile pool's and the flash tier's own events: fills, the evictor, write-backs, and the recovery of marked TUs
(09_memory_tiers_and_tile_pool R219-R231). -/
namespace Sys2Proof.Machine

/-! The pool (R219-R222) -/

/-- Has the flash controller's transfer buffer of 4 MiB room for one more TU: reads outstanding and data to be programmed lie in it (R12)? -/
def State.flashRoom (s : State) : Bool := decide (s.core.mem.readQ.length + s.core.mem.progQ.length < 256)

/-- POOL_MISS: a miss takes a pool TU and starts its fill, joins a fill, waits for an eviction, or bypasses the pool; a TU that was missed by a write is
dirty once it is filled (R219, R222). -/
def State.poolMiss (s : State) (ctx va key k : Nat) (write : Bool) : State :=
  let p := s.poolEntry key k ctx
  if p.resident then s
  else if p.filling then (s.setPool key { p with dirty := p.dirty || write }).bump (memBase k + 0x120) 1
  else if p.t1 && !s.flashRoom then s
  else match s.claim ctx key k write with
  | .error (some d) => s.askEvict d
  | _ =>
    let before := s.poolFree k
    let r := s.takeTu ctx k (s.resQuota ctx)
    match r.2 with
    | none => (r.1.bump (memBase k + 0x128) 1).raise (memInt k) 1
    | some i =>
      let s := ((r.1.bump (memBase k + 0x118) 1).take 0xF k 1).setPool key
        { p with index := i, last := s.now, filling := true, dirty := write, owner := ctx, va := va / tuBytes * tuBytes,
                 page := if p.t1 then none else s.hostPage ctx (va / tuBytes * tuBytes) }
      let s := if p.t1 then { s with core.mem.readQ := s.core.mem.readQ ++ [p.home] } else s
      s.lowCheck k before

/-- POOL_MISS (R219): an access of a context to a pooled granule that is not resident. -/
def execPoolMiss (ctx va : Nat) (write : Bool) (s : State) : Out :=
  liftCore (whenDispatching (fun s => match s.xlate ctx va write false with
    | .ok l => match poolKey l with
      | some (key, k) => s.poolMiss ctx va key k write
      | none => s
    | _ => s)) s

/-- POOL_FILL_DONE: the home's bytes land, and the accesses that waited are served from the pool (R219). -/
def execPoolFillDone (key : Nat) (s : State) : Out :=
  liftCore (whenLive (fun s => match mget s.core.mem.pool key with
    | none => s
    | some p => if p.filling && !(p.t1 && s.core.mem.readQ.contains p.home) then
        s.fillFrom key p else s)) s

/-- Evictions of stack k in progress. -/
def State.evicting (s : State) (k : Nat) : Nat := mcount s.core.mem.pool (fun p => p.stack = k && p.wb && p.evict)

/-- Evict until the free TUs, and those being written back, reach HIGH; at most n of them (R220). -/
def State.evictor (s : State) (k : Nat) : Nat → State
  | 0 => s
  | n + 1 =>
    if s.poolFree k + s.evicting k ≥ (s.wm k).2 then s
    else match s.evictee k (fun _ => true) with
      | none => s
      | some (key, p) => (if p.dirty then s.startWb key p else s.freeTu key p).evictor k n

/-- EVICTOR_RUN: it begins below LOW and goes on until the free TUs reach HIGH (R220). -/
def execEvictorRun (stack : Nat) (s : State) : Out :=
  liftCore (whenDispatching (fun s =>
    let on := decide (s.poolFree stack < (s.wm stack).1) || (s.core.mem.evOn.contains stack && decide (s.poolFree stack < (s.wm stack).2))
    if s.stackPresent stack && on then
      let s := s.evictor stack s.core.mem.pool.length
      { s with core.mem.evOn := if s.poolFree stack < (s.wm stack).2 then sins stack s.core.mem.evOn else sdel stack s.core.mem.evOn }
    else { s with core.mem.evOn := sdel stack s.core.mem.evOn })) s

/-- WRITEBACK_ACK: the TU is freed; one written meanwhile is dirty again and its eviction is abandoned (R221). -/
def execWritebackAck (key : Nat) (s : State) : Out :=
  liftCore (whenLive (fun s => match mget s.core.mem.pool key with
    | none => s
    | some p =>
      if !p.wb || p.refused then s
      else
        let p := { p with wb := false, old := [] }
        let s := s.tuDone key
        if p.again then s.setPool key { p with evict := false, again := false }
        else if p.evict then s.freeTu key p
        else s.setPool key { p with dirty := false })) s

/-- WRITEBACK_REFUSED: by a read-only flash tier, or as a CXL.cache write fails (R221). -/
def execWritebackRefused (key : Nat) (s : State) : Out :=
  liftCore (whenLive (fun s => match mget s.core.mem.pool key with
    | none => s
    | some p =>
      if !p.wb || (p.t1 && !p.refused) then s
      else
        let s := if p.refused then s else s.undoWb key p
        (s.refuseWb key { p with refused := false, old := [] }).tuDone key)) s

/-! Flash (R226-R231) -/

def fldReplBase : Fld := ⟨ftlBase + 0x18, 12, 52, 0⟩
def fldReplN : Fld := ⟨ftlBase + 0x20, 0, 17, 0⟩
def fldFtlArg (n : Nat) : Fld := ⟨ftlBase + 0x30 + 8 * n, 0, 64, 0⟩

/-- Finish the FTL command in progress (R233). -/
def State.ftlDone (s : State) (code : Nat) : State :=
  { s with core.cmds := mupd s.core.cmds 4 {} (fun c => { c with busy := false, result := resultOf code }) }

/-- No replica was found: the TU stays marked (R230). -/
def State.unrecovered (s : State) (tu : Nat) : State :=
  (({ s with core.mem.recovering := sdel tu s.core.mem.recovering, core.mem.unrecLast := tu }).raise ftlInt 2).ftlSettle

/-- The four reads of a peer replica, of 4,096 bytes each, in CTX 0 with FL.T1 (R229). -/
def State.peerReads (s : State) (tu entry peer src : Nat) : State :=
  let first := s.core.fab.txidNext
  (List.range 4).foldl (fun s k =>
    let r := s.newTx { type := 0x20, tu := some tu, entry := entry, part := k, first := first }
    r.1.emit (r.1.mkPacket 0x20 3 (peer + put 13 3 4) 4 r.2
      (hdrPut 16 8 (src * tuBytes + 4096 * k) + hdrPut 24 2 0 + hdrPut 26 2 4096 + hdrPut 28 1 1) []) 4) s

/-- Try the entries of the replica table from entry i on, n of them: the first that covers the TU and yields it clean (R229, R231). A host
replica is read and its programming begun; a peer replica is asked for. -/
def State.tryReplicas (s : State) (tu i : Nat) : Nat → State
  | 0 => s.unrecovered tu
  | n + 1 =>
    let r := s.hostRead (s.reg fldReplBase * 4096 + 32 * i) 32
    let e := leNat r.1
    let first := bits e 0 64
    let kind := bits e 96 8
    let src := bits e 128 64
    let covers := !r.2 && decide (first ≤ tu) && decide (tu < first + bits e 64 32)
    if covers && kind = 1 then
      let d := s.hostRead (src + (tu - first) * tuBytes) tuBytes
      let s := s.bump (hifBase + 0x108) tuBytes
      if d.2 || tuPoison d.1 then s.tryReplicas tu (i + 1) n
      else if !s.flashRoom then s
      else { s with core.mem.progQ := s.core.mem.progQ ++ [(tu, d.1)] }
    else if covers && kind = 2 then s.peerReads tu i (bits e 112 13) (src + (tu - first))
    else s.tryReplicas tu (i + 1) n

/-- Recovery from entry i of the replica table on (R229). -/
def State.recoverFrom (s : State) (tu i : Nat) : State := s.tryReplicas tu i (s.reg fldReplN - i)

/-- Begin the recovery of a marked TU. -/
def State.beginRecovery (s : State) (tu : Nat) : State :=
  ({ s with core.mem.recovering := sins tu s.core.mem.recovering }).recoverFrom tu 0

/-- A read of a TU cannot be corrected: it is marked, counted and recorded, and its recovery begins (R229). -/
def State.markTu (s : State) (tu : Nat) : State :=
  if smem tu s.core.mem.marked then s
  else
    let s := (({ s with core.mem.marked := sins tu s.core.mem.marked }).bump (ftlBase + 0x128) 1).raise ftlInt 0
    (s.rasLog 0x12 1 0 4 0xFFFF 0xFFFF tu 0 1).beginRecovery tu

/-- FLASH_READ_DONE: a read delivers its TU; one that cannot be corrected marks it (R226, R229). -/
def execFlashReadDone (tu : Nat) (bad : Bool) (s : State) : Out :=
  liftCore (whenLive (fun s =>
    if tu ≥ s.flashTus then s
    else
      let s := { s with core.mem.readQ := s.core.mem.readQ.filter (· ≠ tu) }
      if bad then s.markTu tu else s)) s

/-- A part of a peer replica arrives: clean, it is kept until all four are here, when programming begins; otherwise the next entry of the
table is tried (R229). -/
def State.replicaPart (s : State) (o : Outst) (t tu : Nat) (ok : Bool) (bs : List Byte) : State :=
  let mine (s : State) : Map Outst := s.core.fab.outst.filter (fun e => e.2.tu = some tu && e.2.first = o.first)
  let forget (s : State) : State := { s with core.fab.outst := s.core.fab.outst.filter (fun e => !(decide (e.2.tu = some tu) && e.2.first = o.first)) }
  if !smem tu s.core.mem.recovering then (forget s).ftlSettle
  else if !ok || (o.part = 0 && tuPoison bs) then (forget s).recoverFrom tu (o.entry + 1)
  else
    let s := { s with core.fab.outst := mput s.core.fab.outst t { o with got := bs } }
    if (mine s).all (fun e => e.2.got.length = 4096) then
      let whole := (List.range 4).flatMap (fun k => (((mine s).find? (fun e => e.2.part = k)).map (·.2.got)).getD [])
      if !s.flashRoom then forget s else { forget s with core.mem.progQ := s.core.mem.progQ ++ [(tu, whole)] }
    else s

/-- Recoveries that found the transfer buffer full are tried again once it has room (R12, R229). -/
def State.flashWork (s : State) : State :=
  if s.core.mem.recovering.isEmpty || !s.flashRoom then s
  else
    let waits (t : Nat) : Bool := !s.core.mem.progQ.any (fun e => e.1 = t) && !s.core.fab.outst.any (fun e => e.2.tu = some t)
    (s.core.mem.recovering.filter waits).foldl (fun s t => s.recoverFrom t 0) s

/-- FLASH_WRITE_DONE: a recovery's program completes: the mark is cleared, and the resident pool TU is replaced in the same update, LAST
unchanged (R229). One that a write has abandoned meanwhile has no effect. -/
def execFlashWriteDone (tu : Nat) (s : State) : Out :=
  liftCore (whenLive (fun s => match s.core.mem.progQ.find? (fun e => e.1 = tu) with
    | none => s
    | some e =>
      let s := { s with core.mem.progQ := s.core.mem.progQ.erase e }
      if !smem tu s.core.mem.recovering then s.ftlSettle
      else
        let s := { s with core.mem.flash := memWrites s.core.mem.flash (tu * tuBytes) e.2,
                          core.mem.marked := sdel tu s.core.mem.marked, core.mem.recovering := sdel tu s.core.mem.recovering }
        let s := s.programmed
        let s := match mget s.core.mem.pool (2 * tu) with
          | some p => if p.resident && p.poisonPin then
              (s.hbmWrite (s.poolDpa p.stack p.index) e.2).setPool (2 * tu) { p with poisonPin := false } else s
          | none => s
        (((s.bump (ftlBase + 0x130) 1).raise ftlInt 1).rasLog 0x12 0 0 4 0xFFFF 0xFFFF tu 0 1).ftlSettle)) s

/-- FTL_READ_ONLY (R227). -/
def execFtlReadOnly (s : State) : Out :=
  liftCore (whenLive (fun s => if s.core.mem.flashRo then s else { s with core.mem.flashRo := true }.raise ftlInt 3)) s

/-- DISCARD: the range reads as zeros, and marks and recoveries in it end (R228, R230, R233). -/
def State.discard (s : State) : State :=
  if s.cmdBusy 4 then s
  else
    let a := s.reg (fldFtlArg 0)
    let n := s.reg (fldFtlArg 1)
    let s := s.startCmd 4 1 0
    if a + n > s.flashTus then s.ftlDone 0xC
    else
      let out (t : Nat) : Bool := decide (t < a) || decide (a + n ≤ t)
      ({ s with core.mem.flash := s.core.mem.flash.filter (fun c => out (c.1 / tuBytes)),
                core.mem.marked := s.core.mem.marked.filter out,
                core.mem.progQ := s.core.mem.progQ.filter (fun e => out e.1),
                core.mem.recovering := s.core.mem.recovering.filter out }.bump (ftlBase + 0x138) n).ftlDone 0

/-- RECOVER: every marked TU is retried against the replica table (R230, R233). -/
def State.recoverAll (s : State) : State :=
  if s.cmdBusy 4 then s
  else
    let l := s.core.mem.marked.filter (fun t => !smem t s.core.mem.recovering)
    let s := s.startCmd 4 2 0
    let s := { s with core.mem.recovering := l.foldl (fun r t => sins t r) s.core.mem.recovering }
    (l.foldl (fun s t => if smem t s.core.mem.recovering then s.recoverFrom t 0 else s) s).ftlSettle

/-- An FTL command by its OP (R233). -/
def State.ftlGo (s : State) (op : Nat) : State :=
  match op with
  | 1 => s.discard
  | 2 => s.recoverAll
  | _ => if s.cmdBusy 4 then s else (s.startCmd 4 op 0).ftlDone 0xC

def execDiscard (s : State) : Out := liftCore (whenDispatching State.discard) s
def execRecover (s : State) : Out := liftCore (whenDispatching State.recoverAll) s

end Sys2Proof.Machine
end

