-- ==== Sys2Proof/Machine/Frames.lean ====
section
/-! DEFINITION. The bytes of a frame: unit slots, control area and CRC (12_mladben_fabric R287-R290, R303). -/
namespace Sys2Proof.Machine

/-- Bytes of a data unit of a packet. -/
def unitData (p : Packet) (n : Nat) : List Byte :=
  let l := (p.data.drop (64 * (n - 1))).take 64
  l ++ leBytes (64 - l.length) 0

/-- The link header: bits 31:0 of the reserved bits are bytes 12 to 15, bits 33:32 those of VCF (R290). -/
def linkHeader (p : Packet) : List Byte :=
  leBytes 1 p.type ++ leBytes 1 (p.vc % 16 + 16 * b2n p.poison + 32 * b2n p.mc + 64 * bits p.rsvd 32 2) ++ leBytes 1 p.len ++ leBytes 1 p.hops
    ++ leBytes 2 p.dest ++ leBytes 2 p.src ++ leBytes 4 p.txid ++ leBytes 4 p.rsvd

/-- The 64 bytes of a unit (R290). -/
def unitBytes (u : FabUnit) : List Byte := if u.n = 0 then linkHeader u.pkt ++ leBytes 48 u.pkt.hdr else unitData u.pkt u.n

/-- Unit descriptor (R289). -/
def unitDesc (u : FabUnit) : Nat := 128 + 64 * b2n (u.n = 0) + 32 * b2n u.p + u.pkt.vc % 16

/-- The handshake block (R303). -/
def hsBytes (h : Handshake) : List Byte :=
  leBytes 1 h.version ++ leBytes 1 h.grade ++ leBytes 2 h.modid ++ leBytes 1 h.port ++ leBytes 1 (h.mode % 4 + 4 * b2n h.rev + 8 * b2n h.fresh)
    ++ leBytes 1 h.incarn ++ leBytes 1 h.seen ++ leBytes 4 h.next ++ (List.range 16).flatMap (fun v => leBytes 2 (h.limits.getD v 0)) ++ leBytes 20 0

/-- Exactly n bytes: cut, or filled with zeros. -/
def fitBytes (n : Nat) (l : List Byte) : List Byte := l.take n ++ leBytes (n - l.length) 0

/-- Unit slots of a frame, in slot order; the handshake block stands in slot 0 (R288, R289). -/
def frameSlotBytes (f : Frame) (slots : Nat) : List Byte :=
  fitBytes (64 * slots) ((match f.hs with | some h => hsBytes h | none => f.units.flatMap unitBytes) ++ f.idle)

/-- The control area up to its CRC, of a frame of 76 or 38 slots (R288). -/
def frameControl (f : Frame) (slots : Nat) : List Byte :=
  let freed (v : Nat) : Nat := (f.freed.find? (fun e => e.1 = v)).elim 0 (·.2)
  leBytes 1 f.ctype ++ leBytes 1 (b2n f.nak) ++ leBytes 1 f.nakcnt ++ leBytes 1 f.incarn ++ leBytes 4 f.seq ++ leBytes 4 f.ack
    ++ (List.range 16).flatMap (fun v => leBytes 3 (freed v))
    ++ fitBytes slots (if f.hs.isSome then [] else f.units.flatMap (fun u => leBytes 1 (unitDesc u)))
    ++ leBytes (if slots = 76 then 136 else 36) 0

/-- One bit of the CRC: polynomial 0x04C1_1DB7, least significant bit first (log 101). -/
def crcBit (c : Nat) : Nat := (c / 2) ^^^ (c % 2 * 0xEDB88320)

/-- One byte of the CRC. -/
def crcByte (c : Nat) (b : Byte) : Nat := crcBit (crcBit (crcBit (crcBit (crcBit (crcBit (crcBit (crcBit (c ^^^ b.toNat))))))))

/-- CRC-32 as IEEE 802.3 takes it: it starts from ones and is complemented at the end (R288; log 101). -/
def crc32 (l : List Byte) : Nat := l.foldl crcByte 0xFFFFFFFF ^^^ 0xFFFFFFFF

/-- The CRC over every data byte of a frame before it (R288). -/
def frameCrc (f : Frame) (slots : Nat) : Nat := crc32 (frameSlotBytes f slots ++ frameControl f slots)

/-- A frame as it is sent: with its CRC (R288). -/
def frameSealed (f : Frame) (slots : Nat) : Frame := { f with crc := frameCrc f slots }

/-- Does a received frame's CRC hold (R288)? -/
def frameCrcOk (f : Frame) (slots : Nat) : Bool := decide (f.crc = frameCrc f slots)

end Sys2Proof.Machine
end

