-- ==== Sys2Proof/Machine/TimeOps.lean ====
section
/-! DEFINITION. Fabric time: sources, lock states, corrections and the tick (02_fabric_time). -/
namespace Sys2Proof.Machine

def fldHoldLimit : Fld := ⟨0x108, 16, 8, 100⟩
def fldExch : Fld := ⟨0x108, 8, 4, 3⟩
def fldSrc : Fld := ⟨0x108, 0, 2, 3⟩
def hifInt : Nat := hifBase + 0x80

/-- The source in use: 0 none, 1 reference, 2 fabric (R30). -/
def State.source (s : State) : Nat :=
  match s.reg fldSrc with
  | 0 => 0
  | 1 => 1
  | 2 => 2
  | _ => if s.ft.refOk && s.ft.tsyncOk then 1 else 2

/-- STATE code of a lock state (R35). -/
def Lock.code : Lock → Nat
  | .free => 0 | .acquiring => 1 | .locked => 2 | .holdover => 3

/-- FT in units of 2^-16 ns. -/
def FabTime.units (f : FabTime) : Nat := f.ns * 65536 + f.frac

/-- FT set to a value in units of 2^-16 ns, 64 bits of nanoseconds. -/
def FabTime.setUnits (f : FabTime) (u : Int) : FabTime :=
  { f with ns := ((u / 65536) % 2 ^ 64).toNat, frac := (u % 65536).toNat }

/-- Enter a lock state: hop count and parent follow, the time event is raised and the RAS collector told (R35). -/
def State.setLock (s : State) (l : Lock) : State :=
  if s.ft.lock = l then s
  else
    let s := { s with ft.lock := l, ft.good := 0, ft.bad := 0, ft.slew := if l = Lock.free then 0 else s.ft.slew }
    let s := if l = .locked then
        if s.source = 1 then { s with ft.hop := 0, ft.parent := 0x3F }
        else { s with ft.hop := (mgetD s.ft.partners s.ft.parent {}).hop + 1 }
      else { s with ft.hop := 0xF }
    (s.rasLog 0x11 0 0 4 0xFFFF 0xFFFF 0 l.code 0).raise hifInt 0

/-- Count a loss of lock (R35, R40). -/
def State.countLoss (s : State) : State := { s with ft.losses := (s.ft.losses + 1) % 256 }

/-- Lock lost from LOCKED by the first two kinds of R35: HOLDOVER, or FREE at once with HOLD_LIMIT 0 (R40). -/
def State.loseLock (s : State) : State :=
  if s.ft.lock = .locked then
    s.countLoss.setLock (if s.reg fldHoldLimit = 0 then .free else .holdover)
  else s

/-- A source is usable: a module in FREE begins ACQUIRING. One in HOLDOVER stays there while it reacquires, as R35 lets it, and does not pass
through ACQUIRING (log 36). -/
def State.beginAcquire (s : State) : State := if s.ft.lock = .free then s.setLock .acquiring else s

/-- A step of FT to a value, with STEPS counted and the next dump record marked. After a step backward the instants of the counter dump resume from
the first multiple of the interval after the new FT (R37, R40, R422). -/
def State.stepFt (s : State) (u : Int) : State :=
  { s with ft := { s.ft.setUnits u with slew := 0, steps := (s.ft.steps + 1) % 256, src := some 0, copies := [] },
           core.pmc.step := true,
           core.pmc.lastInstant := if u < s.ft.units then ((u / 65536) % 2 ^ 64).toNat else s.core.pmc.lastInstant }

/-- The correction of an offset d = FT minus source time, in 2^-16 ns (R36). -/
def State.fix (s : State) (d : Int) : State :=
  let ns : Int := 65536
  let s := { s with ft.src := some d }
  if !s.ft.everReady then
    if d = 0 then s
    else if d < 0 then { s with ft.disjoint := false }.stepFt (s.ft.units - d)
    else { s with ft := { s.ft.setUnits (s.ft.units - d) with slew := 0, src := some 0, disjoint := false, copies := [] } }
  else if d ≥ 10000000 * ns then
    let s := if s.ft.lock = .locked then s.countLoss else s
    { s with ft.disjoint := true, ft.slew := 0 }.setLock .acquiring
  else if -d ≥ 10000 * ns then { s with ft.disjoint := false }.stepFt (s.ft.units - d)
  else { s with ft.disjoint := false, ft.slew := -d }

/-- A measured offset d = FT minus source time, in 2^-16 ns: GLB_FT_OFFSET shows it, and it is corrected (R36, R40). -/
def State.correct (s : State) (d : Int) : State :=
  { s with ft.offsetPs := clampInt (-(2 ^ 31 - 1)) (2 ^ 31 - 1) (d * 1000 / 65536) }.fix d

/-- The lock rule of R35 for a measurement d: n consecutive ones within 1 ns lock; m outside 2 ns lose lock. -/
def State.lockRule (s : State) (d : Int) (n m : Nat) : State :=
  let ns : Int := 65536
  if s.ft.disjoint then { s with ft.good := 0 }
  else
    let s := s.beginAcquire
    let within1 := decide (-ns ≤ d) && decide (d ≤ ns)
    let within2 := decide (-(2 * ns) ≤ d) && decide (d ≤ 2 * ns)
    let s := { s with ft.good := if within1 then s.ft.good + 1 else 0,
                      ft.bad := if within2 then 0 else s.ft.bad + 1 }
    if s.ft.lock = .locked then if s.ft.bad ≥ m then s.loseLock else s
    else if s.ft.good ≥ n then s.setLock .locked else s

/-- Partners that may be the parent (R32). -/
def State.eligible (s : State) : List (Nat × TimePartner) :=
  s.ft.partners.filter (fun e => e.2.state = 2 && e.2.hop ≤ 9 && decide ((mgetD s.core.fab.ports e.1 {}).st = .active))

/-- The least of a list by hop count, the first where several tie (R32: keys rise). -/
def leastHop : List (Nat × TimePartner) → Option (Nat × TimePartner)
  | [] => none
  | e :: es =>
    match leastHop es with
    | none => some e
    | some f => if f.2.hop < e.2.hop then some f else some e

/-- Choose the parent in fabric mode; none: DEPTH (R32); a FREE module with a parent begins ACQUIRING (R35). Lock is kept where another eligible port becomes the parent of a LOCKED module, and DEPTH
stays as it stands while the fabric is not the source in use (log 36). A LOCKED module whose source is the reference is a root (R31). -/
def State.chooseParent (s : State) : State :=
  if s.source = 2 then
    match leastHop s.eligible with
    | none =>
      let s := { s with ft.depth := true, ft.parent := 0x3F, ft.src := none }
      s.loseLock
    | some (p, _) =>
      let s := if p = s.ft.parent then { s with ft.depth := false }
        else { s with ft.depth := false, ft.parent := p, ft.good := 0, ft.src := none, ft.open_ := false }
      if s.ft.lock = .locked then { s with ft.hop := (mgetD s.ft.partners p {}).hop + 1 } else s.beginAcquire
  else
    { s with ft.parent := 0x3F, ft.open_ := false, ft.hop := if s.source = 1 && s.ft.lock = .locked then 0 else s.ft.hop }

/-- After a change of the source in use no source time is known, nothing is left to slew out, and the parent is chosen again; lock is kept where
nothing of R35 loses it (R30, R32, R37; log 36). `old`: the state before. -/
def State.resource (s old : State) : State :=
  if s.source = old.source then s else { s with ft.src := none, ft.good := 0, ft.slew := 0 }.chooseParent

/-- What 100 ppm make of the nanosecond n: 6 or 7 parts of 2^-16 ns, 65,536 in 10,000 ns (R35, R36). -/
def slewStep (n : Nat) : Nat := (n % 10000 + 1) * 65536 / 10000 - n % 10000 * 65536 / 10000

/-- A correction of the quarters' copies: each lies within 0.4 ns of the timekeeper's count (R27; log 71). -/
def FabTime.fixCopies (f : FabTime) : FabTime :=
  { f with copies := (List.range 4).map (fun q => (q, clampInt (-26214) 26214 (Config.copySkew (4 * f.fixes + q)))), fixes := f.fixes + 1 }

/-- One nanosecond of the disciplined rate; a pending offset is slewed out at 100 ppm, FT comes nearer to the source's time by as much (R35, R36), and
the copies are corrected (R27). -/
def FabTime.tick (f : FabTime) : FabTime :=
  let m : Int := slewStep f.ns
  let adj : Int := if f.slew > 0 then min m f.slew else if f.slew < 0 then max (-m) f.slew else 0
  { f.setUnits ((f.units : Int) + 65536 + adj) with slew := f.slew - adj, src := f.src.map (· + adj) }.fixCopies

/-- A running module that follows the fabric and has no eligible parent shows DEPTH (R32). -/
def State.noParent (s : State) : State := if s.source = 2 && s.eligible.isEmpty && !s.ft.depth then s.chooseParent else s

end Sys2Proof.Machine
end

