-- ==== Sys2Proof/Machine/Ports.lean ====
section
/-! DEFINITION. Operations of the external ports: receive buffers, transmit queues, frames, retry and the two ways in which link state is
lost (12_mladben_fabric R285-R306, 14_progress R350-R353). -/
namespace Sys2Proof.Machine

/-- STATE code of a port (R302). -/
def PortState.code : PortState → Nat
  | .down => 0 | .train => 1 | .resync => 2 | .active => 3 | .failed => 4

/-- Own receive units of a VC; a half-port has half (R295). -/
def rxLimit (half : Bool) (v : Nat) : Nat :=
  let n := if v = 0 then 256 else if v = 1 then 128 else if v ≤ 3 then 8192 else 992
  if half then n / 2 else n

/-- Units of the replay FIFO (R295). -/
def replayCap (half : Bool) : Nat := if half then 2048 else 4096

/-- Unit slots of a frame: 76, or 38 on a half-port or a degraded port (R287, R306). -/
def State.frameSlots (s : State) (i : Nat) : Nat := if s.halfMode i || (s.port i).degraded then 38 else 76

/-- SENT less FREED of a VC, modulo 2^24 (R295). -/
def Port.outst (p : Port) (v : Nat) : Nat := (mgetD p.sent v 0 + 2 ^ 24 - mgetD p.freedIn v 0 % 2 ^ 24) % 2 ^ 24

/-- Units held by the replay FIFO. -/
def Port.replayUnits (p : Port) : Nat := sumNat (p.replay.map (fun f => f.units.length))

/-- A port's replay FIFO: read up to what is still to be sent again, marked and released at the oldest frame not acknowledged (R298, R344-R346). -/
def State.replayFifo (s : State) (i : Nat) : Fifo :=
  let p := s.port i
  { depth := replayCap (s.halfMode i), wr := p.replayUnits, rd := p.replayUnits - sumNat (p.resend.map (fun f => f.units.length)), marked := 0, freed := 0 }

/-- Own incarnation: the free value drawn at module reset and the port's increments, never 0 (R304, log 6). -/
def State.incarnOf (s : State) (i : Nat) : Nat := (Config.freeNat s.core.fab.draw + (s.port i).incarnInc) % 255 + 1

/-! Transmit queues -/

/-- Queue a packet that is forwarded from a receive buffer, over the direct link to a port of another quarter (R22, R299). -/
def State.queueFrom (s : State) (o : Nat) (p : Packet) (x : RxPkt) (i : Nat) : State :=
  s.toPort (dieOfPort i) o { pkt := p, here := x.here, ps := x.ps, src := some (i, x.id) }

/-- Change the transmit queues of a port. -/
def Port.mapTx (p : Port) (f : List PartPkt → List PartPkt) : Port := { p with tx := p.tx.map (fun t => (t.1, f t.2)) }

/-- Change the transmit queues of every port. -/
def State.mapTx (s : State) (f : List PartPkt → List PartPkt) : State :=
  { s with core.fab.ports := s.core.fab.ports.map (fun e => (e.1, e.2.mapTx f)) }

/-- Units of a packet of a receive buffer have come: every copy that waits in a transmit queue or before a die-to-die link has them too. -/
def State.growCopies (s : State) (i id here : Nat) (ps : List Nat) (data : List Byte) : State :=
  let s := s.mapTx (fun l => l.map (fun x => if x.src = some (i, id) then { x with here := here, ps := (x.ps ++ ps).eraseDups, pkt := { x.pkt with data := data } } else x))
  { s with core.fab.crossing := s.core.fab.crossing.map (fun (c : Crossing) =>
      if c.src = some (i, id) then { c with here := here, ps := (c.ps ++ ps).eraseDups, pkt := { c.pkt with data := data } } else c) }.fillQueues

/-- Units of a crossing that the far buffer of its link still holds (R308). -/
def State.farUnits (s : State) (c : Crossing) : Nat :=
  match c.out with
  | none => c.sent
  | some o => ((mgetD (s.port o).tx c.pkt.vc []).find? (fun x => x.via = some c.id)).elim 0 (fun x => x.here - x.moved)

/-- A crossing is taken away, with the copy in the far transmit queue (R22). -/
def State.cutCrossing (s : State) (c : Crossing) : State :=
  let n := s.farUnits c
  (({ s with core.fab.crossing := s.core.fab.crossing.filter (fun d => d.id ≠ c.id) }.mapTx (fun l => l.filter (fun x => x.via ≠ some c.id))).d2dFreed
    c.link c.die c.pkt.vc n).fillQueues

/-- A crossing that ends before its packet has crossed: the copy in the far transmit queue goes too, and the copy is gone (R22). -/
def State.dropCrossing (s : State) (n : Nat) (reclaimed : Bool) : State :=
  match s.core.fab.crossing.find? (fun c => c.id = n) with
  | none => s
  | some c => (s.cutCrossing c).copyGone c.src reclaimed

/-- A queued copy that is discarded: what it holds in the far buffer of a link is free, its crossing ends, and its receive buffer is told. -/
def State.copyLost (s : State) (x : PartPkt) (reclaimed : Bool) : State :=
  let s := match x.hop with | some (l, die) => s.d2dFreed l die x.pkt.vc (x.here - x.moved) | none => s
  match x.via with
  | some n => s.dropCrossing n reclaimed
  | none => s.copyGone x.src reclaimed

/-- May a VC's next unit be sent: the packet in progress has a unit ready, or a new one has credits for all its units and its first 4
units, or all of them, are here (R294, R297)? -/
def Port.eligible (p : Port) (v : Nat) : Bool :=
  match (mgetD p.tx v []).head? with
  | none => false
  | some x =>
    if x.sent > 0 then decide (x.sent < x.moved)
    else decide (min 4 x.pkt.len ≤ x.moved) && decide (p.outst v + x.pkt.len ≤ mgetD p.limit v 0)

/-- A ready packet waits for credits on some VC (R297). -/
def Port.starved (p : Port) : Bool :=
  p.tx.any (fun e => match e.2.head? with
    | none => false
    | some x => x.sent = 0 && decide (min 4 x.pkt.len ≤ x.moved) && decide (p.outst e.1 + x.pkt.len > mgetD p.limit e.1 0))

def fldW3 : Fld := ⟨fabGBase + 8, 8, 8, 4⟩
def fldWg : Fld := ⟨fabGBase + 8, 0, 8, 1⟩

/-- Turns of a VC in a round of the weighted round robin (R294, R310). -/
def State.turnsOf (s : State) (v : Nat) : Nat := max 1 (if v = 3 then s.reg fldW3 else s.reg fldWg)

/-- The VC of the next unit, with the port's place in the round (R294). -/
def State.pickVc (s : State) (p : Port) : Option (Nat × Port) :=
  if p.eligible 0 then some (0, p)
  else if p.eligible 1 then some (1, p)
  else if p.eligible 2 then some (2, p)
  else if p.wrrLeft > 0 && p.eligible (p.wrr + 3) then some (p.wrr + 3, { p with wrrLeft := p.wrrLeft - 1 })
  else
    match ((List.range 13).map (fun k => (p.wrr + 1 + k) % 13)).find? (fun k => p.eligible (k + 3)) with
    | none => none
    | some k => some (k + 3, { p with wrr := k, wrrLeft := s.turnsOf (k + 3) - 1 })

/-- A time message of this module as its first symbol goes out at the PCS: it carries the FT of that moment (R33). -/
def State.stamped (s : State) (x : PartPkt) : Packet :=
  let p := x.pkt
  if p.type = 0x10 && x.src.isNone && decide (epModule p.src = s.modid) then
    { p with hdr := p.hdr - hdrPut 20 8 (hdrField p 20 8) - hdrPut 44 2 (hdrField p 44 2) + hdrPut 20 8 s.ft.ns + hdrPut 44 2 s.ft.frac }
  else p

/-- Send the next unit of a VC: counted, its credit taken, and its word of the crossbar queue free for the next (R295, R297, R301). -/
def State.sendUnit (s : State) (i v : Nat) : State × List FabUnit :=
  match mgetD (s.port i).tx v [] with
  | [] => (s, [])
  | x :: rest =>
    let u : FabUnit := ⟨s.stamped x, x.sent, x.ps.contains x.sent⟩
    let last := decide (x.sent + 1 ≥ x.pkt.len)
    let s := (s.updPort i (fun p => { p with
        tx := mput p.tx v (if last then rest else { x with sent := x.sent + 1 } :: rest),
        sent := mupd p.sent v 0 (fun n => (n + 1) % 2 ^ 24) })).take 1 (portVc i v) 1
    let s := (s.bump (fabBase (i / 2) + 0x140) 1).fillXbar i v
    (if last then s.copyGone x.src else s, [u])

/-- Fill n slots of a frame: the units in slot order; once no VC is eligible the rest are idle (R289, R294). -/
def State.fillSlots (s : State) (i : Nat) : Nat → State × List FabUnit
  | 0 => (s, [])
  | n + 1 =>
    match s.pickVc (s.port i) with
    | none => (s, [])
    | some (v, p) =>
      let r := (s.updPort i (fun _ => p)).sendUnit i v
      let t := r.1.fillSlots i n
      (t.1, r.2 ++ t.2)

/-- The frame with its control area as it is now, and its CRC (R288). -/
def State.mkFrame (s : State) (i ctype seq : Nat) (units : List FabUnit) (hs : Option Handshake) : Frame :=
  let p := s.port i
  let freed := (List.range 16).map (fun v => (v, mgetD p.freedOut v 0))
  frameSealed { ctype, nak := p.nakOn, nakcnt := p.nakcnt, incarn := s.incarnOf i, seq, ack := p.next, freed, units, hs } (s.frameSlots i)

/-- Units of a frame, those in the slots named read with bad parity: they carry P (R289, R346). -/
def strikeUnits (struck : List Nat) (l : List FabUnit) : List FabUnit := l.zipIdx.map (fun u => { u.1 with p := u.1.p || struck.contains u.2 })

/-- Words of bad parity in a port's FIFOs (R346, R409, R415). -/
def State.portParity (s : State) (i k : Nat) : State :=
  if k = 0 then s else (s.bump (rasBase + 0x120) k).rasUc 8 (i / 2 / 5) 0xFFFF 0xFFFF 0 k

/-- A DATA frame onto the lanes: a replayed one, or a new one with what the credits and the replay FIFO allow (R294, R298). `struck`: the
slots whose unit was read with bad parity. -/
def State.sendFrame (s : State) (i : Nat) (struck : List Nat) : State :=
  let p := s.port i
  let b := fabBase (i / 2)
  let s := s.bump (b + 0x100) 1
  match p.resend with
  | f :: rest =>
    let s := (s.bump (b + 0x130) 1).portParity i (struck.filter (fun k => k < f.units.length)).length
    s.updPort i (fun p => { p with resend := rest, out := some (s.mkFrame i 1 f.seq (strikeUnits struck f.units) none), framesSinceMarker := p.framesSinceMarker + 1 })
  | [] =>
    let full := decide ((s.replayFifo i).free < s.frameSlots i)
    let s := if full then s.bump (b + 0x138) 1 else s
    let s := if p.starved then s.bump (b + 0x150) 1 else s
    let r := if full || !s.dispatching then (s, []) else s.fillSlots i (s.frameSlots i)
    let f := r.1.mkFrame i 1 p.seq (strikeUnits struck r.2) none
    ((r.1.take 2 i r.2.length).portParity i (struck.filter (fun k => k < r.2.length)).length).updPort i (fun p => { p with
      out := some f, ackFt := if p.replay.isEmpty then s.now else p.ackFt, replay := p.replay ++ [f], seq := (p.seq + 1) % 2 ^ 32, framesSinceMarker := p.framesSinceMarker + 1 })

/-! State changes of a port -/

/-- Enter a state, with its record in the module log (R302, R409). -/
def State.toState (s : State) (i : Nat) (st : PortState) : State :=
  (s.updPort i (fun p => { p with st := st })).rasLog 0x13 0 0 (i / 2 / 5) 0xFFFF 0xFFFF i st.code 0

/-- Leave ACTIVE for another state: DOWN is set, a time parent on the port is lost, and what the partner has advertised is forgotten
(R32, R35, R302). -/
def State.leaveTo (s : State) (i : Nat) (st : PortState) : State :=
  let was := decide ((s.port i).st = .active)
  let s := s.toState i st
  if was then
    let s := (s.updPort i (fun p => { p with left := true, leftFt := s.now })).raise (fabInt i) 1
    let s := if s.source = 2 && decide (s.ft.parent = i) then s.loseLock else s
    { s with ft.partners := mdel s.ft.partners i }.chooseParent
  else s

/-- The cycles for which RESYNC_DONE has been withheld count in GLB_LDG_RSWAIT, at 2.5 cycles a nanosecond (R351). -/
def State.countWait (s : State) (i : Nat) : State :=
  match (s.port i).rsFt with
  | some t => (s.bump 0x830 ((s.now - t) * 5 / 2)).updPort i (fun p => { p with rsFt := none })
  | none => s

/-- A port reset: to TRAIN, with FIFOs, buffers and counts kept (R302). -/
def State.portReset (s : State) (i : Nat) : State :=
  if (s.port i).st = .down then s
  else
    (((s.countWait i).leaveTo i .train).bump (fabBase (i / 2) + 0x168) 1).updPort i (fun p => { p with
      width := 0, out := none, rsSent := false, rsGot := false, doneSent := false, doneGot := false, lost := false, resend := [] })

/-- Packets whose headers stand in a replay FIFO. -/
def Port.replayHeads (p : Port) : List Packet := p.replay.flatMap (fun f => (f.units.filter (fun u => u.n = 0)).map (·.pkt))

/-- The replay FIFO discarded: each packet with its header in it is dropped with reason 0x03, and what is left of a packet begun on the
link goes too (R305, R352). -/
def State.dropReplay (s : State) (i : Nat) : State :=
  let p := s.port i
  let begun := p.tx.flatMap (fun e => e.2.filter (fun x => x.sent > 0))
  let s := (s.reclaim 2 i p.replayUnits).updPort i (fun p => { p with
    replay := [], resend := [], tx := p.tx.map (fun e => (e.1, e.2.filter (fun x => x.sent = 0))) })
  let s := p.replayHeads.foldl (fun s k => s.dropPacket k 3 i) s
  (begun.foldl (fun s x => s.copyLost x true) s).fillQueues

/-- Copies of a packet of which nothing has left the receive buffer: in transmit queues, and before die-to-die links. -/
def State.unsentCopies (s : State) (i id : Nat) : List Packet :=
  s.core.fab.ports.flatMap (fun e => e.2.tx.flatMap (fun t => (t.2.filter (fun x => x.src = some (i, id) && x.moved = 0)).map (·.pkt)))
    ++ (s.core.fab.crossing.filter (fun c => c.src = some (i, id) && c.sent = 0)).map (·.pkt)

/-- The units of a copy completed to its LEN with zero units that carry P, from a unit on: its bytes and the units that carry P (R305). -/
def completeP (p : Packet) (ps : List Nat) (cut : Nat) : Packet × List Nat :=
  ({ p with data := (p.data.take (64 * (cut - 1))) ++ leBytes (64 * (p.len - cut)) 0 }, ps ++ (List.range p.len).filter (fun k => cut ≤ k))

/-- Every copy of a packet that has begun to leave is completed from what the receive buffer still held of it on (R305). -/
def State.completeCopies (s : State) (i id : Nat) : State :=
  let s := s.mapTx (fun l => l.map (fun x =>
    if x.src = some (i, id) then
      let y := completeP x.pkt x.ps x.moved
      { x with here := x.pkt.len, src := none, pkt := y.1, ps := y.2 }
    else x))
  { s with core.fab.crossing := s.core.fab.crossing.map (fun (c : Crossing) =>
      if c.src = some (i, id) then
        let y := completeP c.pkt c.ps c.sent
        { c with here := c.pkt.len, src := none, pkt := y.1, ps := y.2 }
      else c) }.fillQueues

/-- Copies of a packet that a die has not taken are dropped with it (R305, R352). -/
def State.dropHeldCopies (s : State) (i id reason : Nat) : State :=
  let l := s.core.fab.held.filter (fun h => h.port = some (i, id))
  l.foldl (fun s h => { s with core.fab.held := s.core.fab.held.erase h, core.fab.inbox := s.core.fab.inbox.erase h.pkt }.dropPacket h.pkt reason i) s

/-- A packet of a receive buffer that will not arrive whole, or is discarded: dropped where its header has not been forwarded, otherwise its copies are
completed with P. Its units return once, reclaimed (R305, R347, R352). -/
def State.abandonRx (s : State) (i : Nat) (x : RxPkt) (reason : Nat) : State :=
  let s := if !x.taken then s.dropPacket x.pkt reason i
    else
      let l := s.unsentCopies i x.id
      let s := s.mapTx (fun t => t.filter (fun y => !(decide (y.src = some (i, x.id)) && y.moved = 0)))
      let cs := s.core.fab.crossing.filter (fun c => c.src = some (i, x.id) && c.sent = 0)
      let s := cs.foldl (fun s c => s.cutCrossing c) s
      let s := (l.foldl (fun s p => s.dropPacket p reason i) s).dropHeldCopies i x.id reason
      s.completeCopies i x.id
  match s.rxPkt i x.id with
  | none => s
  | some y => (s.freeUnits i x.pkt.vc (y.here - y.freed) true).updPort i (fun p => { p with rx := p.rx.filter (fun y => y.id ≠ x.id) })

/-- The partner has lost state (R305). -/
def State.lostState (s : State) (i : Nat) : State :=
  let s := s.dropReplay i
  let part := (s.port i).rx.filter (fun x => decide (x.here < x.pkt.len))
  let s := part.foldl (fun s x => s.abandonRx i x 3) s
  (s.updPort i (fun p => { p with rx := p.rx.map (fun x => { x with old := true }) })).raise (fabInt i) 3

/-- The port discards its own state for the link and trains anew; one in FAILED stays there until it is reset or disabled (R302, R352). -/
def State.discardState (s : State) (i : Nat) : State :=
  let s := s.dropReplay i
  let s := (s.port i).rx.foldl (fun s x => s.abandonRx i x 3) s
  let s := s.updPort i (fun p => { p with incarnInc := (p.incarnInc + 1) % 255, fresh := true })
  if (s.port i).st = .failed then s else s.portReset i

/-- Does the header of a packet in a transmit queue stand in the port's replay FIFO? -/
def Port.headKept (p : Port) (x : PartPkt) : Bool :=
  decide (x.sent > 0) && p.replayHeads.any (fun h => decide ({ h with data := [] } = { x.pkt with data := [] }))

/-- Every packet queued for a port is dropped with reason 0x02; one whose header the replay FIFO holds is dropped with it, once, when the port
discards its state (R347, R352, R353). -/
def State.dropQueued (s : State) (i : Nat) : State :=
  let p := s.port i
  let l := p.tx.flatMap (fun e => e.2)
  let s := s.updPort i (fun p => { p with tx := [] })
  (l.foldl (fun s x => (if p.headKept x then s else s.dropPacket x.pkt 2 i).copyLost x false) s).fillQueues

/-! Arrival of units -/

/-- A packet as its receiver holds it: poisoned where any of its units carried P (R289). -/
def RxPkt.whole (x : RxPkt) : Packet := { x.pkt with poison := x.pkt.poison || !x.ps.isEmpty }

/-- A time message goes to the hub's timekeeper with its receive stamp, over the hub link of the port's quarter; one of another Type than request and
reply is discarded (R22, R33, R34). -/
def State.timeArrive (s : State) (i : Nat) (p : Packet) : State :=
  if hdrField p 16 1 = 1 || hdrField p 16 1 = 2 then
    match linkOf (dieOfPort i) 4 with
    | some l => s.cross l (dieOfPort i) { pkt := p, here := 1 } none (some (i, s.ft.units))
    | none => s
  else s

/-- A copy of a packet for the port's own die, which takes it out of the receive buffer whole (R295, R301). -/
def State.landRx (s : State) (i : Nat) (x : RxPkt) : State :=
  let p := { x.whole with dest := if x.pkt.mc then s.ep (dieOfPort i) else x.pkt.dest, mc := false }
  s.toInbox { pkt := p, port := some (i, x.id) }

/-- A packet whose first 4 units, or all of them, have arrived and whose header has not been forwarded: a malformed one is dropped; one for this module goes
to its die, over the direct link as it comes or, on the port's own die, once it is whole; any other waits for its transit (R22, R293, R297, R299). -/
def State.intake (s : State) (i : Nat) (x : RxPkt) : State :=
  if !packetOk x.pkt then ((s.raise (fabInt i) 5).dropPacket x.pkt 4 i).discardRx i x.id false
  else if x.pkt.mc || decide (epModule x.pkt.dest ≠ s.modid) then s
  else if x.pkt.type = 0x10 then (s.timeArrive i x.pkt).discardRx i x.id false
  else match linkOf (dieOfPort i) (epDie x.pkt.dest) with
    | some l =>
      (s.updRx i x.id (fun y => { y with taken := true, outs := 1 })).cross l (dieOfPort i) { pkt := x.pkt, here := x.here, ps := x.ps, src := some (i, x.id) } none
    | none =>
      if x.here < x.pkt.len then s
      else (s.updRx i x.id (fun y => { y with taken := true, outs := 1 })).landRx i x

/-- A unit enters the receive buffer (R289, R295). -/
def State.recvUnit (s : State) (i : Nat) (u : FabUnit) : State :=
  let v := u.pkt.vc
  let s := ((s.take 3 (portVc i v) 1).bump (fabBase (i / 2) + 0x148) 1).updPort i (fun p => { p with rxUsed := mupd p.rxUsed v 0 (· + 1) })
  let cur := (s.port i).rx.find? (fun x => x.pkt.vc = v && decide (x.here < x.pkt.len))
  if u.n = 0 then
    let s := match cur with
      | some x => (s.raise (fabInt i) 5).abandonRx i x 4
      | none => s
    let x : RxPkt := { id := (s.port i).rxNext, pkt := { u.pkt with data := [] }, ps := if u.p then [0] else [] }
    let s := s.updPort i (fun p => { p with rx := p.rx ++ [x], rxNext := p.rxNext + 1 })
    if x.pkt.len ≤ 1 then s.intake i x else s
  else match cur with
    | none => (s.raise (fabInt i) 5).freeUnits i v 1 false
    | some x =>
      let y := { x with here := x.here + 1, ps := if u.p then x.ps ++ [x.here] else x.ps,
                        pkt := { x.pkt with data := x.pkt.data ++ unitData u.pkt u.n } }
      let s := s.updRx i x.id (fun _ => y)
      if y.taken then
        if y.outs = 0 then s.freeRx i x.id 1 false
        else
          let s := s.growCopies i x.id y.here y.ps y.pkt.data
          if y.mine && decide (y.here = y.pkt.len) then s.landRx i y else s
      else if y.here ≥ min 4 y.pkt.len then s.intake i y else s

/-- A unit that finds no receive space is discarded and its credit returns: PROTO is set, and the packet it belongs to is not whole (R295, R296). -/
def State.overrun (s : State) (i : Nat) (u : FabUnit) : State :=
  let v := u.pkt.vc
  let s := (s.raise (fabInt i) 5).updPort i (fun p => { p with freedOut := mupd p.freedOut v 0 (fun f => (f + 1) % 2 ^ 24) })
  match (s.port i).rx.find? (fun x => x.pkt.vc = v && decide (x.here < x.pkt.len)) with
  | some x => s.abandonRx i x 4
  | none => s

/-- The units of an accepted frame. Where one finds no receive space the port resets after the frame, so that each unit has been counted once (R296,
R350). -/
def State.recvUnits (s : State) (i : Nat) (lost : Bool) : List FabUnit → State
  | [] => if lost then s.portReset i else s
  | u :: us =>
    if mgetD (s.port i).rxUsed u.pkt.vc 0 ≥ rxLimit (s.halfMode i) u.pkt.vc then (s.overrun i u).recvUnits i true us
    else (s.recvUnit i u).recvUnits i lost us

/-- FREED counts of a good frame: the partner's credits return (R295, R296). -/
def State.takeFreed (s : State) (i : Nat) (l : List (Nat × Nat)) : State :=
  l.foldl (fun s e =>
    let old := mgetD (s.port i).freedIn e.1 0
    (s.give 1 (portVc i e.1) ((e.2 + 2 ^ 24 - old) % 2 ^ 24)).updPort i (fun p => { p with freedIn := mput p.freedIn e.1 (e.2 % 2 ^ 24) })) s

/-- Is sequence number a before b, modulo 2^32? -/
def seqBefore (a b : Nat) : Bool := decide (a ≠ b) && decide ((b + 2 ^ 32 - a % 2 ^ 32) % 2 ^ 32 < 2 ^ 31)

/-- Frames before an acknowledged sequence number leave the replay FIFO (R298). -/
def State.release (s : State) (i ack : Nat) : State :=
  let gone := (s.port i).replay.filter (fun f => seqBefore f.seq ack)
  (s.give 2 i (sumNat (gone.map (fun f => f.units.length)))).updPort i (fun p => { p with
    ack := ack, ackFt := if gone.isEmpty then p.ackFt else s.now, replay := p.replay.filter (fun f => !seqBefore f.seq ack), resend := p.resend.filter (fun f => !seqBefore f.seq ack) })

/-- Rewind to the FIFO mark: every stored frame is sent again (R298). -/
def State.rewind (s : State) (i : Nat) : State :=
  (s.bump (fabBase (i / 2) + 0x128) 1).updPort i (fun p => { p with resend := p.replay, ackFt := s.now })

/-- The control area of a good frame: credits, acknowledgement and NAK (R296, R298). -/
def State.takeControl (s : State) (i : Nat) (f : Frame) : State :=
  let s := (s.takeFreed i f.freed).release i f.ack
  if f.nak && decide (f.nakcnt ≠ (s.port i).partnerNak) then (s.updPort i (fun p => { p with partnerNak := f.nakcnt })).rewind i
  else s

/-- A NAK episode (R298). -/
def State.startNak (s : State) (i : Nat) : State :=
  s.updPort i (fun p => { p with
    nakOn := true
    nakcnt := (p.nakcnt + 1) % 256
    episodes := if p.episodeSeq = p.next then p.episodes + 1 else 1
    episodeSeq := p.next })

/-! The handshake (R303, R304) -/

/-- MODE of a port: 0 full, 1 half, 2 degraded (R303). -/
def State.portMode (s : State) (i : Nat) : Nat := if s.halfMode i then 1 else if (s.port i).degraded then 2 else 0

/-- The handshake block this port sends (R303). -/
def State.handshake (s : State) (i : Nat) : Handshake :=
  let p := s.port i
  { grade := s.fuse.grade, modid := s.modid, port := i, mode := s.portMode i, rev := p.rev, fresh := p.fresh, incarn := s.incarnOf i,
    seen := p.partnerInc, next := p.next, limits := (List.range 16).map (rxLimit (s.halfMode i)) }

/-- Does the partner's block put the port into FAILED (R303)? -/
def State.hsBad (s : State) (i : Nat) (h : Handshake) : Bool :=
  decide (h.version ≠ 1) || decide (h.mode % 2 ≠ s.portMode i % 2) || decide (h.mode > 2) || decide (h.modid = s.modid)
    || decide (h.limits.length ≠ 16) || h.limits.any (· = 0)

/-- Send RESYNC_DONE (R304). -/
def State.sendDone (s : State) (i : Nat) : State :=
  s.updPort i (fun p => { p with doneSent := true, rsFt := none, out := some (s.mkFrame i 3 p.seq [] (some (s.handshake i))) })

/-- Enter ACTIVE when RESYNC_DONE has been sent and received; the replay comes first (R302, R304). -/
def State.tryActive (s : State) (i : Nat) : State :=
  let p := s.port i
  if p.doneSent && p.doneGot then
    let s := (s.toState i .active).raise (fabInt i) 0
    let s := s.updPort i (fun p => { p with fresh := false, left := false, lost := false, ackFt := s.now, resend := p.replay, nakOn := false, episodes := 0 })
    if p.replay.isEmpty then s else s.bump (fabBase (i / 2) + 0x128) 1
  else s

/-- The credits still counted as outstanding return when SENT is re-based (R304, R351). -/
def State.rebase (s : State) (i : Nat) (freed : List (Nat × Nat)) : State :=
  (List.range 16).foldl (fun s v =>
    let n := (s.port i).outst v
    let f := (freed.find? (fun e => e.1 = v)).elim 0 (·.2)
    (s.reclaim 1 (portVc i v) n).updPort i (fun p => { p with sent := mput p.sent v (f % 2 ^ 24), freedIn := mput p.freedIn v (f % 2 ^ 24) })) s

/-- The partner's block compared with what was known before: state kept or state lost; RESYNC_DONE follows once no unit of an earlier
incarnation is left (R304, R305, R350, R351). In the lost case SEQ goes on from the partner's NEXT (log 26). A port that has discarded its own state knows
nothing from before, so it takes that case too, though its partner has lost nothing (R352; log 102). -/
def State.onHandshake (s : State) (i : Nat) (f : Frame) (h : Handshake) : State :=
  let s := s.updPort i (fun p => { p with partner := some h, rsGot := true })
  if s.hsBad i h then (s.leaveTo i .failed).raise (fabInt i) 6
  else
    let p := s.port i
    let limits := (List.range 16).zip h.limits
    let s :=
      let same := !h.fresh && decide (h.incarn = p.partnerInc) && decide (p.partnerInc ≠ 0)
      if same && !p.fresh then
        ((s.takeFreed i f.freed).release i h.next).updPort i (fun p => { p with limit := limits })
      else
        ((if same then s else s.lostState i).rebase i f.freed).updPort i (fun p => { p with
          limit := limits, partnerInc := h.incarn, seq := h.next, ack := h.next, lost := true })
    if (s.port i).rx.any (·.old) then s.updPort i (fun p => { p with rsFt := some s.now })
    else (s.sendDone i).tryActive i

end Sys2Proof.Machine
end

