-- ==== Sys2Proof/Machine/Freeze.lean ====
section
/-! DEFINITION. Freezing the module, and module-fatal errors (17_errors R410-R412). -/
namespace Sys2Proof.Machine

/-- A port's last frame before its lanes go idle: a freeze-status notice (R291, R411). -/
def State.freezeNotice (s : State) (i : Nat) : State :=
  let p := s.port i
  if p.st ≠ .active then s
  else
    let dest := match p.partner with | some h => h.modid | none => 0
    let k := s.mkPacket 0x11 1 dest 4 0 (hdrPut 16 1 3) []
    let f := s.mkFrame i 1 p.seq [⟨k, 0, false⟩] none
    s.updPort i (fun p => { p with out := some f, seq := (p.seq + 1) % 2 ^ 32 })

/-- Every clock stops; the host sees a surprise link-down (R411, R412). -/
def State.freeze (s : State) : State :=
  if s.core.ras.frozen then s
  else
    let s := (s.core.fab.ports.map (·.1)).foldl State.freezeNotice s
    { s with core.ras.frozen := true, core.ras.froze := true, core.ras.frozenFt := s.now, core.host.linkUp := false }

/-- A module-fatal error, which freezes the module where FRZ_ON_FATAL is set (R410). -/
def State.fatalStop (s : State) (src die unit : Nat) : State :=
  let s := s.fatalError src die unit
  if s.reg fldFrzOnFatal = 1 then s.freeze else s

end Sys2Proof.Machine
end

