-- ==== Sys2Proof/Machine/Units.lean ====
section
/-! DEFINITION. What every unit does with the head of a share: checks, absent engines, leaving the share (07_tile R165, R137). -/
namespace Sys2Proof.Machine

/-- The first entry of a slot's share. -/
def State.head (s : State) (r : SlotRef) : Option Entry := (mgetD s.core.qm.eiq (slotKey r) []).head?

/-- The first entry leaves the share (R360 class 0x08). -/
def State.popHead (s : State) (r : SlotRef) : State :=
  ({ s with core.qm.eiq := mput s.core.qm.eiq (slotKey r) (mgetD s.core.qm.eiq (slotKey r) []).tail }.give 8 (eiqPart r) 1).stampHead r

/-- Logical engine of an engine reference, if present; otherwise the detail of ENGINE_ABSENT (R137, R168). -/
def State.engineOf (s : State) (ref : Nat) : Except Nat Nat :=
  let n := bits ref 0 6
  if ref.testBit 15 then if n < s.opeCount then .ok n else .error (n + 65536)
  else match s.opeLogical n with
    | some m => .ok m
    | none => .error n

/-- The absent engine an instruction names, if any (R137): OBUF destinations and the engine of a drain. -/
def State.absentIn (s : State) (e : Entry) : Option Nat :=
  let chk (ref : Nat) : Option Nat := match s.engineOf ref with | .ok _ => none | .error d => some d
  if destKind e.dest = 3 && (e.op = 0x32 || e.op = 0x35) then chk (bits e.dest 0 16)
  else if e.op = 0x21 && e.f 16 1 = 0 then chk (e.f 24 2)
  else none

/-- Alignment check of an effective address. -/
def alignBad (off a m : Nat) : List Bad := check (decide (a % m ≠ 0)) (off, 0x11)

/-- Alignment of a MEM destination at its word's offset. -/
def Entry.destAlign (e : Entry) (off m : Nat) : List Bad :=
  check (decide (destKind e.dest = 0) && decide (destAddr e.dest % m ≠ 0)) (off, 0x11)

/-- An RCE instruction at its head that has begun: it completes before a PREEMPT vacates the slot (R249). -/
def State.rceBegun (s : State) (e : Entry) : Bool :=
  s.core.rce.buckets.any (fun b => b.2.bclose = some e && decide (b.2.st = .closing)) || s.core.rce.epochs.any (fun x => x.1 = e)
    || s.core.rce.puts.any (fun p => p.e = e)

/-- Has a fault stopped a row-port operation of a partition: one that waits with the row port, or an image set aside (R246)? -/
def State.rowHeld (s : State) (n p : Nat) : Bool :=
  let o := mgetD s.core.opes n {}
  let held (e : Entry) : Bool := match (s.queue e.q).inst e.seq with | some i => i.fid.isSome | none => false
  o.pend.any (fun x => decide (x.1 = p) && held x.2) || o.back.any (fun d => decide (d.1.part = p) && held d.1.e)

/-- May the slot issue: its queue is bound there, its partition is not fenced and no row-port operation of it is stopped at a fault,
its context is ACTIVE (R103, R236, R246)? -/
def State.slotRuns (s : State) (r : SlotRef) (e : Entry) : Bool :=
  decide (r.cls = (s.queue e.q).cls) && decide ((s.ctx e.ctx).st = .active) && (!(s.queue e.q).stopping || s.rceBegun e)
    && !(decide (r.cls ≤ 3) && (decide ((mgetD (mgetD s.core.opes r.unit {}).parts r.slot {}).fence ≠ 0) || s.rowHeld r.unit r.slot))

/-- Run an opcode at the head of a share: the body checks, all made together, then absent engines, then its effect (R137, R165). The
effect takes the entry out of the share when it begins. -/
def State.atHead (s : State) (r : SlotRef) (op : Nat) (bad : Entry → List Bad) (f : Entry → State → State) : State :=
  match s.head r with
  | none => s
  | some e =>
    if e.op ≠ op || !s.slotRuns r e then s
    else match firstBad (reservedBad e.raw ++ ixBad e.raw e.ix ++ destBad e.raw ++ bad e) with
      | some b => (s.popHead r).finishWith e.q e.seq 0xC (badDetail b)
      | none => match s.absentIn e with
        | some d => (s.popHead r).finishWith e.q e.seq 6 d
        | none => f e s

/-- An outcome with a count, where the count is not 0. -/
def State.noteCount (s : State) (e : Entry) (code n : Nat) : State :=
  if n = 0 then s else s.note e.q e.seq code n true

/-- Quarter of the unit of a slot. -/
def State.slotQuarter (s : State) (r : SlotRef) : Nat := s.quarterOf r.cls r.unit

/-- Context and queue that a slot's unit works for, as far as they are known (R408). -/
def State.slotUser (s : State) (r : SlotRef) : Option (Nat × Nat) := (mget s.core.qm.slots (slotKey r)).map (fun q => ((s.queue q).ctx, q))

/-- k contained errors of a source at a slot's unit: logged, RAS_INT.UC set, and recorded for the context, if it is known (R404, R408, R409). -/
def State.contained (s : State) (src k : Nat) (r : SlotRef) : State :=
  match s.slotUser r with
  | some (c, q) => (s.rasUc src (s.slotQuarter r) (slotCode r) c 0 k).ctxError c q (slotCode r) src 1 0 k
  | none => s.rasUc src (s.slotQuarter r) (slotCode r) 0xFFFF 0 k

/-- k uncorrectable words of a memory of a slot's unit (R405, R415). -/
def State.ramError (s : State) (src k : Nat) (r : SlotRef) : State :=
  if k = 0 then s else (s.bump (rasBase + 0x118) k).contained src k r

/-- k words of bad parity in a FIFO of a slot's unit (R346, R415). -/
def State.parityError (s : State) (k : Nat) (r : SlotRef) : State :=
  if k = 0 then s else (s.bump (rasBase + 0x120) k).contained 8 k r

/-- An engine as it stands. -/
def State.ope (s : State) (n : Nat) : Ope := mgetD s.core.opes n {}
def State.setOpe (s : State) (n : Nat) (o : Ope) : State := { s with core.opes := mput s.core.opes n o }
def Ope.part (o : Ope) (p : Nat) : OPart := mgetD o.parts p {}
def Ope.setPart (o : Ope) (p : Nat) (x : OPart) : Ope := { o with parts := mput o.parts p x }
/-- Lines of a partition (R81). -/
def Ope.per (o : Ope) : Nat := if o.mode = 0 then 4096 else if o.mode = 3 then 1024 else 2048
/-- Partitions of a mode. -/
def Ope.count (o : Ope) : Nat := if o.mode = 0 then 1 else if o.mode = 3 then 4 else 2

def State.mvu (s : State) (n : Nat) : Mvu := mgetD s.core.mvus n {}
def State.setMvu (s : State) (n : Nat) (m : Mvu) : State := { s with core.mvus := mput s.core.mvus n m }
def State.vu (s : State) (n : Nat) : Vu := mgetD s.core.vus n {}
def State.setVu (s : State) (n : Nat) (v : Vu) : State := { s with core.vus := mput s.core.vus n v }
def Vu.slot (v : Vu) (k : Nat) : VuSlot := mgetD v.slots k {}
def Vu.setSlot (v : Vu) (k : Nat) (x : VuSlot) : Vu := { v with slots := mput v.slots k x }
def State.se (s : State) (n : Nat) : Se := mgetD s.core.ses n {}
def State.setSe (s : State) (n : Nat) (x : Se) : State := { s with core.ses := mput s.core.ses n x }
def State.stream (s : State) (n : Nat) : Stream := mgetD s.core.streams n {}
def State.setStream (s : State) (n : Nat) (x : Stream) : State := { s with core.streams := mput s.core.streams n x }

/-- A job that still has fetches to issue (R195). -/
def SeJob.more (j : SeJob) : Bool := !j.stop && (decide (j.k < j.total) || !j.moves.isEmpty)

/-- Has an instruction of an SE slot fetches still to issue? The slot moves on only after the last (R195). -/
def State.seIssuing (s : State) (r : SlotRef) : Bool :=
  r.cls = 6 && (s.se r.unit).jobs.any (fun j => j.more && decide (mget s.core.qm.slots (slotKey r) = some j.e.q))

/-- Lines of an engine that landed tiles hold (R82). Staging lines of ACCLD and ACCUP are held only within the command that starts the operation
(R94; log 10). -/
def State.linesHeld (s : State) (n : Nat) : List Nat := (s.ope n).obuf.flatMap (fun e => (List.range e.2.lines).map (· + e.1))

/-- Are all lines from a to a + k - 1 of an engine free? -/
def State.linesFree (s : State) (n a k : Nat) : Bool :=
  (s.ope n).obuf.all (fun e => decide (e.1 + e.2.lines ≤ a) || decide (a + k ≤ e.1))

end Sys2Proof.Machine
end

