-- ==== Sys2Proof/Machine/Control.lean ====
section
/-! DEFINITION. The control instructions, the slot markers, waits, gates, completion and deadlines (06_programs R139-R157, 07_tile
R177-R181, 08_streams R209, R210). A control instruction is the next entry of its queue; its operands are that entry's fields (log 9). -/
namespace Sys2Proof.Machine

/-- Body placement of a field at byte offset off, n bytes. -/
def bodyPut (off n v : Nat) : Nat := put (8 * (off - 16)) (8 * n) v

/-- Dispatch the entry that the operands spell. -/
def State.ctl (s : State) (q op : Nat) (h : Hdr) (body : Nat) : State := s.dispatchAs q (ctlWord op h body)

def execNop (q : Nat) (h : Hdr) (s : State) : Out := liftCore (whenDispatching (fun s => s.ctl q 0x00 h 0)) s
def execWait (q : Nat) (h : Hdr) (tmo : Nat) (s : State) : Out :=
  liftCore (whenDispatching (fun s => s.ctl q 0x01 h (bodyPut 16 4 tmo))) s
def execSig (q : Nat) (h : Hdr) (s : State) : Out := liftCore (whenDispatching (fun s => s.ctl q 0x02 h 0)) s
def execClr (q : Nat) (h : Hdr) (s : State) : Out := liftCore (whenDispatching (fun s => s.ctl q 0x03 h 0)) s
def execGate (q : Nat) (h : Hdr) (ft : Nat) (s : State) : Out :=
  liftCore (whenDispatching (fun s => s.ctl q 0x04 h (bodyPut 16 8 ft))) s
def execFence (q : Nat) (h : Hdr) (s : State) : Out := liftCore (whenDispatching (fun s => s.ctl q 0x07 h 0)) s
def execHalt (q : Nat) (h : Hdr) (s : State) : Out := liftCore (whenDispatching (fun s => s.ctl q 0x08 h 0)) s
def execCset (q : Nat) (h : Hdr) (dst rel value : Nat) (s : State) : Out :=
  liftCore (whenDispatching (fun s => s.ctl q 0x09 h (bodyPut 16 1 dst + bodyPut 17 1 rel + bodyPut 20 4 value))) s
def execCadd (q : Nat) (h : Hdr) (dst addend : Nat) (s : State) : Out :=
  liftCore (whenDispatching (fun s => s.ctl q 0x0A h (bodyPut 16 1 dst + bodyPut 20 4 addend))) s
def execCmpb (q : Nat) (h : Hdr) (ctr rel ctr2 value offset : Nat) (s : State) : Out :=
  liftCore (whenDispatching (fun s => s.ctl q 0x0B h
    (bodyPut 16 1 ctr + bodyPut 17 1 rel + bodyPut 18 1 ctr2 + bodyPut 20 4 value + bodyPut 24 4 offset))) s
def execEnd (q : Nat) (h : Hdr) (s : State) : Out := liftCore (whenDispatching (fun s => s.ctl q 0x0F h 0)) s

/-- GATE_EXPIRY: FT has reached the value, the queue is released and the GATE completes (R38, R39). -/
def State.gateExpiry (s : State) (q : Nat) : State :=
  whenDispatching (fun s =>
    let x := s.queue q
    match x.hold with
    | .gate v =>
      if s.nowAt (s.dieOf q) ≥ v && decide (x.st ≠ .preempted) then
        let s := s.scheduled.setQueue q { x with hold := .none, st := if x.st = .waiting then .bound else x.st }
        match x.fl.find? (fun i => i.op = 0x04) with
        | some i => s.ctlDone q i.seq
        | none => s
      else s
    | _ => s) s

/-- GATE_EXPIRY. -/
def execGateExpiry (q : Nat) (s : State) : Out := liftCore (fun s => s.gateExpiry q) s

/-- A marker's wait at the head of a share: served, registered, or already waiting (R154, R166, R180). The answer says whether it has
passed; a wait that reaches a block no longer allocated fails with reason 0x04 (R152). -/
def State.markerWait (s : State) (e : Entry) : State × Option Bool :=
  let w := iWait e.raw
  if refMode w = 0 then (s, some true)
  else if s.core.qm.marks.contains (e.q, e.seq) then (s, some true)
  else if s.core.qm.waiters.any (fun v => v.q = e.q && v.seq = some e.seq) then (s, some false)
  else if !s.ownsFlag e.ctx (refFlag w) then (s, none)
  else if waitHolds (s.flag (refFlag w)) (refMode w) ((s.queue e.q).c (refCtr w)) then
    ({ s.serve (refFlag w) (refMode w) (refCtr w) e.q with core.qm.marks := s.core.qm.marks ++ [(e.q, e.seq)] }, some true)
  else ({ s with core.qm.waiters := s.core.qm.waiters ++ [⟨refFlag w, refMode w, refCtr w, e.q, some e.seq, s.now⟩] }, some false)

/-- A marker leaves the share and its wait's mark is used up. -/
def State.markerDone (s : State) (r : SlotRef) (e : Entry) : State :=
  let s := s.popHead r
  { s with core.qm.marks := s.core.qm.marks.filter (· ≠ (e.q, e.seq)) }.finish e.q e.seq

/-- DEP: blocks the share until its wait is satisfied, then adds 1 to the slot's count D (R180, R196). -/
def execDep (r : SlotRef) (s : State) : Out :=
  liftCore (whenDispatching (fun s => s.atHead r 0x05 (fun _ => []) (fun e s =>
    if s.seIssuing r then s
    else
    let m := s.markerWait e
    match m.2 with
    | none => (m.1.popHead r).finishWith e.q e.seq 0xC (badDetail (4, 4))
    | some false => if r.cls = 6 then m.1.bump (seBase r.unit + 0x128) 1 else m.1
    | some true => (m.1.markerDone r e).updQueue e.q (fun x => { x with dep := (x.dep + 1) % 65536 })))) s

/-- Does the slot of an LBAR still have earlier work: instructions, fetches, drains or transfers (R181, R202)? -/
def State.slotBusy (s : State) (r : SlotRef) (e : Entry) : Bool :=
  (s.queue e.q).fl.any (fun i => i.seq < e.seq && !i.ctl && i.unit ≠ 0xFFFF)
    || (r.cls = 6 && ((s.se r.unit).tracker.any (fun t => match t.2.tag with
          | some g => decide (slotKey (s.stream g.stream).slot = slotKey r)
          | none => decide (t.2.q = e.q))
        || (s.se r.unit).jobs.any (fun j => j.e.q = e.q)))
    || (r.cls ≤ 3 && ((s.ope r.unit).drains.any (fun d => d.part = r.slot) || (s.ope r.unit).back.any (fun d => d.1.part = r.slot)))

/-- LBAR: completes once the slot has drained and its wait is satisfied (R181, R202). -/
def execLbar (r : SlotRef) (s : State) : Out :=
  liftCore (whenDispatching (fun s => s.atHead r 0x06 (fun _ => []) (fun e s =>
    if s.slotBusy r e then s
    else
      let m := s.markerWait e
      match m.2 with
      | none => (m.1.popHead r).finishWith e.q e.seq 0xC (badDetail (4, 4))
      | some false => m.1
      | some true => m.1.markerDone r e))) s

/-! Timeouts (R156, R157) -/

/-- Timeout of a wait in 64 ns units: WAIT's own where not 0, else the queue's (R156). -/
def State.timeoutOf (s : State) (w : Waiter) : Nat :=
  let x := s.queue w.q
  match w.seq, x.cur with
  | none, some c => if iOp c.raw = 1 ∧ iField c.raw 16 4 ≠ 0 then iField c.raw 16 4 else x.waitTmo
  | _, _ => x.waitTmo

/-- A dispatch wait that times out is withdrawn at once, and its instruction ends (R156, R157). -/
def State.curTimeout (s : State) (w : Waiter) (c : Cur) : State :=
  let x := s.expiryOf w
  let s := (s.withdraw w.q).updQueue w.q (fun y => { y with cur := some { c with expired := some x } })
  s.endTimeout w.q c.raw x

/-- A marker's timeout: it completes with WAIT_TIMEOUT, then comes the wait record; LBAR and DEP have no other effect (R157, R196). -/
def State.markTimeout (s : State) (w : Waiter) (n : Nat) : State :=
  match (s.queue w.q).slot, (s.queue w.q).inst n with
  | some r, some i =>
    let s := { s with core.qm.waiters := s.core.qm.waiters.filter (fun v => !(v.q = w.q && v.seq = some n)) }
    let s := match s.head r with
      | some e => if e.q = w.q && e.seq = n then s.popHead r else s
      | none => s
    let x := s.expiryOf w
    let ctx := (s.queue w.q).ctx
    (((s.finishWith w.q n 4 x.detail).completeInst w.q n).waitExpired ctx x i.tag).settle w.q
  | _, _ => s

/-- WAIT_TIMEOUT: the timeout of a wait that has not been served expires (R156, R157). -/
def execWaitTimeout (q : Nat) (seq : Option Nat) (s : State) : Out :=
  liftCore (whenDispatching (fun s =>
    match s.core.qm.waiters.find? (fun w => w.q = q && w.seq = seq) with
    | none => s
    | some w =>
      let t := s.timeoutOf w
      if t = 0 || s.now < w.ft + 64 * t then s
      else match seq, (s.queue q).cur with
        | none, some c => s.curTimeout w c
        | some n, _ => s.markTimeout w n
        | _, _ => s)) s

/-- NOTIFY: a notification reaches the waiting core, or a record the hub (R151); the packet that carries one to the queue's quarter or the hub is
taken (R291). -/
def execNotify (q : Nat) (s : State) : Out :=
  liftCore (whenLive (fun s =>
    let s := s.takeOne (fun p => p.type = 0x32 && (epDie p.dest = s.dieOf q || epDie p.dest = 4))
    if s.core.qm.notes.contains q then
      ({ s with core.qm.notes := s.core.qm.notes.erase q }).updQueue q (fun x => if x.st = QState.waiting then { x with st := QState.bound } else x)
    else s)) s

/-- Has every part of the module that an instruction used finished with it: the units say so in `done` (R146). -/
def execInstructionComplete (q seq : Nat) (s : State) : Out :=
  liftCore (whenLive (fun s =>
    match (s.queue q).inst seq with
    | some i => if i.done then s.complete q seq else s
    | none => s)) s

end Sys2Proof.Machine
end

