-- ==== Sys2Proof/Machine/Ope.lean ====
section
/-! DEFINITION. The outer-product engines: issue, freeze, pipeline, cell writes, stops, modes and release (04_outer_product_engines). -/
namespace Sys2Proof.Machine

/-! Fields shared by OPA and the row-port instructions (R182, R183) -/

def Entry.tile (e : Entry) : Nat := e.eff 0 16 4
def Entry.a32 (e : Entry) : Bool := (e.f 19 1).testBit 0
def Entry.shape (e : Entry) : Nat := bits (e.f 19 1) 1 3

/-- Do two tiles share a half-slot? -/
def overlap (t : Nat) (a : Bool) (u : Nat) (b : Bool) : Bool := (halves t a).any (fun h => (halves u b).contains h)

/-- Shape allowed in a partition mode (R182). -/
def shapeFits (mode sh : Nat) : Bool :=
  match mode with
  | 0 => decide (sh = 0) || decide (sh = 4) || decide (sh = 5)
  | 1 => decide (sh = 1)
  | 2 => decide (sh = 2)
  | _ => decide (sh = 3)

/-- Does a row-port operation free the half-slots of its tile: ACCPK, or a drain without KEEP (R93, R98, R183)? -/
def Entry.frees (e : Entry) : Bool := e.op = 0x15 || (e.op = 0x14 && !e.mod 0) || (e.op = 0x41 && !e.mod 1)

/-- Has a row-port operation that is to free an overlapping tile of a partition yet to start? -/
def Ope.freeing (o : Ope) (p t : Nat) (a : Bool) : Bool := o.pend.any (fun e => e.1 = p && e.2.frees && overlap t a e.2.tile e.2.a32)

/-- Does a tile that a partition holds, among those that p keeps, share a half-slot with the tile an instruction names, in another form (R87)? -/
def Ope.clash (o : Ope) (p : Nat) (e : Entry) (keep : Nat × Tile → Bool) : Bool :=
  (o.part p).tiles.any (fun x => overlap e.tile e.a32 x.1 x.2.a32 && !(x.1 = e.tile && x.2.a32 = e.a32 && x.2.shape = e.shape) && keep x)

/-- TILE and ACC checks (R87, R182): odd A64 tiles and half-slots held by another tile, or by this number in another form, fail; a tile
that a pending row-port operation is to free is waited for, and the check is made again once it has started. -/
def State.tileBad (s : State) (r : SlotRef) (e : Entry) : List Bad :=
  let o := s.ope r.unit
  let t := e.tile
  check (e.shape > 5) (19, 8)
  ++ check (!shapeFits o.mode e.shape) (19, 0xB)
  ++ check (!e.a32 && t % 2 = 1) (16, 8)
  ++ check (o.clash r.slot e (fun x => !o.freeing r.slot x.1 x.2.a32)) (16, 0xA)

/-- A free tile: what half-slots that no tile holds contain (log 6). -/
def staleTile (k : Nat) (a32 : Bool) (sh : Nat) : Tile :=
  if a32 then
    { Tile.zero a32 sh with rows := (List.range (tileRows sh)).map (fun i =>
        (i, { ms := (List.range (rowLen sh)).map (fun j => sext 32 (Config.staleCell k (i * rowLen sh + j)))
              x := sext 8 (Config.staleCell k (i * rowLen sh) / 2 ^ 32), st := Config.staleCell k (i * rowLen sh) / 2 ^ 40 % 16 })) }
  else
    { Tile.zero a32 sh with cells := (List.range (shapeCells sh)).map (fun i =>
        (i, Cell.ofWord (Config.staleCell k i) (Config.staleCell k i / 2 ^ 64))) }

/-- The tile an instruction names, held from now on: as it stands, zeroed after a release, or free (R87, R258). -/
def State.holdTile (s : State) (n p t : Nat) (a32 : Bool) (sh : Nat) : State × Tile :=
  let o := s.ope n
  let x := o.part p
  match mget x.tiles t with
  | some tl => (s, tl)
  | none =>
    let known := (halves t a32).all (fun h => x.clean.contains h)
    let tl := if known then Tile.zero a32 sh else staleTile s.core.free a32 sh
    let s := if known then s else { s with core.free := s.core.free + 1 }
    (s.setOpe n (o.setPart p { x with tiles := mput x.tiles t tl, clean := x.clean.filter (fun h => !(halves t a32).contains h) }), tl)

/-- Set a tile. -/
def State.setTile (s : State) (n p t : Nat) (tl : Tile) : State :=
  let o := s.ope n
  s.setOpe n (o.setPart p { o.part p with tiles := mput (o.part p).tiles t tl })

/-- Free a tile's half-slots. -/
def State.freeTile (s : State) (n p t : Nat) : State :=
  let o := s.ope n
  s.setOpe n (o.setPart p { o.part p with tiles := mdel (o.part p).tiles t })

/-! OPA (R77-R86, R182) -/

def Entry.fmtA (e : Entry) : Nat := e.f 17 1
def Entry.fmtB (e : Entry) : Nat := e.f 18 1
def Entry.nkb (e : Entry) : Nat := e.eff 3 28 24
/-- First line and ring length of an operand: side 0 is A, 1 is B. -/
def Entry.first (e : Entry) (side : Nat) : Nat := if side = 0 then e.eff 1 20 12 else e.eff 2 24 12
def Entry.ring (e : Entry) (side : Nat) : Nat :=
  let r := bits (e.f (20 + 4 * side) 4) 12 12
  if r = 0 then 4096 else r
def Entry.fmt (e : Entry) (side : Nat) : Nat := if side = 0 then e.fmtA else e.fmtB

/-- Tiles per K-tile on a side: two on the 256 side of a folded shape (R182). -/
def tilesPer (sh side : Nat) : Nat := if (sh = 4 ∧ side = 0) ∨ (sh = 5 ∧ side = 1) then 2 else 1

/-- The checks of OPA (R182). -/
def State.opaBad (s : State) (r : SlotRef) (e : Entry) : List Bad :=
  let per := (s.ope r.unit).per
  let pr := pairing e.fmtA e.fmtB
  let opnd (side off : Nat) : List Bad :=
    check (e.first side + e.ring side > per || tileLines (e.fmt side) = 0 || e.ring side % tileLines (e.fmt side) ≠ 0) (off, 8)
  s.tileBad r e
  ++ check (!fmtOk e.fmtA || e.fmtA ≥ 16 || pr.isNone) (17, 7)
  ++ check (!fmtOk e.fmtB || e.fmtB ≥ 16) (18, 7)
  ++ check (e.a32 && (match pr with | some (_, ok) => !ok | none => false)) (19, 7)
  ++ opnd 0 20 ++ opnd 1 24
  ++ check (e.nkb = 0) (28, 8)

/-- Cycles per K-block of an OPA (R51, R89, R182). -/
def Entry.cycles (e : Entry) : Nat :=
  match pairing e.fmtA e.fmtB with
  | some (c, _) => if e.shape ≥ 4 then 2 * c else c
  | none => 1

/-- OPA reaches the issue stage of its partition (R101, R182). -/
def execOpa (r : SlotRef) (s : State) : Out :=
  liftCore (whenDispatching (fun s =>
    if ((s.ope r.unit).part r.slot).run.isSome then s
    else s.atHead r 0x10 (s.opaBad r) (fun e s =>
      let s := s.popHead r
      let o := s.ope r.unit
      s.setOpe r.unit (o.setPart r.slot { o.part r.slot with run := some { e := e }, stopAsk := false, stopAt := none })))) s

/-- Line, within the engine, of tile j of K-tile k on a side (R182). -/
def opLine (o : Ope) (p : Nat) (e : Entry) (side k j : Nat) : Nat :=
  let n := tilesPer e.shape side
  p * o.per + e.first side + ((n * k + j) * tileLines (e.fmt side)) % e.ring side

/-- Lines of the tiles that a side reads for K-tile k. -/
def opTiles (o : Ope) (p : Nat) (e : Entry) (side k : Nat) : List Nat :=
  (List.range (tilesPer e.shape side)).map (fun j => opLine o p e side k j)

/-- Has a tile landed and is it still held (R82)? -/
def Ope.landed (o : Ope) (l : Nat) : Bool :=
  match mget o.obuf l with
  | some t => !t.leaving
  | none => false

/-- Poison of the blocks of line l: a blank place, or the header of the TU that holds the line (R53, R200). -/
def ObufTile.bad (t : ObufTile) (code l : Nat) : Bool := t.blank || tuPoison (t.tus.getD (if code = 0 then l / 64 else 0) [])

/-- Block g of line l of a landed tile, with its poison (R53, R200). -/
def ObufTile.blk (t : ObufTile) (code l g : Nat) : Blk :=
  if t.blank then { poison := true }
  else
    let b := tileBlk code t.tus l g
    { b with poison := b.poison || t.bad code l }

/-- Blocks that a side supplies for K-block kb, one for each result row or column (R77, R182). -/
def sideBlocks (o : Ope) (p : Nat) (e : Entry) (side kb : Nat) : List Blk :=
  let n := if side = 0 then (shapeDims e.shape).1 else (shapeDims e.shape).2
  (List.range n).map (fun i =>
    match mget o.obuf (opLine o p e side (kb / 4) (i / 128)) with
    | some t => t.blk (e.fmt side) (i % 128) (kb % 4)
    | none => {})

/-- The operand tile of the K-tile whose header names another format, if any: the offending byte (R103). -/
def mismatch (o : Ope) (p : Nat) (x : OpaRun) : Option Nat :=
  let bad (side : Nat) : Bool := (opTiles o p x.e side (x.kb / 4)).any (fun l =>
    match mget o.obuf l with
    | some t => !t.blank && t.tus.any (fun u => tuFmt u ≠ x.e.fmt side)
    | none => false)
  if bad 0 then some 17 else if bad 1 then some 18 else none

/-- Fence a partition: cause, and the steps in the pipeline write nothing from now on (R103). -/
def Ope.fence (o : Ope) (p cause tile q ctx : Nat) : Ope :=
  { o.setPart p { o.part p with fence := cause, fenceTile := tile, fenceQ := q, fenceCtx := ctx, run := none } with
    pipe := o.pipe.map (fun t => if t.part = p then { t with dead := true } else t) }

/-- What a partition with an OPA in progress meets in a cycle (R84). -/
structure Meets where
  a : Bool := false
  b : Bool := false
  slot : Bool := false
  drain : Bool := false
  deriving DecidableEq, Repr

/-- Units of 512 bytes in the drain buffer. -/
def Ope.drainUsed (o : Ope) : Nat := sumNat (o.drains.map (·.units))

/-- Units that the image of a tile takes. -/
def imageUnits (a32 : Bool) (sh : Nat) : Nat := ceilDiv (imageBytes a32 sh) 512

/-- The causes of R84 that hold for a partition. -/
def meets (o : Ope) (p : Nat) (x : OpaRun) : Meets :=
  let on := o.pend.filter (fun e => e.1 = p && overlap x.e.tile x.e.a32 e.2.tile e.2.a32)
  let full := on.any (fun e => (e.2.op = 0x14 || e.2.op = 0x41) && o.drainUsed + imageUnits e.2.a32 e.2.shape > 576)
  { a := !(opTiles o p x.e 0 (x.kb / 4)).all o.landed
    b := !(opTiles o p x.e 1 (x.kb / 4)).all o.landed
    slot := !on.isEmpty && !full
    drain := full }

def Meets.any (m : Meets) : Bool := m.a || m.b || m.slot || m.drain

/-- Partitions that could issue: an OPA in progress, not fenced, not stopped at a K-block boundary (R84, R100). -/
def Ope.ready (o : Ope) : List (Nat × OpaRun) :=
  (List.range o.count).filterMap (fun p =>
    let x := o.part p
    match x.run with
    | some r => if x.fence ≠ 0 || x.stopAt.isSome then none else some (p, r)
    | none => none)

/-- Every step a cycle further; tiles whose last reading step has passed stage 3 give up their lines (R82, R85). -/
def Ope.advance (o : Ope) : Ope :=
  let pipe := o.pipe.map (fun t => { t with age := t.age + 1 })
  let gone := (pipe.filter (fun t => t.age ≥ 4)).flatMap (·.rel)
  { o with obuf := o.obuf.filter (fun e => !(e.2.leaving && gone.contains e.1)),
           pipe := pipe.map (fun t => if t.age ≥ 4 then { t with rel := [] } else t) }

/-- Issue one step of a partition's OPA (R77-R80, R182). A format mismatch fences the partition; an earlier OPA with its last step in the pipeline,
which then writes nothing, completes with CANCELLED: DESIGN CHOICE, log 79 (R103, R175). -/
def State.issue (s : State) (n p : Nat) (x : OpaRun) : State :=
  let o := s.ope n
  let e := x.e
  let kt := x.kb / 4
  if !x.started && o.clash p e (fun _ => true) then
    (s.setOpe n (o.setPart p { o.part p with run := none })).finishWith e.q e.seq 0xC (badDetail (16, 0xA))
  else
  match (if x.cyc = 0 then mismatch o p x else none) with
  | some b => ((o.pipe.filter (fun t => t.part = p && t.final && !t.dead)).foldl (fun s t => s.finishWith t.q t.seq 5 0)
      (s.setOpe n (o.fence p 1 e.tile e.q e.ctx))).finishWith e.q e.seq 0xC (badDetail (b, 0xC))
  | none =>
    let s := (s.holdTile n p e.tile e.a32 e.shape).1
    let o := s.ope n
    let last := decide (x.cyc + 1 = e.cycles)
    let final := last && decide (x.kb + 1 = e.nkb)
    let endTile := last && (final || decide (x.kb % 4 = 3))
    let rel (side : Nat) : List Nat :=
      if endTile then (opTiles o p e side kt).filter (fun l => !e.mod (side + 1) || o.unkeep.contains (l, e.seq)) else []
    let rels := rel 0 ++ rel 1
    let hit (side : Nat) (l : List Blk) : List Blk := l.zipIdx.map (fun b => { b.1 with poison := b.1.poison || x.struck.contains (2 * side + b.2 / 128) })
    let as_ := if last then hit 0 (sideBlocks o p e 0 x.kb) else []
    let bs := if last then hit 1 (sideBlocks o p e 1 x.kb) else []
    let badOf (side : Nat) (l : List Blk) : List Nat :=
      (List.range (tilesPer e.shape side)).filterMap (fun j =>
        if ((l.drop (128 * j)).take 128).any (·.poison) then some (4 * kt + 2 * side + j) else none)
    let bad := (badOf 0 as_ ++ badOf 1 bs).foldl (fun l k => sins k l) x.bad
    let step : OpeStep :=
      { part := p, tile := e.tile, kb := if last then some (as_, bs) else none, zero := !x.started && e.mod 0, rel := rels, q := e.q,
        seq := e.seq, final := final }
    let used := opTiles o p e 0 kt ++ opTiles o p e 1 kt
    let o := { o with pipe := o.pipe ++ [step], unkeep := o.unkeep.filter (fun u => !(decide (u.2 = e.seq) && rels.contains u.1)),
                      obuf := o.obuf.map (fun (t : Nat × ObufTile) => if used.contains t.1 then
                        (t.1, { t.2 with begun := true, leaving := t.2.leaving || rels.contains t.1 }) else t) }
    let y : OpaRun := if last then { x with kb := x.kb + 1, cyc := 0, started := true, bad := bad, struck := [] } else { x with cyc := x.cyc + 1, started := true }
    let pt := o.part p
    let stop := pt.stopAsk && last && !final
    let o := o.setPart p { pt with run := if final then none else some y, stopAt := if stop then some y.kb else pt.stopAt }
    let s := (s.setOpe n o).effect e.q e.seq
    if final then s.noteCount e 1 bad.length else s

/-- Has an engine issued a step between two states? -/
def stepped (s t : State) (n : Nat) : Bool := decide ((s.ope n).pipe.length < (t.ope n).pipe.length)

/-- Counters of a frozen cycle (R86). -/
def State.frozenCycle (s : State) (n : Nat) (l : List (Nat × Meets)) : State :=
  let b := opeBase n
  let any (f : Meets → Bool) : Bool := l.any (fun e => f e.2)
  let s := s.bump (b + 0x108) 1
  let s := if any (·.a) then s.bump (b + 0x110) 1 else s
  let s := if any (·.b) then s.bump (b + 0x118) 1 else s
  let s := if any (·.slot) then s.bump (b + 0x120) 1 else s
  let s := if any (·.drain) then s.bump (b + 0x128) 1 else s
  (l.filter (fun e => !e.2.any)).foldl (fun s e => s.bump (b + 0x140 + 8 * e.1) 1) s

/-- Operand tiles of the K-block in progress that hold a line, as 2 x side + second tile. -/
def struckBy (o : Ope) (p : Nat) (x : OpaRun) (l : Nat) : List Nat :=
  [0, 1].flatMap (fun side => (List.range (tilesPer x.e.shape side)).filterMap (fun j =>
    let a := opLine o p x.e side (x.kb / 4) j
    if mhas o.obuf a && decide (a ≤ l) && decide (l < a + tileLines (x.e.fmt side)) then some (2 * side + j) else none))

/-- The image of a drained tile with POISON in each cell of one of its 512-byte words (R346). The header stands as it was made. -/
def DrainImg.strike (d : DrainImg) (w : Nat) : DrainImg :=
  let h := imageHdrOff d.tile.a32 d.tile.shape
  let u := tileOfImage d.tile.a32 d.tile.shape d.bytes (fun i => decide (i / 8 = w) && decide (64 * i < h))
  { d with tile := u, bytes := (imageOf u 0 0 0).take h ++ d.bytes.drop h }

/-- An error in an engine's memories, but for its control state (R83, R90, R346, R405). Errors in staged and parked images act when the
operation that reads them starts. -/
def State.memError (s : State) (n : Nat) (x : OpeErr) : State :=
  let o := s.ope n
  match x with
  | .corrected src => (s.bump (rasBase + 0x108) 1).rasCe src (s.opeQuarter n)
  | .line l =>
    let p := l / o.per
    let s := s.ramError 4 1 ⟨o.mode, n, p⟩
    match (o.part p).run with
    | some y => s.setOpe n (o.setPart p { o.part p with run := some { y with struck := (struckBy o p y l).foldl (fun m k => sins k m) y.struck } })
    | none => s
  | .cell p t k =>
    let s := s.ramError 3 1 ⟨o.mode, n, p⟩
    match mget (o.part p).tiles t with
    | some tl => s.setTile n p t (tl.poisonCell k)
    | none => s
  | .control _ => s
  | .staging _ => s
  | .park _ => s
  | .drain k w =>
    match o.drains[k]? with
    | some d => (s.parityError 1 ⟨o.mode, n, d.part⟩).setOpe n { o with drains := o.drains.set k (d.strike w) }
    | none => s

/-- Every partition that is ready issues one step, or the array is frozen; `gated` says that pacing withholds issue in this cycle, which is no
frozen cycle (R84-R86, R109, R432). Steps that have reached stage 23 are written first. -/
def State.issueCycle (s : State) (n : Nat) (gated : Bool) : State :=
  let o := s.ope n
  if o.pipe.any (fun t => t.age ≥ 23) then s
  else
    let s := s.setOpe n o.advance
    let o := s.ope n
    let gated := gated && decide (s.core.pwr.duty < 64)
    let l := if gated then [] else o.ready.map (fun e => (e.1, meets o e.1 e.2))
    let frz := l.any (fun e => e.2.any)
    let s := s.setOpe n { o with frz := frz, causeA := l.any (·.2.a), causeB := l.any (·.2.b), causeSlot := l.any (·.2.slot),
                                 causeDrain := l.any (·.2.drain) }
    if gated then s
    else if frz then s.frozenCycle n l
    else
      let t := o.ready.foldl (fun s e => (s.issue n e.1 e.2).worked ⟨0, n, e.1⟩ 1) s
      if stepped s t n then t.bump (opeBase n + 0x100) 1 else t

/-- Write the effect of one step that has reached stage 23 (R54, R56, R65, R79). -/
def State.writeStep (s : State) (n : Nat) (t : OpeStep) : State :=
  let o := s.ope n
  let x := o.part t.part
  let s :=
    if t.dead || x.fence ≠ 0 then s
    else match mget x.tiles t.tile with
      | none => s
      | some tl =>
        let tl := if t.zero then Tile.zero tl.a32 tl.shape else tl
        match t.kb with
        | none => s.setTile n t.part t.tile tl
        | some (as_, bs) =>
          let r := tl.mergeKBlock (fun i j => blockSum (as_.getD i {}) (bs.getD j {}))
          (s.setTile n t.part t.tile r.1).bump (opeBase n + 0x160 + 8 * t.part) r.2
  if t.final && !t.dead then s.finish t.q t.seq else s

/-- The steps that have reached stage 23 write their cells and leave the pipeline (R79, R80). -/
def State.cellWrites (s : State) (n : Nat) : State :=
  let l := (s.ope n).pipe.filter (fun t => t.age ≥ 23)
  let s := l.foldl (fun s t => s.writeStep n t) s
  let o := s.ope n
  s.setOpe n { o with pipe := o.pipe.filter (fun t => t.age < 23) }

/-- Ask a partition to stop at the end of its K-block (R100). -/
def State.stopPart (s : State) (n p : Nat) : State :=
  let o := s.ope n
  let x := o.part p
  match x.run with
  | none => s
  | some r => s.setOpe n (o.setPart p { x with stopAsk := true, stopAt := if r.cyc = 0 then some r.kb else x.stopAt })

/-- OPE_STOP (R100). -/
def execOpeStop (n p : Nat) (s : State) : Out := liftCore (whenLive (fun s => s.stopPart n p)) s

/-- PART_MODE_CHANGE: firmware sets mode, gang and multicast side while nothing is bound or held (R101, R105, R107). -/
def execPartModeChange (n mode gang : Nat) (gside : Bool) (s : State) : Out :=
  liftCore (whenLive (fun s =>
    let o := s.ope n
    let bound := s.core.qm.slots.any (fun e => e.1 / 16 = n)
    let holds := !o.obuf.isEmpty || !o.drains.isEmpty || !o.pipe.isEmpty || !o.pend.isEmpty
      || o.parts.any (fun e => !e.2.tiles.isEmpty || decide (e.2.fence ≠ 0) || e.2.run.isSome)
    if n ≥ s.opeCount || bound || holds || mode > 3 || !(gang < 8 || gang = 0xF) || (gang < 8 && mode ≠ 0) then s
    else s.setOpe n { o with mode := mode, gang := gang, gside := gside, parts := [] })) s

/-- FENCE_RELEASE: at the point that R258 sets for the partition's cause. -/
def execFenceRelease (n p : Nat) (s : State) : Out :=
  liftCore (whenLive (fun s =>
    let x := (s.ope n).part p
    let q := s.queue x.fenceQ
    let due := if x.fence = 1 then q.st ≠ QState.error && q.cont && q.fl.all (fun i => !(i.op = 0x10 && i.done))
      else (s.ctx x.fenceCtx).st = CtxState.free
    if x.fence ≠ 0 && due then s.releasePart n p else s)) s

end Sys2Proof.Machine
end

