-- ==== Sys2Proof/Machine/RowPort.lean ====
section
/-! DEFINITION. Row-port operations, the drain buffer and the accumulator park (04_ope R87-R99, R451; 07_tile R183; 11_training R275). -/
namespace Sys2Proof.Machine

/-- Quarter of an engine, and first and last-plus-one places of a context's park range there (R235, R251). -/
def State.parkRange (s : State) (c q : Nat) : Nat × Nat :=
  let w := bits (s.ctx c).entry (320 + 32 * q) 32
  (bits w 0 12, bits w 0 12 + bits w 16 13)

def Entry.place (e : Entry) : Nat := e.eff 1 20 12
def Entry.spans (e : Entry) : Nat := imageSpans e.a32 e.shape

/-- Hand a checked row-port instruction to the row port (R91). -/
def State.toRowPort (s : State) (r : SlotRef) (op : Nat) (bad : Entry → List Bad) : State :=
  if ((s.ope r.unit).part r.slot).run.isSome then s
  else s.atHead r op (fun e => s.tileBad r e ++ bad e) (fun e s =>
    let s := s.popHead r
    let o := s.ope r.unit
    s.setOpe r.unit { o with pend := o.pend ++ [(r.slot, e)] })

/-- A place whose span leaves the context's range (R183). -/
def State.placeBad (s : State) (r : SlotRef) (e : Entry) : List Bad :=
  let g := s.parkRange e.ctx (s.opeQuarter r.unit)
  check (!(decide (g.1 ≤ e.place) && decide (e.place + e.spans ≤ g.2))) (20, 0xF)

/-- A place that an image holds and that no pending ACCUP of the engine gives back (R174, R183). -/
def State.placeHeld (s : State) (r : SlotRef) (e : Entry) : List Bad :=
  let frees (y : Nat × Entry) : Bool := y.2.op = 0x16 && decide (y.2.place < e.place + e.spans) && decide (e.place < y.2.place + y.2.spans)
  check (s.parkHeld (s.opeQuarter r.unit) e.place e.spans && !(s.ope r.unit).pend.any frees) (20, 0xA)

/-- A VU destination in another quarter (R169). -/
def vuQuarterBad (q off : Nat) (e : Entry) : List Bad :=
  check (destKind e.dest = 1 && decide (bits e.dest 0 4 / 4 ≠ q)) (off, 8)

def execAccz (r : SlotRef) (s : State) : Out := liftCore (whenDispatching (fun s => s.toRowPort r 0x13 (fun _ => []))) s
def execAccld (r : SlotRef) (s : State) : Out :=
  liftCore (whenDispatching (fun s => s.toRowPort r 0x12 (fun e => alignBad 24 (e.eff 1 24 56) 16384))) s
def execAccdr (r : SlotRef) (s : State) : Out :=
  liftCore (whenDispatching (fun s => s.toRowPort r 0x14 (fun e =>
    e.destAlign 24 16384 ++ vuQuarterBad (s.opeQuarter r.unit) 24 e))) s
def execAccpk (r : SlotRef) (s : State) : Out :=
  liftCore (whenDispatching (fun s => s.toRowPort r 0x15 (fun e => s.placeBad r e ++ s.placeHeld r e))) s

/-- A place that holds no image of the context, or one of another descriptor or shape, as it stands behind the pending operations of the engine
(R174, R183). -/
def State.placeWrong (s : State) (r : SlotRef) (e : Entry) : List Bad :=
  let want := (if e.a32 then 9 else 8) + 256 * e.shape
  let last := ((s.ope r.unit).pend.filter (fun y => (y.2.op = 0x15 || y.2.op = 0x16) && y.2.place = e.place)).getLast?
  let own : Bool := match last with
    | some y => decide (y.2.op = 0x15) && decide ((if y.2.a32 then 9 else 8) + 256 * y.2.shape = want)
    | none => (mget s.core.mem.parked (parkKey (s.opeQuarter r.unit) e.place)).any (fun w => w.2 = e.ctx && w.1 = want)
  check (!own) (20, 0xD)

/-- ACCUP reaches the row port. What its place holds is judged as it starts (R451); an ACCUP that fails another check is told of the place with it
(R174). -/
def execAccup (r : SlotRef) (s : State) : Out :=
  liftCore (whenDispatching (fun s => s.toRowPort r 0x16 (fun e =>
    let l := s.placeBad r e
    if (l ++ reservedBad e.raw ++ ixBad e.raw e.ix ++ destBad e.raw).isEmpty then l else l ++ s.placeWrong r e))) s

def execGacc (r : SlotRef) (s : State) : Out :=
  liftCore (whenDispatching (fun s => s.toRowPort r 0x41 (fun e => check e.a32 (19, 7) ++ e.destAlign 24 16384))) s

/-! Drains (R93) -/

/-- Generation byte of an image: that of the active or retiring stream in whose MEM ring its first byte lies (R194). -/
def State.genAt (s : State) (ctx a : Nat) : Nat :=
  match s.core.streams.find? (fun e =>
      let d := bits e.2.cur.desc 192 64
      let n := bits e.2.cur.desc 32 16
      decide (e.2.ctx = ctx) && (e.2.st = 2 || e.2.st = 7) && destKind d = 0 && decide (destAddr d ≤ a) && decide (a < destAddr d + 16384 * n)) with
  | some e => e.2.cur.gen
  | none => 0

/-- Outcomes of a drained tile (R63). -/
def State.tileOutcomes (s : State) (e : Entry) (t : Tile) : State := (s.noteCount e 1 (t.countBit 2)).noteCount e 2 (t.countBit 0)

/-- Take an image out of the drain buffer. -/
def State.dropDrain (s : State) (n : Nat) (d : DrainImg) : State :=
  let o := s.ope n
  (s.setOpe n { o with drains := o.drains.erase d }).give 9 n d.units

/-- NMU counters of a GACC, cell by cell from address a on, on the stack that holds each (R275, R283). -/
def State.gaccCount (s : State) (ctx a : Nat) (renorms : List Bool) : State :=
  (renorms.zipIdx).foldl (fun s x =>
    let k := match s.xlate ctx (a + 8 * x.2) true false with
      | .ok (.hbm d) => d / 2 ^ 37
      | .ok (.pool1 _ k) => k
      | .ok (.pool2 _ k) => k
      | _ => 0
    let s := s.bump (nmuBase k + 0x118) 1
    if x.1 then (s.bump (nmuBase k + 0x120) 1).raise (nmuBase k + 0x80) 1 else s) s

/-- Pieces of an A64 image that hold cells [from, to), 128 cells a group: offset and length (R95). -/
def cellPieces (cells from_ upto : Nat) : List (Nat × Nat) :=
  (List.range (ceilDiv (upto - from_) 128)).flatMap (fun i => [(8 * from_ + 1024 * i, 1024), (8 * cells + from_ / 2 + 64 * i, 64)])

/-- The first group of 128 cells of a GACC, from cell k on, that an access stops, with the stop; the cells themselves where none does (R246). -/
def State.gaccStop (s : State) (e : Entry) (a cells : Nat) : Nat → Nat → Nat × Stop
  | 0, k => (k, s.vcheck e.ctx (a + imageHdrOff false e.shape) 128 true false)
  | fuel + 1, k =>
    if k ≥ cells then (k, s.vcheck e.ctx (a + imageHdrOff false e.shape) 128 true false)
    else
      let st := (cellPieces cells k (k + 128)).foldl (fun st p => match st with
        | .none => s.vcheck e.ctx (a + p.1) p.2 true false
        | st => st) Stop.none
      if st = .none then s.gaccStop e a cells fuel (k + 128) else (k, st)

/-- Apply cells [d.done, to) of a GACC image at its destination: INIT writes them, otherwise each is merged into the stored one (R183, R275). The
answer is the tile as it then stands there. -/
def State.gaccCells (s : State) (d : DrainImg) (upto : Nat) : State × Tile :=
  let e := d.e
  let a := destAddr e.dest
  let n := d.bytes.length
  let cells := shapeCells d.tile.shape
  let m := (s.vget e.ctx a n false).1
  let s := if e.mod 0 then s else (cellPieces cells d.done upto).foldl (fun s p => s.vtouch e.ctx (a + p.1) p.2 false false) s
  let old := tileOfImage false d.tile.shape m (fun i => (s.vget e.ctx (a + 64 * i) 64 false).2)
  let r := (List.range cells).map (fun i =>
    if e.mod 0 then (i, d.tile.cell i, false)
    else if i < d.done then (i, old.cell i, false) else (i, (old.cell i).mergeCell (d.tile.cell i)))
  let t : Tile := if e.mod 0 then d.tile else { old with cells := r.map (fun x => (x.1, x.2.1)), merges := old.merges + d.tile.merges + 1 }
  let img := if e.mod 0 then d.bytes else imageOf t 0 0 0
  let s := (cellPieces cells d.done upto).foldl (fun s p => s.vput e.ctx (a + p.1) ((img.drop p.1).take p.2) false) s
  (s.gaccCount e.ctx (a + 8 * d.done) (((r.take upto).drop d.done).map (·.2.2)), t)

/-- Apply what is left of a GACC image at its destination, with its header; merged cells give the outcomes (R183, R275, R451). -/
def State.gaccApply (s : State) (d : DrainImg) : State :=
  let e := d.e
  let a := destAddr e.dest
  let n := d.bytes.length
  if e.mod 0 && decide (d.done = 0) then
    (((s.vput e.ctx a d.bytes false).pinImage e.ctx a n).gaccCount e.ctx a (List.replicate (shapeCells d.tile.shape) false)).tileOutcomes e d.tile
  else
  let hdr := imageHdrOff false d.tile.shape
  let r := s.gaccCells d (shapeCells d.tile.shape)
  let h := if e.mod 0 then d.bytes.drop hdr
    else imageHeader r.2 (bytesAt d.bytes (hdr + 16) 8) (bytesAt d.bytes (hdr + 24) 1) (bytesAt d.bytes (hdr + 25) 1)
  ((r.1.vput e.ctx (a + hdr) h false).pinImage e.ctx a n).tileOutcomes e r.2

/-- What an image that goes to memory writes before the access that stops it: its bytes, or a GACC's groups of cells; the image as it is then left
(R246, R248). -/
def State.drainPart (s : State) (d : DrainImg) : State × DrainImg :=
  let e := d.e
  let a := destAddr e.dest
  if e.op = 0x41 then
    let k := (s.gaccStop e a (shapeCells d.tile.shape) 128 d.done).1
    if k ≤ d.done then (s, d) else ((s.gaccCells d k).1, { d with done := k })
  else
    let k := s.reach e.ctx a d.bytes.length true false
    if k = 0 then (s, d) else (s.vput e.ctx a (d.bytes.take k) false, d)

/-- An image that a fault stops is set aside in a firmware park place, and leaves the drain buffer (R246, R251). -/
def State.setDrainAside (s : State) (n : Nat) (d d' : DrainImg) : State :=
  let r := (s.dropDrain n d).setAside n d.e.ctx d.tile
  let o := r.1.ope n
  r.1.setOpe n { o with back := o.back ++ [(d', r.2)] }

/-- Send one image that goes to memory, or stop it where its access stops (R93, R245, R246). -/
def State.sendDrain (s : State) (n : Nat) (d : DrainImg) : State :=
  let e := d.e
  if destKind e.dest ≠ 0 then s
  else match (s.queue e.q).inst e.seq with
    | none => s
    | some i =>
      if i.fid.isSome then s
      else match s.vcheck e.ctx (destAddr e.dest) d.bytes.length true false with
        | .none =>
          let s := if e.op = 0x41 then s.gaccApply d else
            ((s.vput e.ctx (destAddr e.dest) d.bytes false).pinImage e.ctx (destAddr e.dest) d.bytes.length).tileOutcomes e d.tile
          (((s.dropDrain n d).bump (opeBase n + 0x180) d.bytes.length).moved e.q e.seq d.bytes.length).finish e.q e.seq
        | st =>
          let t := s.instStop e i.unit true st
          let p := t.drainPart d
          match (t.queue e.q).inst e.seq with
          | some j =>
            if j.done then (match st with | .fault _ _ => p.1 | _ => t).dropDrain n d
            else if j.fid.isSome then p.1.setDrainAside n d p.2 else t
          | none => t.dropDrain n d

/-- Is the fault of an image's instruction pending? -/
def State.imgHeld (s : State) (d : DrainImg) : Bool := match (s.queue d.e.q).inst d.e.seq with | some i => i.fid.isSome | none => false

/-- Give back the park place of staged lines. -/
def State.stagedFree (s : State) (n : Nat) (x : Staged) : State :=
  s.asideFree (s.opeQuarter n) (imageSpans x.e.a32 x.e.shape) x.place

/-- Images that a PREEMPT or a fault set aside go into the drain buffer again, those of a partition in order, as far as they fit (R93, R248, R253); one
whose fault is pending stays, and those of an instruction that has been taken out leave their places. -/
def State.refill (s : State) (n : Nat) : State :=
  let gone := (s.ope n).staged.filter (fun x => x.part = 4)
  let s := gone.foldl (fun s x => s.stagedFree n x) (s.setOpe n { s.ope n with staged := (s.ope n).staged.filter (fun x => x.part ≠ 4) })
  let s0 := s.setOpe n { s.ope n with back := [] }
  (s.ope n).back.foldl (fun s d =>
    let o := s.ope n
    let give (s : State) : State := s.unAside n d.1.tile d.2
    let stays := s.imgHeld d.1 || o.back.any (fun x => x.1.part = d.1.part && !s.imgHeld x.1) || decide (o.drainUsed + d.1.units > 576)
    if d.1.part = 4 then give s
    else if stays then s.setOpe n { o with back := o.back ++ [d] }
    else ((give s).setOpe n { o with drains := o.drains ++ [d.1] }).take 9 n d.1.units) s0

/-- Send what the drain buffer of an engine can send. -/
def State.pumpDrains (s : State) (n : Nat) : State :=
  ((s.ope n).drains.filter (fun d => ((s.ope n).part d.part).fence = 0)).foldl (fun s d => s.sendDrain n d) s

/-! Starting an operation (R91-R98) -/

/-- Poison, by 64-byte line of an image, from errors met in its staging lines (R83, R94). -/
def stagedBad (errs : List OpeErr) (i : Nat) : Bool := errs.contains (.staging (i / 8))

/-- Poison, by 64-byte line of a parked image, from errors met in the park's words (R405, R451). -/
def parkBad (errs : List OpeErr) (i : Nat) : Bool := (List.range 8).any (fun k => errs.contains (.park (8 * i + k)))

/-- Words of the park and staging lines in error that an operation reads (R415). -/
def State.readErrors (s : State) (n p : Nat) (errs : List OpeErr) : State :=
  let st := (errs.filter (fun x => match x with | .staging _ => true | _ => false)).length
  let pk := (errs.filter (fun x => match x with | .park _ => true | _ => false)).length
  (s.ramError 4 st ⟨(s.ope n).mode, n, p⟩).ramError 6 pk ⟨(s.ope n).mode, n, p⟩

/-- Report and finish an operation that loaded a tile (R451). -/
def State.loaded (s : State) (e : Entry) (t : Tile) : State := (s.noteCount e 1 (t.countBit 2)).finish e.q e.seq

/-- Lines staged for an ACCLD before a fault stopped it; none at its first start. -/
def Ope.stagedOf (o : Ope) (e : Entry) : Option Staged := o.staged.find? (fun x => x.e = e)

/-- A fault stops an ACCLD: the lines before it that have been staged go to a firmware park place (R246, R251). -/
def State.stage (s : State) (n p : Nat) (e : Entry) (a len : Nat) : State :=
  let k := s.reach e.ctx a len false false / 64 * 64
  let bs := (s.vget e.ctx a k false).1
  let bad := (List.range (k / 64)).filter (fun i => (s.vget e.ctx (a + 64 * i) 64 false).2)
  if k = 0 then s
  else
    let r := (s.vtouch e.ctx a k false false).setAside n e.ctx (tileOfImage e.a32 e.shape bs (fun i => bad.contains i))
    let o := r.1.ope n
    r.1.setOpe n { o with staged := o.staged.filter (fun x => x.e ≠ e) ++ [{ part := p, e := e, place := r.2, bytes := bs, bad := bad }] }

/-- ACCLD: check the header, then load, going on behind the lines that were staged before a fault (R94, R96, R246, R451). -/
def State.startAccld (s : State) (n p : Nat) (e : Entry) (errs : List OpeErr) : State :=
  let a := e.eff 1 24 56
  let len := imageBytes e.a32 e.shape
  let old := ((s.ope n).stagedOf e).getD { part := p, e := e }
  let k := old.bytes.length
  match s.vcheck e.ctx (a + k) (len - k) false false with
  | .none =>
    let m := old.bytes ++ (s.vget e.ctx (a + k) (len - k) false).1
    let pz (i : Nat) : Bool := old.bad.contains i || (decide (k ≤ 64 * i) && (s.vget e.ctx (a + 64 * i) 64 false).2) || stagedBad errs i
    let hdr := imageHdrOff e.a32 e.shape
    let s := ((s.stagedFree n old).setOpe n { s.ope n with staged := (s.ope n).staged.filter (fun x => x.e ≠ e) })
    let s := ((s.vtouch e.ctx (a + k) (len - k) false false).bump (opeBase n + 0x188) len).moved e.q e.seq len
    if !pz (hdr / 64) && !(bytesAt m hdr 1 = (if e.a32 then 9 else 8) && bytesAt m (hdr + 1) 1 = e.shape) then
      s.finishWith e.q e.seq 0xC (badDetail (24, 0xD))
    else
      let t := tileOfImage e.a32 e.shape m pz
      let o := s.ope n
      let s := s.setOpe n (o.setPart p { o.part p with clean := (o.part p).clean.filter (fun h => !(halves e.tile e.a32).contains h) })
      (s.setTile n p e.tile t).loaded e t
  | st =>
    let t := s.instStop e (slotCode ⟨(s.queue e.q).cls, n, p⟩) false st
    match (t.queue e.q).inst e.seq with
    | some i => if i.fid.isSome then t.stage n p e a len else t
    | none => t

/-- ACCUP: REPLACE loads the parked image, MERGE merges it; the places are released (R98, R183). Where the header's line is in error, descriptor
and shape are not checked (R451). -/
def State.startAccup (s : State) (n p : Nat) (e : Entry) (errs : List OpeErr) : State :=
  let q := s.opeQuarter n
  let pz (i : Nat) : Bool := stagedBad errs i || parkBad errs i
  let own := match mget s.core.mem.parked (parkKey q e.place) with
    | some w => decide (w.2 = e.ctx) && (pz (imageHdrOff e.a32 e.shape / 64) || decide (w.1 = (if e.a32 then 9 else 8) + 256 * e.shape))
    | none => false
  if !own then s.finishWith e.q e.seq 0xC (badDetail (20, 0xD))
  else
    let w := (mgetD s.core.mem.parked (parkKey q e.place) (0, 0)).1
    let len := imageBytes e.a32 e.shape
    let m := memReads s.core.mem.park (parkAddr q e.place) len
    let u := tileOfImage e.a32 e.shape m pz
    let s := ((s.parkFree q e.place (imageSpans (w % 256 = 9) (w / 256))).bump (opeBase n + 0x188) len).moved e.q e.seq len
    let r := s.holdTile n p e.tile e.a32 e.shape
    if e.mod 0 then
      let t := r.2.mergeTile u
      ((r.1.setTile n p e.tile t.1).bump (opeBase n + 0x160 + 8 * p) t.2).loaded e t.1
    else (r.1.setTile n p e.tile u).loaded e u

/-- ACCPK: the image goes to the park and the half-slots are freed (R98). -/
def State.startAccpk (s : State) (n p : Nat) (e : Entry) : State :=
  let q := s.opeQuarter n
  if s.parkHeld q e.place e.spans then s.finishWith e.q e.seq 0xC (badDetail (20, 0xA))
  else
    let r := s.holdTile n p e.tile e.a32 e.shape
    let img := imageOf r.2 s.now 0 (s.epochOf e.ctx)
    (((r.1.parkPut q e.place e.ctx r.2 img).freeTile n p e.tile).moved e.q e.seq img.length).loaded e r.2

/-- ACCDR and GACC: the image enters the drain buffer; the half-slots are freed unless KEEP (R93, R183). A GACC without INIT reads the
stored header first. -/
def State.startDrain (s : State) (n p : Nat) (e : Entry) (keep : Bool) : State :=
  let r := s.holdTile n p e.tile e.a32 e.shape
  let s := r.1
  let gen := if destKind e.dest = 0 then s.genAt e.ctx (destAddr e.dest) else 0
  let img := imageOf r.2 s.now gen (s.epochOf e.ctx)
  let o := s.ope n
  let d : DrainImg := { part := p, e := e, tile := r.2, bytes := img, units := imageUnits e.a32 e.shape }
  let s := (s.setOpe n { o with drains := o.drains ++ [d] }).take 9 n d.units
  let s := if keep then s else s.freeTile n p e.tile
  s.pumpDrains n

/-- The header check of a GACC without INIT: where it stops, or fails (R183, R451). -/
def State.startGacc (s : State) (n p : Nat) (e : Entry) : State :=
  if e.mod 0 then s.startDrain n p e (e.mod 1)
  else
    let a := destAddr e.dest + imageHdrOff false e.shape
    match s.vcheck e.ctx a 128 false false with
    | .none =>
      let h := s.vget e.ctx a 64 false
      let s := s.vtouch e.ctx a 64 false false
      if !h.2 && !(bytesAt h.1 0 1 = 8 && bytesAt h.1 1 1 = e.shape) then s.finishWith e.q e.seq 0xC (badDetail (24, 0xD))
      else s.startDrain n p e (e.mod 1)
    | st => s.instStop e (slotCode ⟨(s.queue e.q).cls, n, p⟩) false st

/-- Lines of a partition that no landed tile holds. -/
def State.freeLines (s : State) (n p : Nat) : Nat :=
  let o := s.ope n
  o.per - ((s.linesHeld n).filter (fun l => l / o.per = p)).length

/-- May a pending operation start: no steps in flight on its tile, nothing older on that tile, not stopped at a fault, buffer space free
(R91, R93, R94)? -/
def State.mayStart (s : State) (n : Nat) (older : List (Nat × Entry)) (x : Nat × Entry) : Bool :=
  let o := s.ope n
  let e := x.2
  let free := match (s.queue e.q).inst e.seq with | some i => i.fid.isNone | none => false
  (o.part x.1).fence = 0 && free
    && o.pipe.all (fun t => !(t.part = x.1 && (halves e.tile e.a32).contains t.tile))
    && older.all (fun y => !(y.1 = x.1 && overlap e.tile e.a32 y.2.tile y.2.a32))
    && (if e.op = 0x14 ∨ e.op = 0x41 then o.back.all (fun d => d.1.part ≠ x.1 || s.imgHeld d.1) && decide (o.drainUsed + imageUnits e.a32 e.shape ≤ 576)
        else if e.op = 0x12 ∨ e.op = 0x16 then decide (imageUnits e.a32 e.shape ≤ s.freeLines n x.1) else true)

/-- The oldest pending operation that may start. -/
def State.pickRow (s : State) (n : Nat) : List (Nat × Entry) → List (Nat × Entry) → Option (Nat × Entry)
  | _, [] => none
  | older, x :: xs => if s.mayStart n older x then some x else s.pickRow n (older ++ [x]) xs

/-- Run one row-port operation. One whose half-slots another tile holds after all fails (R87). -/
def State.startRow (s : State) (n p : Nat) (e : Entry) (errs : List OpeErr) : State :=
  if (s.ope n).clash p e (fun _ => true) then s.finishWith e.q e.seq 0xC (badDetail (16, 0xA))
  else
  match e.op with
  | 0x12 => (s.readErrors n p errs).startAccld n p e errs
  | 0x13 =>
    let o := s.ope n
    let s := s.setOpe n (o.setPart p { o.part p with clean := (o.part p).clean.filter (fun h => !(halves e.tile e.a32).contains h) })
    (s.setTile n p e.tile (Tile.zero e.a32 e.shape)).finish e.q e.seq
  | 0x14 => s.startDrain n p e (e.mod 0)
  | 0x15 => s.startAccpk n p e
  | 0x16 => (s.readErrors n p errs).startAccup n p e errs
  | _ => s.startGacc n p e

/-- The row port sends what the drain buffer can send and starts the oldest pending operation that may start (R91). An operation that a
translation stops stays with the row port and starts again later (R246). -/
def State.rowPortStart (s : State) (n : Nat) (errs : List OpeErr) : State :=
  let s := (s.refill n).pumpDrains n
  match s.pickRow n [] (s.ope n).pend with
  | none => s
  | some (p, e) =>
    let t := s.startRow n p e errs
    let stays := match (t.queue e.q).inst e.seq with
      | some i => !i.done && !(t.ope n).drains.any (fun d => d.e.q = e.q && d.e.seq = e.seq) && !(t.ope n).back.any (fun d => d.1.e.q = e.q && d.1.e.seq = e.seq)
      | none => false
    let t := if stays then t else t.worked ⟨0, n, p⟩ (if e.op = 0x13 then 1 else shapeCells e.shape / 128)
    if stays then t
    else
      let o := t.ope n
      t.setOpe n { o with pend := o.pend.filter (fun y => !(y.2.q = e.q && y.2.seq = e.seq)) }

end Sys2Proof.Machine
end

