-- ==== Sys2Proof/Machine/Mvu.lean ====
section
/-! DEFINITION. The matrix-vector units: MVX, vector slots and stops (05_matrix_vector R110-R116, 07_tile R184). -/
namespace Sys2Proof.Machine

/-! Vector slots (R113, R170, R205) -/

/-- MVU and slot pairs that a destination word names. -/
def vecTargets (w : Nat) : List (Nat × Nat) :=
  match destKind w with
  | 2 => [(bits w 0 3, bits w 4 3)]
  | 4 => (setBits 8 (bits w 0 8)).map (fun n => (n, bits w 12 3))
  | _ => []

/-- Does the MVX in progress on an MVU read a slot? It is in progress until it completes, its result taken (R113, R115). -/
def Mvu.reads (m : Mvu) (slot : Nat) : Bool :=
  match m.run.or m.result with
  | some r => (r.e.f 18 1).testBit slot
  | none => false

/-- Bytes of the vector slots (R113). -/
def slotStore : Nat := 434176

/-- The slots of an MVU as they stand once its held writes and one more have landed fit in its store (R113; log 76). -/
def Mvu.fits (m : Mvu) (slot : Nat) (v : MvuVec) : Bool :=
  let l : Map MvuVec := mput (m.held.foldl (fun (a : Map MvuVec) h => mput a h.1 h.2.1) m.vecs) slot v
  decide (sumNat (l.map (fun x => x.2.bytes.length)) ≤ slotStore)

/-- Write a vector to one slot, or hold it while an MVX reads the slot or an earlier write to it is held (R113). -/
def State.vecWrite (s : State) (n slot : Nat) (v : MvuVec) (e : Entry) : State :=
  let m := s.mvu n
  if m.reads slot || m.held.any (fun h => h.1 = slot) then s.setMvu n { m with held := m.held ++ [(slot, v, e.q, e.seq)] }
  else s.setMvu n { m with vecs := mput m.vecs slot v }

/-- Is a write of an instruction still held at some MVU? -/
def State.vecHeld (s : State) (q seq : Nat) : Bool :=
  s.core.mvus.any (fun m => m.2.held.any (fun h => h.2.2.1 = q && h.2.2.2 = seq))

/-- Write a vector to every slot a destination names; the instruction finishes once every slot is written (R170). One that does not fit
in the store of an MVU is written nowhere (log 76). -/
def State.vecWriteAll (s : State) (w : Nat) (v : MvuVec) (e : Entry) : State :=
  if !(vecTargets w).all (fun t => (s.mvu t.1).fits t.2 v) then
    s.finishWith e.q e.seq 0xC (badDetail (((destOf e.op).getD (0, [])).1, 8))
  else
  let s := (vecTargets w).foldl (fun s t => s.vecWrite t.1 t.2 v e) s
  if s.vecHeld e.q e.seq then s else s.finish e.q e.seq

/-- VECTOR_SLOT_WRITE: the oldest write held for a slot lands once no MVX reads it (R113). -/
def execVectorSlotWrite (n slot : Nat) (s : State) : Out :=
  liftCore (whenLive (fun s =>
    let m := s.mvu n
    if m.reads slot then s
    else match m.held.find? (fun h => h.1 = slot) with
      | none => s
      | some h =>
        let s := s.setMvu n { m with held := m.held.erase h, vecs := mput m.vecs slot h.2.1 }
        if s.vecHeld h.2.2.1 h.2.2.2 then s else s.finish h.2.2.1 h.2.2.2)) s

/-! MVX (R110-R115, R184) -/

def Entry.wfmt (e : Entry) : Nat := e.f 16 1
/-- Code of the vector format; the block axis of its descriptor means nothing for a vector (R48). -/
def Entry.vfmt (e : Entry) : Nat := e.f 17 1 % 16
/-- Selected vector slots, in ascending order. -/
def Entry.vsel (e : Entry) : List Nat := setBits 8 (e.f 18 1)
def Entry.tuLayout (e : Entry) : Bool := (e.f 19 1).testBit 0
def Entry.outs (e : Entry) : Nat := e.f 20 2
def Entry.kb (e : Entry) : Nat := e.f 22 2
def Entry.waddr (e : Entry) : Nat := e.eff 0 24 56
def Entry.saddr (e : Entry) : Nat := e.eff 1 32 56
def Entry.wstride (e : Entry) : Nat := e.f 40 4
def Entry.sstride (e : Entry) : Nat := e.f 44 2

/-- The checks of MVX (R110, R169, R184). -/
def State.mvxBad (s : State) (r : SlotRef) (e : Entry) : List Bad :=
  let m := s.mvu r.unit
  let v := e.vsel.length
  let pair := [0, 1, 2, 3].contains e.wfmt && [0, 1].contains e.vfmt
  let size := sumNat (e.vsel.map (fun _ => vectorBytes e.vfmt (32 * e.kb)))
  let wrong := e.vsel.any (fun k => match mget m.vecs k with
    | some x => x.fmt ≠ e.vfmt || x.n ≠ 32 * e.kb
    | none => true)
  check (!pair) (16, 7)
  ++ check (!fmtOk (e.f 17 1)) (17, 7)
  ++ check (v = 0 || (pair && decide (size > slotStore))) (18, 8)
  ++ check (wrong) (18, 0xC)
  ++ check (e.outs = 0 || e.outs * v > 16384 || (e.tuLayout && e.outs % 128 ≠ 0)) (20, 8)
  ++ check (e.kb = 0 || (e.tuLayout && e.kb % 4 ≠ 0)) (22, 8)
  ++ alignBad 24 e.waddr (if e.tuLayout then 16384 else 64)
  ++ (if e.tuLayout then (List.range 8).filterMap (fun i => if e.f (32 + i) 1 ≠ 0 then some (32 + i, 3) else none) else [])
  ++ vuQuarterBad (s.quarterOf 4 r.unit) 48 e

/-- Groups per row: 32 blocks each, the last one shorter (R114). -/
def Entry.rowGroups (e : Entry) : Nat := ceilDiv e.kb 32

/-- TU layout: address of the TU that holds blocks 4t to 4t + 3 of output o, and the line of it (R49, R50, R111). -/
def weightTu (e : Entry) (o t : Nat) : Nat × Nat :=
  let a := e.waddr + o / 128 * e.wstride
  if e.wfmt = 0 then (a + t * 32768 + o % 128 / 64 * 16384, o % 64) else (a + t * 16384, o % 128)

/-- Accesses that blocks k0 to k0 + n - 1 of output o take: addresses and lengths. In TU layout each TU's header, and of its planes what
the blocks hold (R50, R111, R184; log 77). -/
def weightReads (e : Entry) (o k0 n : Nat) : List (Nat × Nat) :=
  let c := e.wfmt
  if e.tuLayout then
    ((List.range n).map (fun i => (k0 + i) / 4)).eraseDups.flatMap (fun t =>
      let p := weightTu e o t
      [(p.1, 64), (p.1 + 0x40 + 4 * p.2, 4)] ++ (if c = 2 then [(p.1 + 0x240 + 16 * p.2, 16)] else [])
        ++ [(p.1 + 0x1000 + 4 * elemBytes c * p.2, 4 * elemBytes c)])
  else
    [(e.waddr + o * e.wstride + elemBytes c * k0, elemBytes c * n), (e.saddr + o * e.sstride + k0, n)]
      ++ (if c = 2 then [(e.saddr + e.sstride * e.outs + o * 4 * e.sstride + 4 * k0, 4 * n)] else [])

/-- Block k of the weights of output o: poisoned by its TU's header or by HBM poison on its read (R111, R112). -/
def State.weightBlk (s : State) (e : Entry) (o k : Nat) : Blk :=
  let c := e.wfmt
  if e.tuLayout then
    let p := weightTu e o (k / 4)
    let n := 4 * p.2 + k % 4
    let h := s.vget e.ctx p.1 64 false
    let f := s.vget e.ctx (p.1 + 0x1000 + elemBytes c * n) (elemBytes c) false
    let x := s.vget e.ctx (p.1 + 0x40 + n) 1 false
    let w := if c = 2 then s.vget e.ctx (p.1 + 0x240 + 4 * n) 4 false else ([], false)
    { bsiBlk c (leNat f.1) (leNat x.1) (leNat w.1) with poison := h.2 || tuPoison h.1 || f.2 || x.2 || w.2 }
  else
    let f := s.vget e.ctx (e.waddr + o * e.wstride + elemBytes c * k) (elemBytes c) false
    let x := s.vget e.ctx (e.saddr + o * e.sstride + k) 1 false
    let w := if c = 2 then s.vget e.ctx (e.saddr + e.sstride * e.outs + o * 4 * e.sstride + 4 * k) 4 false else ([], false)
    { bsiBlk c (leNat f.1) (leNat x.1) (leNat w.1) with poison := f.2 || x.2 || w.2 }

/-- Merge weight blocks of one output into the outputs of every selected vector, in ascending K (R112, R205). -/
def State.mergeWeights (s : State) (n : Nat) (x : MvxRun) (o : Nat) : List Nat → State × MvxRun
  | [] => (s, x)
  | k :: ks =>
    let m := s.mvu n
    let w := s.weightBlk x.e o k
    let r := (x.e.vsel.zipIdx).foldl (fun (acc : Map Row × Nat) v =>
      match mget m.vecs v.1 with
      | none => acc
      | some vec =>
        let b := vectorBlk x.e.vfmt vec.n vec.bytes k
        let key := x.e.outs * v.2 + o
        let row := mgetD acc.1 key { ms := [0] }
        let y := row.mergeBlocks [blockSum w { b with poison := b.poison || vec.poison }]
        (mput acc.1 key y.1, acc.2 + b2n y.2)) (x.acc, 0)
    (s.bump (mvuBase n + 0x110) r.2).mergeWeights n { x with acc := r.1, merges := max x.merges (k + 1) } o ks

/-- The result image of an MVX (R115). -/
def mvxImage (x : MvxRun) (ft gen epoch : Nat) : List Byte :=
  let v := x.e.vsel.length
  let nn := x.e.outs * v
  let row (i : Nat) : Row := mgetD x.acc i { ms := [0] }
  let lost := mcount x.acc (fun r => r.st.testBit 0)
  let st := (mvals x.acc).foldl (fun a r => a ||| r.st) 0
  (List.range nn).flatMap (fun i => leBytes 4 (toWord 32 ((row i).ms.getD 0 0)))
    ++ (List.range nn).map (fun i => BitVec.ofNat 8 (toWord 8 (row i).x))
    ++ (List.range nn).map (fun i => BitVec.ofNat 8 (row i).st)
    ++ leBytes 128 (put 0 8 9 + put 8 8 6 + put 16 8 st + put 32 32 lost + put 64 64 x.merges + put 128 64 ft + put 192 8 gen + put 200 8 epoch
        + put 208 16 x.e.outs + put 224 16 v)

/-- Outcomes of an MVX: POISONED, BOUND_LOST with counts of outputs (R115). -/
def State.mvxOutcomes (s : State) (x : MvxRun) : State :=
  (s.noteCount x.e 1 (mcount x.acc (fun r => r.st.testBit 2))).noteCount x.e 2 (mcount x.acc (fun r => r.st.testBit 0))

/-- Send the result of an MVX whose last group has been merged: to memory, or kept for the QNT of its VU (R115). -/
def State.mvxEnd (s : State) (n : Nat) (x : MvxRun) : State :=
  let e := x.e
  let gen := if destKind e.dest = 0 then s.genAt e.ctx (destAddr e.dest) else 0
  let img := mvxImage x s.now gen (s.epochOf e.ctx)
  let m := s.mvu n
  if destKind e.dest = 0 then
    match s.vcheck e.ctx (destAddr e.dest) img.length true false with
    | .none =>
      let s := ((s.vput e.ctx (destAddr e.dest) img false).bump (mvuBase n + 0x120) img.length).mvxOutcomes x
      ((s.moved e.q e.seq img.length).setMvu n { s.mvu n with run := none }).finish e.q e.seq
    | st => s.instStop e (slotCode ⟨4, n, 0⟩) true st
  else s.setMvu n { m with run := none, result := some x }

/-- Consume up to a number of weight groups; a group whose reads a translation stops is tried again later (R114, R116, R246). -/
def State.mvxGroups (s : State) (n : Nat) : Nat → State
  | 0 =>
    match (s.mvu n).run with
    | some x => if x.g ≥ x.e.outs * x.e.rowGroups then s.mvxEnd n x else s
    | none => s
  | k + 1 =>
    match (s.mvu n).run with
    | none => s
    | some x =>
      if (s.mvu n).stopped then s
      else if x.g ≥ x.e.outs * x.e.rowGroups then s.mvxEnd n x
      else
        let o := x.g / x.e.rowGroups
        let k0 := 32 * (x.g % x.e.rowGroups)
        let c := min 32 (x.e.kb - k0)
        let rd := weightReads x.e o k0 c
        let st := rd.foldl (fun st a => match st with | .none => s.vcheck x.e.ctx a.1 a.2 false false | st => st) Stop.none
        match st with
        | .none =>
          let s := rd.foldl (fun s a => s.vtouch x.e.ctx a.1 a.2 false false) s
          let r := s.mergeWeights n x o ((List.range c).map (· + k0))
          let s := r.1.setMvu n { r.1.mvu n with run := some { r.2 with g := x.g + 1 } }
          let s := (s.bump (mvuBase n + 0x100) 1).bump (mvuBase n + 0x118) (sumNat (rd.map (·.2)))
          let s := (s.worked ⟨4, n, 0⟩ 1).moved x.e.q x.e.seq (sumNat (rd.map (·.2)))
          (s.effect x.e.q x.e.seq).mvxGroups n k
        | st => s.instStop x.e (slotCode ⟨4, n, 0⟩) false st

/-- Forget an MVX that has ended otherwise. -/
def State.mvxClean (s : State) (n : Nat) : State :=
  match (s.mvu n).run with
  | some x => match (s.queue x.e.q).inst x.e.seq with
    | some i => if i.done then s.setMvu n { s.mvu n with run := none } else s
    | none => s.setMvu n { s.mvu n with run := none }
  | none => s

/-- Uncorrectable errors in an MVU's accumulators: POISON in the outputs struck (R405). -/
def State.mvuErrors (s : State) (n : Nat) (struck : List Nat) : State :=
  let s := s.ramError 7 struck.length ⟨4, n, 0⟩
  match (s.mvu n).run with
  | some x =>
    let hit := struck.filter (fun k => k < x.e.outs * x.e.vsel.length)
    s.setMvu n { s.mvu n with run := some { x with acc := hit.foldl (fun m k => mupd m k { ms := [0] } (fun w => { w with st := w.st ||| 4 })) x.acc } }
  | none => s

/-- Is a write held for a slot that the MVX at the head of a share reads? It goes first (R113). -/
def State.mvxWaits (s : State) (r : SlotRef) : Bool :=
  match s.head r with
  | some e => decide (e.op = 0x18) && (s.mvu r.unit).held.any (fun h => e.vsel.contains h.1)
  | none => false

/-- MVX: begins at the head of the share, and consumes the number of weight groups that have become ready (R110-R115; log 10). `struck`:
outputs whose accumulators meet an uncorrectable error (log 34). -/
def execMvx (r : SlotRef) (groups : Nat) (struck : List Nat) (s : State) : Out :=
  liftCore (whenDispatching (fun s =>
    let s := s.mvxClean r.unit
    let m := s.mvu r.unit
    let s := if m.run.isSome || m.result.isSome || m.stopped || s.mvxWaits r then s
      else s.atHead r 0x18 (s.mvxBad r) (fun e s =>
        let s := s.popHead r
        s.setMvu r.unit { s.mvu r.unit with run := some { e := e } })
    let s := if struck.isEmpty then s else s.mvuErrors r.unit struck
    match (s.mvu r.unit).run with
    | some x => if ((s.queue x.e.q).inst x.e.seq).isSome && (((s.queue x.e.q).inst x.e.seq).bind (·.fid)).isNone
        then s.mvxGroups r.unit groups else s
    | none => s)) s

/-- MVU_STOP: no further group; the output and K index are reported (R116). -/
def State.mvuStop (s : State) (n : Nat) : State :=
  let m := s.mvu n
  match m.run with
  | none => s
  | some x => s.setMvu n { m with stopped := true, stopAt := some (x.g / x.e.rowGroups, 32 * (x.g % x.e.rowGroups)) }

def execMvuStop (n : Nat) (s : State) : Out := liftCore (whenLive (fun s => s.mvuStop n)) s

end Sys2Proof.Machine
end

