-- ==== Sys2Proof/Machine/Vu.lean ====
section
/-! DEFINITION. The vector units: element-wise functions, tables, softmax, reductions and quantisation (05 R117-R126, 07_tile R185,
03_integer_formats R70-R76). -/
namespace Sys2Proof.Machine

/-! Exact values -/

def Dy.neg (a : Dy) : Dy := ⟨-a.m, a.e⟩
def Dy.sub (a b : Dy) : Dy := Dy.add a b.neg
def Dy.mul (a b : Dy) : Dy := ⟨a.m * b.m, a.e + b.e⟩
def Dy.abs (a : Dy) : Dy := ⟨a.m.natAbs, a.e⟩
def Dy.scale (a : Dy) (k : Int) : Dy := ⟨a.m, a.e + k⟩
def Dy.max (a b : Dy) : Dy := if Dy.le a b then b else a
def Dy.min (a b : Dy) : Dy := if Dy.le a b then a else b
/-- Floor of an exact value. -/
def Dy.floor (a : Dy) : Int := if a.e ≥ 0 then a.m * pow2 a.e else a.m / pow2 (-a.e)
def Dy.lt (a b : Dy) : Bool := !Dy.le b a

/-! Tables (R121, R122) -/

/-- Value of segment g at t. -/
def segAt (tb : List Byte) (g : Nat) (t : Dy) : Dy :=
  let c (i : Nat) : Dy := ⟨sext 16 (bytesAt tb (16 + 16 * g + 2 * i) 2), 0⟩
  let q := sext 8 (bytesAt tb (24 + 16 * g) 1)
  (Dy.add (c 0) (Dy.mul t (Dy.add (c 1) (Dy.mul t (Dy.add (c 2) (Dy.mul t (c 3))))))).scale q

/-- A table applied to a value; the flag counts an element outside the 64 segments (R121, R122). An EDGE other than 0 extends the end
polynomial, as 1 does: DESIGN CHOICE, log 78. -/
def lut (tb : List Byte) (x : Dy) : Dy × Bool :=
  let lo : Dy := ⟨sext 16 (bytesAt tb 0 2), sext 10 (bytesAt tb 2 2)⟩
  let u := (Dy.sub x lo).scale (-(sext 8 (bytesAt tb 4 1)))
  let f := u.floor
  let g := clampInt 0 63 f
  let out := decide (f < 0) || decide (f > 63)
  let t := Dy.sub u ⟨g, 0⟩
  let t := if out && bytesAt tb 5 1 = 0 then (if f < 0 then ⟨0, 0⟩ else ⟨1, 0⟩) else t
  (segAt tb g.toNat t, out)

/-- The integer square root, bit by bit from bit n. -/
def isqrt (v : Nat) : Nat → Nat → Nat
  | 0, r => r
  | n + 1, r => if (r + 2 ^ n) ^ 2 ≤ v then isqrt v n (r + 2 ^ n) else isqrt v n r

/-- 2^(2^-i) x 2^60 truncated, for i = 1 .. n, from r = 2^(2^0) x 2^60 on. -/
def exp2Roots : Nat → Nat → List Nat
  | 0, _ => []
  | n + 1, r => let q := isqrt (r * 2 ^ 60) 62 0; q :: exp2Roots n q

/-- The function of ROM table t at a value of its domain, between two bounds less than 2^-30 of it apart: 1 EXP2F on [0, 1), 2 RECIP on [1, 2),
3 RSQRT on [1, 4); none outside the domain (R121). -/
def romTrue (t : Nat) (x : Dy) : Option (Dy × Dy) :=
  let f : Int := x.floor
  let m := x.m.natAbs
  match t with
  | 1 =>
    if f ≠ 0 then none
    else
      let w := (x.scale 40).floor.toNat
      let p : Nat := ((exp2Roots 40 (2 ^ 61)).zipIdx).foldl (fun (a : Nat) r => if w.testBit (39 - r.2) then a * r.1 / 2 ^ 60 else a) (2 ^ 60)
      some (⟨p, -60⟩, ⟨p + 2 ^ 24, -60⟩)
  | 2 =>
    if f ≠ 1 then none
    else
      let k := bitLen m + 60
      let q := 2 ^ k / m
      some (⟨q, -k - x.e⟩, ⟨q + 1, -k - x.e⟩)
  | 3 =>
    if f < 1 ∨ f > 3 then none
    else
      let e := x.e % 2
      let k := (bitLen m + 62) / 2
      let q := isqrt (2 ^ (2 * k) / (m * 2 ^ e.toNat)) (k + 1) 0
      some (⟨q, -(k : Int) - (x.e - e) / 2⟩, ⟨q + 1, -(k : Int) - (x.e - e) / 2⟩)
  | _ => none

/-- A ROM table applied to a value. Its bytes are free (log 7), but over its domain the value departs from the function by at most 2^-14
relative (R121), and no element is outside the 64 segments. -/
def romLut (t : Nat) (x : Dy) : Dy × Bool :=
  let y := lut (Config.romTable t) x
  match romTrue t x with
  | none => y
  | some (a, b) => (Dy.max (Dy.mul b ⟨2 ^ 14 - 1, -14⟩) (Dy.min (Dy.mul a ⟨2 ^ 14 + 1, -14⟩) y.1), false)

/-! Quantiser specifications (R171) and slot counters (R126) -/

def qFmt (q : Nat) : Nat := bits q 0 8
def qCode (q : Nat) : Nat := qFmt q % 16
def qBax (q : Nat) : Bool := q.testBit 4
def qMode (q : Nat) : Nat := bits q 8 2
def qSr (q : Nat) : Bool := q.testBit 10
def qTern (q : Nat) : Bool := q.testBit 11
def qExp (q : Nat) : Int := sext 10 (bits q 16 10)

/-- Reserved bits and values of the QSPEC at offset 20. -/
def qBad (e : Entry) : List Bad := qspecBad 20 (e.f 20 4)

def fldHistBase (n s : Nat) : Fld := ⟨vuBase n + 0x60 + 4 * s, 6, 10, 0x3F0⟩
def fldHistWidth (n s : Nat) : Fld := ⟨vuBase n + 0x60 + 4 * s, 0, 6, 1⟩

/-- Offset of a slot's counter. -/
def vuCnt (n k off : Nat) : Nat := vuBase n + 0x200 + 0x100 * k + off

/-- Histogram bin of an exponent (R76). -/
def histBin (base : Int) (width : Nat) (e : Int) : Nat := if e < base then 0 else min 15 ((e - base).toNat / width)

/-- Count a quantised block in its slot (R76, R126). -/
def State.countBlk (s : State) (n k elems : Nat) (sr : Bool) (b : QBlk) : State :=
  let s := s.bump (vuCnt n k 0) b.clamps
  let s := s.bump (vuCnt n k 8) b.escs.length
  let s := s.bump (vuCnt n k 0x10) (b2n b.raised)
  let s := if sr then s.bump (vuCnt n k 0x18) elems else s
  let s := s.bump (vuCnt n k 0x20) elems
  s.bump (vuCnt n k (0x80 + 8 * histBin (sext 10 (s.reg (fldHistBase n k))) (s.reg (fldHistWidth n k) + 1) b.e)) 1

/-- A block to be quantised: exact values, elements that a mask makes N x 2^e, poison, and whether it comes from a raised RSI16 block. -/
structure VBlk where
  vs : List Dy
  masked : List Nat := []
  poison : Bool := false
  raised : Bool := false
  deriving DecidableEq, Repr

/-- Quantise blocks in order in a slot: draws, counts and outcomes follow (R46, R70-R76, R125, R126). A masked element is N x 2^e whatever e is, so
the others alone decide e and the raise (R119). -/
def State.quantiseAll (s : State) (n k spec : Nat) : List VBlk → State × List QBlk
  | [] => (s, [])
  | b :: bs =>
    let v := s.vu n
    let x := v.slot k
    let code := qCode spec
    let d := if qSr spec then rngDraws (rngSeed x.rng) b.vs.length else ([], x.rng)
    let q (mode : Nat) (fe : Int) (vs : List Dy) : QBlk :=
      quantise code (qTern spec) (qSr spec) mode fe vs (fun i => d.1.getD i 0) b.poison
    let lo := (range code (qTern spec)).1
    let r := if b.masked.isEmpty then q (qMode spec) (qExp spec) b.vs
      else
        let r0 := q (qMode spec) (qExp spec) ((b.vs.zipIdx.filter (fun p => !b.masked.contains p.2)).map (·.1))
        let vs := b.vs.zipIdx.map (fun p => if b.masked.contains p.2 then ⟨lo, r0.e⟩ else p.1)
        { q 1 r0.e vs with raised := r0.raised }
    let r := { r with mark := b.raised }
    let s := (s.setVu n (v.setSlot k { x with rng := d.2 })).countBlk n k b.vs.length (qSr spec) r
    let t := s.quantiseAll n k spec bs
    (t.1, r :: t.2)

/-- Result blocks that uncorrectable errors in scratch reach are poisoned (R405; log 34). -/
def strike (struck : List Nat) (l : List VBlk) : List VBlk := l.zipIdx.map (fun b => { b.1 with poison := b.1.poison || struck.contains b.2 })

/-- Outcomes of quantised blocks: POISONED and SCALE_RAISED with counts of blocks (R185). -/
def State.qOutcomes (s : State) (e : Entry) (qs : List QBlk) : State :=
  (s.noteCount e 1 (qs.filter (·.poison)).length).noteCount e 0xB (qs.filter (·.raised)).length

/-! Blocks of an array in memory (R172) -/

/-- Pieces of block k of an array of n blocks: address and length of its elements, its scale and its escape word (R172). -/
def blkPieces (a code n k : Nat) : List (Nat × Nat) :=
  let eb := elemBytes code
  if code = 4 then [(a + 16 * k, 16)]
  else
    let sa := a + pad64 (eb * n)
    [(a + eb * k, eb), (sa + scaleBytes code * k, scaleBytes code)]
      ++ (if code = 2 then [(sa + pad64 n + 4 * k, 4)] else [])

/-- The first stop among pieces of memory. -/
def State.piecesStop (s : State) (c : Nat) (l : List (Nat × Nat)) (write se : Bool) : Stop :=
  l.foldl (fun st p => match st with | .none => s.vcheck c p.1 p.2 write se | st => st) .none

/-! Writing results -/

/-- Stop the head instruction of a slot: it stays there, or leaves the share when it ends (R245, R246). -/
def State.vuHalt (s : State) (r : SlotRef) (e : Entry) (write : Bool) (st : Stop) : State :=
  let t := s.instStop e (slotCode r) write st
  match (t.queue e.q).inst e.seq with
  | some i => if i.done then t.popHead r else t
  | none => t.popHead r

/-- Write bytes at a MEM destination of the head instruction and finish it, or stop it; what lies before a fault is written (R245, R246). -/
def State.vuWrite (s0 s : State) (r : SlotRef) (e : Entry) (bs : List Byte) : State :=
  match s0.vcheck e.ctx (destAddr e.dest) bs.length true false with
  | .none => (((s.vput e.ctx (destAddr e.dest) bs false).moved e.q e.seq bs.length).finish e.q e.seq).popHead r
  | st =>
    let k := s0.reach e.ctx (destAddr e.dest) bs.length true false
    let s0 := match st with
      | .fault _ _ => if k = 0 then s0 else (s0.vput e.ctx (destAddr e.dest) (bs.take k) false).effect e.q e.seq
      | _ => s0
    s0.vuHalt r e true st

/-- How the result blocks of a vector instruction are laid out: the pieces of block k in memory, the whole of them there, and as a vector. -/
structure VuForm where
  parts : Nat → QBlk → List (Nat × List Byte)
  whole : List QBlk → List Byte
  vec : List QBlk → MvuVec

/-- Result blocks as a block array of n blocks at an address, or as a vector (R113, R170, R172). -/
def arrayForm (a code n : Nat) : VuForm :=
  { parts := fun k q => ((blkPieces a code n k).map (·.1)).zip (if code = 4 then [q.field 4] else [q.field code, q.scale code] ++ (if code = 2 then [leBytes 4 q.escWord] else []))
    whole := blockArray code
    vec := fun qs => { fmt := code, n := 32 * qs.length, bytes := vectorArray code qs, poison := qs.any (·.poison) } }

/-- Where a vector instruction stands. -/
def State.vuPos (s : State) (r : SlotRef) (e : Entry) : VuRun :=
  match ((s.vu r.unit).slot r.slot).run with
  | some x => if x.q = e.q && x.seq = e.seq then x else { q := e.q, seq := e.seq }
  | none => { q := e.q, seq := e.seq }

/-- Set where a vector instruction stands. -/
def State.setVuPos (s : State) (r : SlotRef) (x : Option VuRun) : State :=
  let v := s.vu r.unit
  s.setVu r.unit (v.setSlot r.slot { v.slot r.slot with run := x })

/-- Pool effects and byte counts of input pieces. -/
def State.vuTouch (s : State) (e : Entry) (l : List (Nat × Nat)) : State :=
  (l.foldl (fun s p => s.vtouch e.ctx p.1 p.2 false false) s).moved e.q e.seq (sumNat (l.map (·.2)))

/-- Result blocks outs, of nb in all, have been computed, those before block pos written: the others are written up to the first that stops, or to a
block that is not computed, which has stopped its inputs with st (R246). -/
def State.vuEmit (s : State) (r : SlotRef) (e : Entry) (nb pos : Nat) (outs : List QBlk) (st : Stop) (form : VuForm) (done : State → List QBlk → State) : State :=
  if destKind e.dest ≠ 0 then
    if outs.length < nb then (s.setVuPos r (some { q := e.q, seq := e.seq, outs := outs })).vuHalt r e false st
    else (((done s outs).setVuPos r none).popHead r).vecWriteAll e.dest (form.vec outs) e
  else
    let part (k : Nat) : List (Nat × List Byte) := match outs[k]? with | some q => form.parts k q | none => []
    let halt (k : Nat) : Stop := s.piecesStop e.ctx ((part k).map (fun p => (p.1, p.2.length))) true false
    let w := ((List.range outs.length).find? (fun k => decide (pos ≤ k) && decide (halt k ≠ .none))).getD outs.length
    let l := (List.range (w - pos)).flatMap (fun i => part (pos + i))
    let t := (l.foldl (fun s p => s.vput e.ctx p.1 p.2 false) s).moved e.q e.seq (sumNat (l.map (·.2.length)))
    let t := if l.isEmpty then t else t.effect e.q e.seq
    if w = nb then (((done t outs).setVuPos r none).finish e.q e.seq).popHead r
    else
      (t.setVuPos r (some { q := e.q, seq := e.seq, outs := outs, pos := w })).vuHalt r e (decide (w < outs.length)) (if w < outs.length then halt w else st)

/-- A vector instruction with nb result blocks, block by block: block k needs the input pieces ins k, all inputs together are the pieces all; run
computes blocks k0 up to k1; done follows the last. Where nothing stops, it is made in one; a fault stops it at the next output block, from which it
goes on (R117, R246). -/
def State.vuBlocks (s : State) (r : SlotRef) (e : Entry) (nb : Nat) (all : List (Nat × Nat)) (ins : Nat → List (Nat × Nat))
    (run : State → Nat → Nat → State × List QBlk) (form : VuForm) (done : State → List QBlk → State) : State :=
  let x := s.vuPos r e
  if x.outs.isEmpty && decide (s.piecesStop e.ctx all false false = .none) then
    let u := s.vuTouch e all
    let q := run u 0 nb
    if decide (destKind e.dest = 0) && decide (u.vcheck e.ctx (destAddr e.dest) (form.whole q.2).length true false = .none) then
      ((((done q.1 q.2).vput e.ctx (destAddr e.dest) (form.whole q.2) false).moved e.q e.seq (form.whole q.2).length).finish e.q e.seq).popHead r
    else q.1.vuEmit r e nb 0 q.2 .none form done
  else
    let k0 := x.outs.length
    let bad (k : Nat) : Stop := s.piecesStop e.ctx (ins k) false false
    let k1 := ((List.range nb).find? (fun k => decide (k0 ≤ k) && decide (bad k ≠ .none))).getD nb
    let q := run (s.vuTouch e ((List.range (k1 - k0)).flatMap (fun i => ins (k0 + i)))) k0 k1
    q.1.vuEmit r e nb x.pos (x.outs ++ q.2) (bad k1) form done

/-- Stop, or go on with bytes read and their poison. A stopped instruction stays at the head (R246). -/
def State.vuRead (s : State) (r : SlotRef) (e : Entry) (a n : Nat) (f : State → List Byte × Bool → State) : State :=
  match s.vcheck e.ctx a n false false with
  | .none => f ((s.vtouch e.ctx a n false false).moved e.q e.seq n) (s.vget e.ctx a n false)
  | st => s.vuHalt r e false st

/-- Cycles in which lanes were active for an instruction, by the elements it quantised (R117, R119, R120, R123). -/
def laneCycles (e : Entry) (quantised : Nat) : Nat :=
  if e.op = 0x22 then ceilDiv (e.f 32 4 % 2 ^ 17) 256 * e.eff 1 36 24
  else
    let c := ceilDiv quantised 256
    if e.op ≠ 0x20 then c else if e.f 16 1 = 0xB then 2 * c else if e.f 16 1 = 0xC then 3 * c else c

/-- s before, t after: lanes were active for an instruction that has run (R128, R423). -/
def State.vuRan (s t : State) (r : SlotRef) (e : Entry) : State :=
  match (t.queue e.q).inst e.seq with
  | none => t
  | some i =>
    let new := t.counter (vuCnt r.unit r.slot 0x20) - s.counter (vuCnt r.unit r.slot 0x20)
    if (!i.done && decide (e.op = 0x22 ∨ new = 0)) || mhas i.outs 0xC || mhas i.outs 6 || mhas i.outs 7 then t
    else
      let n := laneCycles e new
      (t.bump (vuBase r.unit + 0x100) n).worked r n

/-- Is the head instruction stopped at a fault? -/
def State.headStopped (s : State) (r : SlotRef) : Bool :=
  match s.head r with
  | some e => match (s.queue e.q).inst e.seq with
    | some i => i.fid.isSome
    | none => false
  | none => false

/-- Poison of a block of an array: its own mark, or the line poison of its element bytes, scale and escape word (R172, R203). -/
def State.arrBlk (s : State) (ctx a code n : Nat) (m : List Byte) (k : Nat) : Blk :=
  let b := arrayBlk code n m k
  let eb := elemBytes code
  let p := (s.vget ctx (a + eb * k) eb false).2
    || (code ≠ 4 && (s.vget ctx (a + pad64 (eb * (n / 32)) + scaleBytes code * k) (scaleBytes code) false).2)
    || (code = 2 && (s.vget ctx (a + pad64 (eb * (n / 32)) + pad64 (n / 32) + 4 * k) 4 false).2)
  { b with poison := b.poison || p }

/-- Scratch units of a VU allocated to issued instructions and to landed drains (R118, R124). -/
def State.vuScratch (s : State) (n : Nat) : Nat := sumNat ((s.vu n).slots.map (fun e => e.2.units))

/-- Units of 4 KiB free in a VU's scratch. -/
def State.scratchFree (s : State) (n : Nat) : Nat := 32 - s.vuScratch n

/-- An instruction holds u more units of a VU's scratch until it completes (R118). -/
def State.holdScratch (s : State) (r : SlotRef) (e : Entry) (u : Nat) : State :=
  let v := s.vu r.unit
  let x := v.slot r.slot
  s.setVu r.unit (v.setSlot r.slot { x with scr := x.scr ++ [(e.q, e.seq, u)] })

/-- Run an instruction with its whole scratch allocated, which it issues with, or wait for it (R118, R124). -/
def State.withScratch (s : State) (r : SlotRef) (e : Entry) (u : Nat) (f : State → State) : State :=
  if u = 0 || ((s.vu r.unit).slot r.slot).scr.any (fun x => x.1 = e.q && x.2.1 = e.seq) then f s
  else if s.scratchFree r.unit < u then s
  else f ((s.take 0x0E r.unit u).holdScratch r e u)

/-! VOP (R119-R123, R185) -/

def Entry.func (e : Entry) : Nat := e.f 16 1
def Entry.vopN (e : Entry) : Nat := e.eff 2 40 24
def Entry.row (e : Entry) : Nat := e.f 44 2

/-- Functions with an operand b, a row vector r, and a row length. -/
def usesB (f : Nat) : Bool := (decide (1 ≤ f) && decide (f ≤ 5)) || f = 8 || f = 9
def usesRow (f : Nat) : Bool := f = 8 || f = 9 || f = 0xA || f = 0xC

/-- A block format of up to 16 bits. -/
def laneFmt (d : Nat) : Bool := fmtOk d && decide (d % 16 ≤ 6)

/-- The checks of VOP (R119, R121, R123, R171, R185). -/
def vopBad (e : Entry) : List Bad :=
  let f := e.func
  let n := e.vopN
  if f = 0x0D then
    check (!laneFmt (e.f 17 1)) (17, 7)
    ++ check (decide (e.f 18 1 ≠ 0)) (18, 8)
    ++ alignBad 24 (e.eff 0 24 56) 16
    ++ (List.range 4).filterMap (fun i => if e.f (20 + i) 1 ≠ 0 then some (20 + i, 3) else none)
    ++ check (n % 32 ≠ 0) (40, 8)
    ++ check (e.row ≠ 0) (44, 8)
  else
    check (f > 0x0D) (16, 8)
    ++ check (!laneFmt (e.f 17 1)) (17, 7)
    ++ check (if usesB f then !laneFmt (e.f 18 1) else false) (18, 7)
    ++ check (!usesB f && decide (e.f 18 1 ≠ 0)) (18, 8)
    ++ qBad e
    ++ alignBad 24 (e.eff 0 24 56) 64
    ++ (if usesB f then alignBad 32 (e.eff 1 32 56) 64 else [])
    ++ check (n % 32 ≠ 0) (40, 8)
    ++ check (if usesRow f then e.row = 0 || e.row % 32 ≠ 0 || n % e.row ≠ 0 || (f = 0xC && e.row > 8192) else e.row ≠ 0) (44, 8)
    ++ check (f = 0xB && decide (e.f 46 1 > 3)) (46, 8)
    ++ e.destAlign 48 64

/-- Table t of a slot applied to a value: the slot's own, or a ROM table (R121). -/
def State.tableAt (s : State) (n k t : Nat) (x : Dy) : Dy × Bool := if t = 0 then lut ((s.vu n).slot k).table x else romLut t x

/-- Index and value of the greatest, lowest index first. -/
def argMax : List Dy → Nat → Nat × Dy → Nat × Dy
  | [], _, b => b
  | v :: vs, i, b => argMax vs (i + 1) (if Dy.lt b.2 v then (i, v) else b)

/-- Softmax of a row with temperature 2^k (R123). -/
def softmax (k : Int) (xs : List Dy) : List Dy :=
  let m := (argMax xs 0 (0, xs.getD 0 {})).2
  let terms := xs.map (fun x =>
    let y := (Dy.mul (Dy.sub x m) ⟨0x5C55, -14⟩).scale k
    let i := y.floor
    ((romLut 1 (Dy.sub y ⟨i, 0⟩)).1).scale i)
  let sum := terms.foldl Dy.add ⟨0, 0⟩
  let p : Int := (bitLen sum.m.natAbs : Int) - 1 + sum.e
  let rc := ((romLut 2 (sum.scale (-p))).1).scale (-p)
  terms.map (fun t => Dy.mul t rc)

/-- Split into rows of n; at most `fuel` rows. -/
def rowsOf {α : Type} (n : Nat) : Nat → List α → List (List α)
  | 0, _ => []
  | fuel + 1, l => if l.isEmpty then [] else l.take n :: rowsOf n fuel (l.drop n)

/-- Split values into blocks with a poison mark each, and the mark of a raised RSI16 block. -/
def toVBlks (vs : List Dy) (poison : Nat → Bool) (masked : Nat → Bool) (raised : Nat → Bool := fun _ => false) : List VBlk :=
  (rowsOf 32 (vs.length / 32 + 1) vs).zipIdx.map (fun p =>
    { vs := p.1, poison := poison p.2, raised := raised p.2, masked := (List.range 32).filter (fun i => masked (32 * p.2 + i)) })

/-- Arguments that a table clamps (R121). -/
def State.vopClamps (s : State) (n k : Nat) (e : Entry) (a : List Dy) : Nat :=
  if e.func = 0x0B then (a.filter (fun x => (s.tableAt n k (e.f 46 1) x).2)).length else 0

/-- The element-wise result for functions 0x00-0x0C (R119). -/
def State.vopValues (s : State) (n k : Nat) (e : Entry) (a b : List Dy) : List Dy :=
  let ksh := sext 8 (e.f 19 1)
  let at_ (i : Nat) : Dy := b.getD i {}
  let ai := a.zipIdx
  match e.func with
  | 0x01 => ai.map (fun p => Dy.add p.1 (at_ p.2))
  | 0x02 => ai.map (fun p => Dy.sub p.1 (at_ p.2))
  | 0x03 => ai.map (fun p => Dy.mul p.1 (at_ p.2))
  | 0x04 => ai.map (fun p => Dy.max p.1 (at_ p.2))
  | 0x05 => ai.map (fun p => Dy.min p.1 (at_ p.2))
  | 0x06 => a.map Dy.abs
  | 0x07 => a.map (·.scale ksh)
  | 0x08 => ai.map (fun p => Dy.add p.1 (at_ (p.2 % e.row)))
  | 0x09 => ai.map (fun p => Dy.mul p.1 (at_ (p.2 % e.row)))
  | 0x0B => a.map (fun x => (s.tableAt n k (e.f 46 1) x).1)
  | 0x0C => (rowsOf e.row (a.length / e.row + 1) a).flatMap (softmax ksh)
  | _ => a

/-- Input pieces of output block k of a VOP: its block of a, its block of b or of the row, or its bits of the mask; for SMAX all blocks of its row
(R119, R123). -/
def vopPieces (e : Entry) (k : Nat) : List (Nat × Nat) :=
  let n := e.vopN
  let f := e.func
  let ca := e.f 17 1 % 16
  let w := e.row / 32
  let a (i : Nat) : List (Nat × Nat) := blkPieces (e.eff 0 24 56) ca (n / 32) i
  (if f = 0xC then (List.range w).flatMap (fun i => a (k / w * w + i)) else a k)
    ++ (if f = 8 || f = 9 then blkPieces (e.eff 1 32 56) (e.f 18 1 % 16) w (k % w)
        else if usesB f then blkPieces (e.eff 1 32 56) (e.f 18 1 % 16) (n / 32) k
        else if f = 0xA then [(e.eff 1 32 56 + 4 * k, 4)] else [])

/-- All input pieces of a VOP. -/
def vopAll (e : Entry) : List (Nat × Nat) :=
  let n := e.vopN
  let f := e.func
  let nb := if f = 8 || f = 9 then e.row else n
  let lenB := if usesB f then arrayBytes (e.f 18 1 % 16) nb else if f = 0xA then n / 8 else 0
  (e.eff 0 24 56, arrayBytes (e.f 17 1 % 16) n) :: (if lenB = 0 then [] else [(e.eff 1 32 56, lenB)])

/-- Result blocks of a VOP before quantisation, from the inputs as they stand (R119, R203, R405). -/
def State.vopResult (s : State) (r : SlotRef) (e : Entry) (struck : List Nat) : List Dy × List VBlk :=
  let n := e.vopN
  let ca := e.f 17 1 % 16
  let cb := e.f 18 1 % 16
  let f := e.func
  let ga := (s.vget e.ctx (e.eff 0 24 56) (arrayBytes ca n) false).1
  let nb := if f = 8 || f = 9 then e.row else n
  let lenB := if usesB f then arrayBytes cb nb else if f = 0xA then n / 8 else 0
  let gb := s.vget e.ctx (e.eff 1 32 56) lenB false
  let ba := (List.range (n / 32)).map (s.arrBlk e.ctx (e.eff 0 24 56) ca n ga)
  let bb := if usesB f then (List.range (nb / 32)).map (s.arrBlk e.ctx (e.eff 1 32 56) cb nb gb.1) else []
  let a := ba.flatMap Blk.vals
  let b := bb.flatMap Blk.vals
  let jb (i : Nat) : Nat := if f = 8 || f = 9 then i % (e.row / 32) else i
  let poison (i : Nat) : Bool :=
    if f = 0xC then (List.range (e.row / 32)).any (fun j => (ba.getD (32 * i / e.row * (e.row / 32) + j) {}).poison)
    else (ba.getD i {}).poison
      || (if usesB f then (bb.getD (jb i) {}).poison else f = 0xA && (s.vget e.ctx (e.eff 1 32 56 + 4 * i) 4 false).2)
  let raised (i : Nat) : Bool := f ≠ 0xC && ((ca = 6 && (ba.getD i {}).raised) || (usesB f && cb = 6 && (bb.getD (jb i) {}).raised))
  let masked (i : Nat) : Bool := f = 0xA && !(bit (bytesAt gb.1 (i / 8) 1) (i % 8))
  (a, strike struck (toVBlks (s.vopValues r.unit r.slot e a b) poison masked raised))

/-- Result blocks k0 up to k1 of a VOP, quantised, with the arguments that its table clamps counted. -/
def State.vopRun (r : SlotRef) (e : Entry) (struck : List Nat) (s : State) (k0 k1 : Nat) : State × List QBlk :=
  let v := s.vopResult r e struck
  let c := s.vopClamps r.unit r.slot e ((v.1.take (32 * k1)).drop (32 * k0))
  (s.bump (vuCnt r.unit r.slot 0) c).quantiseAll r.unit r.slot (e.f 20 4) ((v.2.take k1).drop k0)

/-- A VOP at the head of its slot (R119); an LDTBL waits until every earlier LUT of the slot has completed (R121). -/
def State.runVop (s : State) (r : SlotRef) (e : Entry) (struck : List Nat) : State :=
  if e.func = 0x0D then
    if (s.queue e.q).fl.any (fun i => i.op = 0x20 && i.fn = 0x0B && i.unit = slotCode r && i.seq < e.seq) then s
    else
    s.vuRead r e (e.eff 0 24 56) 1040 (fun s g =>
      let v := s.vu r.unit
      let s := s.setVu r.unit (v.setSlot r.slot { v.slot r.slot with table := g.1 })
      ((s.noteCount e 1 (b2n g.2)).popHead r).finish e.q e.seq)
  else
    let nb := e.vopN / 32
    s.vuBlocks r e nb (vopAll e) (vopPieces e) (State.vopRun r e struck) (arrayForm (destAddr e.dest) (qCode (e.f 20 4)) nb) (fun s l => s.qOutcomes e l)

/-- VOP (R118, R119): waits for its scratch, 48 KiB for SMAX (R123). -/
def execVop (r : SlotRef) (struck : List Nat) (s : State) : Out :=
  liftCore (whenDispatching (fun s =>
    if s.headStopped r then s
    else s.atHead r 0x20 vopBad (fun e s =>
      s.withScratch r e (if e.func = 0xC then 12 else 0) (fun s => State.vuRan s ((s.ramError 7 struck.length r).runVop r e struck) r e)))) s

/-! VRED (R120, R185) -/

def Entry.redRow (e : Entry) : Nat := e.f 32 4 % 2 ^ 17
def Entry.redRows (e : Entry) : Nat := e.eff 1 36 24

/-- The checks of VRED. -/
def vredBad (e : Entry) : List Bad :=
  let row := e.redRow
  check (e.func > 5) (16, 8)
  ++ check (!laneFmt (e.f 17 1)) (17, 7)
  ++ (if e.func = 5 then (List.range 4).filterMap (fun i => if e.f (20 + i) 1 ≠ 0 then some (20 + i, 3) else none) else qBad e)
  ++ alignBad 24 (e.eff 0 24 56) 64
  ++ check (row < 32 || row > 65536 || row % 32 ≠ 0) (32, 8)
  ++ check (e.redRows = 0) (36, 8)
  ++ e.destAlign 48 64

/-- One row reduced (R120). -/
def reduceRow (f : Nat) (vs : List Dy) : Dy :=
  match vs with
  | [] => {}
  | v :: rest =>
    match f with
    | 0 => rest.foldl Dy.add v
    | 1 => rest.foldl Dy.max v
    | 2 => rest.foldl Dy.min v
    | 3 => rest.foldl (fun m x => Dy.max m x.abs) v.abs
    | _ => rest.foldl (fun m x => Dy.add m (Dy.mul x x)) (Dy.mul v v)

/-- Address and bytes of row i of a VRED, and of the rows of result block k, 32 of them at most (R185). -/
def vredRow (e : Entry) (i : Nat) : Nat × Nat :=
  let c := e.f 17 1 % 16
  (e.eff 0 24 56 + pad64 (arrayBytes c e.redRow) * i, arrayBytes c e.redRow)
def vredPieces (e : Entry) (k : Nat) : List (Nat × Nat) := (List.range (min 32 (e.redRows - 32 * k))).map (fun i => vredRow e (32 * k + i))

/-- All input bytes of a VRED, as one piece. -/
def vredAll (e : Entry) : List (Nat × Nat) :=
  let c := e.f 17 1 % 16
  [(e.eff 0 24 56, pad64 (arrayBytes c e.redRow) * (e.redRows - 1) + arrayBytes c e.redRow)]

/-- Values of row i of a VRED, and whether any block of it is poisoned. -/
def State.vredVals (s : State) (e : Entry) (i : Nat) : List Dy × Bool :=
  let a := vredRow e i
  let m := (s.vget e.ctx a.1 a.2 false).1
  let l := (List.range (e.redRow / 32)).map (s.arrBlk e.ctx a.1 (e.f 17 1 % 16) e.redRow m)
  (l.flatMap Blk.vals, l.any (·.poison))

/-- Result blocks k0 up to k1 of a VRED: the indices of ARGMAX as they are, all else quantised; the last block is filled with zeros (R120). -/
def State.vredRun (r : SlotRef) (e : Entry) (struck : List Nat) (s : State) (k0 k1 : Nat) : State × List QBlk :=
  let n := min e.redRows (32 * k1) - 32 * k0
  let v := (List.range n).map (fun i => s.vredVals e (32 * k0 + i))
  let pz (i : Nat) : Bool := ((v.drop (32 * i)).take 32).any (·.2)
  if e.func = 5 then
    (s, (List.range (k1 - k0)).map (fun k =>
      let l := (v.zipIdx.drop (32 * k)).take 32
      { codes := l.map (fun x => ((argMax x.1.1 0 (0, x.1.1.getD 0 {})).1 : Int)), us := l.map (fun x => b2n (x.1.2 || struck.contains (32 * k0 + x.2))) }))
  else
    let outs := v.map (fun x => reduceRow e.func x.1)
    let vb := toVBlks (outs ++ List.replicate (32 * (k1 - k0) - n) ({} : Dy)) pz (fun _ => false)
    s.quantiseAll r.unit r.slot (e.f 20 4) (vb.zipIdx.map (fun b => { b.1 with poison := b.1.poison || struck.contains (k0 + b.2) }))

/-- Indices of ARGMAX as four bytes each: in memory, and as a vector of code 5 and ROWS elements: DESIGN CHOICE, log 78. -/
def indexForm (a n : Nat) : VuForm :=
  let bytes (q : QBlk) : List Byte := q.codes.flatMap (fun i => leBytes 4 i.toNat)
  { parts := fun k q => [(a + 128 * k, bytes q)]
    whole := fun qs => qs.flatMap bytes
    vec := fun qs => { fmt := 5, n := n, bytes := qs.flatMap bytes, poison := qs.any (fun q => q.us.any (· ≠ 0)) } }

/-- VRED at the head of its slot (R120, R185). -/
def State.runVred (s : State) (r : SlotRef) (e : Entry) (struck : List Nat) : State :=
  let nb := ceilDiv e.redRows 32
  if e.func = 5 then
    s.vuBlocks r e nb (vredAll e) (vredPieces e) (State.vredRun r e struck) (indexForm (destAddr e.dest) e.redRows)
      (fun s l => s.noteCount e 1 (sumNat (l.map (fun q => sumNat q.us))))
  else
    s.vuBlocks r e nb (vredAll e) (vredPieces e) (State.vredRun r e struck) (arrayForm (destAddr e.dest) (qCode (e.f 20 4)) nb) (fun s l => s.qOutcomes e l)

/-- VRED (R120). -/
def execVred (r : SlotRef) (struck : List Nat) (s : State) : Out :=
  liftCore (whenDispatching (fun s =>
    if s.headStopped r then s
    else s.atHead r 0x22 vredBad (fun e s => State.vuRan s ((s.ramError 7 struck.length r).runVred r e struck) r e))) s

/-! QNT (R124, R185) -/

/-- The checks of QNT. -/
def qntBad (e : Entry) : List Bad :=
  let k := e.f 16 1
  let tile := k = 0 || k = 2
  let tu := tile && qCode (e.f 20 4) ≤ 4
  check (k > 3) (16, 8)
  ++ check (k = 3 && !laneFmt (e.f 17 1)) (17, 7)
  ++ check (k ≠ 3 && decide (e.f 17 1 ≠ 0)) (17, 8)
  ++ qBad e
  ++ (if k = 0 then (List.range 8).filterMap (fun i =>
        if (e.f (24 + i) 1) &&& (255 - bits 0x3803F (8 * i) 8) ≠ 0 then some (24 + i, 3) else none)
      else if k = 1 then (List.range 8).filterMap (fun i => if (e.f (24 + i) 1) &&& (255 - bits 7 (8 * i) 8) ≠ 0 then some (24 + i, 3) else none)
      else if k = 2 then [] else alignBad 24 (e.eff 0 24 56) 64)
  ++ check (k = 3 && decide (e.f 32 4 % 32 ≠ 0)) (32, 8)
  ++ (if k = 2 then e.destAlign 48 64 else e.destAlign 48 (if tu then 16384 else 64))

/-- Blocks of a tile with their block numbers, in the order in which they are quantised: along lines as each row lands, across them band by band
as 32 rows have landed (R49, R124); only those within the valid lines and positions. -/
def tileVBlks (bax : Bool) (val : Nat → Nat → Dy) (pz : Nat → Nat → Bool) (lines posns : Nat) : List (Nat × VBlk) :=
  let at_ (o i : Nat) : Dy := if bax then val i o else val o i
  let pa (o i : Nat) : Bool := if bax then pz i o else pz o i
  let inner := if bax then lines else posns
  let blk (o g : Nat) : Nat × VBlk :=
    (max 4 (ceilDiv inner 32) * o + g,
      { vs := (List.range 32).map (fun i => if 32 * g + i < inner then at_ o (32 * g + i) else {}),
        poison := (List.range 32).any (fun i => decide (32 * g + i < inner) && pa o (32 * g + i)) })
  if bax then (List.range (ceilDiv lines 32)).flatMap (fun g => (List.range posns).map (fun p => blk p g))
  else (List.range lines).flatMap (fun l => (List.range (ceilDiv posns 32)).map (fun g => blk l g))

/-- Numbered blocks in ascending block number (R185). -/
def inOrder (l : List (Nat × QBlk)) : List QBlk := mvals (l.foldl (fun m b => mput m b.1 b.2) [])

/-- Valid lines and positions of the tile units of a shape; the folded shapes have 256 on one side (log 17). -/
def tuDims (t : Tile) : Nat × Nat :=
  let d := shapeDims t.shape
  (min 128 d.1, min 128 d.2)

/-- Tile units of quantised blocks; poison marks the TU in which the block lies (R49, R50, R75, R217). -/
def tileUnits (spec epoch ft : Nat) (t : Tile) (bs : List (Nat × QBlk)) : List Byte :=
  let code := qCode spec
  let bax := qBax spec
  let d := tuDims t
  let bad (k : Nat) : Bool := code ≠ 4 && bs.any (fun b => b.2.poison && (code ≠ 0 || decide ((if bax then b.1 % 4 / 2 else b.1 / 256) = k)))
  let blk (n : Nat) : QBlk := (mget bs n).getD { codes := List.replicate 32 0, us := List.replicate 8 0 }
  let elem (l p : Nat) : Int :=
    if bax then (blk (4 * p + l / 32)).codes.getD (l % 32) 0 else (blk (4 * l + p / 32)).codes.getD (p % 32) 0
  let line (l : Nat) : List Byte :=
    let w := elemBits code
    leBytes (16 * w) ((List.range 128).foldl (fun a p => a + put (w * p) w (toWord w (elem l p))) 0)
  let hdr (k : Nat) : List Byte :=
    tuHeader (qFmt spec) (b2n (bad k) + (if code = 0 then 2 + 4 * k else 0)) 0 epoch (d.1 - 1) (d.2 - 1) ft
  let scale (n : Nat) : Byte := BitVec.ofNat 8 (toWord 8 (blk n).e)
  match code with
  | 0 =>
    (List.range 2).flatMap (fun k =>
      let sc := if bax then (List.range 256).map (fun i => scale (4 * (i / 2) + 2 * k + i % 2)) else (List.range 256).map (fun i => scale (256 * k + i))
      fit 16384 (fit 0x1000 (hdr k ++ sc) ++ (List.range 64).flatMap (fun i => line (64 * k + i))))
  | 4 => fit 16384 (fit 0x1000 (hdr 0) ++ (List.range 512).flatMap (fun n => (blk n).field 4))
  | _ =>
    let esc := if code = 2 then (List.range 512).flatMap (fun n => leBytes 4 (blk n).escWord) else []
    fit 16384 (fit 0x1000 (hdr 0 ++ (List.range 512).map scale ++ esc) ++ (List.range 128).flatMap line)

/-- Quantise a tile: tile units for the formats of R50, a block array otherwise (R185). Values of a folded shape's tile units are not
stated and stay free (log 17). -/
def State.qntTile (s : State) (r : SlotRef) (e : Entry) (struck : List Nat) (t : Tile) (done : State → State) : State :=
  let spec := e.f 20 4
  let cols := (shapeDims t.shape).2
  let d := if qCode spec ≤ 4 then tuDims t else shapeDims t.shape
  let folded := t.shape ≥ 4 && qCode spec ≤ 4
  let k := s.core.free
  let val (i j : Nat) : Dy := if folded then ⟨sext 56 (Config.staleCell k (128 * i + j)), 0⟩ else t.value (i * cols + j)
  let pz (i j : Nat) : Bool := if folded then decide (t.countBit 2 ≠ 0) else t.poisonAt (i * cols + j)
  let vb := tileVBlks (qBax spec) val pz d.1 d.2
  let code := qCode spec
  let fresh (s : State) : State := if folded then { s with core.free := k + 1 } else s
  let nb := vb.length
  if code > 4 || destKind e.dest ≠ 0 then
    s.vuBlocks r e nb [] (fun _ => []) (fun s k0 _ =>
        if k0 = nb then (s, [])
        else
          let q := s.quantiseAll r.unit r.slot spec (strike struck (vb.map (·.2)))
          (q.1, inOrder ((vb.map (·.1)).zip q.2)))
      (arrayForm (destAddr e.dest) code nb) (fun s l => (done (fresh s)).qOutcomes e l)
  else
  let q := s.quantiseAll r.unit r.slot spec (strike struck (vb.map (·.2)))
  let s1 := done (fresh q.1)
  State.vuWrite s (s1.qOutcomes e q.2) r e (tileUnits spec (s.epochOf e.ctx) s.now t ((vb.map (·.1)).zip q.2))

/-- Quantise plain values into a block array, with the poison and the raised mark of each block; done follows the last (R185). Where their number is no
multiple of 32, as with an MVU result, zeros fill the last block: DESIGN CHOICE, log 99. -/
def State.qntValues (s : State) (r : SlotRef) (e : Entry) (struck : List Nat) (vs : List Dy) (pz : Nat → Bool) (done : State → State) : State :=
  let spec := e.f 20 4
  let nb := ceilDiv vs.length 32
  let vb := strike struck (toVBlks (vs ++ List.replicate (32 * nb - vs.length) ({} : Dy)) pz (fun _ => false))
  s.vuBlocks r e nb [] (fun _ => []) (fun s k0 k1 => s.quantiseAll r.unit r.slot spec ((vb.take k1).drop k0)) (arrayForm (destAddr e.dest) (qCode spec) nb)
    (fun s l => (done s).qOutcomes e l)

/-- A QNT is in progress from now on; at its beginning a seed written during the last one takes effect (R125). -/
def State.qntBegin (s : State) (n k : Nat) (e : Entry) : State :=
  let v := s.vu n
  let x := v.slot k
  if x.qnt = some (e.q, e.seq) then s
  else s.setVu n (v.setSlot k { x with qnt := some (e.q, e.seq), rng := x.seedNext.getD x.rng, seedNext := none })

/-- Values and poison of an MVU result image (R115). -/
def mvxVals (m : List Byte) (n : Nat) : List (Dy × Bool) :=
  (List.range n).map (fun i => (⟨sext 32 (bytesAt m (4 * i) 4), sext 8 (bytesAt m (4 * n + i) 1)⟩, (bytesAt m (5 * n + i) 1).testBit 2))

/-- QNT of a drain: the oldest landed drain of the named partition (R124, R185). -/
def State.qntDrain (s : State) (r : SlotRef) (e : Entry) (struck : List Nat) (n p : Nat) : State :=
  let x := (s.vu r.unit).slot r.slot
  match x.landed.find? (fun d => d.1 = n && d.2.1 = p) with
  | none => s.bump (vuBase r.unit + 0x108) 1
  | some d =>
    s.qntTile r e struck d.2.2.2 (fun s =>
      let v := s.vu r.unit
      (s.setVu r.unit (v.setSlot r.slot { v.slot r.slot with landed := (v.slot r.slot).landed.erase d })).holdScratch r e d.2.2.1)

/-- QNT of an MVU result that is addressed to this slot (R115, R185). -/
def State.qntMvu (s : State) (r : SlotRef) (e : Entry) (struck : List Nat) (n : Nat) : State :=
  match (s.mvu n).result with
  | none => s.bump (vuBase r.unit + 0x108) 1
  | some x =>
    if bits x.e.dest 0 4 ≠ r.unit || bits x.e.dest 4 2 ≠ r.slot then s.bump (vuBase r.unit + 0x108) 1
    else
      let nn := x.e.outs * x.e.vsel.length
      let l := mvxVals (mvxImage x s.now 0 0) nn
      s.qntValues r e struck (l.map (·.1)) (fun i => ((l.drop (32 * i)).take 32).any (·.2)) (fun s =>
        let s := s.setMvu n { s.mvu n with result := none }
        ((s.bump (mvuBase n + 0x120) (6 * nn + 128)).mvxOutcomes x).finish x.e.q x.e.seq)

/-- Offsets at which an image in memory may have its header: those of shapes 0-5 in A64 and A32, then those of N = 1 .. 16,384 results of an MVX. The
spec does not say how the shape is known before its header is found; the first place that can be read and whose bytes fit counts: DESIGN CHOICE, log 78. -/
def headerOffs : List Nat :=
  (List.range 6).flatMap (fun sh => [imageHdrOff false sh, imageHdrOff true sh]) ++ (List.range 16384).map (fun n => 6 * (n + 1))

/-- The first stop among the places at which an image's header may lie. -/
def State.headerStop (s : State) (e : Entry) (a : Nat) : Stop :=
  headerOffs.foldl (fun st o => match st with | .none => s.vcheck e.ctx (a + o) 32 false false | st => st) .none

/-- Bytes of an image where its header may lie, as far as they can be read. -/
def State.headerAt (s : State) (e : Entry) (o : Nat) : List Byte :=
  let a := e.eff 0 24 56
  match s.vcheck e.ctx (a + o) 32 false false with | .none => (s.vget e.ctx (a + o) 32 false).1 | _ => []

/-- Does the header of an image of R95 of a shape and form lie in its place? -/
def State.tileAt (s : State) (e : Entry) (sh : Nat) (a32 : Bool) : Bool :=
  let h := s.headerAt e (imageHdrOff a32 sh)
  bytesAt h 0 1 = (if a32 then 9 else 8) && bytesAt h 1 1 = sh

/-- Shape of an image of R95 in memory, and whether it is an A32 image. -/
def State.tileImage (s : State) (e : Entry) : Option (Nat × Bool) :=
  ((List.range 6).find? (fun sh => s.tileAt e sh false || s.tileAt e sh true)).map (fun sh => (sh, !s.tileAt e sh false))

/-- Results of an image of R115 in memory. -/
def State.mvuImage (s : State) (e : Entry) : Option Nat :=
  (List.range 16385).find? (fun n =>
    let h := s.headerAt e (6 * n)
    decide (n ≥ 1) && bytesAt h 0 1 = 9 && bytesAt h 1 1 = 6 && bytesAt h 26 2 * bytesAt h 28 2 = n)

/-- The checks of a QNT of an image in memory: no header, or tile units for a DEST that is not aligned for them (R174, R185). -/
def State.imageBad (s : State) (e : Entry) : List Bad :=
  match s.tileImage e with
  | some _ => check (destKind e.dest = 0 && decide (qCode (e.f 20 4) ≤ 4) && decide (destAddr e.dest % 16384 ≠ 0)) (48, 0x11)
  | none => if (s.mvuImage e).isSome then [] else check (decide (s.headerStop e (e.eff 0 24 56) = .none)) (24, 0xD)

/-- Values and poison of an image of R115 that has been read: its outputs' own marks, and those of the lines that hold them (R75, R115, R406). -/
def State.mvuImageVals (s : State) (e : Entry) (m : List Byte) (n : Nat) : List (Dy × Bool) :=
  let line (o k : Nat) : Bool := (s.vget e.ctx (e.eff 0 24 56 + o) k false).2
  (mvxVals m n).zipIdx.map (fun x => (x.1.1, x.1.2 || line (4 * x.2) 4 || line (4 * n + x.2) 1 || line (5 * n + x.2) 1))

/-- QNT of an image in memory: its header is read before any effect (R185, R451 lines of poison). Where no readable place holds a header, a place that
cannot be read stops it. -/
def State.qntImage (s : State) (r : SlotRef) (e : Entry) (struck : List Nat) : State :=
  let a := e.eff 0 24 56
  match s.tileImage e with
  | some (sh, a32) =>
    s.vuRead r e a (imageBytes a32 sh) (fun s g =>
      s.withScratch r e (if a32 then 5 else 9) (fun s => (s.qntBegin r.unit r.slot e).qntTile r e struck (tileOfImage a32 sh g.1 (fun i => (s.vget e.ctx (a + 64 * i) 64 false).2)) id))
  | none =>
    match s.mvuImage e with
    | none => match s.headerStop e a with
      | .none => (s.popHead r).finishWith e.q e.seq 0xC (badDetail (24, 0xD))
      | st => s.vuHalt r e false st
    | some n =>
      s.vuRead r e a (6 * n + 128) (fun s g =>
        let l := s.mvuImageVals e g.1 n
        s.withScratch r e 5 (fun s => (s.qntBegin r.unit r.slot e).qntValues r e struck (l.map (·.1)) (fun i => ((l.drop (32 * i)).take 32).any (·.2)) id))

/-- QNT of a block array in memory, block by block; a block of RSI16 carries its raised mark (R46, R185). -/
def State.qntArray (s : State) (r : SlotRef) (e : Entry) (struck : List Nat) : State :=
  let c := e.f 17 1 % 16
  let n := e.f 32 4 % 2 ^ 24
  let a := e.eff 0 24 56
  let spec := e.f 20 4
  s.vuBlocks r e (n / 32) [(a, arrayBytes c n)] (blkPieces a c (n / 32)) (fun s k0 k1 =>
      let m := (s.vget e.ctx a (arrayBytes c n) false).1
      let bl := (List.range (n / 32)).map (s.arrBlk e.ctx a c n m)
      let vb := strike struck (toVBlks (bl.flatMap Blk.vals) (fun i => (bl.getD i {}).poison) (fun _ => false) (fun i => c = 6 && (bl.getD i {}).raised))
      s.quantiseAll r.unit r.slot spec ((vb.take k1).drop k0))
    (arrayForm (destAddr e.dest) (qCode spec) (n / 32)) (fun s l => s.qOutcomes e l)

/-- QNT at the head of its slot (R124, R185). -/
def State.runQnt (s : State) (r : SlotRef) (e : Entry) (struck : List Nat) : State :=
  match e.f 16 1 with
  | 0 => match s.engineOf (e.f 24 2) with
    | .ok n => (s.qntBegin r.unit r.slot e).qntDrain r e struck n (bits (e.f 24 4) 16 2)
    | .error _ => s
  | 1 => s.withScratch r e 5 (fun s => (s.qntBegin r.unit r.slot e).qntMvu r e struck (bits (e.f 24 1) 0 3))
  | 2 => s.vuRead r e (e.eff 0 24 56) 64 (fun s _ => s.qntImage r e struck)
  | _ => s.withScratch r e 1 (fun s => (s.qntBegin r.unit r.slot e).qntArray r e struck)

/-- QNT (R124). -/
def execQnt (r : SlotRef) (struck : List Nat) (s : State) : Out :=
  liftCore (whenDispatching (fun s =>
    if s.headStopped r then s
    else s.atHead r 0x21 (fun e => qntBad e ++ (if e.f 16 1 = 2 then s.imageBad e else [])) (fun e s => State.vuRan s ((s.ramError 7 struck.length r).runQnt r e struck) r e))) s

/-- VU_DRAIN_GRANT: the oldest drain addressed to the slot from the partition that its QNT names gets landing space and leaves the
drain buffer (R93, R124). -/
def execVuDrainGrant (r : SlotRef) (s : State) : Out :=
  liftCore (whenLive (fun s =>
    match s.head r with
    | none => s
    | some e =>
      if r.cls ≠ 5 || e.op ≠ 0x21 || e.f 16 1 ≠ 0 then s
      else match s.engineOf (e.f 24 2) with
        | .error _ => s
        | .ok n =>
          let p := bits (e.f 24 4) 16 2
          match (s.ope n).drains.find? (fun d => d.part = p && destKind d.e.dest = 1 && bits d.e.dest 0 4 = r.unit && bits d.e.dest 4 2 = r.slot) with
          | none => s
          | some d =>
            let u := if d.tile.a32 then 5 else 9
            if ((s.ope n).part p).fence ≠ 0 || s.scratchFree r.unit < u then s
            else
              let v := s.vu r.unit
              let x := v.slot r.slot
              let s := (s.setVu r.unit (v.setSlot r.slot { x with landed := x.landed ++ [(n, p, u, d.tile)] })).take 0x0E r.unit u
              let s := (s.dropDrain n d).bump (opeBase n + 0x180) d.bytes.length
              (s.tileOutcomes d.e d.tile).finish d.e.q d.e.seq)) s

/-- Is the QNT that a slot has begun still in progress (R125)? -/
def State.qntOn (s : State) (n k : Nat) : Bool :=
  match ((s.vu n).slot k).qnt, s.head ⟨5, n, k⟩ with
  | some x, some e => decide (x = (e.q, e.seq))
  | _, _ => false

/-- The state that a seed gives a generator (R125). -/
def seedState (d : Nat) : Nat := if d = 0 then 0x9E3779B97F4A7C15 else d

/-- A write of VU_SEED: while a QNT of the slot is in progress, for the slot's next QNT; otherwise at once (R125). -/
def State.vuSeed (s : State) (n slot seed : Nat) : State :=
  let v := s.vu n
  let x := v.slot slot
  let d := seedState (seed % 2 ^ 64)
  if n < 16 ∧ slot < 4 then
    s.setVu n (v.setSlot slot (if s.qntOn n slot then { x with seedNext := some d } else { x with rng := d, seedNext := none }))
  else s

/-- VU_SEED_WRITE (R125). -/
def execVuSeedWrite (n slot seed : Nat) (s : State) : Out := liftCore (whenDispatching (fun s => s.vuSeed n slot seed)) s

/-- VU_CNT_CLR: the slot counters are cleared (R126). -/
def State.vuCntClr (s : State) (n mask : Nat) : State :=
  { s with core.regs.cnt := s.core.regs.cnt.filter (fun e =>
      !((setBits 4 mask).any (fun k => decide (vuCnt n k 0 ≤ e.1) && decide (e.1 < vuCnt n k 0x100)))) }

def execVuCntClr (n mask : Nat) (s : State) : Out := liftCore (whenDispatching (fun s => s.vuCntClr n mask)) s

end Sys2Proof.Machine
end

