-- ==== Sys2Proof/Machine/Blocks.lean ====
section
/-! DEFINITION. One block of a block array in a context's memory (07_tile R172): its addresses, reading and writing it. -/
namespace Sys2Proof.Machine

/-- Block k of an array of n blocks, with line poison (R172, R203). -/
def State.readBlk (s : State) (c a code n k : Nat) (se : Bool) : Blk :=
  let l := (blkPieces a code n k).map (fun p => s.vget c p.1 p.2 se)
  let eb := elemBytes code
  let b := blkAt code (l.flatMap (·.1)) 0 eb (eb + scaleBytes code) 0
  { b with poison := b.poison || l.any (·.2) }

/-- Write the pieces of block k of an array of n blocks. -/
def State.writeBlk (s : State) (c a code n k : Nat) (q : QBlk) (se : Bool) : State :=
  let parts := if code = 4 then [q.field code] else [q.field code, q.scale code] ++ (if code = 2 then [leBytes 4 q.escWord] else [])
  ((blkPieces a code n k).zip parts).foldl (fun s p => s.vput c p.1.1 p.2 se) s

/-- Pool effects and byte counts of the pieces of a block. -/
def State.touchBlk (s : State) (c a code n k : Nat) (se : Bool) : State :=
  (blkPieces a code n k).foldl (fun s p => s.vtouch c p.1 p.2 false se) s

end Sys2Proof.Machine
end

