-- ==== Sys2Proof/Machine/Streams.lean ====
section
/-! DEFINITION. Streams: descriptors, arming, cancelling, write-backs, and the transposition of a tile unit
(08_streams_and_prefetch R189-R210). -/
namespace Sys2Proof.Machine

def seInt (n : Nat) : Nat := seBase n + 0x80

/-! Descriptor fields (R191) -/

def Arming.rt (a : Arming) : Bool := a.desc.testBit 0
def Arming.abort (a : Arming) : Bool := a.desc.testBit 1
def Arming.window (a : Arming) : Nat := bits a.desc 8 8
def Arming.nent (a : Arming) : Nat := bits a.desc 16 16
def Arming.ringn (a : Arming) : Nat := bits a.desc 32 16
def Arming.plines (a : Arming) : Nat := bits a.desc 48 16
def Arming.list (a : Arming) : Nat := bits a.desc 64 56
def Arming.deadline (a : Arming) : Nat := bits a.desc 128 64
def Arming.dest (a : Arming) : Nat := bits a.desc 192 64
def Arming.sigref (a : Arming) : Nat := bits a.desc 256 32
def Arming.endref (a : Arming) : Nat := bits a.desc 288 32

/-- The checks of a flag reference at an offset: reserved bits, mode, allocation (R153, R174). -/
def State.refBad (s : State) (c off r maxMode : Nat) : List Bad :=
  check (bits r 20 4 ≠ 0) (off + 2, 3) ++ check (refMode r > maxMode) (off + 3, 5) ++ check (refMode r ≠ 0 && !s.ownsFlag c (refFlag r)) (off, 4)

/-- Non-zero bytes of a field, as reserved-bit failures. -/
def rsvdBytes (d off n : Nat) : List Bad := (List.range n).filterMap (fun i => if bits d (8 * (off + i)) 8 ≠ 0 then some (off + i, 3) else none)

/-- Partition and line range of an OBUF destination (log 20). -/
def State.obufBad (s : State) (off w : Nat) : List Bad :=
  if destKind w ≠ 3 then []
  else match s.engineOf (bits w 0 16) with
    | .error _ => []
    | .ok n =>
      let o := s.ope n
      check (bits w 16 2 ≥ o.count) (off + 2, 8) ++ check (bits w 18 12 ≥ o.per) (off + 2, 8)

/-- Does a ring of n lines leave the partition of an OBUF destination (log 20)? -/
def State.ringLeaves (s : State) (w n : Nat) : Bool :=
  destKind w = 3 && (match s.engineOf (bits w 0 16) with
    | .ok m => decide ((s.ope m).per < bits w 18 12 + n)
    | .error _ => false)

/-- The checks of a descriptor, measured within it (R191). -/
def State.streamBad (s : State) (c d : Nat) : List Bad :=
  let w := bits d 192 64
  let kind := destKind w
  let a : Arming := { desc := d }
  check (bits d 2 6 ≠ 0) (0, 3) ++ check (a.window = 0) (1, 8) ++ check (a.nent = 0) (2, 8) ++ check (a.ringn = 0) (4, 8)
  ++ (if kind = 3 then check (a.plines < 9 || a.plines > 66) (6, 8) else rsvdBytes d 6 2)
  ++ check (a.list % 64 ≠ 0) (8, 0x11) ++ rsvdBytes d 15 1
  ++ check (bits w 56 4 ≠ 0) (31, 3) ++ check (kind ≠ 0 && kind ≠ 3) (31, 8)
  ++ (List.range 7).filterMap (fun i => if bits w (8 * i) 8 &&& (255 - bits (destUsed kind) (8 * i) 8) ≠ 0 then some (24 + i, 3) else none)
  ++ check (kind = 0 && destAddr w % tuBytes ≠ 0) (24, 0x11) ++ s.obufBad 24 w ++ check (s.ringLeaves w (a.ringn * a.plines)) (24, 8)
  ++ s.refBad c 32 a.sigref 1 ++ s.refBad c 36 a.endref 3 ++ rsvdBytes d 40 8

/-- The checks of a block-list entry, measured within it (R192). -/
def entryBad (d : Nat) : List Bad :=
  check (bits d 0 56 % tuBytes ≠ 0) (0, 0x11) ++ check (bits d 56 7 ≠ 0) (7, 3)
  ++ check (bits d 64 32 = 0 || bits d 64 32 ≥ 2 ^ 24) (8, 8) ++ check (bits d 96 32 % tuBytes ≠ 0) (12, 0x11)
  ++ check (bits d 145 7 ≠ 0) (18, 3) ++ rsvdBytes d 19 13

/-! Transposition (R49, R201) -/

/-- Elements of a width in a byte list. -/
def elemsOf (w : Nat) (l : List Byte) : List Nat :=
  l.flatMap (fun b => (List.range (8 / w)).map (fun i => bits b.toNat (w * i) w))

/-- Bytes of elements of a width. -/
def packElems (w : Nat) : Nat → List Nat → List Byte
  | 0, _ => []
  | n + 1, l => BitVec.ofNat 8 (((l.take (8 / w)).zipIdx.map (fun e => e.1 * 2 ^ (w * e.2))).foldl (· + ·) 0) :: packElems w n (l.drop (8 / w))

/-- 128 rows of 128 with rows and columns exchanged. -/
def exchange (rows : List (List Nat)) : List (List Nat) := (List.range 128).map (fun p => rows.map (fun r => r.getD p 0))

/-- Cut a list into n pieces of k. -/
def cutRows {α : Type} (k : Nat) : Nat → List α → List (List α)
  | 0, _ => []
  | n + 1, l => l.take k :: cutRows k n (l.drop k)

/-- Bytes from offset a replaced by others. -/
def overlay (l : List Byte) (a : Nat) (bs : List Byte) : List Byte := l.take a ++ bs ++ l.drop (a + bs.length)

/-- A TU marked poisoned (R203). -/
def poisonTu (tu : List Byte) : List Byte := overlay tu 1 [(tu.getD 1 0) ||| 1]

/-- BAX inverted in the header (R201). -/
def flipBax (tu : List Byte) : List Byte := overlay tu 0 [(tu.getD 0 0) ^^^ 0x10]

/-- Place of block n's scale byte in a BSI8 pair: TU and offset (R50). -/
def scalePlace (bax : Bool) (n : Nat) : Nat × Nat :=
  if bax then (n % 4 / 2, 2 * (n / 4) + n % 2) else (n / 4 / 64, n % 256)

/-- The scale planes of a BSI8 pair for the other BAX: block numbers and their bytes are unchanged (R49, R50). -/
def moveScales (bax : Bool) (sc : List (List Byte)) : List (List Byte) :=
  (List.range 2).map (fun k => (List.range 256).map (fun i =>
    let n := if bax then 256 * k + i else i / 2 * 4 + 2 * k + i % 2
    let p := scalePlace bax n
    (sc.getD p.1 []).getD p.2 0))

/-- A tile unit, or the two of a BSI8 pair, transposed: elements exchange l and p, GSI3 blocks move whole, the rest is copied, BAX is
inverted (R49, R201). -/
def transposeTus (tus : List (List Byte)) : List (List Byte) :=
  let h := tuFmt (tus.getD 0 [])
  let code := h % 16
  let w := if code = 3 then 2 else if code = 1 ∨ code = 2 then 4 else if code = 0 then 8 else 0
  if w = 0 then tus.map flipBax
  else if code = 0 then
    let el := exchange (cutRows 128 128 (tus.flatMap (fun t => ((t.drop 0x1000).take 8192).map (·.toNat))))
    let sc := moveScales (h.testBit 4) (tus.map (fun t => (t.drop 0x40).take 256))
    if tus.length = 2 then
      tus.zipIdx.map (fun t => overlay (overlay (flipBax t.1) 0x1000 (((el.drop (64 * t.2)).take 64).flatMap (fun r => r.map (BitVec.ofNat 8)))) 0x40
        (sc.getD t.2 []))
    else tus.map flipBax
  else
    tus.map (fun t =>
      let n := 16384 * w / 8
      let el := exchange (cutRows 128 128 (elemsOf w ((t.drop 0x1000).take n)))
      overlay (flipBax t) 0x1000 (packElems w n el.flatten))

/-! Streams in flight -/

/-- Fetches of a stream at an SE that p keeps. -/
def Se.fetchesOf (x : Se) (n : Nat) (p : Fetch → Bool) : List Fetch :=
  (x.tracker.filter (fun t => (match t.2.tag with | some g => decide (g.stream = n) | none => false) && p t.2)).map (·.2)

/-- TUs of a stream in flight. -/
def Se.tusOf (x : Se) (n : Nat) (p : Fetch → Bool) : Nat := sumNat ((x.fetchesOf n p).map (fun f => f.tus.length))

def Fetch.gen (f : Fetch) : Nat := match f.tag with | some g => g.gen | none => 0

/-- Count silt at an SE (R206). -/
def State.silt (s : State) (n bytes : Nat) : State := if bytes = 0 then s else s.bump (seBase n + 0x110) bytes

/-- A descriptor write-back that has not been made is tried: it is made, waits, or is given up where its fault is aborted or its context is killed
(R191, R245, R248; log 18). -/
def State.putBack (s : State) (w : WriteBack) : State × WriteBack :=
  let dead := decide ((s.ctx w.ctx).st = .killing) || decide ((s.ctx w.ctx).st = .killed)
  match s.vcheck w.ctx w.at_ 16 true true with
  | .none => (s.vput w.ctx w.at_ w.bytes true, { w with wrote := true })
  | .readOnly => (s, { w with wrote := true })
  | .fault cause addr =>
    if dead then (s, { w with wrote := true })
    else
      let r := s.raiseFault w.ctx addr cause true .wb w.q 0xFFFF 0xFFFF
      (r.1, match r.2 with
        | .aborted => { w with wrote := true }
        | .held fid => { w with fid := some fid }
        | .noId => w)
  | st => if dead then (s, { w with wrote := true }) else (s.askFor w.ctx st, w)

/-- The descriptor write-back of an arming that has ended; its ENDREF and its SCANs follow the acknowledgement (R191, R193). -/
def State.writeBack (s : State) (n : Nat) (st : Stream) (a : Arming) (code tail : Nat) (scans : List (Nat × Nat)) (silt : Nat) : State :=
  let late := (s.queue a.q).lateErr
  let bs := leBytes 16 (put 0 8 (statusByte late code) + put 8 8 a.gen + put 32 32 a.poisoned + put 64 64 tail)
  let r := s.putBack { stream := n, ctx := st.ctx, q := a.q, endref := a.endref, code := code, scans := scans, silt := silt, at_ := a.at_ + 48, bytes := bs }
  let x := r.1.se st.slot.unit
  r.1.setSe st.slot.unit { x with wbs := x.wbs ++ [r.2] }

/-- Write-backs of an SE that have not been made, and wait at no pending fault, are tried again (R242, R245, R248). -/
def State.retryBacks (s : State) (u : Nat) : State :=
  let r := (s.se u).wbs.foldl (fun (acc : State × List WriteBack) w =>
    if w.wrote || w.fid.isSome then (acc.1, acc.2 ++ [w])
    else
      let p := acc.1.putBack w
      (p.1, acc.2 ++ [p.2])) (s, [])
  r.1.setSe u { r.1.se u with wbs := r.2 }

/-- The write-backs that wait at a fault go on: they are tried again, or given up (R248). -/
def State.backsResolved (s : State) (fid : Nat) (abort : Bool) : State :=
  { s with core.ses := s.core.ses.map (fun (x : Nat × Se) => (x.1, { x.2 with
    wbs := x.2.wbs.map (fun w => if w.fid = some fid then { w with fid := none, wrote := abort } else w) })) }

/-- Status OK, or POISONED, of an arming that a re-arm ends (R207). -/
def Arming.endOk (a : Arming) : Nat := if a.poisoned = 0 then 0 else 1

/-- Apply the entry signals of an arming up to the first k that has not landed (R193). -/
def State.applySigs (s : State) (c low : Nat) (a : Arming) : State × Arming :=
  let due := a.sigs.filter (fun b => b ≤ low)
  let new := due.filter (fun b => b > a.sigDone)
  (new.foldl (fun s _ => s.signal a.sigref c a.q false) s,
   { a with sigs := a.sigs.filter (fun b => b > low), sigDone := max a.sigDone (due.foldl max 0) })

/-- The lowest k of a generation that has not landed. -/
def Se.lowK (x : Se) (n gen next : Nat) : Nat :=
  (x.fetchesOf n (fun f => f.gen = gen)).foldl (fun m f => match f.tag with | some g => min m g.k | none => m) next

/-- Earlier generations of a stream that have a place no feeder has finished reading. -/
def State.unread (s : State) (n : Nat) (l : List Arming) : List Arming :=
  l.filter (fun a => s.core.opes.any (fun o => o.2.obuf.any (fun t => !t.2.leaving && (match t.2.by_ with
    | some g => decide (g.stream = n) && decide (g.gen = a.gen)
    | none => false))))

/-- The arming of a generation. -/
def Stream.arming (st : Stream) (g : Nat) : Arming :=
  if st.cur.gen = g then st.cur else ((st.old.toList ++ st.past.reverse).find? (fun a => a.gen = g)).getD {}

/-- A cancelled stream whose last transfer has landed: every generation of it is written back, and SCAN reports the silt of all (R206, R207, R248). -/
def State.endCancel (s : State) (n : Nat) (st : Stream) : State :=
  let u := st.slot.unit
  let s := match st.old with
    | some o => s.writeBack n st o st.endCode o.silt [] 0
    | none => s
  let s := match st.next with
    | some a => if st.nextOff then s.writeBack n st a 5 0 [] 0 else s
    | none => s
  let s := s.writeBack n st st.cur st.endCode st.cur.silt st.scans (st.cur.silt + (match st.old with | some o => o.silt | none => 0))
  let s := if st.endCode = 3 then s.bump (seBase u + 0x160) 1 else s
  let s := s.raise (seInt u) 2
  let ended : Stream := { st with st := 6, old := none, next := none, nextOff := false, scans := [], endCode := 5, illegal := none }
  s.setStream n (match st.next with
    | some a => if st.nextOff then ended else { ended with st := 1, cur := a, order := st.nextOrder, entry := 0, tu := 0, ent := none }
    | none => ended)

/-- A stream whose every entry has landed (R208). -/
def State.endDone (s : State) (n : Nat) (st : Stream) : State :=
  let a := st.cur
  let u := st.slot.unit
  if a.ended then s.setStream n { st with st := 4 } else
  let late := a.rt && decide (a.deadline ≠ 0) && decide (s.nowAt (u / 8) > a.deadline)
  let lateErr := (s.queue a.q).lateErr
  let outs : Map Nat := (if a.poisoned = 0 then [] else [(1, 0)]) ++ (if late then [(3, 0)] else [])
  let tail := if a.silt ≠ 0 then a.silt else if late then s.nowAt (u / 8) - a.deadline else 0
  let s := if late then (s.raise (seInt u) 1).bump (seBase u + 0x160) 1 else s
  (s.writeBack n st a (statusOf lateErr outs).1 tail [] 0).setStream n { st with st := 4, cur := { a with ended := true } }

/-- What follows a landing, a discard or a change of a stream's state: entry signals, the end of RETIRING, DONE, CANCELLED
(R190, R193, R206, R207). The detail of an invalid entry stands in SILT's place (log 19). -/
def State.settleStream (s : State) (n : Nat) : State :=
  let st := s.stream n
  let x := s.se st.slot.unit
  if st.st = 5 then
    if (x.fetchesOf n (fun _ => true)).isEmpty then s.endCancel n st else s
  else
    let on := if st.st = 7 && st.redo.isEmpty && (x.fetchesOf n (fun f => f.gen ≠ st.cur.gen)).isEmpty then 2 else st.st
    let r := match st.old with
      | none => (s, { st with st := on })
      | some o =>
        let redo : List TuTag := st.redo.filter (fun t => t.gen = o.gen)
        let p := s.applySigs st.ctx (redo.foldl (fun m (t : TuTag) => min m t.k) (x.lowK n o.gen o.k)) o
        if (x.fetchesOf n (fun f => f.gen = o.gen)).isEmpty && redo.isEmpty then
          (p.1.writeBack n st p.2 p.2.endOk p.2.silt [] 0, { st with old := none, past := s.unread n (st.past ++ [p.2]), st := on })
        else (p.1, { st with old := some p.2 })
    let s := r.1
    let st := r.2
    let p := s.applySigs st.ctx (x.lowK n st.cur.gen st.cur.k) st.cur
    let s := p.1
    let st := { st with cur := p.2 }
    let s := s.setStream n st
    let idle := (x.fetchesOf n (fun _ => true)).isEmpty && decide (st.st = 2)
    match st.illegal with
    | some d => if idle then (s.writeBack n st st.cur 0xC d [] 0).setStream n { st with st := 4, illegal := none } else s
    | none => if idle && decide (st.entry ≥ st.cur.nent) then s.endDone n st else s

/-- Release the places that an arming of a stream has landed and no feeder has begun to read; the TUs of each count as silt (R206). -/
def State.releasePlaces (s : State) (n gen : Nat) : State × Nat :=
  s.core.opes.foldl (fun acc e =>
    let mine (t : ObufTile) : Bool := (match t.by_ with | some g => decide (g.stream = n) && decide (g.gen = gen) | none => false) && !t.begun
    let l := e.2.obuf.filter (fun t => mine t.2)
    if l.isEmpty then acc
    else
      let o := acc.1.ope e.1
      (acc.1.setOpe e.1 { o with obuf := o.obuf.filter (fun t => !mine t.2) },
        acc.2 + sumNat (l.map (fun t => tuBytes * t.2.tus.length)))) (s, 0)

/-- Cancel every generation of a stream with an end status; a SCAN may wait for it (R206). -/
def State.cancelStream (s : State) (n code : Nat) (scan : Option (Nat × Nat)) : State :=
  let st := s.stream n
  if st.st = 5 then s.setStream n { st with scans := st.scans ++ scan.toList, nextOff := st.next.isSome }
  else
    let u := st.slot.unit
    let r := s.releasePlaces n st.cur.gen
    let r' := match st.old with | some o => r.1.releasePlaces n o.gen | none => (r.1, 0)
    let s := (r'.1.silt u (r.2 + r'.2)).bump (seBase u + 0x150) 1
    let x := s.se u
    let s := s.setSe u { x with tracker := x.tracker.map (fun t => match t.2.tag with
      | some g => if g.stream = n then (t.1, { t.2 with silt := true }) else t
      | none => t) }
    let s := s.setStream n { st with st := 5, endCode := code, scans := st.scans ++ scan.toList, fid := none, illegal := none, redo := [],
                                     cur := { st.cur with silt := st.cur.silt + r.2, sigs := [] },
                                     old := st.old.map (fun o => { o with silt := o.silt + r'.2, sigs := [] }) }
    s.settleStream n

/-- A stream's own access meets a stop: a fault, or a read-only flash tier, which ends it with QUOTA_EXCEEDED (R227, R245, R246, R248). -/
def State.streamStop (s : State) (n : Nat) (write : Bool) (st : Stop) : State :=
  let x := s.stream n
  match st with
  | .readOnly => s.cancelStream n 0xE none
  | .fault cause addr =>
    if x.fid.isSome then s
    else
    let r := s.raiseFault x.ctx addr cause write (.stream n) x.cur.q (slotCode x.slot) 0xFFFF
    match r.2 with
    | .aborted => r.1.cancelStream n 7 none
    | .held fid => r.1.setStream n { r.1.stream n with fid := some fid }
    | .noId => r.1
  | st => s.askFor x.ctx st

/-! SARM and SCAN (R186, R206, R207) -/

def Entry.stream (e : Entry) : Nat := e.eff 0 16 18
def Entry.descAt (e : Entry) : Nat := e.eff 1 24 56

/-- First and last-plus-one stream contexts of a context (R235). -/
def Ctx.streams (c : Ctx) : Nat × Nat := (bits c.entry 192 18, bits c.entry 192 18 + bits c.entry 224 19)

/-- Is a stream held by another binding slot (R189)? -/
def State.heldElsewhere (s : State) (n : Nat) (r : SlotRef) : Bool :=
  [1, 2, 5, 7].contains (s.stream n).st && decide (slotKey (s.stream n).slot ≠ slotKey r)

/-- The checks of SARM and SCAN on their stream. -/
def State.streamIdBad (s : State) (r : SlotRef) (e : Entry) : List Bad :=
  let g := (s.ctx e.ctx).streams
  let out := !(decide (g.1 ≤ e.stream) && decide (e.stream < g.2))
  check out (16, 0xF) ++ check (!out && s.heldElsewhere e.stream r) (16, 0xA)

def sarmBad (s : State) (r : SlotRef) (e : Entry) : List Bad := s.streamIdBad r e ++ alignBad 24 e.descAt 64

/-- The next generation (R207). -/
def nextGen (g : Nat) : Nat := if g ≥ 255 then 1 else g + 1

/-- The descriptor's OBUF destination names an absent engine (R137). -/
def State.destAbsent (s : State) (w : Nat) : Option Nat :=
  if destKind w = 3 then match s.engineOf (bits w 0 16) with | .ok _ => none | .error d => some d else none

/-- A stream is armed anew, last in the order of arming (R189). -/
def State.armFresh (s : State) (n : Nat) (st : Stream) : State :=
  { s with core.armNext := s.core.armNext + 1 }.setStream n { st with order := s.core.armNext }

/-- Arm a stream with a descriptor by the state it is in. An arming of which transfers are outstanding goes on as the old generation; any other is
written back at once, with what it has landed (R207). -/
def State.arm (s : State) (r : SlotRef) (e : Entry) (d : Nat) : State × Nat :=
  let n := e.stream
  let st := s.stream n
  let g := nextGen st.gen
  let a : Arming := { gen := g, at_ := e.descAt, desc := d, q := e.q, darm := (s.queue e.q).dep }
  let busy := !((s.se r.unit).fetchesOf n (fun _ => true)).isEmpty
  let mine := !((s.se r.unit).fetchesOf n (fun f => f.gen = st.cur.gen)).isEmpty
  let s := if busy && [1, 2, 5, 7].contains st.st then s.bump (seBase r.unit + 0x148) 1 else s
  let fresh : Stream := { st with cur := a, entry := 0, tu := 0, ent := none, illegal := none, fid := none, gen := g }
  let s := match st.st with
    | 5 =>
      let s := match st.next with
        | some b => s.writeBack n st b (if st.nextOff then 5 else 0) 0 [] 0
        | none => s
      let keep := st.next.isSome && !st.nextOff
      let s := if keep then s else { s with core.armNext := s.core.armNext + 1 }
      s.setStream n { st with next := some a, nextOff := false, nextOrder := if keep then st.nextOrder else s.core.armNext - 1, gen := g }
    | 0 => (s.take 0xB 0 1).armFresh n { st := 1, ctx := e.ctx, slot := r, cur := a, gen := g }
    | 4 => s.armFresh n { st := 1, ctx := e.ctx, slot := r, cur := a, past := s.unread n (st.past ++ [st.cur]), gen := g }
    | 6 => s.armFresh n { st := 1, ctx := e.ctx, slot := r, cur := a, gen := g }
    | _ =>
      if mine then s.setStream n { fresh with st := if st.st = 1 then 1 else 7, old := some st.cur }
      else (if st.cur.ended then s else s.writeBack n st st.cur st.cur.endOk st.cur.silt [] 0).setStream n
        { fresh with past := s.unread n (st.past ++ [st.cur]) }
  (s, g)

/-- Read a descriptor for a slot instruction; a stop is handled, and the head waits. -/
def State.readDesc (s : State) (r : SlotRef) (e : Entry) (f : Nat → State → State) : State :=
  match s.vcheck e.ctx e.descAt 48 false true with
  | .none => f (s.vnat e.ctx e.descAt 48 true) (s.vtouch e.ctx e.descAt 48 false true)
  | st =>
    let t := s.instStop e (slotCode r) false st
    match (t.queue e.q).inst e.seq with
    | some i => if i.done then t.popHead r else t
    | none => t

/-- Is the head instruction of a slot stopped at a pending fault? -/
def State.headHeld (s : State) (r : SlotRef) : Bool :=
  match s.head r with
  | none => false
  | some e => match (s.queue e.q).inst e.seq with
    | some i => i.fid.isSome
    | none => false

/-- SARM (R186, R189, R191, R207). -/
def execSarm (r : SlotRef) (s : State) : Out :=
  liftCore (whenDispatching (fun s => if s.seIssuing r || s.headHeld r then s else s.atHead r 0x30 (sarmBad s r) (fun e s =>
    s.readDesc r e (fun d s =>
      match firstBad (s.streamBad e.ctx d) with
      | some b => (s.popHead r).finishWith e.q e.seq 0xC (badDetail b)
      | none => match s.destAbsent (bits d 192 64) with
        | some x => (s.popHead r).finishWith e.q e.seq 6 x
        | none =>
          let p := s.arm r e d
          ((p.1.popHead r).updInst e.q e.seq (fun i => { i with gen := p.2, effect := true })).finish e.q e.seq)))) s

/-- SCAN stays at the head until the stream is CANCELLED, unless NOWAIT (R186, R195, R206). -/
def State.scan (s : State) (r : SlotRef) (e : Entry) : State :=
  let n := e.stream
  let st := s.stream n
  let me := (e.q, e.seq)
  if [0, 4, 6].contains st.st then
    if (s.se r.unit).wbs.any (fun w => w.scans.contains me) then s
    else (s.popHead r).finishWith e.q e.seq 5 0
  else if e.mod 0 then ((s.popHead r).cancelStream n 5 none).finishWith e.q e.seq 5 0
  else if st.scans.contains me then s
  else s.cancelStream n 5 (some me)

/-- SCAN (R206). -/
def execScan (r : SlotRef) (s : State) : Out :=
  liftCore (whenDispatching (fun s => if s.seIssuing r then s
    else s.atHead r 0x31 (fun e => s.streamIdBad r e) (fun e s => s.scan r e))) s

/-- A stream becomes active with its descriptor read; RETIRING while transfers of the previous generation are outstanding (R189-R191, R207, R253). -/
def State.activate (s : State) (n : Nat) : State :=
  let st := s.stream n
  match s.vcheck st.ctx st.cur.at_ 48 false true with
  | .none =>
    let d := s.vnat st.ctx st.cur.at_ 48 true
    let s := s.vtouch st.ctx st.cur.at_ 48 false true
    let on := if st.old.isSome || !st.redo.isEmpty then 7 else 2
    match firstBad (s.streamBad st.ctx d) with
    | some b => (s.setStream n { st with st := on, illegal := some (badDetail b) }).settleStream n
    | none => (s.setStream n { st with st := on, cur := { st.cur with desc := d } }).settleStream n
  | x => s.streamStop n false x

/-- The queue bound at a slot, if its context is ACTIVE. -/
def State.slotQueue (s : State) (r : SlotRef) : Option Nat :=
  match mget s.core.qm.slots (slotKey r) with
  | some q => if (s.ctx (s.queue q).ctx).st = .active then some q else none
  | none => none

/-- A stream's DEADLINE as the orders of R189 and R199 take it: none comes last (R191). -/
def Arming.due (a : Arming) : Nat := if a.deadline = 0 then 2 ^ 64 else a.deadline

/-- Does stream a come before stream b in the order of R189? -/
def Stream.before (a b : Stream) : Bool :=
  if a.cur.rt ≠ b.cur.rt then a.cur.rt
  else if a.cur.rt then decide (a.cur.due < b.cur.due) || (decide (a.cur.due = b.cur.due) && decide (a.order < b.order))
  else decide (a.order < b.order)

/-- The first of a list of streams in an order. -/
def firstStream : List (Nat × Stream) → Option (Nat × Stream)
  | [] => none
  | e :: es => match firstStream es with
    | none => some e
    | some f => if f.2.before e.2 then some f else some e

/-- ARMED streams of an SE that may become active (R189). -/
def State.armedOf (s : State) (u : Nat) : List (Nat × Stream) :=
  s.core.streams.filter (fun e => decide (e.2.st = 1) && decide (e.2.slot.unit = u) && !e.2.parked && e.2.fid.isNone
    && (s.slotQueue e.2.slot).isSome)

/-- STREAM_ACTIVATE: the first ARMED stream of an SE with fewer than 512 active ones (R189). -/
def execStreamActivate (se : Nat) (s : State) : Out :=
  liftCore (whenDispatching (fun s =>
    let act := (s.core.streams.filter (fun e => [2, 5, 7].contains e.2.st && decide (e.2.slot.unit = se))).length
    if act ≥ 512 then s
    else match firstStream (s.armedOf se) with
      | some e => s.activate e.1
      | none => s)) s

/-- STREAM_WRITEBACK_ACK: of a write that has been made; ENDREF is applied, and the SCANs complete (R193, R206). -/
def execStreamWritebackAck (se k : Nat) (s : State) : Out :=
  liftCore (whenLive (fun s =>
    let x := s.se se
    match x.wbs[k]? with
    | none => s
    | some w =>
      if !w.wrote then s
      else
      let s := (s.setSe se { x with wbs := x.wbs.eraseIdx k }).invPass (fun i => { i with backs := i.backs.erase (se, w.at_) })
      let s := s.signal w.endref w.ctx w.q (isError (s.queue w.q).lateErr w.code)
      w.scans.foldl (fun s p =>
        let s := match (s.queue p.1).slot with
          | some r => match s.head r with
            | some e => if e.q = p.1 && e.seq = p.2 then s.popHead r else s
            | none => s
          | none => s
        s.finishWith p.1 p.2 5 w.silt) s)) s

/-- STREAM_DEADLINE: a stream with RT and ABORT that is not DONE at its DEADLINE (R39, R210). -/
def State.streamDeadline (s : State) (n : Nat) : State :=
  whenLive (fun s =>
    let st := s.stream n
    let a := st.cur
    if a.rt && a.abort && decide (a.deadline ≠ 0) && decide (s.nowAt (st.slot.unit / 8) ≥ a.deadline) && !a.ended && [1, 2, 7].contains st.st then
      (s.scheduled).cancelStream n 3 none
    else s) s

/-- STREAM_DEADLINE. -/
def execStreamDeadline (n : Nat) (s : State) : Out := liftCore (fun s => s.streamDeadline n) s

end Sys2Proof.Machine
end

