-- ==== Sys2Proof/Machine/Optim.lean ====
section
/-! DEFINITION. UPD: the optimiser on the near-memory units (11_training_passes R276-R281). -/
namespace Sys2Proof.Machine

def nmuInt (k : Nat) : Nat := nmuBase k + 0x80

def Entry.opt (e : Entry) : Nat := e.f 16 1
def Entry.updEpoch (e : Entry) : Nat := e.f 17 1
def Entry.updBlks (e : Entry) : Nat := e.f 20 4
def Entry.paddr (e : Entry) : Nat := e.eff 0 24 56
def Entry.gaddr (e : Entry) : Nat := e.eff 1 32 56
def Entry.orec (e : Entry) : Nat := e.f 40 7
def Entry.step (e : Entry) : Nat := e.eff 2 48 32

/-- The checks of UPD (R186, R278, R334). -/
def State.updBad (s : State) (e : Entry) : List Bad :=
  check (e.opt > 3) (16, 8) ++ check (e.updEpoch ≠ s.epochOf e.ctx) (17, 8)
  ++ alignBad 24 e.paddr 64 ++ alignBad 32 e.gaddr 64 ++ alignBad 40 e.orec 64

/-! The optimiser record (R277) -/

def recF (d off n : Nat) : Nat := bits d (8 * off) (8 * n)
def recSr (d : Nat) : Bool := d.testBit 0
def recGfmt (d : Nat) : Nat := recF d 1 1
def recGsh (d : Nat) : Int := sext 8 (recF d 2 1)
/-- A fraction of 16 bits. -/
def recBeta (d off : Nat) : Dy := ⟨(recF d off 2 : Nat), -16⟩
/-- An unsigned mantissa with a signed exponent. -/
def recDy (d off : Nat) : Dy := ⟨(recF d off 2 : Nat), sext 16 (recF d (off + 2) 2)⟩
def recM (d : Nat) : Nat := recF d 32 7
def recV (d : Nat) : Nat := recF d 40 7
def recMask (d : Nat) : Nat := recF d 48 7
def recSeed (d : Nat) : Nat := recF d 56 8

/-- The checks of a record for an optimiser code, measured within it (R277). -/
def recBad (opt d : Nat) : List Bad :=
  check (bits d 1 7 ≠ 0) (0, 3) ++ check (bits (recGfmt d) 5 3 ≠ 0) (1, 3) ++ check (recGfmt d ≠ 5 && recGfmt d ≠ 6) (1, 7) ++ rsvdBytes d 3 1 ++ rsvdBytes d 6 2 ++ rsvdBytes d 10 2
  ++ rsvdBytes d 39 1 ++ rsvdBytes d 47 1 ++ rsvdBytes d 55 1
  ++ check (opt = 0 && recM d ≠ 0) (32, 8) ++ check (opt ≠ 2 && recV d ≠ 0) (40, 8)
  ++ check (opt ≠ 0 && recM d % 64 ≠ 0) (32, 0x11) ++ check (opt = 2 && recV d % 64 ≠ 0) (40, 0x11)

/-! Arithmetic (R278) -/

/-- rsqrt of an exact value: RSQRT of R121 on f, where d = f x 4^k with f in [1, 4); 0 gives 0; a negative value's is free (log 6). -/
def rsqrt (d : Dy) : Dy :=
  if d.m = 0 then ⟨0, 0⟩
  else if d.m < 0 then let r := Config.rsqrtNeg d.m d.e; ⟨r.1, r.2⟩
  else
    let k : Int := ((bitLen d.m.natAbs : Int) - 1 + d.e) / 2
    (romLut 3 (d.scale (-(2 * k)))).1.scale (-k)

/-- Sign as an exact value. -/
def Dy.sgn (a : Dy) : Dy := ⟨a.m.sign, 0⟩

/-- One element: the new parameter and moments, exact (R278). -/
def updElement (opt : Nat) (d : Nat) (p m v g : Dy) : Dy × Dy × Dy :=
  let one : Dy := ⟨1, 0⟩
  let b1 := recBeta d 4
  let b2 := recBeta d 8
  let lr := recDy d 12
  let wd := recDy d 16
  let eps := recDy d 20
  let decay := Dy.mul wd p
  let go (u : Dy) : Dy := Dy.sub p (Dy.mul lr (Dy.add u decay))
  match opt with
  | 0 => (go g, m, v)
  | 1 =>
    let m' := Dy.add (Dy.mul b1 m) g
    (go m', m', v)
  | 2 =>
    let m' := Dy.add (Dy.mul b1 m) (Dy.mul (Dy.sub one b1) g)
    let v' := Dy.add (Dy.mul b2 v) (Dy.mul (Dy.sub one b2) (Dy.mul g g))
    let x := Dy.add (Dy.mul (recDy d 28) v') (Dy.mul eps eps)
    (go (Dy.mul (Dy.mul (recDy d 24) m') (rsqrt x)), m', v')
  | _ =>
    let u := (Dy.add (Dy.mul b1 m) (Dy.mul (Dy.sub one b1) g)).sgn
    (go u, Dy.add (Dy.mul b2 m) (Dy.mul (Dy.sub one b2) g), v)

/-- Addresses of block b: arrays with their formats, and whether they are written. -/
def updArrays (e : Entry) (d : Nat) : List (Nat × Nat × Bool) :=
  [(e.paddr, 5, true), (e.gaddr, recGfmt d, false)] ++ (if e.opt = 0 then [] else [(recM d, 5, true)])
    ++ (if e.opt = 2 then [(recV d, 5, true)] else [])

/-- Stack that holds an address, if it lies on one. -/
def State.stackOf (s : State) (c a : Nat) : Option Nat :=
  match s.xlate c a false false with
  | .ok (.hbm x) => some (x / 2 ^ 37)
  | .ok (.pool1 _ k) => some k
  | .ok (.pool2 _ k) => some k
  | _ => none

/-- Is block b masked out (R280)? -/
def State.updMasked (s : State) (e : Entry) (d b : Nat) : Bool :=
  recMask d ≠ 0 && !(((s.vget e.ctx (recMask d + b / 8) 1 false).1.getD 0 0).toNat.testBit (b % 8))

/-- The first stop that block b meets: its mask byte, then its arrays (R246). -/
def State.updStop (s : State) (e : Entry) (d b : Nat) : Stop × Bool :=
  let n := e.updBlks
  let m := if recMask d = 0 then Stop.none else s.vcheck e.ctx (recMask d + b / 8) 1 false false
  if m ≠ .none then (m, false)
  else if s.updMasked e d b then (.none, false)
  else (updArrays e d).foldl (fun st a => match st.1 with
    | .none =>
      match s.piecesStop e.ctx (blkPieces a.1 a.2.1 n b) false false with
      | .none => if a.2.2 then (s.piecesStop e.ctx (blkPieces a.1 a.2.1 n b) true false, true) else (.none, false)
      | x => (x, false)
    | _ => st) (.none, false)

/-- Update block b whole (R276, R278-R281). -/
def State.updBlock (s : State) (e : Entry) (d b : Nat) : State × Bool :=
  let n := e.updBlks
  let k := (s.stackOf e.ctx (e.paddr + 64 * b)).getD 0
  let s := if recMask d = 0 then s else s.vtouch e.ctx (recMask d + b / 8) 1 false false
  if s.updMasked e d b then (s.bump (nmuBase k + 0x108) 1, false)
  else
    let rd (a code : Nat) : Blk := s.readBlk e.ctx a code n b false
    let p := rd e.paddr 5
    let g := rd e.gaddr (recGfmt d)
    let m := if e.opt = 0 then {} else rd (recM d) 5
    let v := if e.opt = 2 then rd (recV d) 5 else {}
    let s := (updArrays e d).foldl (fun s a => s.touchBlk e.ctx a.1 a.2.1 n b false) s
    let far := sumNat ((updArrays e d).flatMap (fun a => (blkPieces a.1 a.2.1 n b).map (fun x =>
      match s.stackOf e.ctx x.1 with | some j => if j = k then 0 else x.2 | none => 0)))
    let s := if far = 0 then s else s.bump (nmuBase k + 0x128) far
    if p.poison || g.poison || m.poison || v.poison then ((s.bump (nmuBase k + 0x110) 1).raise (nmuInt k) 0, true)
    else
      let r := (List.range 32).map (fun i => updElement e.opt d (p.val i) (m.val i) (v.val i) ((g.val i).scale (recGsh d)))
      let seed := rngSeed ((recSeed d ^^^ (e.step * 2 ^ 32) ^^^ b) % 2 ^ 64)
      let outs := [(e.paddr, r.map (·.1))] ++ (if e.opt = 0 then [] else [(recM d, r.map (·.2.1))])
        ++ (if e.opt = 2 then [(recV d, r.map (·.2.2))] else [])
      let dr := if recSr d then (rngDraws seed (32 * outs.length)).1 else []
      let s := outs.zipIdx.foldl (fun s o =>
        s.writeBlk e.ctx o.1.1 5 n b (quantise 5 false (recSr d) 0 0 o.1.2 (fun i => dr.getD (32 * o.2 + i) 0) false) false) s
      let s := if recSr d then s.bump (nmuBase k + 0x130) (32 * outs.length) else s
      (s.bump (nmuBase k + 0x100) 1, false)

/-- Blocks from one on, until a stop: the state, the next block, the blocks left unchanged and the stop. -/
def State.updBlocks (s : State) (e : Entry) (d : Nat) : Nat → Nat → Nat → State × Nat × Nat × Stop × Bool
  | 0, b, bad => (s, b, bad, .none, false)
  | fuel + 1, b, bad =>
    let st := s.updStop e d b
    if st.1 ≠ .none then (s, b, bad, st.1, st.2)
    else
      let r := s.updBlock e d b
      r.1.updBlocks e d fuel (b + 1) (bad + b2n r.2)

/-- A stopped instruction that its stop has ended leaves the share. -/
def State.leaveEnded (s : State) (r : SlotRef) (e : Entry) : State :=
  match (s.queue e.q).inst e.seq with
  | some i => if i.done then s.popHead r else s
  | none => s

/-- The next block of an UPD with its record read, and its end behind the last: between two blocks a PREEMPT finds it stopped (R249, R276). -/
def State.stepUpd (s : State) (r : SlotRef) (at_ : UpdRun) (d : Nat) : State :=
  let e := at_.e
  let g := s.updBlocks e d (min 1 (e.updBlks - at_.b)) at_.b at_.bad
  let s := g.1
  let x := s.se r.unit
  let rest := x.upds.filter (fun u => u.e ≠ e)
  let n := sumNat ((updArrays e d).map (fun a => arrayBytes a.2.1 (32 * (g.2.1 - at_.b)) * (if a.2.2 then 2 else 1)))
  let s := if g.2.1 = 0 then s else ((s.effect e.q e.seq).moved e.q e.seq n).worked r (g.2.1 - at_.b)
  if g.2.2.2.1 = .none && decide (g.2.1 ≥ e.updBlks) then
    (((s.setSe r.unit { x with upds := rest }).popHead r).noteCount e 1 g.2.2.1).finish e.q e.seq
  else
    let s := s.setSe r.unit { x with upds := rest ++ [⟨e, g.2.1, g.2.2.1, some d⟩] }
    if g.2.2.2.1 = .none then s else (s.instStop e (slotCode r) g.2.2.2.2 g.2.2.2.1).leaveEnded r e

/-- UPD at the head: the record is read once and checked, then the next block is updated (R276, R277). -/
def State.runUpd (s : State) (r : SlotRef) (e : Entry) : State :=
  let at_ := ((s.se r.unit).upds.find? (fun u => u.e = e)).getD { e := e }
  match at_.record with
  | some d => s.stepUpd r at_ d
  | none => match s.vcheck e.ctx e.orec 64 false false with
    | .none =>
      let d := s.vnat e.ctx e.orec 64 false
      let s := s.vtouch e.ctx e.orec 64 false false
      match firstBad (recBad e.opt d) with
      | some b => (s.popHead r).finishWith e.q e.seq 0xC (badDetail b)
      | none => s.stepUpd r at_ d
    | st => (s.instStop e (slotCode r) false st).leaveEnded r e

/-- UPD: one command is one parameter block (R276). -/
def execUpd (r : SlotRef) (s : State) : Out :=
  liftCore (whenDispatching (fun s => if s.seIssuing r || s.headHeld r then s
    else s.atHead r 0x40 (fun e => if (s.se r.unit).upds.any (fun u => u.e = e) then [] else s.updBad e) (fun e s => s.runUpd r e))) s

end Sys2Proof.Machine
end

