-- ==== Sys2Proof/Machine/Sediment.lean ====
section
/-! DEFINITION. The sediment stack: its registers, PUSH and POP (11_training_passes R267-R273, R284). -/
namespace Sys2Proof.Machine

def sedInt : Nat := sedBase + 0x80
def fldSedSel : Fld := ⟨sedBase, 0, 12, 0⟩

/-- The stack of a context. -/
def State.sed (s : State) (c : Nat) : Sed := mgetD s.core.seds c {}
def State.setSed (s : State) (c : Nat) (x : Sed) : State := { s with core.seds := mput s.core.seds c x }
def Sed.mb (x : Sed) (m : Nat) : SedMb := mgetD x.mbs m {}

/-- Every place that a micro-batch holds, coded as in SedEntry. -/
def SedMb.held (m : SedMb) : List Nat := m.entries.flatMap (·.places) ++ m.claimed
/-- Places of a stack in use in the region (0) or the spill region (1). -/
def Sed.used (x : Sed) (part : Nat) : List Nat :=
  ((x.mbs.flatMap (fun m => m.2.held)).filter (fun p => p % 2 = part)).map (· / 2)
/-- TUs reserved by micro-batches. -/
def Sed.reserved (x : Sed) : Nat := sumNat (x.mbs.map (fun m => m.2.resv))
/-- Reserved TUs of a micro-batch that hold no data. -/
def SedMb.free (m : SedMb) : Nat := m.resv - (m.held.filter (fun p => p % 2 = 0)).length

/-- The first n free numbers below a bound; which free place a TU takes is the model's choice (log 12). -/
def freePlaces (bound : Nat) (used : List Nat) (n : Nat) : List Nat := ((List.range bound).filter (fun i => !used.contains i)).take n

/-- Address of a place (R267, R284). -/
def Sed.addr (x : Sed) (p : Nat) : Nat := (if p % 2 = 0 then x.base else x.spbase) + tuBytes * (p / 2)

/-- SED_CONFIG_WRITE: discarded while the context has entries or a reservation (R284). -/
def State.sedConfig (s : State) (off val : Nat) : State :=
  let c := s.reg fldSedSel
  let x := s.sed c
  if x.mbs.any (fun m => !m.2.entries.isEmpty || m.2.resv ≠ 0) then s.raise sedInt 0
  else match off with
    | 0x08 => s.setSed c { x with base := bits val 14 42 * tuBytes }
    | 0x10 => s.setSed c { x with size := bits val 0 32 }
    | 0x18 => s.setSed c { x with spbase := bits val 14 42 * tuBytes }
    | 0x20 => s.setSed c { x with spsize := bits val 0 32 }
    | _ => s

/-- SED_CONFIG_WRITE: BASE 0x08, SIZE 0x10, SPBASE 0x18 or SPSIZE 0x20 of the context in SED_SEL (R284). -/
def execSedConfigWrite (off val : Nat) (s : State) : Out := liftCore (whenDispatching (fun s => s.sedConfig off val)) s

def Entry.mb (e : Entry) : Nat := e.f 16 2
def Entry.layer (e : Entry) : Nat := e.eff 0 18 16
def Entry.count24 (e : Entry) : Nat := e.f 20 3

/-- A PUSH that overflows (R269, R271, R272). -/
def State.overflow (s : State) (r : SlotRef) (e : Entry) (code short : Nat) : State :=
  (((s.popHead r).raise sedInt 2).bump (sedBase + 0x128) 1).finishWith e.q e.seq 0xD (put 0 8 code + put 16 16 e.mb + put 32 32 short)

/-- Entries of a micro-batch to spill, oldest first, until `need` TUs are freed; none where they all free too little (R271). -/
def toSpill : Nat → List SedEntry → Option (List SedEntry)
  | 0, _ => some []
  | _, [] => none
  | need, x :: xs =>
    let n := (x.places.filter (fun p => p % 2 = 0)).length
    (toSpill (need - n) xs).map (x :: ·)
  termination_by structural _ l => l

/-- Put a PUSH's places on its entry: appended to the top entry of the layer, or a new top entry (R268). -/
def SedMb.push (m : SedMb) (layer : Nat) (places : List Nat) : SedMb :=
  match m.entries with
  | x :: xs =>
    if x.layer = layer then { m with entries := { x with places := x.places ++ places, writing := x.writing + places.length } :: xs }
    else { m with entries := ⟨layer, places, places.length⟩ :: m.entries }
  | [] => { m with entries := [⟨layer, places, places.length⟩] }

/-- Places of entries moved to the spill region as pairs say (R271). -/
def SedEntry.moved (x : SedEntry) (mv : List (Nat × Nat)) : SedEntry :=
  let n := (x.places.filter (fun p => mv.any (fun m => m.1 = p))).length
  { x with places := x.places.map (fun p => match mv.find? (fun m => m.1 = p) with | some m => m.2 | none => p), writing := x.writing + n }

/-- PUSH: reservation, spill and places, then a job that moves the TUs (R268, R269, R271). -/
def State.beginPush (s : State) (r : SlotRef) (e : Entry) : State :=
  let x := s.sed e.ctx
  let m := x.mb e.mb
  let n := e.count24
  let first := m.entries.isEmpty && decide (m.resv = 0)
  let want := if first then max (e.f 32 3) n else m.resv
  let unres := x.size - x.reserved
  if first && (decide (unres < want) || decide (x.size = 0)) then s.overflow r e 1 (want - unres)
  else if n = 0 then
    (if first && decide (want ≠ 0) then s.setSed e.ctx { x with mbs := mput x.mbs e.mb { m with resv := want } } else s).popHead r |>.finish e.q e.seq
  else
    let m := { m with resv := want }
    let go (s : State) (x : Sed) (m : SedMb) (places : List Nat) (mv : List (Nat × Nat)) : State :=
      let s := (s.popHead r).setSed e.ctx { x with mbs := mput x.mbs e.mb (m.push e.layer places) }
      let y := s.se r.unit
      s.setSe r.unit { y with jobs := y.jobs ++ [{ e := e, total := n, places := places, moves := mv }] }
    if n ≤ m.free then go s x m ((freePlaces x.size (x.used 0) n).map (2 * ·)) []
    else if !(s.ctx e.ctx).flag 3 then s.overflow r e 2 (n - m.free)
    else match toSpill (n - m.free) m.entries.reverse with
      | none => s.overflow r e 3 (n - m.free)
      | some l =>
        if l.any (fun t => t.writing ≠ 0) then s
        else
          let src := (l.flatMap (·.places)).filter (fun p => p % 2 = 0)
          let free := freePlaces x.spsize (x.used 1) src.length
          if free.length < src.length then s.overflow r e 3 (src.length - free.length)
          else
            let mv := src.zip (free.map (fun p => 2 * p + 1))
            let m := { m with entries := m.entries.map (·.moved mv) }
            let x := { x with mbs := mput x.mbs e.mb m }
            let places := ((src.map (· / 2)) ++ freePlaces x.size (x.used 0 ++ src.map (· / 2)) n).take n
            go ((s.raise sedInt 1).bump (sedBase + 0x110) src.length) x m (places.map (2 * ·)) mv

/-- PUSH (R268). -/
def execPush (r : SlotRef) (s : State) : Out :=
  liftCore (whenDispatching (fun s => if s.seIssuing r then s
    else s.atHead r 0x34 (fun e => alignBad 24 (e.eff 1 24 56) tuBytes) (fun e s => s.beginPush r e))) s

/-- The checks of POP on the stack (R270). -/
def State.popStackBad (s : State) (e : Entry) : List Bad :=
  match ((s.sed e.ctx).mb e.mb).entries with
  | [] => [(16, 8)]
  | x :: _ => check (x.layer ≠ e.layer) (18, 8) ++ check (x.layer = e.layer && e.count24 > x.places.length) (20, 8)

/-- POP: its TUs leave the top entry, and a job moves them; it waits while the entry's PUSH or spill is being written (R270, R271). -/
def State.beginPop (s : State) (r : SlotRef) (e : Entry) : State :=
  let x := s.sed e.ctx
  let m := x.mb e.mb
  match m.entries with
  | [] => s
  | t :: ts =>
    if t.writing ≠ 0 then s
    else if e.count24 = 0 then (s.popHead r).finish e.q e.seq
    else
      let take := t.places.take e.count24
      let rest := t.places.drop e.count24
      let m := { m with entries := if rest.isEmpty then ts else { t with places := rest } :: ts, claimed := m.claimed ++ take }
      let s := (s.popHead r).setSed e.ctx { x with mbs := mput x.mbs e.mb m }
      let y := s.se r.unit
      s.setSe r.unit { y with jobs := y.jobs ++ [{ e := e, total := e.count24, places := take }] }

/-- POP (R270). -/
def execPop (r : SlotRef) (s : State) : Out :=
  liftCore (whenDispatching (fun s => if s.seIssuing r then s
    else s.atHead r 0x35 (fun e => e.destAlign 24 tuBytes ++ s.obufBad 24 e.dest ++ s.popStackBad e) (fun e s => s.beginPop r e))) s

/-- A place that a POP has read returns to the reservation, which ends with the last entry (R269, R270). -/
def State.unclaim (s : State) (e : Entry) (p : Nat) : State :=
  let x := s.sed e.ctx
  let m := x.mb e.mb
  let m := { m with claimed := m.claimed.erase p }
  s.setSed e.ctx { x with mbs := if m.entries.isEmpty && m.claimed.isEmpty then mdel x.mbs e.mb else mput x.mbs e.mb m }

/-- One TU of an entry's PUSH or spill has been written. -/
def State.sedWritten (s : State) (e : Entry) (place n : Nat) : State :=
  let x := s.sed e.ctx
  let m := x.mb e.mb
  let m := { m with entries := m.entries.map (fun t => if t.places.contains place then { t with writing := t.writing - n } else t) }
  s.setSed e.ctx { x with mbs := mput x.mbs e.mb m }

/-- Places leave their entries: what a PUSH was to write there is not written. -/
def State.sedDrop (s : State) (e : Entry) (gone : List Nat) : State :=
  let x := s.sed e.ctx
  let m := x.mb e.mb
  let es := m.entries.map (fun t =>
    let n := (t.places.filter (fun p => gone.contains p)).length
    { t with places := t.places.filter (fun p => !gone.contains p), writing := t.writing - n })
  let m := { m with entries := es.filter (fun t => !t.places.isEmpty) }
  s.setSed e.ctx { x with mbs := if m.entries.isEmpty && m.claimed.isEmpty then mdel x.mbs e.mb else mput x.mbs e.mb m }

/-- Spill moves that were not issued are undone. -/
def State.sedUndo (s : State) (e : Entry) (mv : List (Nat × Nat)) : State :=
  let x := s.sed e.ctx
  let m := x.mb e.mb
  let back (t : SedEntry) : SedEntry := { (t.moved (mv.map (fun p => (p.2, p.1)))) with
    writing := t.writing - (t.places.filter (fun p => mv.any (fun v => v.2 = p))).length }
  s.setSed e.ctx { x with mbs := mput x.mbs e.mb { m with entries := m.entries.map back } }

/-- A PUSH or POP that ends early: places not written leave the entry, spill moves not issued are undone, and TUs not read return to the
top (log 21). -/
def State.sedAbandon (s : State) (j : SeJob) : State :=
  if j.e.op = 0x34 then
    let rest := j.places.drop j.k
    let s := if rest.isEmpty then s else s.sedDrop j.e rest
    if j.moves.isEmpty then s else s.sedUndo j.e j.moves
  else if j.places.isEmpty then s
  else
    let x := s.sed j.e.ctx
    let m := x.mb j.e.mb
    let m := { m with claimed := m.claimed.filter (fun p => !j.places.contains p) }
    let m := match m.entries with
      | t :: ts => if t.layer = j.e.layer then { m with entries := { t with places := j.places ++ t.places } :: ts }
          else { m with entries := ⟨j.e.layer, j.places, 0⟩ :: m.entries }
      | [] => { m with entries := [⟨j.e.layer, j.places, 0⟩] }
    s.setSed j.e.ctx { x with mbs := mput x.mbs j.e.mb m }

end Sys2Proof.Machine
end

