-- ==== Sys2Proof/Machine/SeMove.lean ====
section
/-! DEFINITION. Fetches of the stream engines: TCOPY, PIN, UNPIN, the choice of a fetch, its limits, and its landing
(07_tile R186, 08_streams R195-R208, 09_memory R223-R225). -/
namespace Sys2Proof.Machine

/-- The place of a sediment stack that an address of a context is. -/
def Sed.placeOf (x : Sed) (a : Nat) (spill : Bool) : Nat := if spill then 2 * ((a - x.spbase) / tuBytes) + 1 else 2 * ((a - x.base) / tuBytes)

/-! Limits (R197, R198) -/

/-- Does an address lead to T1 or T2 (R198)? -/
def State.farTier (s : State) (c a : Nat) (write : Bool) : Bool :=
  match s.xlate c a write true with
  | .ok (.flash _) => true
  | .ok (.host _) => true
  | _ => false

/-- TUs in the tracker of an SE, and stream-buffer slots held (R197). -/
def Se.inflight (x : Se) : Nat := sumNat (x.tracker.map (fun t => t.2.tus.length))
def Se.sbuf (x : Se) : Nat := sumNat ((x.tracker.filter (·.2.staged)).map (fun t => t.2.tus.length))

/-- A limit of R197 that holds a fetch back is counted: WINDOW, tracker or buffer. -/
def State.winHold (s : State) (n : Nat) : State := s.bump (seBase n + 0x138) 1

/-! TCOPY (R186) -/

def vecDest (w : Nat) : Bool := destKind w = 2 || destKind w = 4

/-- The checks of TCOPY. A stride that is no multiple of 16 KiB fails with the reason of an address alignment: DESIGN CHOICE, log 99. -/
def State.tcopyBad (s : State) (e : Entry) : List Bad :=
  let w := e.dest
  let vec := vecDest w
  check (!vec && e.f 20 4 % tuBytes ≠ 0) (20, 0x11)
  ++ alignBad 24 (e.eff 1 24 56) (if vec then 64 else tuBytes)
  ++ check (destKind w = 0 && e.f 32 4 % tuBytes ≠ 0) (32, 0x11)
  ++ (if vec then check (!fmtOk (e.f 36 1) || e.f 36 1 % 16 > 6) (36, 7) ++ check (e.eff 0 16 24 % 32 ≠ 0) (16, 8)
      else check (e.f 36 1 ≠ 0) (36, 8))
  ++ e.destAlign 40 tuBytes ++ s.obufBad 40 w

/-- Do n bytes of a context fit the limits of a slot's fetches: its share, the tracker, and the stream buffer from T1 and T2 (R197, R198)? -/
def State.roomFor (s : State) (r : SlotRef) (q c a n : Nat) : Bool :=
  let x := s.se r.unit
  let k := ceilDiv n tuBytes
  let used := sumNat ((x.tracker.filter (fun t => t.2.tag.isNone && t.2.q = q)).map (fun t => t.2.tus.length))
  decide (used + k ≤ 32) && decide (x.inflight + k ≤ 256) && (!s.farTier c a false || decide (x.sbuf + k ≤ 64))

/-- A vector copied into MVU slots: read as a block array, written without padding, within the limits of a fetch (R113, R172, R197, R205). -/
def State.copyVector (s : State) (r : SlotRef) (e : Entry) : State :=
  let code := e.f 36 1 % 16
  let n := e.eff 0 16 24
  let a := e.eff 1 24 56
  if !s.roomFor r e.q e.ctx a (arrayBytes code n) then (s.winHold r.unit).heldBy e.q e.seq 1
  else
  match s.vcheck e.ctx a (arrayBytes code n) false true with
  | .none =>
    let g := s.vget e.ctx a (arrayBytes code n) true
    let s := (s.vtouch e.ctx a (arrayBytes code n) false true).popHead r
    let nb := n / 32
    let el := elemBytes code * nb
    let padE := if code = 4 then el else pad64 el
    let sc := scaleBytes code * nb
    let padS := if code = 4 then 0 else pad64 sc
    let bs := g.1.take el ++ (g.1.drop padE).take sc ++ (if code = 2 then (g.1.drop (padE + padS)).take (4 * nb) else [])
    let s := s.iff g.2 (fun s => ((s.bump (seBase r.unit + 0x120) 1).raise (seInt r.unit) 0).noteCount e 1 1)
    ((((s.effect e.q e.seq).worked r 1).moved e.q e.seq (arrayBytes code n + bs.length)).bump (seBase r.unit + 0x108) bs.length).vecWriteAll e.dest { fmt := code, n := n, bytes := bs, poison := g.2 } e
  | st =>
    let t := s.instStop e (slotCode r) false st
    match (t.queue e.q).inst e.seq with
    | some i => if i.done then t.popHead r else t
    | none => t

/-- TCOPY at the head of its slot: a vector is copied, otherwise a job moves the TUs (R186, R195). -/
def State.beginTcopy (s : State) (r : SlotRef) (e : Entry) : State :=
  let n := e.eff 0 16 24
  if vecDest e.dest then s.copyVector r e
  else if n = 0 then (s.popHead r).finish e.q e.seq
  else
    let s := s.popHead r
    let y := s.se r.unit
    s.setSe r.unit { y with jobs := y.jobs ++ [{ e := e, total := n }] }

/-- TCOPY (R186). -/
def execTcopy (r : SlotRef) (s : State) : Out :=
  liftCore (whenDispatching (fun s => if s.seIssuing r || s.headHeld r then s
    else s.atHead r 0x32 s.tcopyBad (fun e s => s.beginTcopy r e))) s

/-! PIN and UNPIN (R186, R223-R225) -/

def Entry.pinCount (e : Entry) : Nat := e.f 16 4
def Entry.pinVa (e : Entry) : Nat := e.eff 0 24 56

def pinBad (e : Entry) : List Bad := check (e.pinCount = 0) (16, 8) ++ alignBad 24 e.pinVa tuBytes

/-- Pooled granules of a range of TUs: key and stack of each. -/
def State.pinRange (s : State) (e : Entry) : List (Nat × Nat) :=
  (List.range e.pinCount).filterMap (fun i => match s.xlate e.ctx (e.pinVa + tuBytes * i) false true with
    | .ok l => poolKey l
    | _ => none)

/-- The first stop of the addresses of a range of TUs. -/
def State.pinStop (s : State) (e : Entry) : Stop :=
  (List.range e.pinCount).foldl (fun st i => match st with
    | .none => match s.xlate e.ctx (e.pinVa + tuBytes * i) false true with
      | .fault c => .fault c (e.pinVa + tuBytes * i)
      | .ats a => .ats a
      | .ok _ => .none
    | st => st) .none

/-- TUs that count against a context's pin quota (R224). -/
def State.pinned (s : State) (c : Nat) : Nat := mcount s.core.mem.pool (fun p => p.owner = c && p.pin ≠ 0)

/-- The first limit of R224 that pinning a range would break, as a detail word (R225). -/
def State.pinLimit (s : State) (e : Entry) (l : List (Nat × Nat)) : Option Nat :=
  let det (cls stack limit : Nat) : Nat := put 0 8 cls + put 8 8 stack + put 32 32 limit
  let new := l.filter (fun k => (s.poolEntry k.1 k.2 e.ctx).pin = 0)
  if s.pinned e.ctx + new.length > s.pinQuota e.ctx then some (det 1 0xFF (s.pinQuota e.ctx))
  else
    let low := (List.range 8).find? (fun k =>
      let n := (new.filter (fun x => x.2 = k)).length
      let held := mcount s.core.mem.pool (fun p => p.stack = k && p.pin ≠ 0)
      decide (n ≠ 0) && decide (s.poolTus k < (s.wm k).1 + held + n))
    match low with
    | some k => some (det 2 k (s.wm k).1)
    | none => match l.find? (fun k => (s.poolEntry k.1 k.2 e.ctx).pin = 65535) with
      | some k => some (det 3 k.2 65535)
      | none => none

/-- The entry of a granule that holds pins without having been resident keeps the address it was pinned at (R223, R241). -/
def State.pinAt (s : State) (e : Entry) (va : Nat) : State :=
  match s.xlate e.ctx va false true with
  | .ok l => match poolKey l with
    | some (key, k) => let p := s.poolEntry key k e.ctx; if p.resident || p.filling then s else s.setPool key { p with va := va }
    | none => s
  | _ => s

/-- Bring the TUs of a range into T0 as far as pool TUs can be had; a fill in progress is joined once (R219, R223). -/
def State.pinFetch (s : State) (e : Entry) : State :=
  (List.range e.pinCount).foldl (fun s i => match s.xlate e.ctx (e.pinVa + tuBytes * i) false true with
    | .ok l => match poolKey l with
      | some k =>
        let p := s.poolEntry k.1 k.2 e.ctx
        if p.resident || p.filling && smem (e.q * 65536 + e.seq) p.joined then s
        else match s.vcheck e.ctx (e.pinVa + tuBytes * i) 1 false true with
          | .evict d => s.askEvict d
          | _ =>
            let s := s.touch e.ctx (e.pinVa + tuBytes * i) l false
            if p.filling then s.setPool k.1 { p with joined := sins (e.q * 65536 + e.seq) p.joined } else s
      | none => s
    | _ => s) s

/-- PIN finishes at once, or with FETCH once the range is resident; until then it stays at the head (R186, R223). -/
def State.pinEnd (s : State) (r : SlotRef) (e : Entry) : State :=
  if e.mod 0 then
    let s := s.pinFetch e
    if (s.pinRange e).all (fun k => (s.poolEntry k.1 k.2 e.ctx).resident) then (s.popHead r).finish e.q e.seq else s
  else (s.popHead r).finish e.q e.seq

/-- Has the head instruction had its effect already? -/
def State.hadEffect (s : State) (e : Entry) : Bool := match (s.queue e.q).inst e.seq with | some i => i.effect | none => false

/-- Stop at a fault, or go on. -/
def State.pinGo (s : State) (r : SlotRef) (e : Entry) (f : State → State) : State :=
  match s.pinStop e with
  | .none => f s
  | st =>
    let t := s.instStop e (slotCode r) false st
    match (t.queue e.q).inst e.seq with
    | some i => if i.done then t.popHead r else t
    | none => t

/-- PIN: all or nothing (R223). An eviction begun is abandoned. -/
def State.pin (s : State) (r : SlotRef) (e : Entry) : State :=
  s.pinGo r e (fun s =>
    if s.hadEffect e then s.pinEnd r e
    else
      let l := s.pinRange e
      match s.pinLimit e l with
      | some d => (s.popHead r).finishWith e.q e.seq 0xE d
      | none =>
        let s := l.foldl (fun s k => let p := s.poolEntry k.1 k.2 e.ctx
          s.setPool k.1 { p with pin := p.pin + 1, evict := false }) s
        let s := (List.range e.pinCount).foldl (fun s i => s.pinAt e (e.pinVa + tuBytes * i)) s
        (s.effect e.q e.seq).pinEnd r e)

/-- UNPIN: counts fall, image pins go (R223, R224). -/
def State.unpin (s : State) (r : SlotRef) (e : Entry) : State :=
  s.pinGo r e (fun s =>
    let s := (s.pinRange e).foldl (fun s k =>
      if mhas s.core.mem.pool k.1 then
        let p := s.poolEntry k.1 k.2 e.ctx
        let p := { p with pin := p.pin - 1, imagePin := false }
        if p.pin = 0 && !p.resident && !p.filling then { s with core.mem.pool := mdel s.core.mem.pool k.1 } else s.setPool k.1 p
      else s) s
    (s.popHead r).finish e.q e.seq)

/-- PIN (R223). -/
def execPin (r : SlotRef) (s : State) : Out :=
  liftCore (whenDispatching (fun s => if s.seIssuing r || s.headHeld r then s else s.atHead r 0x36 pinBad (fun e s => s.pin r e))) s

/-- UNPIN (R223). -/
def execUnpin (r : SlotRef) (s : State) : Out :=
  liftCore (whenDispatching (fun s => if s.seIssuing r || s.headHeld r then s else s.atHead r 0x37 pinBad (fun e s => s.unpin r e))) s

/-! Reading the sources of a fetch (R198, R203) -/

/-- One TU read: its bytes with POISON set in the header where it is poisoned, and whether it is (R203). -/
def State.readTu (s : State) (c a : Nat) : List Byte × Bool :=
  let g := s.vget c a tuBytes true
  let bad := g.2 || tuPoison g.1
  (if bad then overlay g.1 1 [(g.1.getD 1 0) ||| 1] else g.1, bad)

/-- Is a TU one of a BSI8 pair (R217)? -/
def tuPair (tu : List Byte) : Bool := tuFmt tu % 16 = 0 && (tu.getD 1 0).toNat.testBit 1

/-- Engine, partition and first line of an OBUF destination word; none where the engine is absent. -/
def State.obufOf (s : State) (w : Nat) : Option (Nat × Nat × Nat) :=
  match s.engineOf (bits w 0 16) with
  | .ok n => some (n, bits w 16 2, bits w 18 12)
  | .error _ => none

/-- Members of an engine's gang that take its multicast side, the engine itself among them (R105). -/
def State.gangOf (s : State) (n : Nat) (side : Bool) : List Nat :=
  let o := s.ope n
  if o.gang < 8 && decide (o.gside = side) then
    (List.range s.opeCount).filter (fun m => (s.ope m).gang = o.gang && decide ((s.ope m).gside = side) && decide ((s.ope m).mode = 0)
      && decide (s.opeQuarter m = s.opeQuarter n))
  else [n]

/-- Lines of an engine promised to fetches in flight (R197). -/
def State.linesPromised (s : State) (n a k : Nat) : Bool :=
  s.core.ses.any (fun x => x.2.tracker.any (fun t => t.2.engines.any (fun l => l.1 = n && decide (a < l.2 + t.2.plines) && decide (l.2 < a + k))))

/-- Engines whose lines for a place are not free. -/
def State.busyLines (s : State) (l : List (Nat × Nat)) (k : Nat) : List Nat :=
  (l.filter (fun e => !s.linesFree e.1 e.2 k || s.linesPromised e.1 e.2 k)).map (·.1)

/-- Lines that a tile's units take in an operand buffer: those of its format, or of its bytes where it has no tile layout. -/
def landLines (tus : List (List Byte)) : Nat :=
  let n := tileLines (tuFmt (tus.getD 0 []) % 16)
  if n = 0 then 32 else n

/-! Issue (R195-R199) -/

/-- Put a fetch in the tracker, with its counts and resources (R197, R360). -/
def State.track (s : State) (n : Nat) (f : Fetch) : State :=
  let x := s.se n
  match firstFree 256 (x.tracker.map (·.1)) with
  | none => s
  | some t =>
    let s := s.setSe n { x with tracker := mput x.tracker t f }
    let s := (s.bump (seBase n + 0x100) f.tus.length).take 5 n f.tus.length
    let s := if f.staged then s.take 4 (n / 8) f.tus.length else s
    if f.transpose then s.bump (seBase n + 0x118) f.tus.length else s

/-- An unreleased destination place is counted, and for a multicast at each member that it waits for (R106, R197). -/
def State.destHold (s : State) (n : Nat) (dests : List (Nat × Nat)) (busy : List Nat) : State :=
  let s := s.bump (seBase n + 0x140) 1
  if dests.length ≤ 1 then s else busy.foldl (fun s m => s.bump (opeBase m + 0x130) 1) s

/-- What a stream needs to fetch its next TU. -/
structure Want where
  ctx : Nat
  src : List Nat
  transpose : Bool
  /-- MEM addresses, or OBUF engines and lines. -/
  addrs : List Nat
  engines : List (Nat × Nat)
  plines : Nat
  deriving DecidableEq, Repr

/-- The first stop of a fetch: its sources, then its MEM destinations. -/
def State.wantStop (s : State) (w : Want) : Stop × Bool :=
  let f (write : Bool) (st : Stop × Bool) (a : Nat) : Stop × Bool := match st.1 with
    | .none => (s.vcheck w.ctx a tuBytes write true, write)
    | _ => st
  w.addrs.foldl (f true) (w.src.foldl (f false) (.none, false))

/-- The fetch of a want: bytes read, poison marked. -/
def State.fetchOf (s : State) (w : Want) (q seq : Nat) (tag : Option TuTag) (spill : Bool) : Fetch :=
  let l := w.src.map (s.readTu w.ctx)
  { tag := tag, q := q, seq := seq, ctx := w.ctx, tus := l.map (·.1), bad := (l.filter (·.2)).length, transpose := w.transpose,
    staged := w.transpose || w.src.any (fun a => s.farTier w.ctx a false) || w.addrs.any (fun a => s.farTier w.ctx a true),
    addrs := w.addrs, engines := w.engines, plines := w.plines, spill := spill, src := w.src,
    t2 := w.src.map (fun a => match s.xlate w.ctx a false true with | .ok (.host _) => true | _ => false) }

/-- Pool and byte effects of the reads of a fetch. -/
def State.touchSrc (s : State) (w : Want) : State := w.src.foldl (fun s a => s.vtouch w.ctx a tuBytes false true) s

/-- Does a fetch of n TUs fit the tracker and the stream buffer (R197)? -/
def Se.fits (x : Se) (f : Fetch) : Bool :=
  decide (x.inflight + f.tus.length ≤ 256) && (!f.staged || decide (x.sbuf + f.tus.length ≤ 64))

/-- Has the share of a slot an LBAR (R202)? -/
def State.lbarPending (s : State) (r : SlotRef) : Bool := (mgetD s.core.qm.eiq (slotKey r) []).any (fun e => e.op = 6)

/-- The next block-list entry of a stream, read and checked when the run-ahead reaches it (R192). -/
def State.reachEntry (s : State) (n : Nat) : State :=
  let st := s.stream n
  let a := st.cur.list + 32 * st.entry
  match s.vcheck st.ctx a 32 false true with
  | .none =>
    let d := s.vnat st.ctx a 32 true
    let s := s.vtouch st.ctx a 32 false true
    match firstBad (entryBad d) with
    | some b => (s.setStream n { st with illegal := some (badDetail b) }).settleStream n
    | none => s.setStream n { st with ent := some d }
  | x => s.streamStop n false x

/-- What the next TU of a stream needs, with its entry word: a BSI8 pair is one place, and is transposed as one; in memory its second unit lies
16 KiB behind the first (R193, R198, R201; log 42). -/
def State.streamWant (s : State) (st : Stream) (d : Nat) (side : Bool) : Want :=
  let a := st.cur
  let src (i : Nat) : Nat := bits d 0 56 + bits d 96 32 * (st.tu + i)
  let tr := d.testBit 63
  let two := tuPair (s.readTu st.ctx (src 0)).1 && decide (st.tu + 1 < bits d 64 32)
  let srcs := if two then [src 0, src 1] else [src 0]
  match destKind a.dest, s.obufOf a.dest with
  | 3, some (n, p, l) =>
    let line := p * (s.ope n).per + l + a.plines * (a.k % a.ringn)
    { ctx := st.ctx, src := srcs, transpose := tr, addrs := [], engines := (s.gangOf n side).map (fun m => (m, line)),
      plines := a.plines }
  | _, _ =>
    { ctx := st.ctx, src := srcs, transpose := tr, engines := [], plines := 0,
      addrs := (List.range srcs.length).map (fun i => destAddr a.dest + tuBytes * (a.k % a.ringn + i)) }

/-- Issue the fetch of one TU of a stream, if nothing stops or holds it; `next` is the stream's position behind it (R197). -/
def State.fetchTu (s : State) (u n : Nat) (w : Want) (a : Arming) (tag : TuTag) (next : Stream → Stream) : State × Bool :=
  let stop := s.wantStop w
  if stop.1 ≠ .none then (s.streamStop n stop.2 stop.1, false)
  else
    let x := s.se u
    let f := s.fetchOf w a.q 0 (some tag) false
    if x.tusOf n (fun _ => true) + f.tus.length > a.window || !x.fits f then (s.winHold u, false)
    else
      let busy := s.busyLines w.engines w.plines
      if !busy.isEmpty then (s.destHold u w.engines busy, false)
      else
        let s := (s.touchSrc w).track u f
        ((s.setStream n (next (s.stream n))).worked (s.stream n).slot 1, true)

/-- A TU of an earlier generation that a PREEMPT released is fetched anew (R249, R253). -/
def State.fetchRedo (s : State) (u n : Nat) (side : Bool) (t : TuTag) : State × Bool :=
  let st := s.stream n
  let a := st.arming t.gen
  match s.vcheck st.ctx (a.list + 32 * t.entry) 32 false true with
  | .none => s.fetchTu u n (s.streamWant { st with cur := { a with k := t.k }, tu := t.tu } (s.vnat st.ctx (a.list + 32 * t.entry) 32 true) side) a t
      (fun st => { st with redo := st.redo.drop 1 })
  | x => (s.streamStop n false x, false)

/-- Try to issue a stream's next fetch (R196, R197, R202). The answer says whether one issued. -/
def State.tryStream (s : State) (u n : Nat) (side : Bool) : State × Bool :=
  let st := s.stream n
  if st.fid.isSome || (st.redo.isEmpty && (st.illegal.isSome || decide (st.entry ≥ st.cur.nent))) then (s, false)
  else if s.lbarPending st.slot then (s.bump (seBase u + 0x130) 1, false)
  else match st.redo with
  | t :: _ => s.fetchRedo u n side t
  | [] =>
    let s := if st.ent.isNone then s.reachEntry n else s
    let st := s.stream n
    match st.ent with
    | none => (s, false)
    | some d =>
      let dep := ((s.queue st.cur.q).dep + 65536 - st.cur.darm) % 65536
      if dep < bits d 128 16 then (s.bump (seBase u + 0x128) 1, false)
      else
        let w := s.streamWant st d side
        let whole := decide (st.tu + w.src.length ≥ bits d 64 32)
        let k := st.cur.k + 1
        s.fetchTu u n w st.cur ⟨n, st.cur.gen, st.cur.k, st.entry, st.tu⟩ (fun st =>
          let cur := { st.cur with k := k, sigs := if whole && d.testBit 144 then st.cur.sigs ++ [k] else st.cur.sigs }
          if whole then { st with cur := cur, entry := st.entry + 1, tu := 0, ent := none }
          else { st with cur := cur, tu := st.tu + w.src.length })

/-- What the next TU of a job needs (R186, R268, R270). -/
def State.jobWant (s : State) (j : SeJob) (side : Bool) : Want × Bool :=
  let e := j.e
  let x := s.sed e.ctx
  let far := j.moves.head?
  match far with
  | some (a, b) => ({ ctx := e.ctx, src := [x.addr a], transpose := false, addrs := [x.addr b], engines := [], plines := 0 }, true)
  | none =>
    let src (i : Nat) : Nat := match e.op with
      | 0x32 => e.eff 1 24 56 + e.f 20 4 * (j.k + i)
      | 0x34 => e.eff 1 24 56 + tuBytes * (j.k + i)
      | _ => x.addr (j.places.getD i 0)
    let hd := (s.readTu e.ctx (src 0)).1
    let tr := if e.op = 0x32 then e.mod 0 else e.op = 0x34 && (tuFmt hd).testBit 4
    let ob := e.op ≠ 0x34 && decide (destKind e.dest = 3)
    let two := tuPair hd && decide (j.k + 1 < j.total) && (tr || ob)
    let srcs := if two then [src 0, src 1] else [src 0]
    match ob, s.obufOf e.dest with
    | true, some (n, p, l) =>
      let step := if e.op = 0x32 then e.f 32 4 * j.idx else j.idx
      ({ ctx := e.ctx, src := srcs, transpose := tr, addrs := [], plines := landLines [hd],
         engines := (s.gangOf n side).map (fun m => (m, p * (s.ope n).per + l + step)) }, false)
    | _, _ =>
      let addr (i : Nat) : Nat := match e.op with
        | 0x32 => destAddr e.dest + e.f 32 4 * (j.k + i)
        | 0x34 => x.addr (j.places.getD (j.k + i) 0)
        | _ => destAddr e.dest + tuBytes * (j.k + i)
      ({ ctx := e.ctx, src := srcs, transpose := tr, addrs := (List.range srcs.length).map addr, engines := [], plines := 0 }, false)

/-- Fetches of a job in flight. -/
def Se.jobFetches (x : Se) (q seq : Nat) : List Fetch := (x.tracker.filter (fun t => t.2.tag.isNone && t.2.q = q && t.2.seq = seq)).map (·.2)

/-- Replace a job of an SE. -/
def State.setJob (s : State) (u : Nat) (j : SeJob) : State :=
  let x := s.se u
  s.setSe u { x with jobs := x.jobs.map (fun k => if k.e = j.e then j else k) }

/-- A job whose fetches have all landed ends: POISONED with its count, and what it has not moved is given back (R195, R203). -/
def State.settleJob (s : State) (u : Nat) (j : SeJob) : State :=
  if j.more || !((s.se u).jobFetches j.e.q j.e.seq).isEmpty then s
  else
    let s := s.sedAbandon j
    let x := s.se u
    let s := s.setSe u { x with jobs := x.jobs.filter (fun k => k.e ≠ j.e) }
    (s.noteCount j.e 1 j.poisoned).finish j.e.q j.e.seq

/-- A job stops for good: no further fetch (R225, R248). -/
def State.stopJob (s : State) (u : Nat) (j : SeJob) : State :=
  let j := { j with stop := true }
  (s.setJob u j).settleJob u j

/-- A job's access meets a stop (R245, R246, R248). -/
def State.jobStop (s : State) (u : Nat) (j : SeJob) (write : Bool) (st : Stop) : State :=
  let e := j.e
  match st with
  | .readOnly => (s.note e.q e.seq 0xE roDetail false).stopJob u j
  | .fault cause addr =>
    let i := (s.queue e.q).inst e.seq
    if ((i.map (·.fid)).getD none).isSome then s
    else
    let r := s.raiseFault e.ctx addr cause write (.inst e.q e.seq) e.q ((i.map (·.unit)).getD 0xFFFF) ((i.map (·.tag)).getD 0xFFFF)
    match r.2 with
    | .aborted => (r.1.note e.q e.seq 7 addr false).stopJob u j
    | .held fid => r.1.updInst e.q e.seq (fun i => { i with fid := some fid })
    | .noId => r.1
  | st => s.askFor e.ctx st

/-- Try to issue a slot's next fetch: the first job of its queue that has more to fetch (R195, R197). -/
def State.trySlot (s : State) (u : Nat) (r : SlotRef) (side : Bool) : State × Bool :=
  match s.slotQueue r with
  | none => (s, false)
  | some q =>
    match (s.se u).jobs.find? (fun j => j.e.q = q && j.more) with
    | none => (s, false)
    | some j =>
      let held := match (s.queue q).inst j.e.seq with | some i => i.fid.isSome | none => true
      if held then (s, false)
      else if j.moves.isEmpty && j.moving ≠ 0 then (s.bump (sedBase + 0x120) 1, false)
      else
        let p := s.jobWant j side
        let w := p.1
        let stop := s.wantStop w
        if stop.1 ≠ .none then (s.jobStop u j stop.2 stop.1, false)
        else
          let x := s.se u
          let f := { s.fetchOf w q j.e.seq none p.2 with from_ := if j.e.op = 0x35 then j.places.take w.src.length else [], at_ := (j.k, j.idx) }
          let used := sumNat ((x.tracker.filter (fun t => t.2.tag.isNone && t.2.q = q)).map (fun t => t.2.tus.length))
          if used + f.tus.length > 32 || !x.fits f then ((s.winHold u).heldBy q j.e.seq 1, false)
          else
            let busy := s.busyLines w.engines w.plines
            if !busy.isEmpty then ((s.destHold u w.engines busy).heldBy q j.e.seq 1, false)
            else
              let n := w.src.length
              let s := (((s.touchSrc w).track u f).worked r 1).moved q j.e.seq (tuBytes * n)
              if p.2 then (s.setJob u { j with moves := j.moves.drop 1, moving := j.moving + 1 }, true)
              else
                let far := ((j.places.take n).filter (fun p => p % 2 = 1)).length
                let s := if j.e.op = 0x35 && far ≠ 0 then s.bump (sedBase + 0x118) far else s
                let s := if j.e.op = 0x35 then (j.places.take n).foldl (fun s p => s.unclaim j.e p) s else s
                let s := if j.e.op = 0x34 && w.transpose then s.bump (sedBase + 0x130) n else s
                let step := if w.engines.isEmpty then n else if j.e.op = 0x32 then 1 else w.plines
                let places := if j.e.op = 0x35 then j.places.drop n else j.places
                (s.setJob u { j with k := j.k + n, idx := j.idx + step, places := places }, true)

/-- A stream or a slot that may fetch. -/
inductive Cand where
  | stream (n : Nat)
  | slot (k : Nat)
  deriving DecidableEq, Repr

/-- Number of a candidate in the turn of those without priority (R199). -/
def Cand.key : Cand → Nat
  | .stream n => n
  | .slot k => 262144 + k

def Cand.run (u : Nat) (side : Bool) (s : State) : Cand → State × Bool
  | .stream n => s.tryStream u n side
  | .slot k => s.trySlot u ⟨6, u, k⟩ side

/-- Insert by a key, the earliest first. -/
def insKey {α : Type} (f : α → Nat) (x : α) : List α → List α
  | [] => [x]
  | y :: ys => if f x < f y then x :: y :: ys else y :: insKey f x ys

/-- Deadline of the instruction that a slot moves; none counts as last. -/
def State.slotDeadline (s : State) (u k : Nat) : Nat :=
  match s.slotQueue ⟨6, u, k⟩ with
  | none => 2 ^ 64
  | some q => match (s.se u).jobs.find? (fun j => j.e.q = q && j.more) with
    | none => 2 ^ 64
    | some j => match (s.queue q).inst j.e.seq with
      | some i => if i.deadline = 0 then 2 ^ 64 else i.deadline
      | none => 2 ^ 64

/-- Candidates of an SE in the order of R199. -/
def State.candidates (s : State) (u : Nat) : List Cand :=
  let act := (s.core.streams.filter (fun e => (decide (e.2.st = 2) || (decide (e.2.st = 7) && !e.2.redo.isEmpty)) && !e.2.parked && decide (e.2.slot.unit = u) && (s.slotQueue e.2.slot).isSome))
  let dl (n : Nat) : Nat := (s.stream n).cur.due
  let rts := ((act.filter (·.2.cur.rt)).map (·.1)).foldl (fun l n => insKey dl n l) []
  let slots := (List.range 8).filter (fun k => (s.se u).jobs.any (fun j => j.more && decide (s.slotQueue ⟨6, u, k⟩ = some j.e.q)))
  let real (k : Nat) : Bool := match s.slotQueue ⟨6, u, k⟩ with | some q => (s.queue q).prio.testBit 7 | none => false
  let rsl := (slots.filter real).foldl (fun l k => insKey (s.slotDeadline u) k l) []
  let rest := ((act.filter (!·.2.cur.rt)).map (fun e => Cand.stream e.1)) ++ (slots.filter (!real ·)).map Cand.slot
  let t := (s.se u).turn
  rts.map Cand.stream ++ rsl.map Cand.slot ++ rest.filter (fun c => c.key ≥ t) ++ rest.filter (fun c => c.key < t)

/-- Does a candidate go before those that take turns: a REALTIME stream, or a slot whose queue is REALTIME (R199)? -/
def State.realCand (s : State) (u : Nat) : Cand → Bool
  | .stream n => (s.stream n).cur.rt
  | .slot k => match s.slotQueue ⟨6, u, k⟩ with | some q => (s.queue q).prio.testBit 7 | none => false

/-- The first candidate that can fetch does; those before it are passed over, with their counts. The turn of the others moves on only when one of
them fetches (R199). -/
def State.issueFirst (s : State) (u : Nat) (side : Bool) : List Cand → State
  | [] => s
  | c :: cs =>
    let r := c.run u side s
    if r.2 then (if s.realCand u c then r.1 else let x := r.1.se u; r.1.setSe u { x with turn := c.key + 1 }) else r.1.issueFirst u side cs

/-- SE_FETCH_ISSUE: one fetch, every 4 cc. `side` is the feeder side that a gang destination addresses (R105, R198; log 22). -/
def execSeFetchIssue (u : Nat) (side : Bool) (s : State) : Out :=
  liftCore (whenDispatching (fun s => s.issueFirst u side (s.candidates u))) s

/-! Landing (R193, R200-R206) -/

/-- Put a landed tile into the operand-buffer lines of an engine, if it fits the place; lines that an aborted OPA would have read are released
at once (R200, R210). -/
def State.landTile (s : State) (n line plines : Nat) (tus : List (List Byte)) (tag : Option TuTag) : State :=
  let o := s.ope n
  let need := landLines tus
  if o.drop.contains (line, 0) then s.setOpe n { o with drop := o.drop.erase (line, 0) }
  else
  let o := { o with drop := o.drop.map (fun (d : Nat × Nat) => if d.1 = line then (line, d.2 - 1) else d) }
  let t : ObufTile := if need > plines then { lines := plines, tus := tus, blank := true, by_ := tag } else { lines := need, tus := tus, by_ := tag }
  s.setOpe n { o with obuf := mput o.obuf line t }

/-- Set the generation in a TU's header (R194). -/
def withGen (tu : List Byte) (g : Nat) : List Byte := overlay tu 2 [BitVec.ofNat 8 g]

/-- The units as they are written out: transposed, with their generation (R194, R201). -/
def Fetch.out (f : Fetch) (gen : Option Nat) : List (List Byte) :=
  let l := if f.transpose then transposeTus f.tus else f.tus
  match gen with
  | some g => l.map (fun t => withGen t g)
  | none => l

/-- Write a fetch out to its memory addresses or operand-buffer lines; poison goes to the host with its data (R407). -/
def State.writeOut (s : State) (n : Nat) (f : Fetch) (gen : Option Nat) : State :=
  let l := f.out gen
  let s := (f.addrs.zip l).foldl (fun s a =>
    let s := s.vput f.ctx a.1 a.2 true
    if tuPoison a.2 then s.markHost f.ctx a.1 tuBytes true else s) s
  let s := f.engines.foldl (fun s e => s.landTile e.1 e.2 f.plines l f.tag) s
  s.bump (seBase n + 0x108) (if f.engines.isEmpty then tuBytes * l.length else 512 * landLines l)

/-- A fetch leaves the tracker, with its buffer slots (R197, R360). -/
def State.untrack (s : State) (n t : Nat) (f : Fetch) : State :=
  let x := s.se n
  let s := ((s.setSe n { x with tracker := mdel x.tracker t }).give 5 n f.tus.length).invPass (fun i => { i with fetches := i.fetches.erase (n, t) })
  if f.staged then s.give 4 (n / 8) f.tus.length else s

/-- Poisoned units of a landing: those read poisoned, and a tile that does not fit its place (R200, R203). -/
def Fetch.poisoned (f : Fetch) : Nat :=
  if !f.engines.isEmpty && decide (landLines f.tus > f.plines) then f.tus.length else f.bad

/-- Count poison at an SE (R203). -/
def State.countPoison (s : State) (n k : Nat) : State := if k = 0 then s else (s.bump (seBase n + 0x120) k).raise (seInt n) 0

/-- Change the arming of a generation. -/
def Stream.updGen (st : Stream) (g : Nat) (f : Arming → Arming) : Stream :=
  if st.cur.gen = g then { st with cur := f st.cur }
  else { st with old := st.old.map (fun o => if o.gen = g then f o else o) }

/-- A stream's TU arrives (R193, R200, R203, R206, R208). -/
def State.landStream (s : State) (n t : Nat) (f : Fetch) (g : TuTag) : State :=
  let bytes := tuBytes * f.tus.length
  if f.silt then
    let s := (s.untrack n t f).silt n bytes
    (s.setStream g.stream ((s.stream g.stream).updGen g.gen (fun a => { a with silt := a.silt + bytes }))).settleStream g.stream
  else
    let p := f.poisoned
    let a := (s.stream g.stream).arming g.gen
    let late := a.rt && decide (a.deadline ≠ 0) && decide (s.nowAt (n / 8) > a.deadline)
    let s := ((s.writeOut n f (some g.gen)).untrack n t f).countPoison n p
    let s := (if late then s.bump (seBase n + 0x158) f.tus.length else s).worked (s.stream g.stream).slot 1
    let s := s.setStream g.stream ((s.stream g.stream).updGen g.gen (fun a =>
      { a with poisoned := a.poisoned + p, late := a.late + (if late then f.tus.length else 0) }))
    s.settleStream g.stream

/-- A slot instruction's TU arrives (R195, R206, R268-R271). -/
def State.landJob (s : State) (n t : Nat) (f : Fetch) : State :=
  match (s.se n).jobs.find? (fun j => j.e.q = f.q && j.e.seq = f.seq) with
  | none => (s.untrack n t f).silt n (if f.silt then tuBytes * f.tus.length else 0)
  | some j =>
    if f.silt then
      let s := (s.untrack n t f).silt n (tuBytes * f.tus.length)
      let s := if j.e.op = 0x34 then s.sedDrop j.e (f.addrs.map (fun a => (s.sed j.e.ctx).placeOf a false)) else s
      s.settleJob n j
    else
      let e := j.e
      let p := f.poisoned
      let s := ((s.writeOut n f (if e.op = 0x32 then some 0 else none)).untrack n t f).countPoison n p
      let s := (s.effect e.q e.seq).moved e.q e.seq (tuBytes * f.tus.length)
      let s := match (s.queue e.q).slot with | some r => s.worked r 1 | none => s
      let x := s.sed e.ctx
      let places := f.addrs.map (fun a => x.placeOf a f.spill)
      let sed := f.spill || decide (e.op = 0x34)
      let s := if sed then places.foldl (fun s p => s.sedWritten e p 1) s else s
      let s := match e.op with
        | 0x34 => if f.spill then s else s.bump (sedBase + 0x100) f.tus.length
        | 0x35 => s.bump (sedBase + 0x108) f.tus.length
        | _ => s
      let j := if f.spill then { j with moving := j.moving - 1 }
        else { j with poisoned := j.poisoned + p }
      (s.setJob n j).settleJob n j

/-- A landing for a context that is KILLED: what the fetch still held has returned, and a stream that is CANCELLED is IDLE (R255). -/
def State.killedLanding (s : State) (f : Fetch) : State :=
  if (s.ctx f.ctx).st = .killed then
    let n := f.entries
    let s := s.updCtx f.ctx (fun c => { c with infl := c.infl - n })
    let s := s.setCounter (mmuBase + 0x148) (s.counter (mmuBase + 0x148) - n)
    match f.tag with
    | some g => if (s.stream g.stream).st = 6 then { s with core.streams := mdel s.core.streams g.stream }.reclaim 0xB 0 1 else s
    | none => s
  else s

/-- A fetch of whose units some met bad parity in the stream buffer: they are poisoned (R203, R346). -/
def Fetch.struck (f : Fetch) (l : List Nat) : Fetch :=
  if f.staged && !l.isEmpty then
    let tus := f.tus.zipIdx.map (fun x => if l.contains x.2 then poisonTu x.1 else x.1)
    { f with tus := tus, bad := max f.bad (tus.filter tuPoison).length }
  else f

/-- TU_LAND: the fetch of a tracker entry arrives; a destination that a translation stops meanwhile keeps it waiting, or where its instruction has
ended for that makes it silt (R193, R246, R248). `struck`:
those of its units whose words in the stream buffer have bad parity (R346). -/
def execTuLand (n t : Nat) (struck : List Nat) (s : State) : Out :=
  liftCore (whenLive (fun s =>
    match mget (s.se n).tracker t with
    | none => s
    | some f0 =>
      let f := f0.struck struck
      let s := if f = f0 then s else (s.parityError struck.length ⟨6, n, 0⟩).setSe n { s.se n with tracker := mput (s.se n).tracker t f }
      let stop := f.addrs.foldl (fun st a => match st with | .none => s.vcheck f.ctx a tuBytes true true | st => st) Stop.none
      let job := if f.tag.isSome then none else (s.se n).jobs.find? (fun j => j.e.q = f.q && j.e.seq = f.seq)
      let ended := match job with | some j => j.stop | none => false
      let f := if decide (stop ≠ .none) && ended then { f with silt := true } else f
      if !f.silt && decide (stop ≠ .none) then
        (match f.tag, job with
          | some g, _ => s.streamStop g.stream true stop
          | none, some j => s.jobStop n j true stop
          | none, none => s)
      else (match f.tag with
        | some g => s.landStream n t f g
        | none => s.landJob n t f).killedLanding f)) s

end Sys2Proof.Machine
end

