-- ==== Sys2Proof/Machine/Merge.lean ====
section
/-! DEFINITION. Groups, buckets and their staging space, and the merge of a ring hop (13_collectives R311-R322, R332). -/
namespace Sys2Proof.Machine

def rceInt (n : Nat) : Nat := rceBase n + 0x80
def fldGrace : Fld := ⟨rceGBase + 0x18, 0, 16, 1000⟩

/-! Groups (R311-R313) -/

/-- A group at an RCE. -/
def State.group (s : State) (n gc : Nat) : Option Group := mget s.core.rce.groups (16 * n + gc)

/-- The RCE of a quarter that holds a group channel (R312, R313). -/
def State.rceOf (s : State) (quarter gc : Nat) : Option Nat :=
  ((List.range 4).map (fun i => 4 * quarter + i)).find? (fun n => mhas s.core.rce.groups (16 * n + gc))

/-- Header bytes of a group packet (R331). -/
def groupHdr (bucket epoch gc seq close first k origin fmt flags : Nat) : Nat :=
  hdrPut 16 2 bucket + hdrPut 18 1 epoch + hdrPut 19 1 gc + hdrPut 20 4 seq + hdrPut 24 8 close + hdrPut 32 4 first + hdrPut 36 2 k
    + hdrPut 38 2 origin + hdrPut 40 1 fmt + hdrPut 41 1 flags

/-- Send a group packet from an RCE to an endpoint; its transaction identifier is its number of
blocks and 65,536 times the RCE (log 24). -/
def State.sendGroup (s : State) (n gc type dest hdr k : Nat) (data : List Byte) (poison : Bool) : State :=
  let p := { s.mkPacket type (4 + gc) dest (n / 4) (k + 65536 * n) hdr data with poison := poison }
  (s.emit p (n / 4)).bump (rceBase n + 0x140) (64 * p.len)

/-! Buckets (R314-R317) -/

/-- Key of a bucket. -/
def bktKey (id epoch : Nat) : Nat := 256 * id + epoch
def Bucket.key (b : Bucket) : Nat := bktKey b.id b.epoch
def State.setBkt (s : State) (b : Bucket) : State := { s with core.rce.buckets := mput s.core.rce.buckets b.key b }

/-- A reduction: reduce-scatter or all-reduce. -/
def Bucket.reduces (b : Bucket) : Bool := b.op = 0 || b.op = 2
/-- Blocks per shard (R315). -/
def shardLen (nblk m : Nat) : Nat := ceilDiv nblk (max 1 m)
/-- Rank that owns a block. -/
def Bucket.owner (b : Bucket) (m k : Nat) : Nat := k / max 1 (shardLen b.nblk m)
/-- Bytes of one part of STAGE (R316). -/
def Bucket.partLen (b : Bucket) : Nat := 64 * b.nblk + pad64 (4 * b.nblk)
/-- Policy for late data: a CLOSE of 0 acts as LATE 0 (R326). -/
def Bucket.policy (b : Bucket) : Nat := if b.close = 0 then 0 else b.late
def Bucket.hasCarry (b : Bucket) : Bool := b.policy = 1 && b.reduces
/-- First address of a part: 0 MAIN, 1 CARRY, 2 RESULT (R316). -/
def Bucket.partAt (b : Bucket) (p : Nat) : Nat :=
  b.stage + b.partLen * (if p = 0 then 0 else if p = 1 then 1 else if b.hasCarry then 2 else 1)
/-- Bytes of STAGE. -/
def Bucket.stageLen (b : Bucket) : Nat := b.partLen * (1 + b2n b.hasCarry + b2n (b.op = 2))
/-- The round that uses the fabric (R330). -/
def Bucket.last (b : Bucket) : Bool := decide (b.round ≥ b.thin)

/-- A block in RSI16 form with its count (R316, R321). -/
structure RBlk where
  ms : List Int := []
  e : Int := -512
  poison : Bool := false
  raised : Bool := false
  count : Nat := 0
  deriving DecidableEq, Repr

/-- Record word of a block (R316). -/
def RBlk.word (b : RBlk) (own part done : Bool) : Nat :=
  toWord 10 b.e + put 10 1 (b2n b.raised) + put 11 1 (b2n b.poison) + put 13 1 (b2n done) + put 14 1 (b2n part) + put 15 1 (b2n own)
    + put 16 16 b.count

/-- A block from its element field and record word. -/
def rblkOf (f w : Nat) : RBlk :=
  { ms := (List.range 32).map (packed 6 f), e := sext 10 (bits w 0 10), raised := w.testBit 10, poison := w.testBit 11, count := bits w 16 16 }

/-- Element field of 64 bytes. -/
def RBlk.field (b : RBlk) : List Byte := leBytes 64 ((List.range 32).foldl (fun a i => a + put (16 * i) 16 (toWord 16 (b.ms.getD i 0))) 0)

/-- Record word of block k in a part. -/
def State.recWord (s : State) (b : Bucket) (p k : Nat) : Nat := s.vnat b.ctx (b.partAt p + 64 * b.nblk + 4 * k) 4 false

/-- Block k in a part. -/
def State.stageBlk (s : State) (b : Bucket) (p k : Nat) : RBlk :=
  rblkOf (s.vnat b.ctx (b.partAt p + 64 * k) 64 false) (s.recWord b p k)

/-- The slot of a bucket. -/
def Bucket.slotRef (b : Bucket) : SlotRef := ⟨7, b.rce, b.slot⟩

/-- Change a bucket that is held. -/
def State.updBkt (s : State) (key : Nat) (f : Bucket → Bucket) : State :=
  match mget s.core.rce.buckets key with
  | some b => { s with core.rce.buckets := mput s.core.rce.buckets key (f b) }
  | none => s

/-- The record word of block k in a part, as address and length (R316). -/
def Bucket.wordSpan (b : Bucket) (p k : Nat) : Nat × Nat := (b.partAt p + 64 * b.nblk + 4 * k, 4)

/-- Element field and record word of block k in a part (R316). -/
def Bucket.blkSpans (b : Bucket) (p k : Nat) : List (Nat × Nat) := [(b.partAt p + 64 * k, 64), b.wordSpan p k]

/-- Pool effects and byte counts of reads of staging. -/
def State.touchSpans (s : State) (c : Nat) (l : List (Nat × Nat)) : State := l.foldl (fun s p => s.vtouch c p.1 p.2 false false) s

/-- The first stop among reads and then writes, and whether a write meets it (R246). -/
def State.spansStop (s : State) (c : Nat) (rd wr : List (Nat × Nat)) : Stop × Bool :=
  match s.piecesStop c rd false false with
  | .none => (s.piecesStop c wr true false, true)
  | st => (st, false)

/-- Write a record word. -/
def State.putWord (s : State) (b : Bucket) (p k w : Nat) : State := s.vput b.ctx (b.partAt p + 64 * b.nblk + 4 * k) (leBytes 4 w) false

/-- Write a block with its marks OWN, PART and DONE. -/
def State.putBlk (s : State) (b : Bucket) (p k : Nat) (x : RBlk) (own part done : Bool) : State :=
  (s.vput b.ctx (b.partAt p + 64 * k) x.field false).putWord b p k (x.word own part done)

def ownBit (w : Nat) : Bool := w.testBit 15
def partBit (w : Nat) : Bool := w.testBit 14
def doneBit (w : Nat) : Bool := w.testBit 13
/-- Empty (R316): COUNT 0, OWN and PART clear. -/
def emptyWord (w : Nat) : Bool := decide (bits w 16 16 = 0) && !ownBit w && !partBit w

/-- The merge of a hop, with whether it raised and whether it clamped at exponent 511 (R322). -/
def mergeIn (b c : RBlk) (bEmpty : Bool) : RBlk × Bool × Bool :=
  if bEmpty then ({ c with raised := b.raised || c.raised, poison := b.poison || c.poison, count := b.count + c.count }, false, false)
  else
    let x := max b.e c.e
    let vs := (List.range 32).map (fun i => Dy.add ⟨b.ms.getD i 0, b.e⟩ ⟨c.ms.getD i 0, c.e⟩)
    let fits (x : Int) : Bool := vs.all (fun v => decide (-32768 ≤ v.rne x) && decide (v.rne x ≤ 32767))
    let r := if fits x then 0 else leastFrom (fun r => fits (x + r)) 1100 1
    let x' := x + r
    let sat := decide (x' > 511)
    let e := if sat then 511 else x'
    ({ ms := vs.map (fun v => clampInt (-32768) 32767 (v.rne e)), e := e, raised := b.raised || c.raised || decide (r ≠ 0) || sat
       poison := b.poison || c.poison, count := (b.count + c.count) % 65536 }, decide (r ≠ 0), sat)

/-- A block of a source format in RSI16 form (R321). -/
def toRsi (b : Blk) : RBlk := { ms := b.ms, e := b.e - b.sh, poison := b.poison, raised := b.raised }

/-- Merge into block k of a part, with the counts and events of R322; PART, OWN and DONE as given. -/
def State.mergeAt (s : State) (b : Bucket) (p k : Nat) (c : RBlk) (own part done : Bool) : State :=
  let w := s.recWord b p k
  let r := mergeIn (s.stageBlk b p k) c (emptyWord w)
  let s := s.touchSpans b.ctx (b.blkSpans p k)
  let s := (s.putBlk b p k r.1 own part done).worked ⟨7, b.rce, b.slot⟩ 1
  let s := s.bump (rceBase b.rce + 0x100) 1
  let s := if r.2.1 then (s.bump (rceBase b.rce + 0x108) 1).raise (rceInt b.rce) 0 else s
  if r.2.2 then (s.bump (rceBase b.rce + 0x110) 1).raise (rceInt b.rce) 3 else s

/-- Late data for block k: into CARRY, or discarded (R327). -/
def State.lateBlk (s : State) (b : Bucket) (k : Nat) (c : RBlk) : State :=
  if b.hasCarry then
    ((s.mergeAt b 1 k c false false false).bump (rceBase b.rce + 0x118) 1).raise (rceInt b.rce) 1
  else (s.bump (rceBase b.rce + 0x120) 1).raise (rceInt b.rce) 1

/-- Group of a bucket. -/
def State.bktGroup (s : State) (b : Bucket) : Group := (s.group b.rce b.gc).getD ⟨b.ctx, 1, 0, 0, 0, 0⟩

/-! Sending (R318, R320, R324, R325, R332) -/

/-- The grant under which a bucket may send now (R318): none, or whether it is for a later round only. -/
def State.grantFor (s : State) (b : Bucket) : Option Bool :=
  match mget s.core.rce.grants b.key with
  | none => none
  | some g => if g.nblk = b.nblk && g.op = b.op && decide (g.close ≥ b.close) then some (decide (g.close > b.close)) else none

/-- Go on with a run of consecutive blocks of one shard, at most n long (R332). -/
def runsFrom (n : Nat) (owner : Nat → Nat) (f len : Nat) : List Nat → List (Nat × Nat)
  | [] => [(f, len)]
  | k :: ks =>
    if k = f + len && owner k = owner f && len < n then runsFrom n owner f (len + 1) ks
    else (f, len) :: runsFrom n owner k 1 ks

/-- The runs of a rising list: each is full but the last of a shard (R332). -/
def runs (n : Nat) (owner : Nat → Nat) : List Nat → List (Nat × Nat)
  | [] => []
  | k :: ks => runsFrom n owner k 1 ks

/-- Largest K of moved data of a format in 64 units (R332). -/
def moveMax (code : Nat) : Nat :=
  (((List.range 513).filter (fun k => k ≠ 0 && arrayBytes code (32 * k) ≤ 4096)).getLast?).getD 1

/-- A block as it is sent: the elements of an empty one are 0 (R320; log 100). -/
def State.sentBlk (s : State) (b : Bucket) (part k : Nat) : RBlk :=
  let x := s.stageBlk b part k
  if emptyWord (s.recWord b part k) then { x with ms := List.replicate 32 0, e := -512 } else x

/-- One run of partials or finals sent to the successor. -/
def State.sendRun (s : State) (b : Bucket) (part final m succ : Nat) (r : Nat × Nat) : State :=
  let ks := (List.range r.2).map (· + r.1)
  let data := ks.flatMap (fun k => (s.sentBlk b part k).field)
    ++ padTo64 (ks.flatMap (fun k => leBytes 4 ((s.sentBlk b part k).word false false false)))
  let s := ks.foldl (fun s k => s.touchSpans b.ctx (b.blkSpans part k)) s
  (s.worked ⟨7, b.rce, b.slot⟩ 1).sendGroup b.rce b.gc 0x41 succ (groupHdr b.id b.epoch b.gc 0 b.close r.1 r.2 (b.owner m r.1) 6 final) r.2 data false

/-- Is a partial ready to go on (R320)? Once the round has passed, whatever is not empty (R326). -/
def State.partialReady (s : State) (b : Bucket) (g : Group) (k : Nat) : Bool :=
  let w := s.recWord b 0 k
  let sh := b.owner g.m k
  decide (sh ≠ g.rank) && !doneBit w && !b.lost.contains (0, k)
    && (if b.passed then !emptyWord w else (partBit w || decide ((sh + 1) % g.m = g.rank)) && (ownBit w || b.bclose.isSome))

/-- Blocks of a bucket that are ready to be sent and not sent: partials of a reduction. -/
def State.readyPartials (s : State) (b : Bucket) (g : Group) : List Nat :=
  if b.reduces && b.last && decide (g.m > 1) then (List.range b.nblk).filter (fun k => s.partialReady b g k) else []

/-- Final blocks of an all-reduce held and not sent on, unless the successor owns them (R324). -/
def State.readyFinals (s : State) (b : Bucket) (g : Group) : List Nat :=
  if b.op = 2 && b.last && decide (g.m > 1) then
    (List.range b.nblk).filter (fun k => doneBit (s.recWord b 2 k) && !b.sent.contains k && !b.lost.contains (1, k) && decide (b.owner g.m k ≠ (g.rank + 1) % g.m))
  else []

/-- Moved blocks landed and not sent on, unless the successor is their origin (R325). -/
def readyMoves (b : Bucket) (g : Group) : List Nat :=
  if b.reduces || decide (g.m ≤ 1) then []
  else (b.landed.filter (fun e => !b.sent.contains e.1 && !b.lost.contains (2, e.1) && decide (e.2.1 ≠ (g.rank + 1) % g.m))).map (·.1)

/-- Everything that is ready and not sent. -/
def State.unsent (s : State) (b : Bucket) (g : Group) : List Nat := s.readyPartials b g ++ s.readyFinals b g ++ readyMoves b g

/-- Blocks of a reduction that this member is still to send on, ready or not. -/
def State.owesPartials (s : State) (b : Bucket) (g : Group) : Bool :=
  b.reduces && decide (g.m > 1) && !b.passed
    && (List.range b.nblk).any (fun k => decide (b.owner g.m k ≠ g.rank) && !doneBit (s.recWord b 0 k) && !b.lost.contains (0, k))

/-- Has data of a bucket been sent and not acknowledged yet (R317)? -/
def State.unacked (s : State) (b : Bucket) : Bool :=
  s.onItsWay (fun p => (p.type = 0x41 || p.type = 0x42) && p.vc = 4 + b.gc && decide (p.src = s.ep (b.rce / 4)) && hdrField p 16 2 = b.id
    && hdrField p 18 1 = b.epoch)

/-- Mark a block as forwarded. -/
def State.markDone (s : State) (b : Bucket) (k : Nat) : State := s.putWord b 0 k (s.recWord b 0 k ||| 2 ^ 13)

/-- Bytes of moved blocks as a block array of their own (R332), with their poison. -/
def State.movedData (s : State) (b : Bucket) (code first k : Nat) : List Byte × Bool :=
  let rd (i : Nat) : List (List Byte) := (blkPieces b.stage code b.nblk (first + i)).map (fun p => (s.vget b.ctx p.1 p.2 false).1)
  let l := (List.range k).map rd
  let plane (j : Nat) : List Byte := l.flatMap (fun x => x.getD j [])
  let data := if code = 4 then padTo64 (plane 0)
    else padTo64 (plane 0) ++ padTo64 (plane 1) ++ (if code = 2 then padTo64 (plane 2) else [])
  (data, (List.range k).any (fun i => match mget b.landed (first + i) with | some x => x.2 | none => false))

/-- What an RCE does with one run of blocks of a bucket, by kind: 0 partials, 1 finals and 2 moved data go to the successor; 3 is an own block of an
all-reduce that is final; 4 is a partial that waits for the successor and is late: into this member's CARRY, or discarded (R318, R320, R324, R325, R328,
R340). -/
def State.sendOne (s : State) (b : Bucket) (g : Group) (x : Nat × Nat × Nat) : State :=
  let ks := (List.range x.2.2).map (· + x.2.1)
  let mark (s : State) : State := s.updBkt b.key (fun b => { b with sent := ks.foldl (fun a k => sins k a) b.sent })
  match x.1 with
  | 0 => ks.foldl (fun s k => s.markDone b k) (s.sendRun b 0 0 g.m g.succ x.2)
  | 1 => mark (s.sendRun b 2 1 g.m g.succ x.2)
  | 2 =>
    let code := (b.fmt.getD 5) % 16
    let org : Nat := match mget b.landed x.2.1 with | some y => y.1 | none => 0
    let d := s.movedData b code x.2.1 x.2.2
    let s := ks.foldl (fun s k => s.touchSpans b.ctx (blkPieces b.stage code b.nblk k)) s
    mark (s.sendGroup b.rce b.gc 0x42 g.succ (groupHdr b.id b.epoch b.gc 0 b.close x.2.1 x.2.2 org (b.fmt.getD 5) 0) x.2.2 d.1 d.2)
  | 3 => ks.foldl (fun s k => s.mergeAt b 2 k (s.stageBlk b 0 k) false false true) s
  | _ => ks.foldl (fun s k =>
      let y := s.stageBlk b 0 k
      let e := emptyWord (s.recWord b 0 k)
      let s := s.markDone b k
      if e then s else s.lateBlk b k y) s

/-- What such a run reads and writes in STAGE (R246). -/
def Bucket.sendSpans (b : Bucket) (x : Nat × Nat × Nat) : List (Nat × Nat) × List (Nat × Nat) :=
  let ks := (List.range x.2.2).map (· + x.2.1)
  match x.1 with
  | 0 => (ks.flatMap (b.blkSpans 0), ks.map (b.wordSpan 0))
  | 1 => (ks.flatMap (b.blkSpans 2), [])
  | 2 => (ks.flatMap (blkPieces b.stage ((b.fmt.getD 5) % 16) b.nblk), [])
  | 3 => (ks.flatMap (b.blkSpans 0), ks.flatMap (b.blkSpans 2))
  | _ => (ks.flatMap (b.blkSpans 0), ks.map (b.wordSpan 0) ++ (if b.hasCarry then ks.flatMap (b.blkSpans 1) else []))

/-- A send that an aborted fault ends: its blocks are lost for the round and count as dropped (R248; log 100). -/
def State.loseRun (s : State) (b : Bucket) (x : Nat × Nat × Nat) : State :=
  ((s.bump (rceBase b.rce + 0x120) x.2.2).raise (rceInt b.rce) 1).updBkt b.key (fun b =>
    { b with lost := b.lost ++ ((List.range x.2.2).map (fun i => (x.1 % 4, x.2.1 + i))) })

/-- Send runs in order, until one that a translation stops: a held fault holds the bucket there, an aborted one ends that run alone (R246, R248). -/
def State.sendDue (s : State) (b : Bucket) (g : Group) : List (Nat × Nat × Nat) → State
  | [] => s
  | x :: xs =>
    match s.spansStop b.ctx (b.sendSpans x).1 (b.sendSpans x).2 with
    | (.none, _) => (s.sendOne b g x).sendDue b g xs
    | (.readOnly, _) => (s.loseRun b x).sendDue b g xs
    | (.fault cause a, w) =>
      let r := s.raiseFault b.ctx a cause w .wb b.q (slotCode b.slotRef) 0xFFFF
      match r.2 with
      | .aborted => (r.1.loseRun b x).sendDue b g xs
      | .held fid => r.1.updBkt b.key (fun b => { b with fid := some fid })
      | .noId => r.1
    | (st, _) => s.askFor b.ctx st

/-- Runs that a bucket may send under a grant. -/
def State.dueRuns (s : State) (b : Bucket) (g : Group) : List (Nat × Nat × Nat) :=
  let org (k : Nat) : Nat := match mget b.landed k with | some x => x.1 | none => 0
  (runs 60 (b.owner g.m) (s.readyPartials b g)).map (fun r => (0, r)) ++ (runs 60 (b.owner g.m) (s.readyFinals b g)).map (fun r => (1, r))
    ++ (runs (moveMax ((b.fmt.getD 5) % 16)) org (readyMoves b g)).map (fun r => (2, r))

/-- Data that waits for the successor is treated as late (R318, R328, R340). -/
def State.lateWaiting (s : State) (b : Bucket) : State :=
  let g := s.bktGroup b
  let l := s.readyFinals b g ++ readyMoves b g
  let s := if l.isEmpty then s else (s.bump (rceBase b.rce + 0x120) l.length).raise (rceInt b.rce) 1
  let s := s.updBkt b.key (fun b => { b with sent := l.foldl (fun a k => sins k a) b.sent })
  s.sendDue b g ((s.readyPartials b g).map (fun k => (4, k, 1)))

/-- Send what a bucket may send under the grant it holds; under a grant of a later round only, dropped data is discarded, and what waits for a
successor that will not take it is late (R318, R328, R340). A bucket that stands at a fault waits (R246). -/
def State.pump (s : State) (key : Nat) : State :=
  match mget s.core.rce.buckets key with
  | none => s
  | some b =>
    if b.fid.isSome then s
    else if b.cut then s.lateWaiting b
    else match s.grantFor b with
    | none => s
    | some later => if later && decide (b.policy = 2) then s.lateWaiting b else s.sendDue b (s.bktGroup b) (s.dueRuns b (s.bktGroup b))

end Sys2Proof.Machine
end

