-- ==== Sys2Proof/Machine/Time.lean ====
section
/-! DEFINITION. The commands of fabric time (02_fabric_time). -/
namespace Sys2Proof.Machine

/-- The timekeeper runs: the module is powered, out of reset and not frozen (R384, R411). -/
def State.timing (s : State) : Bool :=
  !(decide (s.core.boot.phase = .off) || decide (s.core.boot.phase = .rails)) && !s.core.ras.frozen

/-- An effect of a running timekeeper. -/
def whenTiming (f : State → State) : State → State := guardBy State.timing f

/-- Is a context other than CTX 0 ACTIVE (R37)? -/
def State.userActive (s : State) : Bool := s.core.mmu.ctxs.any (fun e => e.1 ≠ 0 && e.2.st = .active)

/-- The source time is known (R37). -/
def State.srcKnown (s : State) : Option Int := if s.source = 0 then none else s.ft.src

/-- RESTEP (R37). -/
def State.restep (s : State) : State :=
  if s.userActive then s
  else match s.srcKnown with
    | none => s
    | some d => { s with ft.disjoint := false }.stepFt ((s.ft.units : Int) - d)

/-- GLB_FT_LOW_READ: the upper half is latched for this requester (R29). -/
def execGlbFtLowRead (req : Nat) (s : State) : Out :=
  liftLock (whenTiming (fun s => { s with ft.latch := mput s.ft.latch req (s.ft.ns / 2 ^ 32),
                                          core.ras.readVal := s.ft.ns % 2 ^ 32 })) s

/-- What the next 32-bit read of GLB_FT [63:32] by a requester returns, and the state after it: the half that its read of [31:0] latched; where it
has latched none, the upper half as it stands (R29). -/
def State.ftHighRead (s : State) (req : Nat) : Nat × State :=
  match mget s.ft.latch req with
  | some v => (v, { s with ft.latch := mdel s.ft.latch req })
  | none => (s.ft.ns / 2 ^ 32, s)

/-- The phase of FT against the second of its source, in 2^-16 ns: the part of the last offset that is no whole number of seconds, 0 where no source
time is known. -/
def FabTime.phase (f : FabTime) : Int :=
  let sec : Int := 1000000000 * 65536
  match f.src with
  | none => 0
  | some d => (d + sec / 2) % sec - sec / 2

/-- The offset FT minus source time that a write of GLB_FT_NEXTSEC implies: FT stands in the second before the next edge, so a value that names
another second is wrong by the difference; 0 where they agree (R36, R40). -/
def State.nextsecOffset (s : State) (sec : Nat) : Int :=
  let one : Int := 1000000000 * 65536
  let n : Int := ((s.ft.units : Int) - s.ft.phase) / one + 1 - sec
  if n = 0 then 0 else n * one + s.ft.phase

/-- A write of GLB_FT_NEXTSEC: where it agrees, what is left of a known offset is its phase (R37); a disagreement with the current second is a correction under R36 (R40). While the reference is not the source in
use, a write sets the count alone (log 36). It is no measurement: GLB_FT_OFFSET stays, and a source time not known stays so (R37). -/
def State.nextsecWrite (s : State) (sec : Nat) : State :=
  let d := s.nextsecOffset (sec % 2 ^ 64)
  let k := s.ft.src
  let s := { s with ft.nextSec := sec % 2 ^ 64 }
  if s.source ≠ 1 then s
  else if d = 0 then { s with ft.src := k.map (fun _ => s.ft.phase) }
  else
    let s := s.fix d
    if k.isNone then { s with ft.src := none } else s

/-- TSYNC_TIMEOUT: no edge for 1.1 s (R35, R40). -/
def execTsyncTimeout (s : State) : Out :=
  liftLock (whenTiming (fun s =>
    let t := { s with ft.tsyncOk := false }
    (if s.source = 1 then t.loseLock else t).resource s)) s

/-- REF_LOSS: SB_TIMEREF is no longer valid (R35). -/
def execRefLoss (s : State) : Out :=
  liftLock (whenTiming (fun s =>
    let t := { s with ft.refOk := false }
    (if s.source = 1 then t.loseLock else t).resource s)) s

/-- TIMEREF_PRESENT: SB_TIMEREF is present and within 100 ppm (R35). -/
def execTimerefPresent (s : State) : Out :=
  liftLock (whenTiming (fun s =>
    let s := { s with ft.refOk := true }.resource s
    if s.reg fldSrc = 1 || s.reg fldSrc = 3 then s.beginAcquire else s)) s

/-- HOLDOVER_LIMIT: the limit of HOLDOVER is reached (R35). -/
def execHoldoverLimit (s : State) : Out :=
  liftLock (whenTiming (fun s => if s.ft.lock = .holdover then s.setLock .free else s)) s

/-- Payload of a time message (R34). -/
def State.timePayload (s : State) (type t t1 t2 f f1 f2 : Nat) : Nat :=
  hdrPut 16 1 type + hdrPut 17 1 s.ft.hop + hdrPut 18 1 s.ft.lock.code + hdrPut 20 8 t + hdrPut 28 8 t1 + hdrPut 36 8 t2
    + hdrPut 44 2 f + hdrPut 46 2 f1 + hdrPut 48 2 f2

/-- A time message to the partner of a port, out of that port; its DEST names the partner's module with die code 0 (R33, R34; log 71). -/
def State.sendTime (s : State) (i hdr : Nat) : State :=
  let d := match (s.port i).partner with | some h => h.modid | none => 0
  s.queueOut 4 i (s.mkPacket 0x10 1 d 4 0 hdr [])

/-- An exchange with the parent that has had no reply when the next one starts is missing: it breaks the run of good ones, and the fourth in
succession loses lock (R35). -/
def State.missedExchange (s : State) : State :=
  if s.source = 2 && s.ft.open_ then
    let s := { s with ft.good := 0, ft.bad := s.ft.bad + 1 }
    if s.ft.bad ≥ 4 then s.loseLock else s
  else s

/-- TIME_EXCHANGE_START: every active port sends a request stamped t1 (R33). -/
def execTimeExchangeStart (s : State) : Out :=
  liftLock (whenLive (fun s =>
    let s := s.missedExchange
    let s : State := { s with ft.open_ := decide (s.source = 2) && decide ((s.port s.ft.parent).st = .active) }
    (s.core.fab.ports.filter (fun e => e.2.st = .active)).foldl
      (fun s e => s.sendTime e.1 (s.timePayload 1 s.ft.ns 0 0 s.ft.frac 0 0)) s)) s

/-- Note what a partner advertises and choose the parent again (R32, R34). A LOCKED parent that is no longer LOCKED loses lock (R35). -/
def State.notePartner (s : State) (i hop st : Nat) : State :=
  let s := { s with ft.partners := mput s.ft.partners i ⟨hop, st⟩ }
  let lost := decide (s.source = 2) && decide (s.ft.parent = i) && decide (st ≠ 2)
  let s := if lost then s.loseLock else s
  s.chooseParent

/-- A received time message of a Type with the t1 it carries: the oldest that came on a port in a frame and has not been taken (R34). -/
def State.timeMsg (s : State) (port type t1 : Nat) : Option TimeMsg :=
  s.core.fab.timeIn.find? (fun m => m.port = port && bits m.hdr 0 8 = type && bits m.hdr (if type = 1 then 32 else 96) 64 = t1 % 2 ^ 64)

/-- The receive stamp of a time message, in 2^-16 ns: the one taken when its frame came, or now where the message came by its own row (R33;
log 57). -/
def State.stampOf (s : State) (m : Option TimeMsg) : Nat :=
  match m with | some x => x.at_ | none => s.ft.units

/-- Take a time message. -/
def State.takeTime (s : State) (m : Option TimeMsg) : State :=
  match m with | some x => { s with core.fab.timeIn := s.core.fab.timeIn.erase x } | none => s

/-- TIME_REQUEST: a request has arrived on a port; the reply carries t1, t2 and t3 (R33, R34). -/
def execTimeRequest (port t1 frac hop st : Nat) (s : State) : Out :=
  liftLock (whenLive (fun s =>
    if (s.port port).st = .active then
      let m := s.timeMsg port 1 t1
      let t2 := s.stampOf m
      let s := (s.takeTime m).notePartner port hop st
      s.sendTime port (s.timePayload 2 s.ft.ns t1 (t2 / 65536) s.ft.frac frac (t2 % 65536))
    else s)) s

/-- A reply on the parent: offset and path delay, with t4 the receive stamp; stamps are in 2^-16 ns (R33, R35). -/
def State.measured (s : State) (t1 t2 t3 t4 : Nat) : State :=
  let off : Int := (((t2 : Int) - t1) - ((t4 : Int) - t3)) / 2
  let s := { s with ft.open_ := false, ft.delay := (((t4 : Int) - t1) - ((t3 : Int) - t2)) / 2 }
  (s.correct (-off)).lockRule (-off) 16 4

end Sys2Proof.Machine
end

