-- ==== Sys2Proof/Machine/Fabric.lean ====
section
/-! DEFINITION. The commands of the fabric: packets at their endpoints, frames, retry, bring-up and the die-to-die links
(12_mladben_fabric, 01_machine_layout R19-R23, 14_progress R351-R353). -/
namespace Sys2Proof.Machine

/-! Packets at their endpoints (R291, R292) -/

/-- Take a packet of a type out of the inbox and act on it. -/
def State.onPacket (s : State) (p : Packet) (type : Nat) (f : State → State) : State :=
  if p.type ≠ type then s
  else match s.takePacket p with
    | none => s
    | some t => f t

/-- A response to a request's SRC (R290, R291). -/
def State.respond (s : State) (p : Packet) (type status : Nat) (data : List Byte) : State :=
  let r := s.mkPacket type 2 p.src (epDie p.dest) p.txid (hdrPut 16 1 status) data
  s.emit { r with poison := decide (status = 1) } (epDie p.dest)

/-- Is a request denied: another module's CTX other than 0, or a length outside R291 (log 27)? -/
def State.denied (s : State) (p : Packet) : Bool :=
  let n := hdrField p 26 2
  (decide (epModule p.src ≠ s.modid) && decide (hdrField p 24 2 % 4096 ≠ 0)) || decide (n < 64) || decide (n > 4096) || decide (n % 64 ≠ 0)

def reqAddr (p : Packet) : Nat := hdrField p 16 8 % 2 ^ 56
def reqCtx (p : Packet) : Nat := hdrField p 24 2 % 4096
def reqBytes (p : Packet) : Nat := hdrField p 26 2
/-- FL.T1: ADDR is a flash address (R291). -/
def reqT1 (p : Packet) : Bool := (hdrField p 28 1).testBit 0

/-- A request that waits for the host stays with the responder. -/
def State.waitIn (s : State) (p : Packet) : State := { s with core.fab.waits := s.core.fab.waits ++ [p] }

/-- Serve a read request: its bytes, poisoned where any of them is, or the status that says why not (R291, R292, R406). -/
def State.serveRead (s : State) (p : Packet) : State :=
  let n := reqBytes p
  let a := reqAddr p
  if s.denied p then s.respond p 0x30 2 (leBytes n 0)
  else if reqT1 p then
    if a + n > s.flashTus * tuBytes then s.respond p 0x30 3 (leBytes n 0)
    else
      let r := s.locRead (.flash a) n
      (s.bump (ftlBase + 0x100) n).respond p 0x30 (b2n r.2) r.1
  else match s.vcheck (reqCtx p) a n false false with
    | .none =>
      let r := s.vget (reqCtx p) a n false
      (s.vtouch (reqCtx p) a n false false).respond p 0x30 (b2n r.2) r.1
    | .fault _ _ => s.respond p 0x30 3 (leBytes n 0)
    | st => (s.waitIn p).askFor (reqCtx p) st

/-- Serve a write request; poisoned data is written and its lines are marked (R291, R292, R406). A write that a read-only flash tier refuses is answered
DENIED, the one STATUS of R291 that says so (R227; log 27). -/
def State.serveWrite (s : State) (p : Packet) : State :=
  let n := reqBytes p
  let a := reqAddr p
  if s.denied p || p.data.length ≠ n then s.respond p 0x31 2 []
  else if reqT1 p then
    if a + n > s.flashTus * tuBytes then s.respond p 0x31 3 []
    else if s.core.mem.flashRo then s.respond p 0x31 2 []
    else (s.flashWrite a p.data).respond p 0x31 0 []
  else match s.vcheck (reqCtx p) a n true false with
    | .none =>
      let s := s.vput (reqCtx p) a p.data false
      let s := if p.poison then
          (s.cut (reqCtx p) a n true false).foldl (fun s c => match s.xlate (reqCtx p) c.1 true false with
            | .ok (.hbm d) => (List.range (c.2 / 64)).foldl (fun s k => { s with core.mem.badLines := sins (d / 64 + k) s.core.mem.badLines }) s
            | _ => s) (s.markHost (reqCtx p) a n false)
        else s
      s.respond p 0x31 (b2n p.poison) []
    | .fault _ _ => s.respond p 0x31 3 []
    | .readOnly => s.respond p 0x31 2 []
    | st => (s.waitIn p).askFor (reqCtx p) st

/-- RD_REQ (R292). -/
def execRdReq (p : Packet) (s : State) : Out :=
  liftCore (whenDispatching (fun s => s.onPacket p 0x20 (fun s => s.serveRead p))) s

/-- WR_REQ (R292). -/
def execWrReq (p : Packet) (s : State) : Out :=
  liftCore (whenDispatching (fun s => s.onPacket p 0x21 (fun s => s.serveWrite p))) s

/-- The packet that carries a flag update is taken: its index, operation and setting queue are those of the command (R291). -/
def State.takeFlagUpd (s : State) (f op q : Nat) : State :=
  s.takeOne (fun p => p.type = 0x22 && hdrField p 16 4 % 2 ^ 20 = f && hdrField p 20 1 = op && hdrField p 22 2 = q)

/-- FLAG_UPD: a set or a clear is queued for the flag's next update cycle where the block is the context's; a wait of a queue is registered
with the controller unless it has been (R151, R152, R154, R291). -/
def execFlagUpd (f ctx op q : Nat) (s : State) : Out :=
  liftCore (whenLive (fun s =>
    let s := s.takeFlagUpd f op q
    match op with
    | 1 => s.flagArrive f ctx ⟨true, some q⟩
    | 2 => s.flagArrive f ctx ⟨false, some q⟩
    | _ =>
      let mode := if op = 4 then 2 else if op = 5 then 4 else 1
      match (s.queue q).cur with
      | some c =>
        if (op = 3 || op = 4 || op = 5) && s.ownsFlag ctx f && (s.queue q).ctx = ctx && c.waitFt.isSome && !c.served
            && refFlag (iWait c.raw) = f && refMode (iWait c.raw) = mode
            && !s.core.qm.waiters.any (fun w => w.q = q && w.seq.isNone) then
          { s with core.qm.waiters := s.core.qm.waiters ++ [⟨f, mode, refCtr (iWait c.raw), q, none, s.now⟩] }
        else s
      | none => s)) s

/-- The instruction of an outstanding transaction completes with POISONED where its response is not clean (R203, R293). -/
def State.endOutst (s : State) (t : Nat) (o : Outst) (bad : Bool) : State :=
  let s := { s with core.fab.outst := mdel s.core.fab.outst t }
  if o.queue = 0xFFFF then s
  else if bad then s.finishWith o.queue o.seq 1 1 else s.finish o.queue o.seq

/-- A response reaches its requester: the part of a replica it carries, or the end of the transaction; one that nothing waits for has no
effect (R229, R291, R348). -/
def State.onResponse (s : State) (p : Packet) : State :=
  match mget s.core.fab.outst p.txid with
  | none => s
  | some o =>
    let ok := decide (hdrField p 16 1 = 0) && !p.poison
    match o.tu with
    | some tu => s.replicaPart o p.txid tu ok p.data
    | none => s.endOutst p.txid o (!ok)

/-- RD_RSP (R291). -/
def execRdRsp (p : Packet) (s : State) : Out :=
  liftCore (whenLive (fun s => s.onPacket p 0x30 (fun s => s.onResponse p))) s

/-- WR_ACK (R291). -/
def execWrAck (p : Packet) (s : State) : Out :=
  liftCore (whenLive (fun s => s.onPacket p 0x31 (fun s => s.onResponse p))) s

/-- DROP: the named transaction completes as poisoned; for a group type the RCE that sent it has lost its blocks (R293, R333). The transaction
identifier of a group packet is its number of blocks and 65,536 times its RCE (log 24). -/
def State.onDrop (s : State) (p : Packet) : State :=
  let t := hdrField p 16 1
  let id := hdrField p 20 4
  if decide (0x40 ≤ t) && decide (t ≤ 0x4F) then
    let n := id / 65536 % 16
    (s.bump (rceBase n + 0x138) (id % 65536)).raise (rceInt n) 4
  else match mget s.core.fab.outst id with
    | none => s
    | some o => match o.tu with
      | some tu => s.replicaPart o id tu false []
      | none => s.endOutst id o true

/-- DROP (R293). -/
def execDrop (p : Packet) (s : State) : Out :=
  liftCore (whenLive (fun s => s.onPacket p 0x50 (fun s => s.onDrop p))) s

/-- MGMT: the sink takes it; its content is firmware's (R291, R355). -/
def execMgmt (p : Packet) (s : State) : Out := liftCore (whenLive (fun s => s.onPacket p 0x51 (fun s => s))) s

/-- Subtype of a CTRL packet (R291). -/
def ctrlSub (p : Packet) : Nat := hdrField p 16 1

/-- GATE_NOTICE: the quarter takes it; what it says beyond its subtype is firmware's (R291). -/
def execGateNotice (p : Packet) (s : State) : Out :=
  liftCore (whenLive (fun s => if ctrlSub p = 2 then s.onPacket p 0x11 (fun s => s) else s)) s

/-- FREEZE_STATUS_NOTICE: a partner has frozen. Its port's frames will stop; the notice itself changes nothing here (R291, R411). -/
def execFreezeStatusNotice (p : Packet) (s : State) : Out :=
  liftCore (whenLive (fun s => if ctrlSub p = 3 then s.onPacket p 0x11 (fun s => s) else s)) s

/-! Transit (R293, R299, R301) -/

/-- PACKET_TRANSIT: packet `id` of a port's receive buffer, once its first 4 units or all of it are here, is checked, its HOPS
counted down, and queued on the port or ports it leaves by (R293, R297, R299, R301). A copy for a port that is absent or not ACTIVE is dropped and
counted here (log 72). -/
def State.transit (s : State) (i : Nat) (x : RxPkt) : State :=
  let p := x.pkt
  let refuse (s : State) (reason : Nat) : State := (s.dropPacket p reason i).discardRx i x.id false
  if !packetOk p then refuse (s.raise (fabInt i) 5) 4
  else if p.mc then
    let e := s.mcast p.dest
    let here := setBits 5 (bits e 40 5)
    if !e.testBit 63 then refuse s 2
    else if p.hops = 0 then refuse s 1
    else
      let q := { p with hops := p.hops - 1 }
      let outs := (setBits 40 e).filter (fun o => o ≠ i)
      let ok := outs.filter (fun o => s.portNamed o && decide ((s.port o).st = .active))
      let s := (outs.filter (fun o => !ok.contains o)).foldl (fun s _ => s.dropPacket p 2 i) s
      let own := here.contains (dieOfPort i)
      let s := s.updRx i x.id (fun y => { y with taken := true, outs := ok.length + here.length, mine := own })
      let s := ok.foldl (fun s o => s.queueFrom o q x i) s
      let s := here.foldl (fun s d => match linkOf (dieOfPort i) d with
        | some l => s.cross l (dieOfPort i) { pkt := { p with dest := s.ep d, mc := false }, here := x.here, ps := x.ps, src := some (i, x.id) } none
        | none => s) s
      let s := if own && decide (x.here = p.len) then s.landRx i x else s
      if ok.isEmpty && here.isEmpty then s.discardRx i x.id false else s
  else match s.routeOf p.src p.dest p.vc with
    | none => refuse s 2
    | some o =>
      if p.hops = 0 then refuse s 1
      else (s.updRx i x.id (fun y => { y with taken := true, outs := 1 })).queueFrom o { p with hops := p.hops - 1 } x i

/-- Is a packet of a receive buffer the oldest of its VC whose header has not been forwarded? What comes by one port on one VC is handed on in its
order (R18, R300). -/
def State.nextRx (s : State) (i : Nat) (x : RxPkt) : Bool :=
  decide ((s.port i).rx.find? (fun y => !y.taken && decide (y.pkt.vc = x.pkt.vc)) = some x)

/-- PACKET_TRANSIT (R299). -/
def execPacketTransit (port id : Nat) (s : State) : Out :=
  liftCore (whenDispatching (fun s => match s.rxPkt port id with
    | none => s
    | some x =>
      if x.taken || x.here < min 4 x.pkt.len || !s.nextRx port x then s
      else if !x.pkt.mc && epModule x.pkt.dest = s.modid then s
      else s.transit port x)) s

/-! Frames (R287-R298) -/

/-- Is a port one that sends and takes DATA frames? -/
def State.portActive (s : State) (i : Nat) : Bool := s.portNamed i && decide ((s.port i).st = .active)

/-- FRAME_TRANSMIT: a port starts a frame (R294, R298). After 1,024 frames a marker frame is due first (R287). -/
def execFrameTransmit (port : Nat) (struck : List Nat) (s : State) : Out :=
  liftCore (whenLive (fun s => if s.portActive port && decide ((s.port port).framesSinceMarker < 1024) then s.sendFrame port struck else s)) s

/-- MARKER_FRAME (R287): it carries no units and no sequence number. -/
def execMarkerFrame (port : Nat) (s : State) : Out :=
  liftCore (whenLive (fun s =>
    if s.portActive port && decide ((s.port port).framesSinceMarker ≥ 1024) then
      s.updPort port (fun p => { p with framesSinceMarker := 0, out := none })
    else s)) s

/-- A bad frame is discarded: a NAK episode starts, unless one is running and the frame was not the first of the replay (R298). -/
def State.badFrame (s : State) (i : Nat) (f : Frame) : State :=
  if (s.port i).nakOn && f.seq ≠ (s.port i).next then s else s.startNak i

/-- A good DATA frame: its control area counts at once; its units are taken in SEQ order (R296, R298). `struck`: the slots whose unit is read from
the receive buffer with bad parity, which sets its P (R346). -/
def State.goodFrame (s : State) (i : Nat) (f : Frame) (struck : List Nat) : State :=
  let units := strikeUnits struck f.units
  let s := s.takeControl i f
  if f.seq = (s.port i).next then
    let s := (s.bump (fabBase (i / 2) + 0x108) 1).updPort i (fun p => { p with next := (p.next + 1) % 2 ^ 32, nakOn := false, episodes := 0 })
    (s.portParity i (struck.filter (fun k => k < units.length)).length).recvUnits i false units
  else if (s.port i).nakOn then s
  else s.startNak i

/-- FRAME_RECEIVED: a DATA frame with the symbols corrected, the codewords that could not be, and what its receiver finds (R288, R298, R346). -/
def execFrameReceived (port : Nat) (f : Frame) (corr uncorr : Nat) (check : FrameCheck) (s : State) : Out :=
  liftLock (whenLive (fun s =>
    if !s.portActive port then s
    else
      let b := fabBase (port / 2)
      let s := (s.bump (b + 0x110) corr).bump (b + 0x118) uncorr
      if uncorr > 0 then s.badFrame port f
      else if !frameCrcOk f (s.frameSlots port) then (s.bump (b + 0x120) 1).badFrame port f
      else if f.ctype = 1 then s.goodFrame port f check.struck
      else if f.ctype = 2 || f.ctype = 3 then s
      else s.badFrame port f)) s

/-- REPLAY_TIMEOUT: ACK has not advanced for 4 us while frames are outstanding (R298). -/
def execReplayTimeout (port : Nat) (s : State) : Out :=
  liftCore (whenLive (fun s => if s.portActive port && !(s.port port).replay.isEmpty && decide (s.now ≥ (s.port port).ackFt + 4000) then s.rewind port else s)) s

/-- RETRY_LIMIT: 16 consecutive episodes for one SEQ (R298). -/
def execRetryLimit (port : Nat) (s : State) : Out :=
  liftLock (whenLive (fun s =>
    if s.portActive port && decide ((s.port port).episodes ≥ 16) then
      ((s.raise (fabInt port) 2).updPort port (fun p => { p with episodes := 0 })).portReset port
    else s)) s

/-! Bring-up (R302-R306, R351) -/

def fldEn (i : Nat) : Fld := ⟨fabBase (i / 2) + 8, i % 2, 1, 0⟩
def fldDegrade (p : Nat) : Fld := ⟨fabBase p + 8, 5, 1, 1⟩

/-- Lanes of a port identifier: all 8 of a full port, or those of its half (R285, R286). -/
def State.lanesOf (s : State) (i : Nat) : Nat := if s.halfMode i then (if i % 2 = 0 then 0x0F else 0xF0) else 0xFF

/-- TRAIN_COMPLETE: lanes with their polarity, order and failures. With every lane good the port enters RESYNC; a full port with a
failed lane takes the lower half whose four lanes train, where DEGRADE allows it; otherwise it stays in TRAIN (R302, R306). -/
def execTrainComplete (port pol fail : Nat) (rev : Bool) (s : State) : Out :=
  liftCore (whenLive (fun s =>
    if !s.portNamed port || (s.port port).st ≠ .train then s
    else
      let bad := fail &&& s.lanesOf port
      let half := s.halfMode port
      let degr := !half && decide (bad ≠ 0)
      let ok := if half then decide (bad = 0) else decide (bad = 0) || (s.reg (fldDegrade (port / 2)) = 1 && (bad % 16 = 0 || bad / 16 = 0))
      let s := s.updPort port (fun p => { p with fail := bad, pol := pol % 256, rev := rev })
      if !ok then s
      else
        let s := s.updPort port (fun p => { p with width := if half || degr then 4 else 8, degraded := degr })
        let s := s.raiseIf degr (fabInt port) 7
        let s := s.toState port .resync
        s.updPort port (fun p => { p with rsSent := true, rsGot := false, doneSent := false, doneGot := false,
                                          out := some (s.mkFrame port 2 p.seq [] (some (s.handshake port))) }))) s

/-- LOSS_OF_SIGNAL: a lane loses its signal, and the port resets to TRAIN (R302, R306). -/
def execLossOfSignal (port lane : Nat) (s : State) : Out :=
  liftLock (whenLive (fun s =>
    if s.portNamed port && ((s.port port).st = .active || (s.port port).st = .resync) && (s.lanesOf port).testBit lane then
      (s.updPort port (fun p => { p with fail := p.fail ||| 2 ^ lane })).portReset port
    else s)) s

/-- RESYNC: the first RESYNC frame of the partner (R304). -/
def execResync (port : Nat) (f : Frame) (s : State) : Out :=
  liftLock (whenLive (fun s =>
    match f.hs with
    | some h =>
      if s.portNamed port && decide ((s.port port).st = .resync) && f.ctype = 2 && frameCrcOk f (s.frameSlots port) && !(s.port port).rsGot then
        s.onHandshake port f h
      else s
    | none => s)) s

/-- SURVIVOR_DRAINED: no unit of the partner's earlier incarnation is left, so RESYNC_DONE is sent; the cycles it was withheld count in
GLB_LDG_RSWAIT, at 2.5 cycles a nanosecond (R351). -/
def execSurvivorDrained (port : Nat) (s : State) : Out :=
  liftCore (whenLive (fun s =>
    match (s.port port).rsFt with
    | some _ =>
      if (s.port port).st = .resync && !(s.port port).rx.any (·.old) then ((s.countWait port).sendDone port).tryActive port else s
    | none => s)) s

/-- RESYNC_DONE: with one sent too, the port enters ACTIVE; where the link's state was lost its FREED counts are the ones that SENT takes (R304, R351). -/
def execResyncDone (port : Nat) (f : Frame) (s : State) : Out :=
  liftLock (whenLive (fun s =>
    match f.hs with
    | some h =>
      if !(s.portNamed port && decide ((s.port port).st = .resync) && f.ctype = 3 && frameCrcOk f (s.frameSlots port)) then s
      else
        let s := if (s.port port).rsGot then s else s.onHandshake port f h
        let s := if (s.port port).lost then s.rebase port f.freed else s
        if (s.port port).st = .resync then (s.updPort port (fun p => { p with doneGot := true })).tryActive port else s
    | none => s)) s

def fldLinkTmo : Fld := ⟨0x80C, 0, 16, 1000⟩

/-- LINK_TMO: outside ACTIVE for LINK_TMO ms, the port's queued packets are dropped and its state is discarded (R353). -/
def execLinkTmo (port : Nat) (s : State) : Out :=
  liftLock (whenLive (fun s =>
    if s.portNamed port && (s.port port).left && s.reg fldLinkTmo ≠ 0 && (s.port port).st ≠ .active
        && decide (s.now ≥ (s.port port).leftFt + 1000000 * s.reg fldLinkTmo) then
      (((s.dropQueued port).discardState port).updPort port (fun p => { p with left := false })).raise 0x880 2
    else s)) s

/-- FAB_CTL_EN: setting ENh starts training once FAB_MODID has been written; clearing it drops the queued packets, discards the link's
state and returns the port to DOWN (R302, R353). -/
def State.setEn (s : State) (i : Nat) (v : Bool) : State :=
  let s := s.setReg (fldEn i) (b2n v)
  if i % 2 = 1 && !s.halfMode i then s
  else if v then (if (s.port i).st = .down && s.core.fab.modidSet then s.toState i .train else s)
  else if (s.port i).st = .down then s
  else ((((s.dropQueued i).discardState i).countWait i).leaveTo i .down).updPort i (fun p => { p with
    left := false, lost := false, out := none, width := 0, rsSent := false, rsGot := false, rsFt := none, doneSent := false, doneGot := false, resend := [] })

/-- FAB_CTL_EN (R302). -/
def execFabCtlEn (port : Nat) (v : Bool) (s : State) : Out :=
  liftLock (whenDispatching (fun s => if s.portPresent (port / 2) then s.setEn port v else s)) s

/-- FAB_CTL_RESET (R302). -/
def execFabCtlReset (port : Nat) (s : State) : Out :=
  liftLock (whenDispatching (fun s => if s.portNamed port then s.portReset port else s)) s

/-- A change of mode, taken only while both halves are DOWN (R286). -/
def State.setHalf (s : State) (p : Nat) (v : Bool) : State :=
  if (s.port (2 * p)).st = .down && (s.port (2 * p + 1)).st = .down then s.setReg (fldHalf p) (b2n v) else s

/-- FAB_CTL_HALF (R286). -/
def execFabCtlHalf (p : Nat) (v : Bool) (s : State) : Out :=
  liftCore (whenDispatching (fun s => if s.portPresent p then s.setHalf p v else s)) s

/-- A write of FAB_MODID: taken while every port is DOWN; ports that are enabled then begin to train (R302, R310). -/
def State.modidWrite (s : State) (id : Nat) : State :=
  if s.core.fab.ports.any (fun e => e.2.st ≠ .down) then s
  else
    let s := { s.setReg fldModid id with core.fab.modidSet := true }
    ((List.range 40).filter (fun i => s.portNamed i && s.reg (fldEn i) = 1)).foldl (fun s i => s.toState i .train) s

/-- FAB_MODID_WRITE (R310). -/
def execFabModidWrite (id : Nat) (s : State) : Out := liftCore (whenDispatching (fun s => s.modidWrite id)) s

/-! Die-to-die links (R21, R308) -/

/-- A die of each link, by the numbers of GLB_RESET_CAUSE.LINK (R402). -/
def linkDie (l : Nat) : Nat := [0, 1, 2, 3, 0, 1, 0, 1, 2, 3].getD l 4

/-- May the next unit of a packet cross: it is the oldest packet of its VC that leaves its die by this link, and the unit is there; a new packet needs its
first 4 units, or all of it, and credits for all its units (R295, R297, R308). -/
def State.mayCross (s : State) (c : Crossing) : Bool :=
  (if c.sent > 0 then decide (c.sent < c.here)
    else decide (min 4 c.pkt.len ≤ c.here)
      && decide ((mgetD s.core.fab.d2d c.link {}).outst c.die c.pkt.vc + max 1 c.pkt.len ≤ d2dLimit c.link c.pkt.vc))
    && decide (((s.core.fab.crossing.find? (fun d => d.link = c.link && d.die = c.die && d.pkt.vc = c.pkt.vc)).map (·.id)) = some c.id)

/-- The packet whose unit a die sends over a link next, with the sender's place in the round: of VC0, else VC1, else VC2, else by weighted round robin
among VC3 and the group channels (R294, R308). -/
def State.pickCrossing (s : State) (link die : Nat) : Option (Crossing × Nat × Nat) :=
  let l := s.core.fab.crossing.filter (fun c => c.link = link && c.die = die && s.mayCross c)
  let on (v : Nat) := l.find? (fun c => c.pkt.vc = v)
  let w := mgetD (mgetD s.core.fab.d2d link {}).wrr die (0, 0)
  let strict := (on 0 <|> on 1 <|> on 2).map (fun c => (c, w))
  let stay := if w.2 > 0 then (on (w.1 + 3)).map (fun c => (c, (w.1, w.2 - 1))) else none
  let go := (((List.range 13).map (fun k => (w.1 + 1 + k) % 13)).findSome? (fun k => (on (k + 3)).map (fun c => (c, (k, s.turnsOf (k + 3) - 1)))))
  (strict <|> stay <|> go).map (fun x => (x.1, x.2.1, x.2.2))

/-- The packet whose unit is next to come over a link, with its sender's place in the round: the one to be replayed from the mark, or of the two dies'
choices that of the higher class and then the older (R21, R294, R308; log 73). -/
def State.nextOn (s : State) (link : Nat) : Option (Crossing × Nat × Nat) :=
  let d := mgetD s.core.fab.d2d link {}
  let cls (c : Crossing) : Nat := min 3 c.pkt.vc
  match d.again.bind (fun n => s.core.fab.crossing.find? (fun c => c.id = n && c.link = link)) with
  | some c => some (c, mgetD d.wrr c.die (0, 0))
  | none =>
    match (List.range 5).filterMap (fun die => s.pickCrossing link die) with
    | [] => none
    | x :: l => some (l.foldl (fun a b => if cls b.1 < cls a.1 || (cls b.1 = cls a.1 && b.1.id < a.1.id) then b else a) x)

/-- The crossing whose unit comes next. -/
def State.nextCrossing (s : State) (link : Nat) : Option Crossing := (s.nextOn link).map (·.1)

/-- A unit of a packet has crossed its link: its place in the receive buffer it came from is free, and the far buffer holds it until it enters the crossbar
queue of a port or, with the packet whole, its unit takes it (R19, R22, R295, R297, R301). -/
def State.unitCrossed (s : State) (c : Crossing) : State :=
  let n := c.sent + 1
  let last := decide (n ≥ c.pkt.len)
  let s := { s.updD2d c.link (fun d => { d with sent := mupd d.sent (16 * c.die + c.pkt.vc) 0 (fun x => (x + 1) % 2 ^ 24) }) with
                    core.fab.crossing := if last then s.core.fab.crossing.filter (fun d => d.id ≠ c.id)
                      else s.core.fab.crossing.map (fun d => if d.id = c.id then { d with sent := n, ps := c.ps } else d) }
  let s := match c.src with
    | some (j, id) => if c.pkt.mc then s else s.freeRx j id 1 false
    | none => s
  let s := if last then s.copyGone c.src else s
  match c.out, c.stamp with
  | some o, _ => (s.mapTx (fun l => l.map (fun x =>
      if x.via = some c.id then { x with pkt := c.pkt, ps := c.ps, here := n, via := if last then none else x.via } else x))).fillXbar o c.pkt.vc
  | none, some (port, at_) =>
    { s.d2dFreed c.link c.die c.pkt.vc 1 with core.fab.timeIn := s.core.fab.timeIn ++ [⟨port, at_, c.pkt.hdr⟩] }
  | none, none =>
    let p := { c.pkt with poison := c.pkt.poison || !c.ps.isEmpty }
    if last then s.toInbox { pkt := p, link := some (c.link, c.die) } else s

/-- D2D_UNIT_RECEIVED: a good unit is passed on, with P set where it is read with bad parity (R346); one that fails its CRC is replayed from the
mark, and failed replays are counted (R21, R308). -/
def execD2dUnitReceived (link : Nat) (check : UnitCheck) (s : State) : Out :=
  liftCore (whenLive (fun s =>
    let d := mgetD s.core.fab.d2d link {}
    if link ≥ 10 || d.failed then s
    else
      match s.nextOn link with
      | none =>
        let d := if check.ok then { d with units := d.units + 1, fails := 0, retry := false, again := none }
          else { d with fails := if d.retry then d.fails + 1 else 0, retry := true }
        { s with core.fab.d2d := mput s.core.fab.d2d link d }
      | some (c, w) =>
        let d := if check.ok then { d with units := d.units + 1, fails := 0, retry := false, again := none, wrr := mput d.wrr c.die w }
          else { d with fails := if d.retry then d.fails + 1 else 0, retry := true, again := some c.id }
        let s := { s with core.fab.d2d := mput s.core.fab.d2d link d }
        if !check.ok then s
        else if check.struck then ((s.bump (rasBase + 0x120) 1).rasUc 8 (linkDie link) 0xFFFF 0xFFFF 0 1).unitCrossed { c with ps := c.ps ++ [c.sent] }
        else s.unitCrossed c)) s

/-- D2D_LINK_FAILED: after 16 consecutive failed replays, a fatal error (R21, R405 source 0x0A). -/
def execD2dLinkFailed (link : Nat) (s : State) : Out :=
  liftCore (whenLive (fun s =>
    let d := mgetD s.core.fab.d2d link {}
    if link < 10 && !d.failed && decide (d.fails ≥ 16) then
      { s with core.fab.d2d := mput s.core.fab.d2d link { d with failed := true } }.fatalStop 0x0A (linkDie link) link
    else s)) s

end Sys2Proof.Machine
end

