-- ==== Sys2Proof/Machine/Life.lean ====
section
/-! DEFINITION. Lives of the module: resets, loss of power, measurements and the stages of start-up (16_bedrock R384-R403, 20_module
R445-R448, 19_power R429, R430). -/
namespace Sys2Proof.Machine

def secInt : Nat := secBase + 0x80

/-! Measurements (R394) -/

/-- A byte list cut or padded with zeros to n bytes. -/
def fitTo (n : Nat) (l : List Byte) : List Byte := l.take n ++ leBytes (n - l.length) 0

/-- SHAKE256 with 64 bytes of output. -/
def digest (l : List Byte) : List Byte := fitTo 64 (Config.shake256 l)

/-- A measurement register; zero until extended. -/
def State.meas (s : State) (r : Nat) : List Byte := fitTo 64 (mgetD s.core.sec.meas r [])

/-- Extend a register with a digest and log the event (R394). -/
def State.extend (s : State) (r : Nat) (d : List Byte) : State :=
  { s with core.sec.meas := mput s.core.sec.meas r (digest (s.meas r ++ d)),
           core.sec.log := s.core.sec.log ++ [⟨r, s.now, d⟩] }

/-- Events the log holds, and those that EXTEND may fill. -/
def logCap : Nat := 1024
def logHost : Nat := 992

/-- Extend M3 with the security state; the last place takes the closing event (R394). -/
def State.secChange (s : State) : State :=
  if s.core.sec.m3closed || s.core.sec.log.length ≥ logCap then s
  else if s.core.sec.log.length + 1 = logCap then
    { s with core.sec.m3closed := true }.extend 3 (digest (leBytes 8 0x4445534F4C43334D))
  else s.extend 3 (digest (Config.secState s.core.host.ideIo s.core.host.ideCm s.core.sec.roEn))

/-! The image (R389, R390) -/

/-- Little-endian number of n bytes at an offset. -/
def numAt (l : List Byte) (off n : Nat) : Nat := leNat ((l.drop off).take n)

/-- The parts of a boot area: header, body, signature, key. -/
structure Image where
  hdr : List Byte
  body : List Byte
  sig : List Byte
  key : List Byte
  deriving DecidableEq, Repr

/-- Cut a boot area or a staged component into its parts. -/
def imageOfBytes (l : List Byte) : Image :=
  let n := numAt l 8 4
  ⟨l.take 256, (l.drop 256).take n, (l.drop (256 + n)).take 2820, (l.drop (256 + n + 2820)).take 68⟩

def Image.svn (x : Image) : Nat := numAt x.hdr 6 1
def Image.slot (x : Image) : Nat := numAt x.hdr 7 1

/-- The verification of R390: 0, or the failure code. -/
def State.verifyImage (s : State) (l : List Byte) : Nat :=
  let x := imageOfBytes l
  let size := numAt x.hdr 8 4
  let inBody (off : Nat) : Bool := decide (numAt x.hdr off 4 + numAt x.hdr (off + 4) 4 ≤ size)
  if l.length < 256 || numAt x.hdr 0 4 ≠ 0x4E594C46 || numAt x.hdr 4 2 ≠ 1 || (x.hdr.drop 64).any (· ≠ 0) || size > 67108864
      || x.body.length ≠ size || !inBody 12 || !inBody 20 || x.svn > 64 then 2
  else if x.slot > 1 || (if x.slot = 0 then s.fuse.krev0 else s.fuse.krev1) || digest x.key ≠ fitTo 64 (Config.keyDigest x.slot)
      || !Config.xmssVerify x.key (x.hdr ++ x.body) x.sig || !(numAt x.hdr 28 4).testBit (s.fuse.grade - 1) then 3
  else if x.svn < s.core.sec.svnFuse then 4
  else 0

/-! The end of a life (R388, R412) -/

/-- Recoveries not yet programmed read wholly old or wholly new; which is a free value for each (R226, R388). One abandoned meanwhile is not written. -/
def State.settleProg (s : State) : State :=
  s.core.mem.progQ.foldl (fun s w =>
    let s := if Config.freeNat s.core.free % 2 = 0 || !smem w.1 s.core.mem.recovering then s else { s with core.mem.flash := memWrites s.core.mem.flash (w.1 * tuBytes) w.2 }
    { s with core.free := s.core.free + 1 }) s

/-- An index-record write in flight likewise (R388, R395). -/
def State.settleIdx (s : State) : State :=
  if !s.core.sec.writing then s
  else
    let new := decide (Config.freeNat s.core.free % 2 = 1)
    { s with core.free := s.core.free + 1, core.sec.idxRec := if new then s.core.sec.idxRec + 256 else s.core.sec.idxRec }

/-- The next life: everything but flash, the boot area, the index record, the SVN fuses and the pins starts anew; RAS_FATAL and GLB_FRZ stay
unless power was removed (R388, R402, R415, R416). -/
def State.newLife (s0 : State) (cause : Nat) (rails : Bool) (phase : Phase) : State :=
  let s := s0.settleProg.settleIdx
  let r := s.core.ras
  let c := s.core.sec
  let b := s.core.boot
  { s with
    ft := {}
    core := {
      free := s.core.free + 1
      fab := { draw := s.core.free }
      mem := { flash := s.core.mem.flash, host := s.core.mem.host, hostBad := s.core.mem.hostBad, marked := s.core.mem.marked,
               flashRo := s.core.mem.flashRo, wear := s.core.mem.wear }
      sec := { bootArea := c.bootArea, svnFuse := c.svnFuse, idxRec := c.idxRec, lastNext := if c.blkEnd = 0 then c.lastNext else c.next }
      ras := if rails then { v := r.v, more := r.more, die := r.die, unit := r.unit, src := r.src, fatalFt := r.fatalFt, froze := r.froze, fatal := r.fatal || r.stop }
        else {}
      pwr := if rails then { vin := s.core.pwr.vin, watts := s.core.pwr.watts, vinLow := s.core.pwr.vinLow, rails := s.core.pwr.rails,
                             sensors := s.core.pwr.sensors.map (fun (x : Nat × Sensor) => (x.1, { x.2 with max := x.2.t })) } else {}
      boot := { phase := phase, cause := cause, pwrEn := b.pwrEn, perst := b.perst, tripN := b.tripN, hard := b.hard, trip := b.trip,
                inputLost := b.inputLost, deferred := b.deferred } } }

/-- A reset that keeps the rails up: start-up runs again from the 40 ms point, where nothing holds it (R384, R388). -/
def State.resetModule (s : State) (cause : Nat) : State :=
  s.newLife cause true (if s.core.boot.perst || s.core.boot.trip then .rails else .rom)

/-- Power is removed: every rail goes down (R388, R430, R448). -/
def State.powerOff (s : State) : State := s.newLife 1 false .off

/-- The rail sequence begins (R384, R429). -/
def State.startRails (s : State) (cause : Nat) : State := s.newLife cause false .rails

/-- Nothing holds a module whose SB_PWR_EN is asserted (R384, R430, R435, R448). -/
def State.mayStart? (s : State) : Bool :=
  let b := s.core.boot
  b.pwrEn && !b.perst && !b.deferred && !b.inputLost && !b.hard && !b.trip && decide (b.phase = .off)

/-! Start-up stages (R384-R387) -/

/-- Is a rail up? -/
def State.powered (s : State) : Bool := decide (s.core.boot.phase ≠ .off)

/-- A start-up stage fails (R387): recovery for failures 2 to 4, FAILED otherwise. -/
def State.startFailure (s : State) (code link : Nat) : State :=
  let s := { s with core.boot.fail := code, core.boot.link := link, core.boot.faultN := true }
  if 2 ≤ code ∧ code ≤ 4 then { s with core.boot.phase := .recovery }.raise secInt 1
  else { s with core.boot.phase := .failed }

/-- SB_PWR_EN_ASSERT: held for 10 ms; `early`: less than 1 s after a deassertion, so that it takes effect when that second has passed (R384, R448). -/
def execSbPwrEnAssert (early : Bool) (s : State) : Out :=
  liftTime (fun s =>
    if s.core.boot.pwrEn then s
    else
      let s := { s with core.boot.pwrEn := true, core.boot.deferred := early }
      if s.mayStart? then s.startRails 1 else s) s

/-- PWR_EN_DEFERRED_START (R448). -/
def execPwrEnDeferredStart (s : State) : Out :=
  liftTime (fun s =>
    if !s.core.boot.deferred then s
    else
      let s := { s with core.boot.deferred := false }
      if s.mayStart? then s.startRails 1 else s) s

/-- SB_PWR_EN_DEASSERT: the rails go down, what a HARD level or a lost input held is released (R388, R430, R435, R448). -/
def execSbPwrEnDeassert (s : State) : Out :=
  liftTime (fun s =>
    { s with core.boot.pwrEn := false, core.boot.tripN := false, core.boot.hard := false, core.boot.trip := false, core.boot.inputLost := false,
             core.boot.deferred := false }.powerOff) s

/-- HOST_PERST_N_ASSERT: low for 10 us (R388, R448). -/
def execHostPerstNAssert (s : State) : Out :=
  liftTime (fun s =>
    if s.core.boot.perst then s
    else
      let s := { s with core.boot.perst := true }
      if s.powered then s.resetModule 2 else s) s

/-- HOST_PERST_N_DEASSERT: start-up runs from the later of the two pins (R384). -/
def execHostPerstNDeassert (s : State) : Out :=
  liftTime (fun s =>
    let s := { s with core.boot.perst := false }
    if s.mayStart? then s.startRails 1
    else if s.core.boot.phase = .rails && !s.core.boot.trip then { s with core.boot.phase := .rom }
    else s) s

/-- RAIL_FAULT: start-up stops; a failure of VMARL leaves SB_FAULT_N off (R385, R429). The spec gives the failure no FAIL code. -/
def execRailFault (vmarl : Bool) (s : State) : Out :=
  liftCore (fun s =>
    if s.core.boot.phase = .rails && !s.core.boot.perst && !s.core.boot.trip
    then { s with core.boot.phase := .failed, core.boot.faultN := !vmarl } else s) s

/-- ROM_STAGE_END: the outputs are enabled, the fuses loaded and M0 extended (R384, R385, R394, R444). -/
def execRomStageEnd (s : State) : Out :=
  liftCore (fun s =>
    if (s.core.boot.phase = .rom || s.core.boot.phase = .rails) && !s.core.boot.perst && !s.core.boot.trip && !s.core.ras.frozen then
      { s with core.boot.phase := .verify, core.boot.outs := true, core.boot.faultN := false, core.boot.tripN := false,
               core.boot.fusesLoaded := true, core.boot.clkreq := true }.extend 0
        (digest (Config.romData s.fuse.grade s.core.sec.svnFuse s.fuse.krev0 s.fuse.krev1))
    else s) s

/-- IMAGE_VERIFIED: stage 1 is measured and released, or recovery is entered (R384, R390, R394). -/
def execImageVerified (s : State) : Out :=
  liftCore (fun s =>
    if s.core.boot.phase ≠ .verify || s.core.ras.frozen then s
    else
      let code := s.verifyImage s.core.sec.bootArea
      if code ≠ 0 then s.startFailure code 0xFF
      else
        let x := imageOfBytes s.core.sec.bootArea
        { s with core.boot.phase := .stage1, core.sec.imgSvn := x.svn, core.sec.imgKey := x.slot }.extend 1
          (digest (x.hdr ++ (x.body.drop (numAt x.hdr 12 4)).take (numAt x.hdr 16 4)))) s

/-- HBM_TRAINED (R384). -/
def execHbmTrained (s : State) : Out :=
  liftCore (fun s => if s.core.boot.phase = .stage1 && !s.core.ras.frozen then { s with core.boot.phase := .hbmDone } else s) s

/-- D2D_TRAINED: every link is trained; stage 2 is measured and released (R23, R384, R394). -/
def execD2dTrained (s : State) : Out :=
  liftCore (fun s =>
    if s.core.boot.phase = .hbmDone && !s.core.ras.frozen then
      let x := imageOfBytes s.core.sec.bootArea
      { s with core.boot.phase := .stage2, core.fab.d2d := (List.range 10).map (fun l => (l, ({ trained := true } : D2d))) }.extend 2
        (digest ((x.body.drop (numAt x.hdr 20 4)).take (numAt x.hdr 24 4)))
    else s) s

/-- STARTUP_FAILURE at the stage that can meet it: 1 in ROM (which follows the rail sequence, where nothing holds it), 5 and 6 in stage 1, 7 and 8 in stage 2 (R387, R402). -/
def execStartupFailure (code link : Nat) (s : State) : Out :=
  liftCore (fun s =>
    let p := s.core.boot.phase
    if s.core.ras.frozen then s
    else if (p = .rom || p = .rails) && !s.core.boot.perst && !s.core.boot.trip && code = 1 then { s with core.boot.outs := true }.startFailure 1 0xFF
    else if p = .stage1 && code = 5 then s.startFailure 5 0xFF
    else if p = .hbmDone && code = 6 && decide (link < 10) then
      { s with core.fab.d2d := mput s.core.fab.d2d link { failed := true } }.startFailure 6 link
    else if p = .stage2 && (code = 7 || code = 8) then s.startFailure code 0xFF
    else s) s

/-! Ready (R384, R391, R395) -/

/-- Reserve a block of 256 indices at start-up; what an interrupted block left counts as abandoned (R395). -/
def State.firstBlock (s : State) : State :=
  let c := s.core.sec
  let n := c.idxRec
  let s := s.bump (secBase + 0x208) (n - c.lastNext)
  if n + 256 > 2 ^ 40 then { s with core.sec.next := n, core.sec.blkEnd := n }
  else { s with core.sec.idxRec := n + 256, core.sec.next := n, core.sec.blkEnd := n + 256 }

/-- Frames of a stack as firmware has divided them: all of a present stack (R214), water marks in order (R219), and on S0, S2, S4 and S6 at least the
2 MiB of the flags homed there for firmware (R151). -/
def State.framesOk (s : State) (frames : List (Nat × Nat × Nat)) (wm : List (Nat × Nat)) : Bool :=
  (List.range 8).all (fun k =>
    let f := frames.getD k (0, 0, 0)
    let w := wm.getD k (0, 0)
    if s.stackPresent k then decide (f.1 + f.2.1 + f.2.2 = framesPerStack) && decide (w.1 ≤ w.2) && (k % 2 = 1 || decide (0 < f.1))
    else decide (f = (0, 0, 0)))

/-- READY: firmware's tables are built with the frames and water marks it has chosen; RWL fields lock, FT takes its initial step, the SVN
fuses follow the image and M3 is extended (R9, R36, R384, R391, R394). Only with CXL trained (R363). `cqt`, `ctxt` and `stall` are what firmware
has written to the RWL fields QMG_CQT_BASE, MMU_CTXT_BASE and QMG_DISP_CFG before they lock (R9, R160, R259). -/
def execReady (frames : List (Nat × Nat × Nat)) (wm : List (Nat × Nat)) (cqt ctxt stall : Nat) (s : State) : Out :=
  liftTime (fun s =>
    if s.core.boot.phase ≠ .stage2 || s.core.ras.frozen || !s.core.host.cxl || !s.framesOk frames wm then s
    else
      let s := match s.ft.src with
        | some d => s.fix d
        | none => s
      let s := ((s.setReg fldCqtBase cqt).setReg fldCtxtBase ctxt).setReg fldStallMax stall
      let at_ {α : Type} (l : List α) : Map α := l.zipIdx.map (fun x => (x.2, x.1))
      ({ s.firstBlock with
        ft.everReady := true, core.boot.phase := .ready, core.boot.locked := true,
        core.sec.svnFuse := max s.core.sec.svnFuse s.core.sec.imgSvn,
        core.mem.frames := at_ (frames.take 8), core.mem.wm := at_ (wm.take 8) }).secChange) s

/-! Input and resets from outside (R388, R430) -/

/-- VIN_LOW: below 40 V for 1 ms (R430). -/
def execVinLow (s : State) : Out :=
  liftCore (fun s =>
    if !s.powered then s
    else
      let s := { s with core.pwr.vinLow := true }
      if s.core.ras.frozen then s else s.raise (pwrBase + 0x80) 0) s

/-- VIN_OUT_OF_RANGE: the rails go down as a loss of power; `gone`: the input is removed, which also releases a HARD level (R430, R435). -/
def execVinOutOfRange (gone : Bool) (s : State) : Out :=
  liftTime (fun s =>
    let s := if gone then { s with core.boot.hard := false, core.boot.tripN := false } else s
    { s with core.boot.inputLost := s.core.boot.pwrEn, core.boot.trip := false }.powerOff) s

/-- INPUT_RESTART: in range for 100 ms, and no sooner than 1 s after the rails went down (R430). -/
def execInputRestart (s : State) : Out :=
  liftTime (fun s =>
    if !s.core.boot.inputLost then s
    else
      let s := { s with core.boot.inputLost := false }
      if s.mayStart? then s.startRails 7 else s) s

/-- CXL_RESET (R382, R388). -/
def execCxlReset (s : State) : Out := liftTime (fun s => if s.timing then s.resetModule 3 else s) s

end Sys2Proof.Machine
end

