-- ==== Sys2Proof/Machine/Attest.lean ====
section
/-! DEFINITION. Bedrock in operation: identity indices and signatures, the SEC commands, firmware updates, the mailbox, DOE and IDE
(16_bedrock R390-R401, 15_host R368, R379, R380). -/
namespace Sys2Proof.Machine

/-! Signatures (R395-R400) -/

/-- Bytes of an identity signature. -/
def sigBytes : Nat := 9893

/-- Events as GET_LOG returns them (R394, R398). -/
def MeasEvent.bytes (e : MeasEvent) : List Byte := leBytes 8 e.reg ++ leBytes 8 e.ft ++ fitTo 64 e.digest

/-- Object types of R397: a request's response, and the answer to a request that gets none. -/
def badType : Nat := 0xFF

/-- Answer with a status alone: 1 BUSY, 2 EXHAUSTED, 3 BAD_REQUEST (R397, R399; log 31). -/
def State.refuse (s : State) (path status : Nat) : State :=
  { s with core.sec.resp := mput s.core.sec.resp path (badType, leBytes 4 status) }

/-- A signature over a message with the next index. -/
def State.sign (s : State) (m : List Byte) : List Byte := fitTo sigBytes (Config.identitySign s.fuse.serial s.core.sec.next m)

/-- The 56 bytes before the registers of a QUOTE response (R399). -/
def State.quoteHeader (s : State) (payload : List Byte) : List Byte :=
  leBytes 8 (put 8 8 (numAt payload 32 1)) ++ leBytes 8 s.now ++ leBytes 8 s.core.sec.next ++ fitTo 32 payload

/-- The response that a signed request gets (R398-R400). The bytes "NYLQUOTE" come before what a quote signs. -/
def State.signedResponse (s : State) (r : SigReq) : Nat × List Byte :=
  if r.kind = 2 then
    let m := s.quoteHeader r.payload ++ (setBits 8 (numAt r.payload 32 1)).flatMap s.meas
    (0x82, m ++ s.sign (leBytes 8 0x45544F55514C594E ++ m))
  else if r.kind = 3 then
    let m := ((s.core.sec.log.drop (numAt r.payload 0 2)).take (numAt r.payload 2 2)).flatMap MeasEvent.bytes
    (0x83, m ++ s.sign m)
  else (0, s.sign r.payload)

/-- End a SEC command (R160, R401). -/
def State.secDone (s : State) (code : Nat) : State := s.cmdDone 3 code secInt 0

/-- SEC_DATA from its first byte. -/
def State.putSecData (s : State) (l : List Byte) : State := { s with core.sec.data := memWrites s.core.sec.data 0 (fitTo 16384 l) }

/-- Hand a response to its path; on the SEC path it ends the command. -/
def State.give_ (s : State) (path : Nat) (x : Nat × List Byte) : State :=
  let s := { s with core.sec.resp := mput s.core.sec.resp path x }
  if path = 0 then (s.putSecData x.2).secDone 0 else s

/-- Has the identity key no index left (R396)? -/
def State.exhausted (s : State) : Bool := decide (s.core.sec.next + 256 ≥ 2 ^ 40)

/-- Answer EXHAUSTED (R396). -/
def State.exhaust (s : State) (path : Nat) : State :=
  let s := s.raise secInt 3
  if path = 0 then s.secDone 0xE else s.refuse path 2

/-- Sign what waits, in order, as far as the block's indices last (R395, R396, R400). -/
def State.signAll (s : State) : Nat → State
  | 0 => s
  | n + 1 =>
    match s.core.sec.queue with
    | [] => s
    | r :: rest =>
      if s.exhausted then ({ s with core.sec.queue := rest }.exhaust r.path).signAll n
      else if s.core.sec.next ≥ s.core.sec.blkEnd then s
      else
        let x := s.signedResponse r
        (({ s with core.sec.queue := rest, core.sec.next := s.core.sec.next + 1 }.bump (secBase + 0x200) 1).give_ r.path x).signAll n

/-- A request for a signature: at most eight wait, a ninth is answered BUSY (R400). -/
def State.requestSig (s : State) (r : SigReq) : State :=
  if s.exhausted then s.exhaust r.path
  else if s.core.sec.queue.length ≥ 8 then (if r.path = 0 then s.secDone 0xE else s.refuse r.path 1)
  else { s with core.sec.queue := s.core.sec.queue ++ [r] }.signAll 9

/-- INDEX_RESERVE: 64 or fewer indices of the block remain (R395). -/
def execIndexReserve (s : State) : Out :=
  liftCore (fun s =>
    if s.live && !s.core.sec.writing && decide (s.core.sec.blkEnd - s.core.sec.next ≤ 64) && decide (s.core.sec.idxRec + 256 ≤ 2 ^ 40)
    then { s with core.sec.writing := true } else s) s

/-- INDEX_RECORD_WRITTEN: the new block may be used, and what waited for it is signed (R395, R396). -/
def execIndexRecordWritten (s : State) : Out :=
  liftCore (fun s =>
    if s.core.sec.writing && s.live then
      { s with core.sec.writing := false, core.sec.idxRec := s.core.sec.idxRec + 256, core.sec.blkEnd := s.core.sec.idxRec + 256 }.signAll 9
    else s) s

/-! The attestation exchange (R397, R398) -/

/-- The GET_IDENTITY response (R398). -/
def State.identityResponse (s : State) : List Byte :=
  fitTo 68 (Config.identityKey s.fuse.serial) ++ leBytes 16 s.fuse.serial ++ fitTo sigBytes (Config.endorsement s.fuse.serial)

/-- Is an attestation path: 1 DOE, 2 MCTP. -/
def isPath (p : Nat) : Bool := p = 1 || p = 2

/-- Does a GET_LOG name events of the log, at most 512 (R397)? -/
def State.logNamed (s : State) (first count most : Nat) : Bool := decide (count ≤ most) && decide (first + count ≤ s.core.sec.log.length)

/-- An attestation object of a type on a path (R397). -/
def State.attest (s : State) (path type : Nat) (payload : List Byte) : State :=
  match type with
  | 0x01 => s.give_ path (0x81, s.identityResponse)
  | 0x02 => if payload.length = 36 && numAt payload 33 3 = 0 then s.requestSig ⟨path, 2, payload⟩ else s.refuse path 3
  | 0x03 => if payload.length = 4 && s.logNamed (numAt payload 0 2) (numAt payload 2 2) 512 then s.requestSig ⟨path, 3, payload⟩ else s.refuse path 3
  | _ => s.refuse path 3

/-- Does bedrock serve its paths: after the ROM stage, not failed, not frozen (R386, R410, R411)? -/
def State.bedrockOn (s : State) : Bool := s.core.boot.outs && !s.core.ras.frozen && decide (s.core.boot.phase ≠ .failed)

/-- An effect of bedrock's. -/
def whenBedrock (f : State → State) : State → State := guardBy State.bedrockOn f

def execGetIdentity (path : Nat) (s : State) : Out :=
  liftCore (whenBedrock (fun s => if isPath path then s.attest path 1 [] else s)) s
def execQuote (path : Nat) (payload : List Byte) (s : State) : Out :=
  liftCore (whenBedrock (fun s => if isPath path then s.attest path 2 payload else s)) s
def execGetLog (path : Nat) (payload : List Byte) (s : State) : Out :=
  liftCore (whenBedrock (fun s => if isPath path then s.attest path 3 payload else s)) s

/-- CMA_SPDM_REQUEST: signed with the identity key, taking an index (R400). -/
def execCmaSpdmRequest (payload : List Byte) (s : State) : Out :=
  liftCore (whenBedrock (fun s => s.requestSig ⟨3, 4, payload⟩)) s

/-! SEC commands (R401) -/

/-- Run a SEC command that ends at once. -/
def State.secCmd (s : State) (op : Nat) (f : State → State × Nat) : State := s.runCmd 3 op secInt 0 f

/-- GET_IDENTITY (R401). -/
def State.secGetIdentity (s : State) : State :=
  s.secCmd 1 (fun s => (s.putSecData s.identityResponse |>.setReg ⟨secBase + 0x30, 0, 64, 0⟩ s.identityResponse.length, 0))

/-- QUOTE: BUSY until it is signed (R396, R401). -/
def State.secQuote (s : State) : State :=
  if s.cmdBusy 3 then s else (s.startCmd 3 2 0).requestSig ⟨0, 2, memReads s.core.sec.data 0 36⟩

/-- GET_LOG: at most 64 events (R401). -/
def State.secGetLog (s : State) : State :=
  let a := s.reg ⟨secBase + 0x28, 0, 64, 0⟩
  if s.cmdBusy 3 then s
  else if !s.logNamed (bits a 0 16) (bits a 16 16) 64 then s.secCmd 3 (fun s => (s, 0xC))
  else (s.startCmd 3 3 0).requestSig ⟨0, 3, leBytes 4 a⟩

/-- EXTEND: registers 4 to 7, while fewer than 992 events are logged (R394, R401). -/
def State.secExtend (s : State) : State :=
  s.secCmd 0x10 (fun s =>
    let r := bits (s.reg ⟨secBase + 0x28, 0, 64, 0⟩) 0 3
    if r < 4 then (s, 0xC)
    else if s.core.sec.log.length ≥ logHost then (s.raise secInt 4, 0xE)
    else (s.extend r (memReads s.core.sec.data 0 64), 0))

/-- RESET with its key value resets the module (R388, R401). -/
def State.secReset (s : State) : State :=
  if s.cmdBusy 3 then s
  else if s.reg ⟨secBase + 0x28, 0, 64, 0⟩ = 0x52535400 then s.resetModule 5
  else s.secCmd 0x20 (fun s => (s, 0xC))

def execSecGetIdentity (s : State) : Out := liftCore (whenBedrock State.secGetIdentity) s
def execSecQuote (s : State) : Out := liftCore (whenBedrock State.secQuote) s
def execSecGetLog (s : State) : Out := liftCore (whenBedrock State.secGetLog) s
def execExtend (s : State) : Out := liftCore (whenBedrock State.secExtend) s
def execSecReset (s : State) : Out := liftTime (whenBedrock State.secReset) s

/-- A SEC command by its OP, as a write of SEC_CMD with GO starts it (R401). -/
def State.secGo (s : State) (op : Nat) : State :=
  match op with
  | 0x01 => s.secGetIdentity | 0x02 => s.secQuote | 0x03 => s.secGetLog | 0x10 => s.secExtend | 0x20 => s.secReset
  | _ => s.secCmd op (fun s => (s, 0xC))

/-! Security state (R380, R394) -/

/-- SECURITY_STATE_CHANGE: IDE becomes active or inactive on CXL.io and on CXL.cache and CXL.mem (R380, R394). -/
def execSecurityStateChange (io cm : Bool) (s : State) : Out :=
  liftCore (whenBedrock (fun s =>
    let same := s.core.host.ideIo = io && s.core.host.ideCm = cm
    let s := { s with core.host.ideIo := io, core.host.ideCm := cm }
    if same || !s.live then s else s.secChange)) s

/-- A write of RAS_CTL.RO_EN; one that M3 can no longer record is discarded (R394, R415; log 32). -/
def State.setRoEn (s : State) : State :=
  if s.core.sec.m3closed || s.core.sec.roEn then s
  else if s.core.sec.log.length + 1 ≥ logCap then s.secChange
  else { s with core.sec.roEn := true }.secChange

def execRoEn (s : State) : Out := liftCore (whenLive State.setRoEn) s

/-- IDE_KM: keys are programmed or refreshed without loss of traffic (R380). -/
def execIdeKm (s : State) : Out :=
  liftCore (whenBedrock (fun s => { s with core.host.ideEpoch := s.core.host.ideEpoch + 1 })) s

/-- IDE_INTEGRITY_FAILURE: the flit is discarded; the T2 reads it held complete poisoned (R380, R381). -/
def State.ideFailure (s : State) : State := s.raise (hifBase + 0x80) 4

/-! DOE (R379) -/

/-- DOE_OBJECT of a protocol: 0 Discovery, 1 CMA-SPDM, 2 Secured CMA-SPDM, 3 CDAT, 4 Yelior attestation. Longer than 64 KiB: discarded, DOE Error
(R379, R397). -/
def execDoeObject (proto type len : Nat) (payload : List Byte) (s : State) : Out :=
  liftCore (whenBedrock (fun s =>
    if len > 65536 then { s with core.host.doeError := true }
    else if proto > 4 then s
    else
      let s := { s with core.host.doe := some proto }
      if proto = 4 then s.attest 1 type payload else s)) s

/-! Firmware updates (R392, R393) -/

/-- The mailbox answers. -/
def State.mboxSay (s : State) (a : Answer) : State := { s with core.host.mbox := some a, core.host.mboxData := [] }

/-- Write the staged image and key to the boot area (R392, R393). -/
def State.writeBoot (s : State) : State :=
  { s with core.sec.bootArea := s.core.sec.staged, core.sec.staged := [], core.sec.path := 0, core.sec.verified := false }.raise secInt 2

/-- A piece put at an offset of what is staged; a piece at 0 starts anew. -/
def stagePiece (old : List Byte) (off : Nat) (data : List Byte) : List Byte :=
  let l := if off = 0 then [] else old
  (fitTo (max off l.length) l).take off ++ data ++ l.drop (off + data.length)

/-- Does the mailbox answer: ready or in recovery (R368, R386, R392)? -/
def State.mboxOn (s : State) : Bool := s.live || (decide (s.core.boot.phase = .recovery) && !s.core.ras.frozen)

/-- A mailbox command; in recovery only four of them are supported (R392). -/
def State.mailbox (s : State) (inRecovery : Bool) (f : State → State) : State :=
  if !s.mboxOn then s
  else if decide (s.core.boot.phase = .recovery) && !inRecovery then s.mboxSay .unsupported
  else f s

/-- A command that returns a payload the spec does not lay out: a free value (R368; log 6). -/
def State.mboxReply (s : State) : State :=
  { s with core.host.mbox := some .success, core.host.mboxData := Config.freeBytes s.core.free, core.free := s.core.free + 1 }

def execIdentify (s : State) : Out := liftCore (fun s => s.mailbox true State.mboxReply) s
def execGetSupportedLogs (s : State) : Out := liftCore (fun s => s.mailbox false State.mboxReply) s
def execMailboxGetLog (s : State) : Out := liftCore (fun s => s.mailbox false State.mboxReply) s
def execGetFwInfo (s : State) : Out := liftCore (fun s => s.mailbox true State.mboxReply) s
def execGetHealthInfo (s : State) : Out := liftCore (fun s => s.mailbox false State.mboxReply) s
def execGetTimestamp (s : State) : Out := liftCore (fun s => s.mailbox false State.mboxReply) s

/-- TRANSFER_FW: a piece is staged; Busy while the other path updates (R392, R393). -/
def execTransferFw (off : Nat) (data : List Byte) (s : State) : Out :=
  liftCore (fun s => s.mailbox true (fun s =>
    if s.core.sec.path = 2 then s.mboxSay .busy
    else { s with core.sec.path := 1, core.sec.staged := stagePiece s.core.sec.staged off data }.mboxSay .success)) s

/-- ACTIVATE_FW: verified, then written to the boot area for the next reset; in recovery the module resets (R392, R393). -/
def execActivateFw (s : State) : Out :=
  liftTime (fun s => s.mailbox true (fun s =>
    if s.core.sec.path = 2 then s.mboxSay .busy
    else if s.verifyImage s.core.sec.staged ≠ 0 then { s with core.sec.path := 0, core.sec.staged := [] }.mboxSay .invalidInput
    else
      let recovery := decide (s.core.boot.phase = .recovery)
      let s := s.writeBoot.mboxSay .success
      if recovery then s.resetModule 5 else s)) s

/-- The management endpoint answers. -/
def State.say (s : State) (a : Answer) : State := { s with core.pwr.mctp := some a }

/-- PLDM_FIRMWARE_UPDATE by step: 0 RequestUpdate, 1 a piece of the component, 2 VerifyComplete, 3 ApplyComplete, 4 the update is cancelled
(R393). -/
def execPldmFirmwareUpdate (op off : Nat) (data : List Byte) (s : State) : Out :=
  liftCore (whenLive (fun s =>
    if op = 0 then
      if s.core.sec.path ≠ 0 then s.say .alreadyInUpdateMode
      else { s with core.sec.path := 2, core.sec.staged := [], core.sec.verified := false }.say .success
    else if s.core.sec.path ≠ 2 then s
    else match op with
      | 1 => { s with core.sec.staged := stagePiece s.core.sec.staged off data, core.sec.verified := false }.say .success
      | 2 =>
        let c := s.verifyImage s.core.sec.staged
        { s with core.sec.verified := decide (c = 0) }.say (.verify c)
      | 3 => if s.core.sec.verified then s.writeBoot.say .success else s
      | 4 => { s with core.sec.path := 0, core.sec.staged := [], core.sec.verified := false }.say .success
      | _ => s)) s

/-- ACTIVATE_FIRMWARE: self-contained activation is refused (R393). -/
def execActivateFirmware (selfContained : Bool) (s : State) : Out :=
  liftCore (whenLive (fun s => s.say (if selfContained then .activationNotSupported else .success))) s

end Sys2Proof.Machine
end

