-- ==== Sys2Proof/Machine/Collect.lean ====
section
/-! DEFINITION. Groups and buckets: GRP_SET, GRP_CLR, BOPEN, BPUT, BCLOSE, EPOCH, the passing of rounds, and the packets of buckets
(13_collectives R311-R336, R343). -/
namespace Sys2Proof.Machine

def rceMint : Nat := rceGBase + 0x80

/-! GRP_SET and GRP_CLR (R312, R343) -/

/-- Is a member table invalid for an RCE and a channel (R312)? -/
def State.tableBad (s : State) (n gc ctx m rank rsvd : Nat) (eps : List Nat) : Bool :=
  decide (m = 0) || decide (m > 8192) || decide (rank ≥ m) || decide (rsvd ≠ 0) || eps.any (fun e => epDie e > 3)
  || decide (eps.getD rank 0 ≠ s.ep (n / 4))
  || s.core.rce.groups.any (fun g => g.1 % 16 = gc && g.1 / 64 = n / 4 && g.1 / 16 ≠ n)
  || s.core.rce.groups.any (fun g => g.1 % 16 = gc && g.2.ctx ≠ ctx)

/-- The group channel, RCE, context and table address that a GRP_SET names (R343). -/
def State.grpArgs (s : State) : Nat × Nat × Nat × Nat :=
  (bits (s.arg rceGBase 0) 0 4, bits (s.arg rceGBase 0) 8 4, bits (s.arg rceGBase 0) 16 12, bits (s.arg rceGBase 1) 6 50 * 64)

/-- Read a member table and set the group; the status code of the result, or the stop that the table meets (R312, R343). -/
def State.grpRead (s : State) : State × Nat × Stop :=
  let (gc, n, c, a) := s.grpArgs
  if gc > 11 then (s, 0xC, .none)
  else match s.vcheck c a 64 false false with
    | .none =>
      let h := s.vnat c a 64 false
      let s := s.vtouch c a 64 false false
      let m := bits h 0 16
      let rank := bits h 16 16
      if m = 0 || m > 8192 || rank ≥ m then (s, 0xC, .none)
      else match s.vcheck c (a + 64) (2 * m) false false with
        | .none =>
          let eps := (List.range m).map (fun i => s.vnat c (a + 64 + 2 * i) 2 false)
          let s := s.vtouch c (a + 64) (2 * m) false false
          if s.tableBad n gc c m rank (bits h 32 480) eps then (s, 0xC, .none)
          else
            let g : Group := ⟨c, m, rank, eps.getD ((rank + m - 1) % m) 0, eps.getD ((rank + 1) % m) 0, 0⟩
            ({ s with core.rce.groups := mput s.core.rce.groups (16 * n + gc) g }, 0, .none)
        | st => (s, 7, st)
    | st => (s, 7, st)

/-- A GRP_SET in progress: it ends, or waits for a host translation, a snoop or room in the pool (R242, R343). -/
def State.grpSettle (s : State) : State :=
  let r := s.grpRead
  match r.2.2 with
  | .none => r.1.cmdDone 2 r.2.1 rceMint 0
  | .fault _ _ => r.1.cmdDone 2 7 rceMint 0
  | st => s.askFor s.grpArgs.2.2.1 st

/-- GRP_SET (R312, R343). -/
def State.grpSet (s : State) : State := if s.cmdBusy 2 then s else (s.startCmd 2 1 0).grpSettle

/-- A GRP_SET that waits is looked at again. -/
def State.rceSettle (s : State) : State := if s.cmdBusy 2 then s.grpSettle else s

/-- GRP_CLR (R343). -/
def State.grpClr (s : State) : State :=
  s.runCmd 2 2 rceMint 0 (fun s =>
    let gc := bits (s.arg rceGBase 0) 0 4
    let n := bits (s.arg rceGBase 0) 8 4
    if s.core.rce.buckets.any (fun b => b.2.rce = n && b.2.gc = gc) || s.core.rce.gathers.any (fun j => j.rce = n && j.gc = gc) then (s, 0xC)
    else ({ s with core.rce.groups := mdel s.core.rce.groups (16 * n + gc) }, 0))

/-- An RCE command by its OP (R343). -/
def State.rceGo (s : State) (op : Nat) : State :=
  match op with
  | 1 => s.grpSet
  | 2 => s.grpClr
  | _ => s.runCmd 2 op rceMint 0 (fun s => (s, 0xC))

def execGrpSet (s : State) : Out := liftCore (whenDispatching State.grpSet) s
def execGrpClr (s : State) : Out := liftCore (whenDispatching State.grpClr) s

/-! The end of a bucket (R317, R323-R325, R329) -/

/-- One grant is used up (R318). -/
def State.useGrant (s : State) (b : Bucket) : State :=
  match mget s.core.rce.grants b.key with
  | none => s
  | some g =>
    if g.close > b.close then s
    else if g.n > 1 then { s with core.rce.grants := mput s.core.rce.grants b.key { g with n := g.n - 1 } }
    else { s with core.rce.grants := mdel s.core.rce.grants b.key }

/-- A bucket leaves for CARRY or is released (R317). -/
def State.endBucket (s : State) (b : Bucket) : State :=
  let s := s.useGrant b
  if b.hasCarry then s.setBkt { b with st := .carry, bclose := none }
  else { s with core.rce.buckets := mdel s.core.rce.buckets b.key }.give 0xD 0 1

/-- The head of a slot, if it is this entry, leaves the share. -/
def State.popIf (s : State) (r : SlotRef) (e : Entry) : State :=
  match s.head r with
  | some h => if h = e then s.popHead r else s
  | none => s

/-- Own blocks of a member. -/
def Bucket.ownBlks (b : Bucket) (g : Group) : List Nat := (List.range b.nblk).filter (fun k => b.owner g.m k = g.rank)

/-- Is the owner's own shard ready (R323, R326)? -/
def State.ownReady (s : State) (b : Bucket) (g : Group) : Bool :=
  b.last && (b.passed || (b.ownBlks g).all (fun k =>
    let w := s.recWord b 0 k
    (ownBit w || b.bclose.isSome) && (partBit w || decide (g.m = 1))))

/-- Own blocks of an all-reduce that are ready and not entered in RESULT, as runs (R324). -/
def State.ownRuns (s : State) (b : Bucket) (g : Group) : List (Nat × Nat × Nat) :=
  if b.op = 2 && s.ownReady b g then
    ((b.ownBlks g).filter (fun k => !doneBit (s.recWord b 2 k) && !b.lost.contains (3, k))).map (fun k => (3, k, 1))
  else []

/-- An all-reduce whose own shard is ready enters it in RESULT as final blocks (R322, R324). -/
def State.ownFinals (s : State) (b : Bucket) (g : Group) : State :=
  if b.fid.isNone then s.sendDue b g (s.ownRuns b g) else s

/-- Result blocks: the own shard of a reduce-scatter, the landed finals of an all-reduce, after the grace those of the shards that have landed whole,
the landed blocks otherwise (R323-R325). -/
def State.resultBlks (s : State) (b : Bucket) (g : Group) : List Nat :=
  if b.op = 0 then b.ownBlks g
  else if b.op = 2 then
    let here := (List.range b.nblk).filter (fun k => doneBit (s.recWord b 2 k))
    if b.gaveUp then here.filter (fun k => (List.range b.nblk).all (fun i => b.owner g.m i ≠ b.owner g.m k || here.contains i)) else here
  else b.landed.map (·.1)

/-- Has a closing bucket what its BCLOSE waits for (R323-R325)? -/
def State.closeReady (s : State) (b : Bucket) (g : Group) : Bool :=
  if b.op = 0 then s.ownReady b g
  else if b.op = 2 then b.gaveUp || decide ((s.resultBlks b g).length = b.nblk)
  else b.passed || decide (b.landed.length = b.nblk)

/-- Part of STAGE that holds the results. -/
def Bucket.resultPart (b : Bucket) : Nat := if b.op = 2 then 2 else 0

/-- Outcomes of a completing BCLOSE (R329). -/
def State.closeOutcomes (s : State) (b : Bucket) (g : Group) (e : Entry) : State :=
  let ks := s.resultBlks b g
  let blk (k : Nat) : RBlk := s.stageBlk b b.resultPart k
  if b.reduces then
    let missing := if b.op = 2 then b.nblk - ks.length else 0
    let counts := ks.map (fun k => (blk k).count) ++ List.replicate missing 0
    let low := counts.filter (· < b.ncontrib)
    let det := put 0 16 (counts.foldl min 65535) + put 16 16 b.ncontrib + put 32 32 low.length
    let code := if b.gaveUp && decide (missing ≠ 0) then 9 else if b.policy = 1 then 0xA else 9
    let s := if b.policy ≠ 0 && !low.isEmpty then s.note e.q e.seq code det false else s
    (s.noteCount e 0xB (ks.filter (fun k => (blk k).raised)).length).noteCount e 1 (ks.filter (fun k => (blk k).poison)).length
  else
    (s.noteCount e 9 (b.nblk - ks.length)).noteCount e 1 (b.landed.filter (·.2.2)).length

/-- Address, format and blocks of the array that a BCLOSE writes; none where nothing is copied. -/
def Bucket.target (b : Bucket) (g : Group) (e : Entry) : Nat × Nat × Nat :=
  (destAddr e.dest, e.f 20 1 % 16, if b.op = 0 then (b.ownBlks g).length else b.nblk)

/-- Number in the written array of block k of the bucket. -/
def Bucket.place (b : Bucket) (g : Group) (k : Nat) : Nat := if b.op = 0 then k - g.rank * shardLen b.nblk g.m else k

/-- What a BCLOSE reads of block k in STAGE. -/
def Bucket.resultSpans (b : Bucket) (e : Entry) (k : Nat) : List (Nat × Nat) :=
  if b.reduces then b.blkSpans b.resultPart k else blkPieces b.stage (e.f 20 1 % 16) b.nblk k

/-- The stop at block k of a BCLOSE, and whether its write meets it. -/
def State.closeBlkStop (s : State) (b : Bucket) (g : Group) (e : Entry) (k : Nat) : Stop × Bool :=
  let t := b.target g e
  s.spansStop e.ctx (b.resultSpans e k) (blkPieces t.1 t.2.1 t.2.2 (b.place g k))

/-- The first stop of a BCLOSE, with the blocks before it. -/
def State.closeStop (s : State) (b : Bucket) (g : Group) (e : Entry) : (Stop × Bool) × List Nat :=
  let ks := s.resultBlks b g
  if !b.reduces && decide (destAddr e.dest = b.stage) then ((.none, true), ks)
  else match ks.find? (fun k => decide ((s.closeBlkStop b g e k).1 ≠ .none)) with
    | none => ((.none, true), ks)
    | some k => (s.closeBlkStop b g e k, ks.takeWhile (· ≠ k))

/-- Write result blocks to DEST (R323-R325). -/
def State.writeResults (s : State) (b : Bucket) (g : Group) (e : Entry) (ks : List Nat) : State :=
  let t := b.target g e
  if !b.reduces then
    if t.1 = b.stage then s
    else ks.foldl (fun s k =>
      let s := s.touchBlk e.ctx b.stage t.2.1 b.nblk k false
      ((blkPieces b.stage t.2.1 b.nblk k).zip (blkPieces t.1 t.2.1 t.2.2 k)).foldl
        (fun s p => s.vput e.ctx p.2.1 (s.vget e.ctx p.1.1 p.1.2 false).1 false) s) s
  else ks.foldl (fun s k =>
    let x := s.stageBlk b b.resultPart k
    let s := s.touchSpans e.ctx (b.resultSpans e k)
    if t.2.1 = 6 then
      let ps := blkPieces t.1 6 t.2.2 (b.place g k)
      (ps.zip [x.field, leBytes 2 (bits (x.word false false false) 0 12)]).foldl (fun s p => s.vput e.ctx p.1.1 p.2 false) s
    else
      let vs := (List.range 32).map (fun i => (⟨x.ms.getD i 0, x.e⟩ : Dy))
      s.writeBlk e.ctx t.1 5 t.2.2 (b.place g k) (quantise 5 false false 0 0 vs (fun _ => 0) false) false) s

/-- Complete the BCLOSE of a closing bucket when it can; then HELD until everything is sent. A fault stops it at a block, with those before it written
(R246, R317). -/
def State.tryClose (s : State) (b : Bucket) (e : Entry) : State :=
  let g := s.bktGroup b
  let r := b.slotRef
  if !s.closeReady b g then s
  else if !b.reduces && (match b.fmt with | some f => decide (f ≠ e.f 20 1) | none => false) then
    ((s.popIf r e).finishWith e.q e.seq 0xC (badDetail (20, 0xC))).setBkt { b with st := .held }
  else match s.closeStop b g e with
    | ((.none, _), ks) =>
      let s := ((s.writeResults b g e ks).closeOutcomes b g e).effect e.q e.seq
      ((s.popIf r e).finish e.q e.seq).setBkt { b with st := .held }
    | ((st, w), ks) =>
      let s := if ks.isEmpty then s else (s.writeResults b g e ks).effect e.q e.seq
      let t := s.instStop e (slotCode r) w st
      match (t.queue e.q).inst e.seq with
      | some i => if i.done then (t.popIf r e).setBkt { b with st := .held } else t
      | none => t

/-- Is the BCLOSE of a bucket stopped at a fault? -/
def State.closeHeld (s : State) (e : Entry) : Bool :=
  match (s.queue e.q).inst e.seq with
  | some i => i.fid.isSome
  | none => true

/-- Parts of STAGE that a bucket has (R316). -/
def Bucket.parts (b : Bucket) : List Nat := [0] ++ (if b.hasCarry then [1] else []) ++ (if b.op = 2 then [2] else [])

/-- The first stop of the record words that a member's part in the ring reads (R246). -/
def State.wordsStop (s : State) (b : Bucket) : Stop :=
  if b.lost.contains (5, 0) then .none
  else s.piecesStop b.ctx ((b.parts.filter (· ≠ 1)).flatMap (fun p => (List.range b.nblk).map (b.wordSpan p))) false false

/-- A bucket whose record words a translation stops: it waits, at a fault until that is resolved; where it is aborted the bucket goes on without them
(R245, R246, R248; log 100). -/
def State.wordsHalt (s : State) (b : Bucket) : Stop → State
  | .fault cause a =>
    let r := s.raiseFault b.ctx a cause false .wb b.q (slotCode b.slotRef) 0xFFFF
    match r.2 with
    | .held fid => r.1.updBkt b.key (fun b => { b with fid := some fid })
    | .aborted => r.1.updBkt b.key (fun b => { b with lost := b.lost ++ [(5, 0)] })
    | .noId => r.1
  | st => s.askFor b.ctx st

/-- What follows any event of a bucket: own finals, sends, the BCLOSE, the end, once all that was sent is acknowledged (R317). -/
def State.settleBkt (s : State) (key : Nat) : State :=
  match mget s.core.rce.buckets key with
  | none => s
  | some b =>
    if b.st = .carry || b.fid.isSome then s
    else if s.wordsStop b ≠ .none then s.wordsHalt b (s.wordsStop b)
    else
      let s := (s.ownFinals b (s.bktGroup b)).pump key
      let s := match mget s.core.rce.buckets key with
        | some b => match b.st, b.bclose with
          | .closing, some e => if s.closeHeld e then s else s.tryClose b e
          | _, _ => s
        | none => s
      match mget s.core.rce.buckets key with
      | some b =>
        let g := s.bktGroup b
        if decide (b.st = .held) && (s.unsent b g).isEmpty && !s.owesPartials b g && !s.unacked b then s.endBucket b else s
      | none => s

/-! BOPEN, BPUT, BCLOSE (R314-R330) -/

def Entry.bucket (e : Entry) : Nat := e.eff 0 16 16
def Entry.bEpoch (e : Entry) : Nat := e.f 18 1
def Entry.gc (e : Entry) : Nat := e.f 19 1 % 16

/-- First and last-plus-one bucket of a context (R235). -/
def Ctx.bucketRange (c : Ctx) : Nat × Nat := (bits c.entry 256 16, bits c.entry 256 16 + bits c.entry 272 16)

/-- Is a channel held by this RCE for the context? -/
def State.gcHeld (s : State) (n gc c : Nat) : Bool := match s.group n gc with | some g => decide (g.ctx = c) | none => false

/-- The checks of BOPEN (R314). -/
def State.bopenBad (s : State) (r : SlotRef) (e : Entry) : List Bad :=
  let op := e.f 20 1 % 4
  let rg := (s.ctx e.ctx).bucketRange
  let out := !(decide (rg.1 ≤ e.bucket) && decide (e.bucket < rg.2))
  let m := match s.group r.unit e.gc with | some g => g.m | none => 0
  let held := s.gcHeld r.unit e.gc e.ctx
  check (!held) (19, 8) ++ check (e.bEpoch ≠ s.epochOf e.ctx) (18, 8) ++ check (e.f 32 4 = 0) (32, 8)
  ++ check (e.f 22 2 = 0 || e.f 22 2 > 8192 || (held && e.f 22 2 > m)) (22, 8) ++ check (e.f 36 1 ≠ 0 && (op = 1 || op = 3)) (36, 8) ++ check (e.f 21 1 % 4 = 3) (21, 8)
  ++ alignBad 24 (e.eff 1 24 56) 64 ++ check out (16, 0xF)
  ++ check (match mget s.core.rce.buckets (bktKey e.bucket e.bEpoch) with | some b => decide (b.st ≠ .carry) | none => false) (16, 0xA)

/-- Non-empty blocks of a carry record. -/
def State.carryBlks (s : State) (b : Bucket) : List Nat := (List.range b.nblk).filter (fun k => !emptyWord (s.recWord b 1 k))

/-- Discard a carry record, counting its blocks (R328, R335). -/
def State.dropCarry (s : State) (b : Bucket) : State :=
  let n := (s.carryBlks b).length
  let s := if n = 0 then s else (s.bump (rceBase b.rce + 0x120) n).raise (rceInt b.rce) 1
  { s with core.rce.buckets := mdel s.core.rce.buckets b.key }.give 0xD 0 1

/-- A bucket as it opens. A GRANT that has come before and differs from it is not used: MISMATCH, and what waits for the successor is late (R318). -/
def State.earlyGrant (s : State) (b : Bucket) : State :=
  match mget s.core.rce.grants b.key with
  | some g =>
    if g.nblk = b.nblk && g.op = b.op then s.setBkt b
    else { s with core.rce.grants := mdel s.core.rce.grants b.key }.raise (rceInt b.rce) 5 |>.setBkt { b with cut := true }
  | none => s.setBkt b

/-- The carry record that a bucket takes up as it opens: one of the same STAGE (R328). -/
def State.keptCarry (s : State) (b : Bucket) : Option Bucket :=
  (mget s.core.rce.buckets b.key).filter (fun c => c.stage = b.stage)

/-- What a step of a BOPEN reads and writes in STAGE: the blocks of a carry record first, then the record words, part by part, then the
merges (R246, R317, R328). -/
def State.openSpans (s : State) (b : Bucket) (u : PutRun) : List (Nat × Nat) × List (Nat × Nat) :=
  let c := s.keptCarry b
  let n := match c with | some c => c.nblk | none => 0
  if u.b < n then (match c with | some c => c.blkSpans 1 u.b | none => [], [])
  else if u.b < n + b.parts.length * b.nblk then ([], [b.wordSpan (b.parts.getD ((u.b - n) / max 1 b.nblk) 0) ((u.b - n) % max 1 b.nblk)])
  else match u.carry[u.b - n - b.parts.length * b.nblk]? with
    | some x => if x.1 < b.nblk then ([], b.blkSpans 0 x.1) else ([], [])
    | none => ([], [])

/-- A step of a BOPEN. CARRY words start empty too (log 25); a carried block beyond NBLK has no place and is discarded (log 100). -/
def State.openOne (s : State) (b : Bucket) (u : PutRun) : State × PutRun :=
  let c := s.keptCarry b
  let n := match c with | some c => c.nblk | none => 0
  let next := { u with b := u.b + 1 }
  if u.b < n then match c with
    | some c =>
      let w := s.recWord c 1 u.b
      if emptyWord w then (s, next)
      else (s.touchSpans b.ctx (c.blkSpans 1 u.b), { next with carry := u.carry ++ [(u.b, s.vnat b.ctx (c.partAt 1 + 64 * u.b) 64 false, w)] })
    | none => (s, next)
  else if u.b < n + b.parts.length * b.nblk then
    (s.putWord b (b.parts.getD ((u.b - n) / max 1 b.nblk) 0) ((u.b - n) % max 1 b.nblk) 0x200, next)
  else match u.carry[u.b - n - b.parts.length * b.nblk]? with
    | some x =>
      if x.1 < b.nblk then (s.mergeAt b 0 x.1 (rblkOf x.2.1 x.2.2) false false false, next)
      else ((s.bump (rceBase b.rce + 0x120) 1).raise (rceInt b.rce) 1, next)
    | none => (s, next)

/-- Steps of a BOPEN. -/
def State.openLen (s : State) (b : Bucket) (u : PutRun) : Nat :=
  (match s.keptCarry b with | some c => c.nblk | none => 0) + b.parts.length * b.nblk + u.carry.length

/-- Steps of a BOPEN, until one that a translation stops. -/
def State.openRun (s : State) (b : Bucket) : Nat → PutRun → State × PutRun × Stop × Bool
  | 0, u => (s, u, .none, true)
  | fuel + 1, u =>
    if u.b ≥ s.openLen b u then (s, u, .none, true)
    else match s.spansStop b.ctx (s.openSpans b u).1 (s.openSpans b u).2 with
      | (.none, _) => let r := s.openOne b u; r.1.openRun b fuel r.2
      | (st, w) => (s, u, st, w)

/-- Open a bucket whose STAGE stands ready: a GRANT to the predecessor (R317, R318). -/
def State.openBkt (s : State) (r : SlotRef) (e : Entry) (b : Bucket) : State :=
  let s := if mhas s.core.rce.buckets b.key then s else s.take 0xD 0 1
  let s := s.earlyGrant b
  let g : Group := s.bktGroup b
  let s := if g.m > 1 then s.sendGroup b.rce b.gc 0x40 g.pred (groupHdr b.id b.epoch b.gc 0 b.close b.nblk 0 g.rank 0 b.op) 0 [] false else s
  (((s.popHead r).effect e.q e.seq).finish e.q e.seq).settleBkt b.key

/-- BOPEN at the head of its slot. -/
def State.bopen (s : State) (r : SlotRef) (e : Entry) : State :=
  let b : Bucket := { rce := r.unit, slot := r.slot, q := e.q, ctx := e.ctx, id := e.bucket, epoch := e.bEpoch, gc := e.gc,
                      op := e.f 20 1 % 4, late := e.f 21 1 % 4, ncontrib := e.f 22 2, stage := e.eff 1 24 56, nblk := e.f 32 4,
                      thin := e.f 36 1, close := e.eff 2 40 64 }
  let begun := s.core.rce.puts.find? (fun p => p.e = e)
  if begun.isNone && decide (s.core.rce.buckets.length ≥ 4096) then
    (s.popHead r).finishWith e.q e.seq 0xE (put 0 8 0x12 + put 8 8 0xFF + put 32 32 4096)
  else
    let s := match mget s.core.rce.buckets b.key with
      | some c => if c.stage = b.stage then s else s.dropCarry c
      | none => s
    let n := match s.keptCarry b with | some c => c.nblk | none => 0
    let m := s.openRun b (2 * n + b.parts.length * b.nblk) (begun.getD { e := e })
    let s := { m.1 with core.rce.puts := m.1.core.rce.puts.filter (fun p => p.e ≠ e) }
    match m.2.2 with
    | (.none, _) => s.openBkt r e b
    | (st, w) =>
      let s := { s with core.rce.puts := s.core.rce.puts ++ [m.2.1] }
      let t := s.instStop e (slotCode r) w st
      match (t.queue e.q).inst e.seq with
      | some i => if i.done then { t with core.rce.puts := t.core.rce.puts.filter (fun p => p.e ≠ e) }.popHead r else t
      | none => t

/-- BOPEN (R314). -/
def execBopen (r : SlotRef) (s : State) : Out :=
  liftCore (whenDispatching (fun s => if s.headHeld r then s
    else s.atHead r 0x50 (fun e => if s.core.rce.puts.any (fun p => p.e = e) then [] else s.bopenBad r e) (fun e s => s.bopen r e))) s

/-- The open bucket that a BPUT or BCLOSE names, if it is this slot's (R314). -/
def State.bktOf (s : State) (r : SlotRef) (e : Entry) : Option Bucket :=
  match mget s.core.rce.buckets (bktKey e.bucket e.bEpoch) with
  | some b => if b.st = .open_ && b.rce = r.unit && b.slot = r.slot then some b else none
  | none => none

/-- A format that is none of GSI3, BSI16 and RSI16, and a group channel that does not exist (R48, R187). -/
def Entry.bktBad (e : Entry) : List Bad :=
  check (!fmtOk (e.f 20 1) || !([4, 5, 6].contains (e.f 20 1 % 16))) (20, 7) ++ check (e.gc > 11) (19, 8)

/-- The checks of BPUT (R314, R321, R325). -/
def State.bputBad (s : State) (r : SlotRef) (e : Entry) : List Bad :=
  let off := e.eff 2 32 32
  let n := e.f 36 4
  e.bktBad ++ alignBad 24 (e.eff 1 24 56) 64
  ++ (match s.bktOf r e with
    | none => [(16, 0xF)]
    | some b =>
      let g := s.bktGroup b
      check (off + n > b.nblk) (32, 8)
      ++ check (b.op = 1 && decide (n ≠ 0) && !(decide (g.rank * shardLen b.nblk g.m ≤ off) && decide (off + n ≤ (g.rank + 1) * shardLen b.nblk g.m))) (32, 8))

/-- Is own data late now (R327)? -/
def Bucket.ownLate (b : Bucket) (now : Nat) : Bool := b.passed || (b.last && decide (b.policy ≠ 0) && decide (now > b.close))

/-- What the landing of moved data at block k changes in MAIN beside the data: the word's DONE, with POISON where a block is poisoned (R316). -/
def State.landed (s : State) (b : Bucket) (k : Nat) (poison : Bool) : State := s.putWord b 0 k (0x2200 + put 11 1 (b2n poison))

/-- Staging that block i of a BPUT reads and writes (R246). -/
def State.putSpans (s : State) (b : Bucket) (e : Entry) (i : Nat) : List (Nat × Nat) :=
  let k := e.eff 2 32 32 + i
  let late := b.ownLate (s.nowAt (b.rce / 4))
  if b.reduces then
    if late || doneBit (s.recWord b 0 k) then (if b.hasCarry then b.blkSpans 1 k else []) else b.blkSpans 0 k
  else if late then [] else blkPieces b.stage (e.f 20 1 % 16) b.nblk k ++ [b.wordSpan 0 k]

/-- One block of a BPUT: merged, landed, or late. The first block of a round counts 1 and later ones 0, late or not (R321, R327). The answer says whether it was late and whether it was poisoned. -/
def State.putOne (s : State) (key : Nat) (e : Entry) (i : Nat) : State × Bool × Bool :=
  match mget s.core.rce.buckets key with
  | none => (s, false, false)
  | some b =>
    let code := e.f 20 1 % 16
    let n := e.f 36 4
    let k := e.eff 2 32 32 + i
    let x := s.readBlk e.ctx (e.eff 1 24 56) code n i false
    let s := s.touchBlk e.ctx (e.eff 1 24 56) code n i false
    if b.reduces then
      let w := s.recWord b 0 k
      let first := !ownBit w && !b.counted.contains k
      let c := { toRsi x with count := b2n first }
      let s := s.setBkt { b with counted := sins k b.counted }
      if b.ownLate (s.nowAt (b.rce / 4)) || doneBit w then (s.lateBlk b k c, true, x.poison)
      else (s.mergeAt b 0 k c true (partBit w) false, false, x.poison)
    else if b.ownLate (s.nowAt (b.rce / 4)) then ((s.bump (rceBase b.rce + 0x120) 1).raise (rceInt b.rce) 1, true, x.poison)
    else
      let s := ((blkPieces (e.eff 1 24 56) code n i).zip (blkPieces b.stage code b.nblk k)).foldl
        (fun s p => s.vput e.ctx p.2.1 (s.vget e.ctx p.1.1 p.1.2 false).1 false) s
      let g := s.bktGroup b
      ((s.landed b k x.poison).setBkt { b with fmt := some (e.f 20 1), landed := mput b.landed k (g.rank, x.poison), sent := b.sent.filter (· ≠ k) },
        false, x.poison)

/-- Blocks of a BPUT until a source or a staged block that a translation stops. -/
def State.putMany (s : State) (key : Nat) (e : Entry) : Nat → PutRun → State × PutRun × Stop × Bool
  | 0, u => (s, u, .none, true)
  | fuel + 1, u =>
    let st := match mget s.core.rce.buckets key with | some b => s.putSpans b e u.b | none => []
    match s.spansStop e.ctx (blkPieces (e.eff 1 24 56) (e.f 20 1 % 16) (e.f 36 4) u.b) st with
    | (.none, _) =>
      let r := s.putOne key e u.b
      r.1.putMany key e fuel { u with b := u.b + 1, late := u.late + b2n r.2.1, bad := u.bad + b2n r.2.2 }
    | (st, w) => (s, u, st, w)

/-- BPUT at the head of its slot (R321, R329). -/
def State.bput (s : State) (r : SlotRef) (e : Entry) : State :=
  let key := bktKey e.bucket e.bEpoch
  let u := (s.core.rce.puts.find? (fun p => p.e = e)).getD { e := e }
  let kept := match mget s.core.rce.buckets key with | some b => b.hasCarry | none => false
  let m := s.putMany key e (e.f 36 4 - u.b) u
  let s := { m.1 with core.rce.puts := m.1.core.rce.puts.filter (fun p => p.e ≠ e) }
  let u := m.2.1
  match m.2.2 with
  | (.none, _) =>
    let s := (if u.b = 0 then s else s.effect e.q e.seq).moved e.q e.seq (sumNat ((List.range u.b).flatMap (fun i =>
      (blkPieces 0 (e.f 20 1 % 16) (e.f 36 4) i).map (·.2))))
    let s := (s.noteCount e (if kept then 0xA else 9) u.late).noteCount e 1 u.bad
    ((s.popHead r).finish e.q e.seq).settleBkt key
  | (st, w) =>
    let s := { s with core.rce.puts := s.core.rce.puts ++ [u] }
    let t := s.instStop e (slotCode r) w st
    let t := match (t.queue e.q).inst e.seq with
      | some i => if i.done then { t with core.rce.puts := t.core.rce.puts.filter (fun p => p.e ≠ e) }.popHead r else t
      | none => t
    t.settleBkt key

/-- BPUT (R321). -/
def execBput (r : SlotRef) (s : State) : Out :=
  liftCore (whenDispatching (fun s => if s.headHeld r then s
    else s.atHead r 0x51 (fun e => if s.core.rce.puts.any (fun p => p.e = e) then [] else s.bputBad r e) (fun e s => s.bput r e))) s

/-- The checks of BCLOSE (R314, R323); FMT is checked in a local round too. -/
def State.bcloseBad (s : State) (r : SlotRef) (e : Entry) : List Bad :=
  e.bktBad ++ e.destAlign 24 64
  ++ (match s.bktOf r e with
    | none => [(16, 0xF)]
    | some b => check (b.reduces && e.f 20 1 % 16 = 4) (20, 7))

/-- BCLOSE at the head: a local round ends at once; the last round closes the bucket (R317, R330). -/
def State.bclose (s : State) (r : SlotRef) (e : Entry) : State :=
  match s.bktOf r e with
  | none => s
  | some b =>
    if b.last then (s.setBkt { b with st := .closing, bclose := some e }).settleBkt b.key
    else
      let clear (s : State) (k : Nat) : State :=
        let w := s.recWord b 0 k
        if ownBit w then s.putWord b 0 k (w - 2 ^ 15) else s
      match (List.range b.nblk).find? (fun k => decide (s.piecesStop b.ctx [b.wordSpan 0 k] true false ≠ .none)) with
      | none =>
        let s := (List.range b.nblk).foldl clear s
        let s := s.setBkt { b with round := b.round + 1 }
        (((s.popHead r).note e.q e.seq 0 (bits (b.round + 1) 0 8) false).finish e.q e.seq).settleBkt b.key
      | some k =>
        let t := ((List.range k).foldl clear s).instStop e (slotCode r) true (s.piecesStop b.ctx [b.wordSpan 0 k] true false)
        match (t.queue e.q).inst e.seq with
        | some i => if i.done then t.popHead r else t
        | none => t

/-- BCLOSE (R323): where its bucket is closing already it is looked at again. -/
def execBclose (r : SlotRef) (s : State) : Out :=
  liftCore (whenDispatching (fun s =>
    match s.head r with
    | none => s
    | some h =>
      let key := bktKey h.bucket h.bEpoch
      match mget s.core.rce.buckets key with
      | some b => if h.op = 0x52 && b.bclose = some h then s.settleBkt key else if s.headHeld r then s else s.atHead r 0x52 (s.bcloseBad r) (fun e s => s.bclose r e)
      | none => s.atHead r 0x52 (s.bcloseBad r) (fun e s => s.bclose r e))) s

/-! Rounds (R326, R324) -/

/-- ROUND_CLOSE: FT has reached CLOSE under carry or drop (R39, R326). -/
def State.roundClose (s : State) (id epoch : Nat) : State :=
  whenLive (fun s =>
    match mget s.core.rce.buckets (bktKey id epoch) with
    | none => s
    | some b =>
      if decide (b.st ≠ .carry) && !b.passed && b.last && decide (b.policy ≠ 0) && decide (s.nowAt (b.rce / 4) ≥ b.close) then
        (s.scheduled.setBkt { b with passed := true }).settleBkt b.key
      else s) s

/-- ROUND_CLOSE. -/
def execRoundClose (id epoch : Nat) (s : State) : Out := liftCore (fun s => s.roundClose id epoch) s

/-- FINAL_GRACE_EXPIRY: finals not landed by CLOSE + GRACE are given up (R39, R324). -/
def State.finalGrace (s : State) (id epoch : Nat) : State :=
  whenLive (fun s =>
    match mget s.core.rce.buckets (bktKey id epoch) with
    | none => s
    | some b =>
      if b.op = 2 && decide (b.st ≠ .carry) && !b.gaveUp && b.last && decide (b.policy ≠ 0)
          && decide (s.nowAt (b.rce / 4) ≥ b.close + 1000 * s.reg fldGrace) then
        (s.scheduled.setBkt { b with gaveUp := true }).settleBkt b.key
      else s) s

/-- FINAL_GRACE_EXPIRY. -/
def execFinalGraceExpiry (id epoch : Nat) (s : State) : Out := liftCore (fun s => s.finalGrace id epoch) s

/-! Packets of buckets (R318, R322, R325, R331-R333, R340) -/

def gBkt (p : Packet) : Nat := bktKey (hdrField p 16 2) (hdrField p 18 1)
def gGc (p : Packet) : Nat := p.vc - 4
def gClose (p : Packet) : Nat := hdrField p 24 8
def gFirst (p : Packet) : Nat := hdrField p 32 4
def gK (p : Packet) : Nat := hdrField p 36 2
def gOrigin (p : Packet) : Nat := hdrField p 38 2
def gFmt (p : Packet) : Nat := hdrField p 40 1

/-- Stale group data (R333). -/
def State.stale (s : State) (n k : Nat) : State := (s.bump (rceBase n + 0x130) k).raise (rceInt n) 2

/-- Stream-buffer slots that an RCE holds, and its share of them (R313). -/
def State.rceSlots (s : State) (n : Nat) : Nat :=
  (s.core.rce.slots.filter (fun x => x.rce = n)).length + sumNat ((s.core.rce.gathers.filter (fun j => j.rce = n)).map (fun j => j.slots.length))
def rceShare : Nat := 128

/-- A GATHER ends: its job, its slots and its GGRANT go (R313, R337). -/
def State.endGather (s : State) (j : GatherJob) : State :=
  { s with core.rce.gathers := s.core.rce.gathers.filter (fun k => k.e ≠ j.e),
           core.rce.ggrants := s.core.rce.ggrants.filter (fun x => !(x.at_ = 16 * j.rce + j.gc && x.epoch = j.epoch && x.seq = j.seq)) }.give
    4 (j.rce / 4) j.slots.length

/-- A group packet of a type is taken by the RCE that holds its channel: one with data lands in a slot of its share, and stays where it is while none
is free (R313, R333). -/
def State.groupPacket (s : State) (p : Packet) (type : Nat) (f : Nat → State → State) : State :=
  if p.type ≠ type then s
  else
    let qr := epDie p.dest
    match s.rceOf qr (gGc p) with
    | none => match s.takePacket p with | some s => s.stale (4 * qr) (gK p) | none => s
    | some n =>
      if decide (p.len > 1) && decide (s.rceSlots n ≥ rceShare) then s
      else match s.takePacket p with | some s => f n (s.bump (rceBase n + 0x148) (64 * p.len)) | none => s

/-- GRANT (R318): held for the bucket, now or when it opens; one that differs from the open bucket is not used, and what waits for the successor is
late. -/
def State.onGrant (s : State) (p : Packet) (n : Nat) : State :=
  let g : Grant := ⟨n, (gGc p), (gClose p), (gFirst p), hdrField p 41 1 % 4, 1⟩
  match mget s.core.rce.buckets (gBkt p) with
  | some b =>
    if decide (b.st ≠ .carry) && b.rce = n && (decide (g.nblk ≠ b.nblk) || decide (g.op ≠ b.op)) then
      ((s.raise (rceInt n) 5).setBkt { b with cut := true }).settleBkt (gBkt p)
    else
      let m := match mget s.core.rce.grants (gBkt p) with
        | some h => if h.close = g.close then { g with n := h.n + 1 } else g
        | none => g
      ({ s with core.rce.grants := mput s.core.rce.grants (gBkt p) m }.setBkt { b with cut := false }).settleBkt (gBkt p)
  | none =>
    let m := match mget s.core.rce.grants (gBkt p) with
      | some h => if h.close = g.close then { g with n := h.n + 1 } else g
      | none => g
    { s with core.rce.grants := mput s.core.rce.grants (gBkt p) m }

def execGrant (p : Packet) (s : State) : Out :=
  liftCore (whenLive (fun s => s.groupPacket p 0x40 (fun n s => s.onGrant p n))) s

/-- Block i of an RDATA packet (R332). -/
def gRblk (p : Packet) (i : Nat) : RBlk :=
  let x := rblkOf (leNat ((p.data.drop (64 * i)).take 64)) (leNat ((p.data.drop (64 * (gK p) + 4 * i)).take 4))
  { x with poison := x.poison || p.poison }

/-- A partial for block k (R320, R327). -/
def State.onPartial (s : State) (key k : Nat) (c : RBlk) (close : Nat) : State :=
  match mget s.core.rce.buckets key with
  | none => s
  | some b =>
    let w := s.recWord b 0 k
    if k ≥ b.nblk then s.stale b.rce 1
    else if b.st = .carry || b.passed || decide (close < b.close) || doneBit w then s.lateBlk b k c
    else s.mergeAt b 0 k c (ownBit w) true false

/-- A final block: late where its CLOSE is earlier than the open round's, or it was given up; a late final is discarded, since the round it belongs to
has its sum already (R319, R324; log 100). -/
def State.onFinal (s : State) (key k : Nat) (c : RBlk) (close : Nat) : State :=
  match mget s.core.rce.buckets key with
  | none => s
  | some b =>
    if k ≥ b.nblk || b.op ≠ 2 then s.stale b.rce 1
    else if b.st = .carry || b.gaveUp || decide (close < b.close) then (s.bump (rceBase b.rce + 0x120) 1).raise (rceInt b.rce) 1
    else s.mergeAt b 2 k c false false true

/-- Is group data for a bucket matched at an RCE (R319, R333)? -/
def State.matched (s : State) (p : Packet) (n : Nat) : Bool :=
  match mget s.core.rce.buckets (gBkt p) with
  | none => false
  | some b => b.rce = n && b.gc = (gGc p) && decide (gClose p ≤ b.close)

/-- Is a packet of partials or finals final? -/
def gFinal (p : Packet) : Bool := (hdrField p 41 1).testBit 0

/-- Does data of a round land late, or not at all, at a bucket (R319, R327)? -/
def Bucket.past (b : Bucket) (p : Packet) : Bool := decide (b.st = .carry) || b.passed || decide (gClose p < b.close)

/-- Moved block i of a packet: its bytes by piece, and whether it is poisoned, by the packet or by its own header (R203, R325, R329). -/
def gMoved (p : Packet) (i : Nat) : List (List Byte) × Bool :=
  let code := gFmt p % 16
  let l := (blkPieces 0 code (gK p) i).map (fun q => (p.data.drop q.1).take q.2)
  let eb := elemBytes code
  (l, p.poison || (blkAt code l.flatten 0 eb (eb + scaleBytes code) 0).poison)

/-- Staging that block i of a packet reads and writes (R246). -/
def State.gSpans (s : State) (b : Bucket) (p : Packet) (i : Nat) : List (Nat × Nat) × List (Nat × Nat) :=
  let k := gFirst p + i
  if k ≥ b.nblk then ([], [])
  else if p.type = 0x42 then
    if b.past p then ([], []) else ([], blkPieces b.stage (gFmt p % 16) b.nblk k ++ [b.wordSpan 0 k])
  else if gFinal p then (if b.st = .carry || b.gaveUp || decide (gClose p < b.close) then [] else b.blkSpans 2 k, if b.st = .carry || b.gaveUp || decide (gClose p < b.close) then [] else b.blkSpans 2 k)
  else if b.past p || doneBit (s.recWord b 0 k) then ([b.wordSpan 0 k], if b.hasCarry then b.blkSpans 1 k else [])
  else ([b.wordSpan 0 k], b.blkSpans 0 k)

/-- A moved block lands in MAIN; one that lands again is sent on again (R316, R325). -/
def State.onMoved (s : State) (b : Bucket) (p : Packet) (i : Nat) : State :=
  let k := gFirst p + i
  let x := gMoved p i
  let s := ((x.1.zip (blkPieces b.stage (gFmt p % 16) b.nblk k)).foldl (fun s q => s.vput b.ctx q.2.1 q.1 false) s).landed b k x.2
  s.updBkt b.key (fun b => { b with fmt := some (gFmt p), landed := mput b.landed k (gOrigin p, x.2), sent := b.sent.filter (· ≠ k) })

/-- Block i of a packet of bucket data (R319-R327). -/
def State.gBlk (s : State) (b : Bucket) (p : Packet) (i : Nat) : State :=
  if p.type = 0x42 then
    if b.past p then (s.bump (rceBase b.rce + 0x120) 1).raise (rceInt b.rce) 1 else (s.onMoved b p i).worked b.slotRef 1
  else if gFinal p then s.onFinal b.key (gFirst p + i) (gRblk p i) (gClose p)
  else s.onPartial b.key (gFirst p + i) (gRblk p i) (gClose p)

/-- A slot with data moves on. -/
def State.setRceSlot (s : State) (x : RceSlot) : State :=
  { s with core.rce.slots := s.core.rce.slots.map (fun (z : RceSlot) => if z.rce = x.rce && z.pkt = x.pkt then x else z) }

/-- A slot's data is used up: the slot returns (R313). -/
def State.freeRceSlot (s : State) (x : RceSlot) : State :=
  { s with core.rce.slots := s.core.rce.slots.eraseP (fun y => y.rce = x.rce && y.pkt = x.pkt) }.give 4 (x.rce / 4) 1

/-- Blocks of a packet that its slot still holds are discarded and count as dropped (R340; log 100). -/
def State.dropRceSlot (s : State) (x : RceSlot) : State :=
  ((s.bump (rceBase x.rce + 0x120) (gK x.pkt - x.next)).raise (rceInt x.rce) 1).freeRceSlot x

/-- Does a packet of bucket data fit the bucket it names (R319, R333)? -/
def State.gFits (s : State) (p : Packet) (n : Nat) (b : Bucket) : Bool :=
  s.matched p n && (decide (p.type = 0x41) == b.reduces) && (b.reduces || decide (gFirst p + gK p ≤ b.nblk))

/-- Data in a slot is merged or landed block by block, until one that a translation stops: there it stays until a fault is resolved, and the rest is
discarded where it is aborted (R246, R313). -/
def State.landSlot (s : State) (x : RceSlot) : Nat → State
  | 0 => (s.freeRceSlot x).settleBkt (gBkt x.pkt)
  | fuel + 1 =>
    match mget s.core.rce.buckets (gBkt x.pkt) with
    | none => (s.stale x.rce (gK x.pkt - x.next)).freeRceSlot x
    | some b =>
      if !s.gFits x.pkt x.rce b then (s.stale x.rce (gK x.pkt - x.next)).freeRceSlot x
      else match s.spansStop b.ctx (s.gSpans b x.pkt x.next).1 (s.gSpans b x.pkt x.next).2 with
        | (.none, _) =>
          let y := { x with next := x.next + 1 }
          ((s.setRceSlot y).gBlk b x.pkt x.next).landSlot y fuel
        | (.fault cause a, w) =>
          let r := s.raiseFault b.ctx a cause w .wb b.q (slotCode b.slotRef) 0xFFFF
          match r.2 with
          | .aborted => (r.1.dropRceSlot x).settleBkt (gBkt x.pkt)
          | .held fid => r.1.setRceSlot { x with fid := some fid }
          | .noId => r.1
        | (.readOnly, _) => (s.dropRceSlot x).settleBkt (gBkt x.pkt)
        | (st, _) => s.askFor b.ctx st

/-- Data of a bucket lands in a slot and is worked off (R313). -/
def State.landNew (s : State) (p : Packet) (n : Nat) : State :=
  let x : RceSlot := { rce := n, pkt := p }
  ({ s with core.rce.slots := s.core.rce.slots ++ [x] }.take 4 (n / 4) 1).landSlot x (gK p)

/-- Slots that no fault holds are worked off in order, and buckets in HELD are looked at again: acknowledgements and host translations may have
come (R242, R313, R317). -/
def State.rceWork (s : State) : State :=
  let s := (s.core.rce.slots.filter (fun x => x.fid.isNone)).foldl (fun s x => s.landSlot x (gK x.pkt - x.next)) s
  (s.core.rce.buckets.filter (fun b => b.2.st ≠ .carry)).foldl (fun s b => s.settleBkt b.1) s

/-- An aborted fault ends what a bucket stands at: the reading of its record words, or the first run that a translation stops (R248; log 100). -/
def State.loseStopped (s : State) (b : Bucket) : State :=
  let g := s.bktGroup b
  if s.wordsStop b ≠ .none then s.setBkt { b with lost := b.lost ++ [(5, 0)] }
  else
    let l := s.ownRuns b g ++ (if b.cut then (s.readyPartials b g).map (fun k => (4, k, 1)) else s.dueRuns b g)
    match l.find? (fun x => decide ((s.spansStop b.ctx (b.sendSpans x).1 (b.sendSpans x).2).1 ≠ .none)) with
    | some x => s.loseRun b x
    | none => s

/-- A fault at which buckets or slots of RCEs stand is resolved: after RETRY they go on; an abort ends the stopped send, or discards what the slot still
holds (R248; log 100). -/
def State.rceResolved (s : State) (fid : Nat) (abort : Bool) : State :=
  let bs := (s.core.rce.buckets.filter (fun b => b.2.fid = some fid)).map (·.2)
  let xs := s.core.rce.slots.filter (fun x => x.fid = some fid)
  let s := { s with core.rce.slots := s.core.rce.slots.map (fun x => if x.fid = some fid then { x with fid := none } else x) }
  let s := bs.foldl (fun s b =>
    let b := { b with fid := none }
    let s := s.setBkt b
    let s := if abort then s.loseStopped b else s
    s.settleBkt b.key) s
  xs.foldl (fun s x =>
    let x := { x with fid := none }
    if abort then (s.dropRceSlot x).settleBkt (gBkt x.pkt) else s.landSlot x (gK x.pkt - x.next)) s

/-- RDATA (R320, R322, R324). -/
def execRdata (p : Packet) (s : State) : Out :=
  liftCore (whenLive (fun s => s.groupPacket p 0x41 (fun n s => s.landNew p n))) s

/-- MDATA: moved data lands in MAIN and is sent on (R325). -/
def execMdata (p : Packet) (s : State) : Out :=
  liftCore (whenLive (fun s => s.groupPacket p 0x42 (fun n s => s.landNew p n))) s

/-- REVOKE: data held for the killed successor is late (R340). -/
def State.onRevoke (s : State) (p : Packet) (n : Nat) : State :=
  let s := { s with core.rce.grants := mdel s.core.rce.grants (gBkt p) }
  match mget s.core.rce.buckets (gBkt p) with
  | some b => if b.rce = n && decide (b.st ≠ .carry) then (s.setBkt { b with cut := true }).settleBkt (gBkt p) else s
  | none => s.stale n 0

def execRevoke (p : Packet) (s : State) : Out :=
  liftCore (whenLive (fun s => s.groupPacket p 0x45 (fun n s => s.onRevoke p n))) s

/-! EPOCH (R334, R335) -/

/-- The checks of EPOCH. -/
def State.epochBad (s : State) (e : Entry) : List Bad :=
  check (e.f 19 1 ≠ 0) (19, 8) ++ check (s.core.rce.epochs.any (fun x => x.1.ctx = e.ctx && x.1 ≠ e)) (18, 0xA)

/-- Is anything of another epoch of the context still held (R335)? -/
def State.oldEpoch (s : State) (c ep : Nat) : Bool :=
  s.core.rce.buckets.any (fun b => b.2.ctx = c && b.2.epoch ≠ ep)
  || s.core.rce.gathers.any (fun j => j.e.ctx = c && j.epoch ≠ ep && !j.fin)
  || s.core.ses.any (fun x => x.2.upds.any (fun u => u.e.ctx = c && u.e.updEpoch ≠ ep))

/-- EPOCH at the head: the context moves at once, carries go, and it completes once the old epoch has retired (R334, R335). -/
def State.epochGo (s : State) (r : SlotRef) (e : Entry) : State :=
  let ep := e.bEpoch
  let s :=
    if s.core.rce.epochs.any (fun x => x.1 = e) then s
    else
      let s := (s.updCtx e.ctx (fun c => { c with epoch := ep })).ctxWrite e.ctx
      let s := (s.core.rce.buckets.filter (fun b => b.2.ctx = e.ctx && b.2.epoch ≠ ep && decide (b.2.st = .carry))).foldl
        (fun s b => s.dropCarry b.2) s
      { s with core.rce.groups := s.core.rce.groups.map (fun g => if g.2.ctx = e.ctx then (g.1, { g.2 with seq := 0 }) else g),
               core.rce.epochs := s.core.rce.epochs ++ [(e, ep)] }
  if s.oldEpoch e.ctx ep then s
  else ({ s with core.rce.epochs := s.core.rce.epochs.filter (fun x => x.1 ≠ e) }.popHead r).finish e.q e.seq

/-- EPOCH (R334). -/
def execEpoch (r : SlotRef) (s : State) : Out :=
  liftCore (whenDispatching (fun s => s.atHead r 0x54 s.epochBad (fun e s => s.epochGo r e))) s

end Sys2Proof.Machine
end

