-- ==== Sys2Proof/Machine/Gather.lean ====
section
/-! DEFINITION. GATHER: narrow shards gathered round the ring and written widened into tile units (13_collectives R337-R340). -/
namespace Sys2Proof.Machine

/-- Widenings allowed (R338). -/
def widens (n w : Nat) : Bool :=
  match n with
  | 3 => w = 3 || w = 1 || w = 0
  | 1 => w = 1 || w = 2 || w = 0
  | 2 => w = 2 || w = 0
  | 0 => w = 0
  | _ => false

def Entry.gNfmt (e : Entry) : Nat := e.f 20 1
def Entry.gWfmt (e : Entry) : Nat := e.f 21 1
def Entry.gSrc (e : Entry) : Nat := e.eff 0 24 56
def Entry.gBlks (e : Entry) : Nat := e.f 32 4

/-- The checks of GATHER (R334, R337, R338). -/
def State.gatherBad (s : State) (r : SlotRef) (e : Entry) : List Bad :=
  check (!s.gcHeld r.unit e.gc e.ctx) (19, 8) ++ check (e.bEpoch ≠ s.epochOf e.ctx) (18, 8)
  ++ check (!([0, 1, 2, 3].contains e.gNfmt)) (20, 7) ++ check ([0, 1, 2, 3].contains e.gNfmt && !widens e.gNfmt e.gWfmt) (21, 7)
  ++ check (e.gBlks % 512 ≠ 0) (32, 8) ++ alignBad 24 e.gSrc 64 ++ e.destAlign 40 tuBytes

/-- One block widened: element bytes, scale byte and escape word (R338). -/
def widen (n w : Nat) (bs : List Byte) : List Byte × List Byte × List Byte :=
  let el := bs.take (elemBytes n)
  let sc := (bs.drop (elemBytes n)).take 1
  let esc := (bs.drop (elemBytes n + 1)).take 4
  if n = w then (el, sc, esc)
  else
    let ms := (bsiBlk n (leNat el) (leNat sc) (leNat esc)).ms
    let f := (List.range 32).foldl (fun a i => a + put (elemBits w * i) (elemBits w) (toWord (elemBits w) (ms.getD i 0))) 0
    (leBytes (elemBytes w) f, sc, leBytes 4 0)

/-- A TU of widened blocks in block order; half k of a BSI8 pair (R50, R339). -/
def gatherTu (w k : Nat) (hdr : List Byte) (bs : List (List Byte × List Byte × List Byte)) : List Byte :=
  let l := if w = 0 then (bs.drop (256 * k)).take 256 else bs
  fit 16384 (fit 0x1000 (hdr ++ l.flatMap (·.2.1) ++ (if w = 2 then l.flatMap (·.2.2) else [])) ++ l.flatMap (·.1))

/-- Tiles of a shard. -/
def GatherJob.tiles (j : GatherJob) : Nat := j.nblk / 512
/-- Group of a GATHER. -/
def State.gGroup (s : State) (j : GatherJob) : Group := (s.group j.rce j.gc).getD ⟨j.e.ctx, 1, 0, 0, 0, 0⟩

/-- Are all blocks of tile t here? -/
def GatherJob.whole (j : GatherJob) (t : Nat) : Bool :=
  j.wrong.contains (t / j.tiles) || (List.range 512).all (fun b => mhas j.landed (t / j.tiles * j.nblk + t % j.tiles * 512 + b))

/-- The TUs of tile t; `ok` false writes zeros with POISON (R337, R339). -/
def GatherJob.tus (j : GatherJob) (now t : Nat) (ok : Bool) : List (List Byte) × Bool :=
  let l := (List.range 512).map (fun b => (mget j.landed (t / j.tiles * j.nblk + t % j.tiles * 512 + b)).getD (true, []))
  let bad := !ok || l.any (·.1)
  let bs := if ok then l.map (fun x => widen j.nfmt j.wfmt x.2) else []
  let pair := j.wfmt = 0
  let hdr (k : Nat) : List Byte := tuHeader j.wfmt (b2n bad + (if pair then 2 + 4 * k else 0)) 0 j.epoch 127 127 now
  ((List.range (if pair then 2 else 1)).map (fun k => gatherTu j.wfmt k (hdr k) bs), bad)

/-- Address of tile t (R339). -/
def GatherJob.tileAt (j : GatherJob) (t : Nat) : Nat := j.dest + (if j.wfmt = 0 then 2 else 1) * tuBytes * t

/-- Does arrived data of a GATHER still wait to be written out or sent on (R313)? -/
def GatherJob.busy (j : GatherJob) (x : Nat × Nat × Nat) : Bool :=
  j.sendq.any (fun y => y.origin = x.1 && y.first = x.2.1)
    || (!j.wrong.contains x.1 && (List.range x.2.2).any (fun i => !j.written.contains (x.1 * j.tiles + (x.2.1 + i) / 512)))

/-- Set a job. -/
def State.setGather (s : State) (j : GatherJob) : State :=
  { s with core.rce.gathers := s.core.rce.gathers.map (fun k => if k.e = j.e then j else k) }

/-- Write tile t. -/
def State.writeTile (s : State) (j : GatherJob) (t : Nat) (ok : Bool) : State × GatherJob :=
  let p := j.tus s.now t ok
  let s := (p.1.zipIdx).foldl (fun s x => s.vput j.e.ctx (j.tileAt t + tuBytes * x.2) x.1 false) s
  ((((s.bump (rceBase j.rce + 0x150) p.1.length).effect j.e.q j.e.seq).moved j.e.q j.e.seq (tuBytes * p.1.length)).worked
      (((s.queue j.e.q).slot).getD ⟨7, j.rce, 0⟩) 1,
   { j with written := sins t j.written, poisoned := j.poisoned + (if p.2 then p.1.length else 0) })

/-- Write the tiles that are whole, until one that a translation stops. -/
def State.writeWhole (s : State) (j : GatherJob) : List Nat → State × GatherJob × Stop
  | [] => (s, j, .none)
  | t :: ts =>
    if j.written.contains t || !j.whole t then s.writeWhole j ts
    else match s.vcheck j.e.ctx (j.tileAt t) ((if j.wfmt = 0 then 2 else 1) * tuBytes) true false with
      | .none =>
        let r := s.writeTile j t (!j.wrong.contains (t / j.tiles))
        r.1.writeWhole r.2 ts
      | st => (s, j, st)

/-- Read own blocks until one that a translation stops; the whole shard is then queued for the successor (R337). -/
def State.readOwn (s : State) (j : GatherJob) (g : Group) : Nat → State × GatherJob × Stop
  | 0 => (s, j, .none)
  | fuel + 1 =>
    let l := blkPieces j.e.gSrc j.nfmt j.nblk j.own
    match s.piecesStop j.e.ctx l false false with
    | .none =>
      let x := l.map (fun p => s.vget j.e.ctx p.1 p.2 false)
      let s := s.touchBlk j.e.ctx j.e.gSrc j.nfmt j.nblk j.own false
      s.readOwn { j with own := j.own + 1, landed := mput j.landed (g.rank * j.nblk + j.own) (x.any (·.2), x.flatMap (·.1)) } g fuel
    | st => (s, j, st)

/-- The own shard as packets' data (R332). -/
def GatherJob.ownSends (j : GatherJob) (rank : Nat) : List GSend :=
  let eb := elemBytes j.nfmt
  (runs (moveMax j.nfmt) (fun _ => 0) (List.range j.nblk)).map (fun r =>
    let l := (List.range r.2).map (fun i => (mget j.landed (rank * j.nblk + r.1 + i)).getD (true, []))
    let data := padTo64 (l.flatMap (fun x => x.2.take eb)) ++ padTo64 (l.flatMap (fun x => (x.2.drop eb).take 1))
      ++ (if j.nfmt = 2 then padTo64 (l.flatMap (fun x => x.2.drop (eb + 1))) else [])
    ⟨rank, r.1, r.2, j.nfmt, l.any (·.1), data⟩)

/-- Send what waits, where the successor's GGRANT is held (R337). -/
def State.pumpGather (s : State) (j : GatherJob) : State × GatherJob :=
  let g := s.gGroup j
  if s.core.rce.ggrants.any (fun x => x.at_ = 16 * j.rce + j.gc && x.epoch = j.epoch && x.seq = j.seq) then
    (j.sendq.foldl (fun s x => s.sendGroup j.rce j.gc 0x44 g.succ (groupHdr 0 j.epoch j.gc j.seq 0 x.first x.k x.origin x.fmt 0) x.k x.data x.poison) s,
     { j with sendq := [] })
  else (s, j)

/-- A stop of a GATHER: it stays until the fault is resolved, or ends (R246, R248). -/
def State.gatherStop (s : State) (j : GatherJob) (write : Bool) (st : Stop) : State :=
  let r : SlotRef := match (s.queue j.e.q).slot with | some r => r | none => ⟨7, j.rce, 0⟩
  let t := (s.setGather j).instStop j.e (slotCode r) write st
  match (t.queue j.e.q).inst j.e.seq with
  | some i => if i.done then (t.endGather j).popIf r j.e else t
  | none => t

/-- Slots of arrived data that is written out and sent on return (R313). -/
def State.gatherSlots (s : State) (e : Entry) : State :=
  match s.core.rce.gathers.find? (fun j => j.e = e) with
  | none => s
  | some j =>
    let keep := j.slots.filter j.busy
    (s.setGather { j with slots := keep }).give 4 (j.rce / 4) (j.slots.length - keep.length)

/-- Does a GATHER stand at a fault? -/
def State.gatherHeld (s : State) (j : GatherJob) : Bool := ((s.queue j.e.q).inst j.e.seq).any (fun i => i.fid.isSome)

/-- A GATHER that nothing holds: own data, tiles, sends, and its completion (R337-R339). -/
def State.runGather (s : State) (e : Entry) : State :=
  match s.core.rce.gathers.find? (fun j => j.e = e) with
  | none => s
  | some j =>
    let g := s.gGroup j
    let a := s.readOwn j g (j.nblk - j.own)
    if a.2.2 ≠ .none then a.1.gatherStop a.2.1 false a.2.2
    else
      let fresh := decide (j.own < j.nblk) && decide (g.m > 1)
      let j := if fresh then { a.2.1 with sendq := a.2.1.sendq ++ a.2.1.ownSends g.rank } else a.2.1
      let w := a.1.writeWhole j (List.range (g.m * j.tiles))
      if w.2.2 ≠ .none then (let p := w.1.pumpGather w.2.1; p.1.gatherStop p.2 true w.2.2)
      else
        let p := w.1.pumpGather w.2.1
        let j := p.2
        let s := p.1.setGather j
        let all := decide (j.written.length = g.m * j.tiles)
        let s := if all && !j.fin then
            let s := s.setGather { j with fin := true }
            let s := match (s.queue e.q).slot with | some r => s.popIf r e | none => s
            (s.noteCount e 1 j.poisoned).finish e.q e.seq
          else s
        if all && j.sendq.isEmpty then s.endGather j else s

/-- What follows any event of a GATHER: while it stands at a fault it sends on what it has and no more (R246). -/
def State.settleGather (s : State) (e : Entry) : State :=
  match s.core.rce.gathers.find? (fun j => j.e = e) with
  | none => s
  | some j =>
    if s.gatherHeld j then
      let p := s.pumpGather j
      (p.1.setGather p.2).gatherSlots e
    else (s.runGather e).gatherSlots e

/-- GATHER reaches the head: its SEQ, its GGRANT and its job (R337). -/
def State.beginGather (s : State) (r : SlotRef) (e : Entry) : State :=
  match s.group r.unit e.gc with
  | none => s
  | some g =>
    let early := s.core.rce.ggrants.filter (fun x => x.at_ = 16 * r.unit + e.gc && x.epoch = e.bEpoch && x.seq = g.seq)
    let j : GatherJob := { e := e, rce := r.unit, gc := e.gc, seq := g.seq, epoch := e.bEpoch, nfmt := e.gNfmt, wfmt := e.gWfmt,
                           nblk := e.gBlks, dest := destAddr e.dest,
                           wrong := (early.filter (fun x => x.nblk ≠ e.gBlks || x.fmt ≠ e.gNfmt)).map (·.origin) }
    let s := { s with core.rce.groups := mput s.core.rce.groups (16 * r.unit + e.gc) { g with seq := (g.seq + 1) % 2 ^ 32 },
                      core.rce.gathers := s.core.rce.gathers ++ [j] }
    let s := if g.m > 1 then
        s.sendGroup r.unit e.gc 0x43 g.pred (groupHdr 0 e.bEpoch e.gc g.seq 0 e.gBlks 0 g.rank e.gNfmt 0) 0 [] false
      else s
    s.settleGather e

/-- GATHER: it stays at the head until it completes (R249, R337). -/
def execGather (r : SlotRef) (s : State) : Out :=
  liftCore (whenDispatching (fun s =>
    if s.headHeld r then s
    else match s.head r with
      | none => s
      | some h =>
        if s.core.rce.gathers.any (fun j => j.e = h) then s.settleGather h
        else s.atHead r 0x53 (s.gatherBad r) (fun e s => s.beginGather r e))) s

/-- The GATHER that group data of a SEQ belongs to. -/
def State.gatherOf (s : State) (p : Packet) (n : Nat) : Option GatherJob :=
  s.core.rce.gathers.find? (fun j => j.rce = n && j.gc = gGc p && j.epoch = hdrField p 18 1 && j.seq = hdrField p 20 4)

/-- GGRANT: the successor's GATHER is at its head (R337). Held even before this member's own. One of another NBLK or NFMT tells that the granter's own
shard will not fit (R337). -/
def State.onGgrant (s : State) (p : Packet) (n : Nat) : State :=
  let k : GGrant := ⟨16 * n + gGc p, hdrField p 18 1, hdrField p 20 4, gFirst p, gFmt p, gOrigin p⟩
  let s := if s.core.rce.ggrants.contains k then s else { s with core.rce.ggrants := s.core.rce.ggrants ++ [k] }
  match s.gatherOf p n with
  | some j =>
    let j := if k.nblk ≠ j.nblk || k.fmt ≠ j.nfmt then { j with wrong := sins k.origin j.wrong } else j
    (s.setGather j).settleGather j.e
  | none => s

def execGgrant (p : Packet) (s : State) : Out :=
  liftCore (whenLive (fun s => s.groupPacket p 0x43 (fun n s => s.onGgrant p n))) s

/-- Does arrived data show that its shard is of another NBLK or NFMT: another format, blocks beyond NBLK, or a packet that is short and not the last
(R332, R337)? -/
def GatherJob.unfit (j : GatherJob) (p : Packet) : Bool :=
  decide (gFmt p ≠ j.nfmt) || decide (gFirst p + gK p > j.nblk) || (decide (gK p < moveMax j.nfmt) && decide (gFirst p + gK p ≠ j.nblk))

/-- GDATA: blocks land in a slot, go on to the successor unless it is their origin, and whole tiles are written (R337, R339). -/
def State.onGdata (s : State) (p : Packet) (n : Nat) : State :=
  match s.gatherOf p n with
  | none => s.stale n (gK p)
  | some j =>
    let g := s.gGroup j
    let o := gOrigin p
    if o ≥ g.m || j.fin then s.stale n (gK p)
    else
      let j := if o ≠ (g.rank + 1) % g.m then { j with sendq := j.sendq ++ [⟨o, gFirst p, gK p, gFmt p, p.poison, p.data⟩] } else j
      let j :=
        if j.unfit p then { j with wrong := sins o j.wrong }
        else { j with landed := (List.range (gK p)).foldl (fun m i =>
          mput m (o * j.nblk + gFirst p + i)
            (p.poison, (blkPieces 0 j.nfmt (gK p) i).flatMap (fun q => (p.data.drop q.1).take q.2))) j.landed }
      ((s.take 4 (n / 4) 1).setGather { j with slots := j.slots ++ [(o, gFirst p, gK p)] }).settleGather j.e

def execGdata (p : Packet) (s : State) : Out :=
  liftCore (whenLive (fun s => s.groupPacket p 0x44 (fun n s => s.onGdata p n))) s

/-- A GATHER ended at its deadline under LATE_ABORT: tiles not written become zeros with POISON, their shards' blocks count as dropped
(R210). -/
def State.abortGather (s : State) (j : GatherJob) : State :=
  let g := s.gGroup j
  let left := (List.range (g.m * j.tiles)).filter (fun t => !j.written.contains t)
  let ranks := (List.range g.m).filter (fun r => left.any (fun t => t / j.tiles = r))
  let ok := left.filter (fun t => decide (s.vcheck j.e.ctx (j.tileAt t) ((if j.wfmt = 0 then 2 else 1) * tuBytes) true false = .none))
  let s := ok.foldl (fun s t => (s.writeTile j t false).1) s
  let s := if ranks.isEmpty then s else (s.bump (rceBase j.rce + 0x120) (ranks.length * j.nblk)).raise (rceInt j.rce) 1
  s.endGather j

/-- Blocks of other members that a GATHER holds, written out or sent on by none yet (R340). -/
def State.gatherHolds (s : State) (j : GatherJob) : Nat :=
  let rank := (s.gGroup j).rank
  let blks := (j.slots.filter j.busy).flatMap (fun x => (List.range x.2.2).map (fun i => (x.1, x.2.1 + i)))
  (blks.filter (fun b => b.1 ≠ rank)).eraseDups.length

end Sys2Proof.Machine
end

