-- ==== Sys2Proof/Machine/Translate.lean ====
section
/-! DEFINITION. Translation: table walks, the end of faults, ATS, page requests and invalidations (10_translation R240-R248,
15_host R377, R378). -/
namespace Sys2Proof.Machine

/-! Forgetting an instruction (R147, R210, R248, R255) -/

/-- Is an entry that of an instruction? -/
def Entry.is (e : Entry) (q seq : Nat) : Bool := e.q = q && e.seq = seq

/-- Take an instruction out of its EIQ share and out of what a pre-emption saved of it. -/
def State.quashShare (s : State) (q seq : Nat) : State :=
  let x := s.queue q
  let s := s.setQueue q { x with saved := x.saved.filter (fun e => !e.is q seq) }
  match x.slot with
  | none => s
  | some r =>
    let l := mgetD s.core.qm.eiq (slotKey r) []
    let n := (l.filter (fun e => e.is q seq)).length
    if n = 0 then s
    else { s with core.qm.eiq := mput s.core.qm.eiq (slotKey r) (l.filter (fun e => !e.is q seq)) }.give 8 (eiqPart r) n

/-- Take an instruction out of the OPEs: the OPA in progress, waiting row-port operations, images not sent. -/
def State.quashOpe (s : State) (q seq : Nat) : State :=
  s.core.opes.foldl (fun s x =>
    let o := s.ope x.1
    let gone := o.drains.filter (fun d => d.e.is q seq)
    let o := { o with
      pend := o.pend.filter (fun y => !y.2.is q seq)
      drains := o.drains.filter (fun d => !d.e.is q seq)
      back := o.back.map (fun (d : DrainImg × Option Nat) => if d.1.e.is q seq then ({ d.1 with part := 4 }, d.2) else d)
      staged := o.staged.map (fun x => if x.e.is q seq then { x with part := 4 } else x)
      parts := o.parts.map (fun p => (p.1, { p.2 with run := p.2.run.filter (fun y => !y.e.is q seq) })) }
    (s.setOpe x.1 o).give 9 x.1 (sumNat (gone.map (·.units)))) s

/-- Take an instruction out of the MVUs, and of the update engines and BPUTs that a fault has stopped. -/
def State.quashUnits (s : State) (q seq : Nat) : State :=
  { s with
    core.mvus := s.core.mvus.map (fun m => (m.1, { m.2 with
      run := m.2.run.filter (fun y => !y.e.is q seq)
      result := m.2.result.filter (fun y => !y.e.is q seq)
      held := m.2.held.filter (fun y => !(y.2.2.1 = q && y.2.2.2 = seq)) }))
    core.ses := s.core.ses.map (fun x => (x.1, { x.2 with upds := x.2.upds.filter (fun u => !u.e.is q seq) }))
    core.saved := s.core.saved.map (fun x => (x.1, { x.2 with
      run := x.2.run.filter (fun y => !y.e.is q seq)
      pend := x.2.pend.filter (fun y => !y.is q seq)
      mvx := x.2.mvx.filter (fun y => !y.e.is q seq)
      result := x.2.result.filter (fun y => !y.e.is q seq)
      drains := x.2.drains.map (fun d => (if d.1.e.is q seq then { d.1 with part := 4 } else d.1, d.2)) }))
    core.rce.puts := s.core.rce.puts.filter (fun p => !p.e.is q seq)
    core.rce.epochs := s.core.rce.epochs.filter (fun p => !p.1.is q seq)
    core.mmu.faults := s.core.mmu.faults.map (fun f => (f.1, { f.2 with stopped := f.2.stopped.filter (· ≠ (q, seq)) })) }

/-- Buckets whose BCLOSE is an instruction. -/
def State.closingOf (s : State) (q seq : Nat) : List Bucket :=
  (s.core.rce.buckets.filter (fun b => match b.2.bclose with | some e => e.is q seq && decide (b.2.st = .closing) | none => false)).map (·.2)

/-- Forget an instruction wherever a unit holds it. A bucket it was closing goes on as HELD. -/
def State.quash (s : State) (q seq : Nat) : State :=
  let bs := s.closingOf q seq
  let s := ((s.quashShare q seq).quashOpe q seq).quashUnits q seq
  let s := { s with core.qm.waiters := s.core.qm.waiters.filter (fun w => !(w.q = q && w.seq = some seq)) }
  bs.foldl (fun s b => (s.setBkt { b with st := .held }).settleBkt b.key) s

/-- The SE job of an instruction, with its engine. -/
def State.jobOf (s : State) (q seq : Nat) : Option (Nat × SeJob) :=
  (s.core.ses.flatMap (fun x => (x.2.jobs.filter (fun j => j.e.is q seq)).map (fun j => (x.1, j))))[0]?

/-! The end of a fault (R248) -/

/-- A stopped instruction is aborted: its effects before the stopping point stand (R248). -/
def State.abortInst (s : State) (q seq addr : Nat) : State :=
  match s.jobOf q seq with
  | some (u, j) => ((s.updInst q seq (fun i => { i with fid := none })).note q seq 7 addr false).stopJob u j
  | none =>
    let s := (s.core.rce.gathers.filter (fun j => j.e.is q seq)).foldl (fun s j => s.endGather j) s
    (s.finishWith q seq 7 addr).quash q seq

/-- Remove a fault ID (R360 class 0x0C), and what ATS or PRI had refused of its page. -/
def State.endFault (s : State) (fid : Nat) (f : PageFault) : State :=
  let s := { s with core.mmu.faults := mdel s.core.mmu.faults fid }.give 0xC 0 1
  if f.cause = 5 ∨ f.cause = 6 then s.unrefuse f.ctx f.addr else s

/-- Does a queue's ring fetch wait at a fault? -/
def Queue.fetchWaits (x : Queue) (fid : Nat) : Bool := match x.cur with | some c => decide (c.fid = some fid) | none => false

/-- A queue whose ring fetch stopped at a fault fetches again. -/
def State.refetch (s : State) (fid q : Nat) : State :=
  s.updQueue q (fun x => if x.fetchWaits fid then { x with cur := none, st := if x.st = .waiting then .bound else x.st } else x)

/-- A queue whose ring fetch faulted and was aborted: the entry is skipped with its record, if the queue still waits there (R452). -/
def State.fetchAborted (s : State) (fid q addr : Nat) : State :=
  let x := s.queue q
  if !x.fetchWaits fid then s
  else
  let s := s.setQueue q { x with cur := some { raw := 0, ft := s.now, bad := some (7, addr) }, st := if x.st = .waiting then .bound else x.st }
  if s.ready q then s.runCur q else s

/-- RETRY: every access that joined is made again by its unit; for a pre-empted queue that is at resumption (R248). -/
def State.retryFault (s : State) (fid : Nat) (f : PageFault) : State :=
  let s := s.endFault fid f
  let s := f.stopped.foldl (fun s x => s.updInst x.1 x.2 (fun i => { i with fid := none })) s
  let s := f.fetches.foldl (fun s q => s.refetch fid q) s
  let s := f.streams.foldl (fun s n => s.setStream n { s.stream n with fid := none }) s
  let s := (s.backsResolved fid false).rceResolved fid false
  let s := (s.core.rce.gathers.filter (fun j => f.stopped.any (fun x => j.e.is x.1 x.2))).foldl (fun s j => s.settleGather j.e) s
  f.rings.foldl State.rewriteHeld s

/-- Does an instruction still stand at a fault? -/
def State.stoppedAt (s : State) (fid q seq : Nat) : Bool := match (s.queue q).inst seq with | some i => decide (i.fid = some fid) | none => false

/-- The first held record of a queue is lost, its tag is free, and the later ones are tried (R142, R248). -/
def State.dropHeld (s : State) (q : Nat) : State :=
  match (s.queue q).held with
  | [] => s
  | r :: l => ((s.updQueue q (fun x => { x with held := l })).freeTag r.tag).rewriteHeld q

/-- Abort: each instruction that stands at it ends with TRANSLATION_FAULT, each stream that does is cancelled with that status, and a held record is
lost (R248). -/
def State.abortFault (s : State) (fid : Nat) (f : PageFault) : State :=
  let s := s.endFault fid f
  let s := f.stopped.foldl (fun s x => if s.stoppedAt fid x.1 x.2 then s.abortInst x.1 x.2 f.addr else s) s
  let s := f.fetches.foldl (fun s q => s.fetchAborted fid q f.addr) s
  let s := (f.streams.foldl (fun s n => if (s.stream n).fid = some fid then s.cancelStream n 7 none else s) s).backsResolved fid true
  f.rings.foldl State.dropHeld (s.rceResolved fid true)

/-- FAULT_TMO of a context, in 64 ns units (R235). -/
def Ctx.faultTmo (c : Ctx) : Nat := bits c.entry 288 32

/-- FAULT_TIMEOUT (R248). -/
def execFaultTimeout (fid : Nat) (s : State) : Out :=
  liftCore (whenLive (fun s => match mget s.core.mmu.faults fid with
    | none => s
    | some f =>
      let t := (s.ctx f.ctx).faultTmo
      if t ≠ 0 && decide (s.now ≥ f.ft + 64 * t) then s.abortFault fid f else s)) s

/-! MMU commands (R259, R260) -/

/-- Run an MMU command that ends at once. -/
def State.mmuCmd (s : State) (op : Nat) (f : State → State × Nat) : State := s.runCmd 1 op mmuInt 3 f

/-- FAULT_RESOLVE (R248, R260). -/
def State.faultResolve (s : State) : State :=
  s.mmuCmd 9 (fun s =>
    let fid := bits (s.arg mmuBase 0) 0 10
    match mget s.core.mmu.faults fid with
    | none => (s, 0xC)
    | some f => (if (s.arg mmuBase 0).testBit 16 then s.abortFault fid f else s.retryFault fid f, 0))

/-- FAULT_RESOLVE (R248). -/
def execFaultResolve (s : State) : Out := liftCore (whenDispatching State.faultResolve) s

/-! TLBs (R240) -/

/-- Entries of a TLB: 8,192 of a quarter's shared one, 64 of a unit's own (R240). -/
def tlbSize (k : Nat) : Nat := if k < 4 then 8192 else 64

/-- A leaf enters a TLB: what it held of the same addresses goes, and in a full one the oldest entry. -/
def tlbFill (l : List TlbEntry) (e : TlbEntry) : List TlbEntry :=
  let meets (t : TlbEntry) : Bool := t.tlb = e.tlb && t.ctx = e.ctx && decide (t.page * t.size < e.page * e.size + e.size)
    && decide (e.page * e.size < t.page * t.size + t.size)
  let keep := l.filter (fun t => !meets t)
  let full := decide ((keep.filter (fun t => t.tlb = e.tlb)).length ≥ tlbSize e.tlb)
  (if full then keep.eraseP (fun t => t.tlb = e.tlb) else keep) ++ [e]

/-- Number of a unit's own TLB, by 256 times its class plus its number: classes 0-7 of R135, 8 a kaolin core, 9 the NMU of a stack. -/
def unitTlb (unit : Nat) : Nat := 4 + unit

/-- Quarter of such a unit. -/
def State.tlbQuarter (s : State) (unit : Nat) : Nat :=
  (if unit / 256 = 8 then unit % 256 / 8 else if unit / 256 = 9 then unit % 256 / 2 else s.quarterOf (unit / 256) (unit % 256)) % 4

/-- The entry that a TLB holds for an address. -/
def State.tlbHit (s : State) (k ctx va : Nat) : Option TlbEntry :=
  s.core.mmu.tlb.find? (fun t => t.tlb = k && t.ctx = ctx && t.page = va / t.size)

/-- The accesses in flight that a test of context and address picks: record writes of a PASID, fetches, descriptor write-backs, and fills and
write-backs of the pool (R241, R242). -/
def State.inFlight (s : State) (pasid : Nat) (uses : Nat → Nat → Bool) : InvWait :=
  { lines := (s.core.host.cacheOut.zipIdx.foldl (fun k w => if w.1.pasid = pasid then w.2 + 1 else k) 0)
    fetches := s.core.ses.flatMap (fun x => (x.2.tracker.filter (fun t => (t.2.src ++ t.2.addrs).any (uses t.2.ctx))).map (fun t => (x.1, t.1)))
    backs := s.core.ses.flatMap (fun x => (x.2.wbs.filter (fun w => uses w.ctx w.at_)).map (fun w => (x.1, w.at_)))
    tus := (s.core.mem.pool.filter (fun e => (e.2.filling || e.2.wb && !e.2.refused) && uses e.2.owner e.2.va)).map (·.1) }

/-- TABLE_WALK: a unit's miss is served by its quarter's shared TLB, or the table is walked; a valid leaf is cached in both, anything else never
(R240). The fault itself is the access's. -/
def execTableWalk (who : Walker) (va : Nat) (s : State) : Out :=
  liftCore (whenDispatching (fun s =>
    let ctx := who.ctx
    let unit := who.unit
    if ctx = 0 || (s.ctx ctx).st = .free then s
    else
      let q := s.tlbQuarter unit
      match s.tlbHit q ctx va with
      | some t => { s with core.mmu.tlb := tlbFill s.core.mmu.tlb { t with tlb := unitTlb unit } }
      | none =>
        let s := s.countWalk ctx va
        match s.walk ctx va with
        | .error _ => s
        | .ok (level, e) =>
          let n := leafSize level e
          let t : TlbEntry := { ctx := ctx, page := va / n, size := n, leaf := e, tlb := q }
          { s with core.mmu.tlb := tlbFill (tlbFill s.core.mmu.tlb t) { t with tlb := unitTlb unit } })) s

/-! ATS and page requests (R242, R243, R377, R378) -/

/-- Entries of the translation cache. -/
def atcSize : Nat := 8192

/-- ATS or PRI has refused a page: the accesses that wait for it fault with a cause (R243). -/
def State.refusePage (s : State) (ctx page cause : Nat) : State :=
  ({ s with core.mmu.refused := s.core.mmu.refused ++ [(ctx, page, cause)] }).retryRecords

/-- ATS answers that a page may not be used: a page request group, where PRI may be used, or cause 5; beyond the host's allocation the fault
waits and is counted (R243, R378). -/
def State.pageRequest (s : State) (ctx page pasid : Nat) (write : Bool) : State :=
  if !(s.ctx ctx).flag 1 then s.refusePage ctx page 5
  else if !s.core.mmu.priOn then s.refusePage ctx page 6
  else if s.core.mmu.prg.length ≥ s.core.mmu.priAlloc then s.bump (hifBase + 0x140) 1
  else
    let i := s.core.mmu.prgNext
    { s with core.mmu.prg := s.core.mmu.prg ++ [({ ctx := ctx, addr := page, write := write, index := i, ft := s.now, pasid := pasid } : PageReq)], core.mmu.prgNext := (i + 1) % 512 }.bump (mmuBase + 0x120) 1

/-- ATS_COMPLETION: it answers the oldest request of the context for the page, under the PASID it was made with: a translation fills the cache, or
the page is refused (R234, R242, R243, R377). -/
def execAtsCompletion (ctx addr host : Nat) (write ok : Bool) (s : State) : Out :=
  liftCore (whenLive (fun s =>
    match s.core.mmu.ats.find? (fun r => r.ctx = ctx && r.page = addr / 4096) with
    | none => s
    | some r =>
      let s := { s with core.mmu.ats := s.core.mmu.ats.erase r }
      if ok then
        let a := s.core.mmu.atc
        ({ s with core.mmu.atc := (a ++ [({ pasid := r.pasid, page := addr / 4096, host := host / 4096, write := write } : AtcEntry)]).drop (a.length + 1 - atcSize) }).retryRecords
      else s.pageRequest ctx (addr / 4096) r.pasid write)) s

/-- PRG_RESPONSE: code 0 is success, and the translation is retried; one that matches no outstanding request is discarded (R243, R378). -/
def execPrgResponse (idx pasid code : Nat) (s : State) : Out :=
  liftCore (whenLive (fun s => match s.core.mmu.prg.find? (fun p => p.index = idx && p.pasid = pasid) with
    | none => s
    | some p =>
      let s := { s with core.mmu.prg := s.core.mmu.prg.erase p }
      if code = 0 then s.retryRecords else s.refusePage p.ctx p.addr 6)) s

/-- PRI_TIMEOUT: no response within FAULT_TMO (R243). -/
def execPriTimeout (idx : Nat) (s : State) : Out :=
  liftCore (whenLive (fun s => match s.core.mmu.prg.find? (fun p => p.index = idx) with
    | none => s
    | some p =>
      let t := (s.ctx p.ctx).faultTmo
      if t ≠ 0 && decide (s.now ≥ p.ft + 64 * t) then { s with core.mmu.prg := s.core.mmu.prg.erase p }.refusePage p.ctx p.addr 6 else s)) s

/-- PRI_DISABLE: every outstanding request is treated as refused (R378). -/
def execPriDisable (s : State) : Out :=
  liftCore (whenLive (fun s =>
    let l := s.core.mmu.prg
    l.foldl (fun s p => s.refusePage p.ctx p.addr 6) { s with core.mmu.prg := [], core.mmu.priOn := false })) s

/-- The accesses in flight that use the host translations of n pages of a PASID (R242). -/
def State.atsInFlight (s : State) (pasid page n : Nat) : InvWait :=
  s.inFlight pasid (fun c a => decide ((s.ctx c).pasid = pasid) && decide (c ≠ 0) && s.tuViaAts c a page n)

/-- ATS_INVALIDATION of n pages of a PASID: cached translations go at once; the completion follows once the accesses that used them have been
acknowledged (R242). -/
def execAtsInvalidation (pasid page n : Nat) (s : State) : Out :=
  liftCore (whenLive (fun s =>
    let s := { s with core.mmu.atc := s.core.mmu.atc.filter (fun t => !(t.pasid = pasid && decide (page ≤ t.page) && decide (t.page < page + n))) }
    { s with core.mmu.invs := s.core.mmu.invs ++ [s.atsInFlight pasid page n] }.invPass id)) s

end Sys2Proof.Machine
end

