-- ==== Sys2Proof/Machine/Contexts.lean ====
section
/-! DEFINITION. Contexts: creation, invalidation, killing, destruction and the dump of fenced partitions (10_translation R234-R241,
R254-R258, 13_collectives R336, R340). -/
namespace Sys2Proof.Machine

/-! Entries (R235, R260) -/

/-- Bits of an entry that must be 0 (R235). -/
def entryReserved : List (Nat × Nat) :=
  [(3, 5), (13, 3), (16, 16), (52, 12), (64, 12), (120, 8), (210, 14), (243, 13), (332, 4), (349, 3), (364, 4), (381, 3), (396, 4), (413, 3),
   (428, 4), (445, 3), (456, 56), (640, 384)]

/-- First number and one past the last of an entry's streams and bucket IDs, and of its park places in each quarter (R235). -/
def entryRanges (d : Nat) : List (Nat × Nat) :=
  [(bits d 192 18, bits d 192 18 + bits d 224 19), (bits d 256 16, bits d 256 16 + bits d 272 16)]
    ++ (List.range 4).map (fun q => (bits d (320 + 32 * q) 12, bits d (320 + 32 * q) 12 + bits d (336 + 32 * q) 13))

/-- Do two ranges share a number? -/
def rangesMeet (a b : Nat × Nat) : Bool := decide (max a.1 b.1 < min a.2 b.2)

/-- Contexts that are not FREE, other than one. -/
def State.others (s : State) (c : Nat) : List Ctx := (s.core.mmu.ctxs.filter (fun e => e.1 ≠ c && decide (e.2.st ≠ .free))).map (·.2)

/-- Does an entry break R234 or R235 for a context? Two contexts that share a PASID break R234 (log 28). -/
def State.entryBad (s : State) (c d : Nat) : Bool :=
  entryReserved.any (fun r => decide (bits d r.1 r.2 ≠ 0))
  || ((entryRanges d).zip [262144, 65536, 2048, 2048, 2048, 2048]).any (fun r => decide (r.1.2 > r.2))
  || (s.others c).any (fun o => ((entryRanges d).zip (entryRanges o.entry)).any (fun r => rangesMeet r.1 r.2) || decide (o.pasid = bits d 32 20))

/-- The context and the entry that an MMU command names. -/
def State.cmdCtx (s : State) : Nat := bits (s.arg mmuBase 0) 0 12
def State.cmdEntry (s : State) : Nat := s.cmdData mmuBase 32

/-- CTX_CREATE (R260). -/
def State.ctxCreate (s : State) : State :=
  s.mmuCmd 1 (fun s =>
    let c := s.cmdCtx
    if c = 0 || (s.ctx c).st ≠ .free || s.entryBad c s.cmdEntry then (s, 0xC)
    else (({ s with core.mmu.ctxs := mput s.core.mmu.ctxs c { st := .active, entry := entryKept s.cmdEntry } }).ctxWrite c, 0))

/-- CTX_MODIFY: ROOT and PASID change only while SUSPENDED (R260). -/
def State.ctxModify (s : State) : State :=
  s.mmuCmd 2 (fun s =>
    let c := s.cmdCtx
    let x := s.ctx c
    let d := entryKept s.cmdEntry
    let fixed := decide (bits d 32 20 = bits x.entry 32 20) && decide (bits d 64 64 = bits x.entry 64 64)
    if !s.ctxUsable c || s.entryBad c s.cmdEntry || (!fixed && x.st ≠ .suspended) then (s, 0xC)
    else ((s.updCtx c (fun x => { x with entry := d })).ctxWrite c, 0))

/-- CTX_READ (R260). -/
def State.ctxRead (s : State) : State :=
  s.mmuCmd 3 (fun s => (s.putData mmuBase (s.ctx s.cmdCtx).word 32, 0))

def execCtxCreate (s : State) : Out := liftCore (whenDispatching State.ctxCreate) s
def execCtxModify (s : State) : Out := liftCore (whenDispatching State.ctxModify) s
def execCtxRead (s : State) : Out := liftCore (whenDispatching State.ctxRead) s

/-! TLB_INV (R241, R336) -/

/-- Does [a, a + n) meet the range of an invalidation? No pages: the whole context. -/
def meetsRange (first pages a n : Nat) : Bool := decide (pages = 0) || rangesMeet (first, first + 4096 * pages) (a, a + n)

/-- Arrays that an UPD with a record holds references on (R336). -/
def updRefs (e : Entry) (d : Nat) : List (Nat × Nat) :=
  (updArrays e d).map (fun x => (x.1, arrayBytes x.2.1 (32 * e.updBlks))) ++ (if recMask d = 0 then [] else [(recMask d, ceilDiv e.updBlks 8)])

/-- Is an epoch reference held on the range (R336)? -/
def State.refsHeld (s : State) (c first pages : Nat) : Bool :=
  s.core.rce.buckets.any (fun b => b.2.ctx = c && meetsRange first pages b.2.stage b.2.stageLen)
  || s.core.rce.buckets.any (fun b => match b.2.bclose with
      | some e =>
        let t := b.2.target (s.bktGroup b.2) e
        b.2.ctx = c && b.2.st = .closing && meetsRange first pages t.1 (arrayBytes t.2.1 (32 * t.2.2))
      | none => false)
  || s.core.rce.puts.any (fun p => p.e.ctx = c && p.e.op = 0x51 && meetsRange first pages (p.e.eff 1 24 56) (arrayBytes (p.e.f 20 1 % 16) (32 * p.e.f 36 4)))
  || s.core.rce.gathers.any (fun j => j.e.ctx = c && !j.fin && (meetsRange first pages j.e.gSrc (arrayBytes j.nfmt (32 * j.nblk))
      || meetsRange first pages j.dest ((if j.wfmt = 0 then 2 else 1) * tuBytes * j.tiles * (s.gGroup j).m)))
  || s.core.ses.any (fun x => x.2.upds.any (fun u => u.e.ctx = c && u.record.any (fun d => (updRefs u.e d).any (fun a => meetsRange first pages a.1 a.2))))

/-- Does the table give an address a pooled host page, whatever ATS answers for it? -/
def State.pooledLeaf (s : State) (c va : Nat) : Bool :=
  match s.walk c va with
  | .ok (_, e) => decide (bits e 9 3 = 4)
  | .error _ => false

/-- Pool entries of a context whose address in the range no longer leads to them (R241). -/
def State.unmapped (s : State) (c first pages : Nat) : Map PoolTu :=
  s.core.mem.pool.filter (fun e => e.2.owner = c && meetsRange first pages e.2.va tuBytes
    && (match s.xlate c e.2.va false true with
        | .ok l => decide ((poolKey l).map (·.1) ≠ some e.1)
        | .ats _ => !s.pooledLeaf c e.2.va || decide (s.hostPage c e.2.va ≠ e.2.page)
        | .fault _ => true))

/-- Free an unmapped TU: dirty ones are written back first, poisoned ones are not, and pins go; one that its home refuses stays, with an image
pin (R221, R241; log 84). -/
def State.dropPooled (s : State) (key : Nat) (p : PoolTu) : State :=
  let s := if p.filling && !p.writes.isEmpty then s.fillFrom key p else s
  let p := { s.poolEntry key p.stack p.owner with pin := 0 }
  if p.resident && p.dirty && !p.poisonPin && !(p.wb && !p.again && !p.refused) then
    if s.homeRefuses p then s.refuseWb key { p with refused := false } else (s.writeHome p).freeTu key p
  else if p.resident || p.filling then s.freeTu key p
  else { s with core.mem.pool := mdel s.core.mem.pool key }

/-- TLB_INV completes under R241, or waits: for the accesses that were in flight when it began, and for references. -/
def State.settleInv (s : State) : State :=
  match s.core.mmu.inv with
  | none => s
  | some x =>
    if x.wait.owed || s.refsHeld x.ctx x.first x.pages then s
    else
      let s := (s.unmapped x.ctx x.first x.pages).foldl (fun s e => s.dropPooled e.1 e.2) s
      if (s.unmapped x.ctx x.first x.pages).isEmpty then { s with core.mmu.inv := none }.cmdDone 1 0 mmuInt 3 else s

/-- TLB_INV: cached translations of the range are discarded at once; its range is that of the arguments when it begins (R241, R260). -/
def State.tlbInv (s : State) : State :=
  if s.cmdBusy 1 then s
  else
    let a := s.arg mmuBase 0
    let c := bits a 0 12
    let pages := bits a 32 32
    let first := bits (s.arg mmuBase 1) 12 44 * 4096
    let s := s.startCmd 1 8 0
    let wait := s.inFlight (s.ctx c).pasid (fun k va => decide (k = c) && meetsRange first pages va tuBytes)
    ({ s with core.mmu.tlb := s.core.mmu.tlb.filter (fun t => !(t.ctx = c && meetsRange first pages (t.page * t.size) t.size)),
              core.mmu.inv := some ⟨c, first, pages, wait⟩ }).settleInv

/-- TLB_INV (R241). -/
def execTlbInv (s : State) : Out := liftCore (whenDispatching State.tlbInv) s

/-! CTX_KILL (R254-R256) -/

/-- Ledger returns made between two states count as reclaimed too (R360). -/
def State.asReclaimed (s before : State) : State :=
  { s with core.ldg.live := s.core.ldg.live.map (fun e =>
      let old := mgetD before.core.ldg.live e.1 {}
      let dr := (e.2.returned + 2 ^ 48 - old.returned % 2 ^ 48) % 2 ^ 48
      let dc := (e.2.reclaimed + 2 ^ 48 - old.reclaimed % 2 ^ 48) % 2 ^ 48
      (e.1, { e.2 with reclaimed := (e.2.reclaimed + (dr - dc)) % 2 ^ 48 })) }

/-- Queues of a context. -/
def State.queuesOf (s : State) (c : Nat) : List Nat := (s.core.qm.queues.filter (fun e => e.2.ctx = c && decide (e.2.st ≠ .disabled))).map (·.1)

/-- Step 2 for one queue: its partition is fenced, one fenced for a format mismatch anew, its slot stops, and every instruction in flight completes with
CONTEXT_KILLED. Its completion ring goes away (R255). -/
def State.killQueue (s : State) (c q : Nat) : State :=
  let x := s.queue q
  let s := match x.part with
    | some (n, p) => if ((s.ope n).part p).fence ≤ 1 then s.setOpe n ((s.ope n).fence p 3 0 q c) else s
    | none => s
  let s := (s.withdraw q).endStall q
  let held := (s.queue q).held
  let s := held.foldl (fun s r => s.freeTag r.tag) ((s.updQueue q (fun x => { x with held := [] })).bump (mmuBase + 0x140) held.length)
  let s := { s with core.qm.doorbells := s.core.qm.doorbells.filter (fun d => d.q ≠ q), core.qm.waiters := s.core.qm.waiters.filter (fun w => w.q ≠ q),
                    core.qm.marks := s.core.qm.marks.filter (fun m => m.1 ≠ q), core.saved := mdel s.core.saved q }
  let s := s.updQueue q (fun x => { x with cur := none, aside := none, stalled := none, stall := 0, hold := .none, aborting := false, stopping := false })
  let l := (s.queue q).fl.map (·.seq)
  let s := l.foldl (fun s n => (s.finishWith q n 8 0).quash q n) s
  ((l.foldl (fun s n => s.complete q n) s).settleStop q).dropRing q

/-- A bucket or carry record of a killed context: what it holds is discarded and counted, and its predecessor is told (R340). -/
def State.killBucket (s : State) (b : Bucket) : State :=
  let g := s.bktGroup b
  let main :=
    if b.st = .carry then 0
    else if b.reduces then
      ((List.range b.nblk).filter (fun k => !emptyWord (s.recWord b 0 k) && !doneBit (s.recWord b 0 k))).length + (s.readyFinals b g).length
    else (b.landed.filter (fun x => !b.sent.contains x.1)).length
  let carry := if b.hasCarry then (s.carryBlks b).length else 0
  let n := main + carry
  let s := if n = 0 then s else (s.bump (rceBase b.rce + 0x120) n).raise (rceInt b.rce) 1
  let s := if g.m > 1 && b.st ≠ .carry then
      s.sendGroup b.rce b.gc 0x45 g.pred (groupHdr b.id b.epoch b.gc 0 b.close 0 0 g.rank 0 0) 0 [] false else s
  { s with core.rce.buckets := mdel s.core.rce.buckets b.key }.give 0xD 0 1

/-- Step 3: streams are cancelled, faults and page requests discarded. -/
def State.killStreams (s : State) (c : Nat) : State :=
  let l := (s.core.streams.filter (fun e => e.2.ctx = c)).map (·.1)
  let s := l.foldl (fun s n => if [1, 2, 5, 7].contains (s.stream n).st then s.cancelStream n 5 none else s) s
  let idle := l.filter (fun n => [4, 6].contains (s.stream n).st)
  let s := idle.foldl (fun s n => { s with core.streams := mdel s.core.streams n }.give 0xB 0 1) s
  let s := (s.core.mmu.faults.filter (fun f => f.2.ctx = c)).foldl (fun s f => s.backsResolved f.1 true) s
  let n := mcount s.core.mmu.faults (fun f => f.ctx = c)
  { s with core.mmu.faults := s.core.mmu.faults.filter (fun f => f.2.ctx ≠ c), core.mmu.prg := s.core.mmu.prg.filter (fun p => p.ctx ≠ c),
           core.mmu.ats := s.core.mmu.ats.filter (fun a => a.ctx ≠ c), core.mmu.refused := s.core.mmu.refused.filter (fun r => r.1 ≠ c) }.give 0xC 0 n

/-- Packets that the collective engines have sent for a context and that are on their way out, by the channels of its groups. -/
def State.outPackets (s : State) (c : Nat) : List Packet :=
  let mine (p : Packet) : Bool := decide (0x40 ≤ p.type) && decide (p.type ≤ 0x4F) && s.core.rce.groups.any (fun g =>
    g.2.ctx = c && p.vc = 4 + g.1 % 16 && decide (p.src = s.ep (g.1 / 64)))
  let ports := s.core.fab.ports.flatMap (fun e => e.2.tx.flatMap (fun t => t.2.map (·.pkt)) ++ e.2.replay.flatMap (fun f => f.units.map (·.pkt)))
  ((ports ++ s.core.fab.crossing.map (·.pkt)).filter mine).eraseDups

/-- Packets of killed contexts that have been acknowledged since give back the credits they held (R255, R257). -/
def State.landFlying (s : State) : State :=
  s.core.mmu.ctxs.foldl (fun s e =>
    let gone := e.2.flying.filter (fun p => !s.onItsWay (fun q => q = p))
    if gone.isEmpty then s
    else
      let n := sumNat (gone.map (fun p => max 1 p.len))
      (s.updCtx e.1 (fun x => { x with infl := x.infl - n, flying := x.flying.filter (fun p => !gone.contains p) })).setCounter (mmuBase + 0x148)
        (s.counter (mmuBase + 0x148) - n)) s

/-- Fetches of a killed context land as silt; what they and its packets on their way out hold returns then (R255). -/
def State.killFetches (s : State) (c : Nat) : State :=
  let out := s.outPackets c
  let n := sumNat (s.core.ses.map (fun x => sumNat ((x.2.tracker.filter (fun t => t.2.ctx = c)).map (fun t => t.2.entries))))
    + sumNat (out.map (fun p => max 1 p.len))
  let s := { s with core.ses := s.core.ses.map (fun (x : Nat × Se) => (x.1, { x.2 with
    jobs := x.2.jobs.filter (fun j => j.e.ctx ≠ c)
    upds := x.2.upds.filter (fun u => u.e.ctx ≠ c)
    tracker := x.2.tracker.map (fun (t : Nat × Fetch) => if t.2.ctx = c then (t.1, { t.2 with silt := true }) else t) })) }
  (s.updCtx c (fun x => { x with infl := n, flying := out })).setCounter (mmuBase + 0x148) (s.counter (mmuBase + 0x148) + n)

/-- Images in any engine's drain buffer that wait for a VU slot of a killed queue are discarded, and their instructions end (R256); in another context
with CANCELLED: DESIGN CHOICE, log 86. -/
def State.killDrains (s : State) (r : SlotRef) : State :=
  let theirs (d : DrainImg) : Bool := decide (destKind d.e.dest = 1) && decide (bits d.e.dest 0 4 = r.unit) && decide (bits d.e.dest 4 2 = r.slot)
  let s := (s.core.opes.flatMap (fun x => (x.2.drains.filter theirs).map (fun d => (x.1, d)))).foldl (fun s d =>
    (s.dropDrain d.1 d.2).finishWith d.2.e.q d.2.e.seq 5 0) s
  (s.core.opes.flatMap (fun x => (x.2.back.filter (fun d => theirs d.1)).map (fun d => (x.1, d)))).foldl (fun s d =>
    ((s.unAside d.1 d.2.1.tile d.2.2).setOpe d.1 { s.ope d.1 with back := (s.ope d.1).back.erase d.2 }).finishWith d.2.1.e.q d.2.1.e.seq 5 0) s

/-- Step 4 in the pools of the OPEs, the park, the VUs and the MVUs. -/
def State.killUnits (s : State) (c : Nat) (qs : List Nat) : State :=
  let s := s.core.opes.foldl (fun s x =>
    let gone := x.2.drains.filter (fun d => d.e.ctx = c)
    (s.setOpe x.1 { s.ope x.1 with drains := (s.ope x.1).drains.filter (fun d => d.e.ctx ≠ c),
                                   back := (s.ope x.1).back.filter (fun d => d.1.e.ctx ≠ c),
                                   staged := (s.ope x.1).staged.filter (fun d => d.e.ctx ≠ c),
                                   pend := (s.ope x.1).pend.filter (fun p => p.2.ctx ≠ c) }).give 9 x.1 (sumNat (gone.map (·.units)))) s
  let s := (s.core.mem.parked.filter (fun e => e.2.2 = c)).foldl (fun s e =>
    s.parkFree (e.1 / 4096) (e.1 % 4096) (imageSpans (e.2.1 % 256 = 9) (e.2.1 / 256)))
    { s with core.mem.aside := s.core.mem.aside.filter (fun a => a.ctx ≠ c) }
  qs.foldl (fun s q => match (s.queue q).slot with
    | some r =>
      if r.cls = 5 then
        let s := s.killDrains r
        let x := (s.vu r.unit).slot r.slot
        (s.setVu r.unit ((s.vu r.unit).setSlot r.slot {})).give 0xE r.unit x.units
      else if r.cls = 4 then s.setMvu r.unit { s.mvu r.unit with vecs := [] }
      else s
    | none => s) s

/-- Step 4 in the collective engines (R340). -/
def State.killRce (s : State) (c : Nat) : State :=
  let mine (x : RceSlot) : Bool := match mget s.core.rce.buckets (gBkt x.pkt) with | some b => decide (b.ctx = c) | none => false
  let s := (s.core.rce.slots.filter mine).foldl (fun s x => s.dropRceSlot x) s
  let s := (s.core.rce.gathers.filter (fun j => j.e.ctx = c)).foldl (fun s j =>
    let n := s.gatherHolds j
    (if n = 0 then s else (s.bump (rceBase j.rce + 0x120) n).raise (rceInt j.rce) 1).endGather j) s
  let s := (s.core.rce.buckets.filter (fun b => b.2.ctx = c)).foldl (fun s b => s.killBucket b.2) s
  let mine (k : Nat) : Bool := match mget s.core.rce.groups k with | some g => decide (g.ctx = c) | none => false
  { s with core.rce.grants := s.core.rce.grants.filter (fun g => !mine (16 * g.2.rce + g.2.gc)),
           core.rce.ggrants := s.core.rce.ggrants.filter (fun g => !mine g.at_),
           core.rce.groups := s.core.rce.groups.filter (fun g => g.2.ctx ≠ c),
           core.rce.puts := s.core.rce.puts.filter (fun p => p.e.ctx ≠ c),
           core.rce.epochs := s.core.rce.epochs.filter (fun p => p.1.ctx ≠ c),
           core.seds := mdel s.core.seds c }

/-- Step 4 in the pool, the flags and the translation caches: pins go, dirty TUs are written back, then freed (R255). -/
def State.killMemory (s : State) (c : Nat) : State :=
  let s := (s.core.mem.pool.filter (fun e => e.2.owner = c)).foldl (fun s e => s.dropPooled e.1 e.2) s
  let s := { s with core.mem.pool := s.core.mem.pool.map (fun (e : Nat × PoolTu) => (e.1, if e.2.owner = c then { e.2 with owner := 0 } else e.2)) }
  let mine (f : Nat) : Bool := decide (mget s.core.qm.owner (f / 256) = some c)
  let pasid := (s.ctx c).pasid
  { s with core.qm.flags := s.core.qm.flags.filter (fun e => !mine e.1), core.qm.upd := s.core.qm.upd.filter (fun e => !mine e.1),
           core.qm.owner := s.core.qm.owner.filter (fun e => e.2 ≠ c),
           core.mmu.tlb := s.core.mmu.tlb.filter (fun t => t.ctx ≠ c), core.mmu.atc := s.core.mmu.atc.filter (fun t => t.pasid ≠ pasid) }

/-- The sweep of R254. -/
def State.sweep (s0 : State) (c : Nat) : State :=
  let s := (s0.updCtx c (fun x => { x with st := .killing })).ownerKilled c
  let qs := s.queuesOf c
  let s := { s with core.rce.buckets := s.core.rce.buckets.map (fun (b : Nat × Bucket) => if b.2.ctx = c then (b.1, { b.2 with bclose := none }) else b) }
  let s := s.killFetches c
  let s := qs.foldl (fun s q => s.killQueue c q) s
  let s := s.killStreams c
  let s := ((s.killUnits c qs).killRce c).killMemory c
  let s := qs.foldl (fun s q => (s.freeSlot q).updQueue q (fun x =>
    { desc := x.desc, home := x.home, crTail := x.crTail, crHead := x.crHead })) s
  ((s.updCtx c (fun x => { x with st := .killed })).asReclaimed s0).raise mmuInt 1

/-- CTX_KILL (R254, R260). -/
def State.ctxKill (s : State) : State :=
  s.mmuCmd 4 (fun s => if !s.ctxUsable s.cmdCtx then (s, 0xC) else ((s.sweep s.cmdCtx).ctxWrite s.cmdCtx, 0))

/-- CTX_KILL (R254). -/
def execCtxKill (s : State) : Out := liftCore (whenDispatching State.ctxKill) s

/-- Partitions fenced for a context. -/
def State.fencedFor (s : State) (c : Nat) : List (Nat × Nat) :=
  s.core.opes.flatMap (fun o => (o.2.parts.filter (fun p => p.2.fence ≠ 0 && p.2.fenceCtx = c)).map (fun p => (o.1, p.1)))

/-- Records of a killed context that still wait (R254, R255). -/
def State.recordsLeft (s : State) (c : Nat) : Nat :=
  (s.core.mmu.killRecs.filter (fun r => r.ctx = c)).length + (s.ctx c).errWait.length

/-- CTX_DESTROY: only once no packet in flight and no record that waits holds anything (R257). -/
def State.ctxDestroy (s : State) : State :=
  s.mmuCmd 5 (fun s =>
    let c := s.cmdCtx
    if (s.ctx c).st ≠ .killed || (s.ctx c).infl + s.recordsLeft c ≠ 0 then (s, 0xC)
    else
      let s := (s.fencedFor c).foldl (fun s p => s.releasePart p.1 p.2) s
      (({ s with core.mmu.ctxs := mdel s.core.mmu.ctxs c }).ctxWrite c, 0))

/-- CTX_DESTROY (R257). -/
def execCtxDestroy (s : State) : Out := liftCore (whenDispatching State.ctxDestroy) s

/-! FENCE_DUMP (R258) -/

/-- Write the images of a partition's tiles in ascending tile number; bytes written and spans used. -/
def State.dumpTiles (s : State) (n p a : Nat) : State × Nat × Nat :=
  ((s.ope n).part p).tiles.foldl (fun acc e =>
    let img := imageOf e.2 s.now 0 0
    ((acc.1.hostWrite (a + 16384 * acc.2.2) img).bump (opeBase n + 0x180) img.length, acc.2.1 + img.length, acc.2.2 + imageSpans e.2.a32 e.2.shape)) (s, 0, 0)

/-- FENCE_DUMP (R258, R260). -/
def State.fenceDump (s : State) : State :=
  s.mmuCmd 0xA (fun s =>
    let n := bits (s.arg mmuBase 0) 0 6
    let p := bits (s.arg mmuBase 0) 8 2
    if n ≥ s.opeCount then (s, 6)
    else if ((s.ope n).part p).fence = 0 then (s, 0xC)
    else
      let r := s.dumpTiles n p (bits (s.arg mmuBase 1) 14 50 * 16384)
      (r.1.setReg (fldArg mmuBase 1) r.2.1, 0))

/-- FENCE_DUMP (R258). -/
def execFenceDump (s : State) : Out := liftCore (whenDispatching State.fenceDump) s

end Sys2Proof.Machine
end

