-- ==== Sys2Proof/Machine/Ledger.lean ====
section
/-! DEFINITION. The ledger and mismatched FIFO pointers (14_progress_and_conservation R346, R347, R360, R361). -/
namespace Sys2Proof.Machine

def ldgInt : Nat := 0x880
def fldLive : Fld := ⟨0x804, 3, 1, 1⟩
def fldQuiesce : Fld := ⟨0x804, 2, 1, 0⟩
def fldLdgCls : Fld := ⟨0x800, 16, 8, 1⟩
def fldLdgInst : Fld := ⟨0x800, 0, 16, 0⟩

/-- Classes that are empty at a quiescent point (R360). -/
def transient (cls : Nat) : Bool := [1, 2, 3, 4, 5, 6, 8, 9, 0xC, 0xE, 0x10].contains cls

/-- Capacity of a class and part (R360). -/
def State.ldgCap (s : State) (cls i : Nat) : Nat :=
  match cls with
  | 0x01 => mgetD (s.port (i / 16)).limit (i % 16) 0
  | 0x02 => replayCap (s.halfMode i)
  | 0x03 => rxLimit (s.halfMode (i / 16)) (i % 16)
  | 0x04 => 1024
  | 0x05 => 256
  | 0x06 => 65536
  | 0x07 => 2 ^ (s.queue i).csz
  | 0x08 => 64
  | 0x09 => 576
  | 0x0A => 4096
  | 0x0B => 262144
  | 0x0C => 1024
  | 0x0D => 4096
  | 0x0E => 32
  | 0x0F => (mgetD s.core.mem.frames i (0, 0, 0)).2.2 * 128
  | 0x10 => 256
  | _ => 0

/-- Classes and parts that exist (R360, R361). -/
def State.ldgExists (s : State) (cls i : Nat) : Bool :=
  match cls with
  | 0x01 => s.portNamed (i / 16)
  | 0x02 => s.portNamed i
  | 0x03 => s.portNamed (i / 16)
  | 0x04 => decide (i < 4)
  | 0x05 => decide (i < 32)
  | 0x06 => decide (i = 0)
  | 0x07 => (s.queue i).st ≠ .disabled
  | 0x08 => decide (i / 256 < 5) && decide (i % 256 < s.unitsOf (if i / 256 = 0 then 0 else i / 256 + 3))
  | 0x09 => decide (i < s.opeCount)
  | 0x0A => decide (i < 4)
  | 0x0B => decide (i = 0)
  | 0x0C => decide (i = 0)
  | 0x0D => decide (i = 0)
  | 0x0E => decide (i < 16)
  | 0x0F => s.stackPresent i
  | 0x10 => s.stackPresent i
  | _ => false

/-- Latch every class and part (R361). -/
def State.ldgSnap (s : State) : State :=
  let fixedKeys := s.core.fab.ports.flatMap (fun e => (List.range 16).map (fun v => (1, portVc e.1 v)))
    ++ s.core.qm.queues.map (fun e => (7, e.1)) ++ (List.range 8).map (fun k => (0xF, k))
  let caps := (fixedKeys ++ s.core.ldg.live.map (fun e => (e.1 / 65536, e.1 % 65536))).foldl
    (fun (m : Map Nat) k => mput m (ldgKey k.1 k.2) (s.ldgCap k.1 k.2)) []
  { s with core.ldg.snap := s.core.ldg.live, core.ldg.snapCap := caps }

/-- SNAP: discarded while a check is in progress (R361). -/
def State.doSnap (s : State) : State := if s.core.ldg.busy then s else s.ldgSnap

/-- CHECK: a snapshot, and its check begins (R361). -/
def State.doCheck (s : State) : State :=
  if s.core.ldg.busy then s
  else
    let s := s.ldgSnap
    { s with core.ldg.busy := true, core.ldg.quiesce := decide (s.reg fldQuiesce = 1), core.ldg.kind := 0, core.ldg.cls := 0, core.ldg.inst_ := 0 }

/-- Does the GLB block respond (R386, R410)? -/
def State.glbOn (s : State) : Bool := s.timing && s.core.boot.outs

/-- SNAP (R361). -/
def execSnap (s : State) : Out := liftCore (guardBy State.glbOn State.doSnap) s

/-- CHECK (R361). -/
def execCheck (s : State) : Out := liftCore (guardBy State.glbOn State.doCheck) s

/-- The failure of one instance of the snapshot: 0 none (R361). HELD is what has been taken and not returned, so failure 1 does not arise. -/
def Ledger.failure (l : Ledger) (key : Nat) (x : Ldg) : Nat :=
  if x.heldOf > mgetD l.snapCap key 0 then 2
  else if l.quiesce && transient (key / 65536) && decide (x.heldOf ≠ 0) then 3
  else 0

/-- LEDGER_CHECK_DONE: the first failure in ascending class and instance order (R361). -/
def execLedgerCheckDone (s : State) : Out :=
  liftCore (guardBy State.timing (fun s =>
    let l := s.core.ldg
    if !l.busy then s
    else
      let s := { s with core.ldg.busy := false }.raise ldgInt 0
      match l.snap.find? (fun e => l.failure e.1 e.2 ≠ 0) with
      | none => s
      | some e => { s with core.ldg.kind := l.failure e.1 e.2, core.ldg.cls := e.1 / 65536, core.ldg.inst_ := e.1 % 65536 }.raise ldgInt 1)) s

/-! Mismatched pointers (R346, R347) -/

/-- A context-fatal error: recorded, and firmware kills the context (R254, R404, R408). -/
def State.contextFatal (s : State) (src die c q unit n : Nat) : State :=
  let s := s.ctxError c q unit src 2 0 n
  let s := (s.rasLog 0x10 2 src die unit c 0 0 n).raise rasInt 3
  if s.ctxUsable c then (s.sweep c).ctxWrite c else s

/-- The drain buffer of an engine: every partition with an image is fenced, and what it held returns at release or in the sweep. -/
def State.drainMismatch (s : State) (n : Nat) : State :=
  let imgs := (s.ope n).drains
  let ps := (imgs.map (·.part)).eraseDups
  let s := ps.foldl (fun s p => match imgs.find? (fun d => d.part = p) with
    | some d => s.setOpe n ((s.ope n).fence p 2 0 d.e.q d.e.ctx)
    | none => s) s
  let cs := (imgs.map (fun d => d.e.ctx)).eraseDups
  cs.foldl (fun s c => match imgs.find? (fun d => d.e.ctx = c) with
    | some d => s.contextFatal 8 (s.opeQuarter n) c d.e.q (put 12 4 (s.ope n).mode + put 4 8 n + d.part) (sumNat ((imgs.filter (fun d => d.e.ctx = c)).map (·.units)))
    | none => s) s

/-- An EIQ share: its slot stops and the owning context is killed. -/
def State.shareMismatch (s : State) (r : SlotRef) : State :=
  match mget s.core.qm.slots (slotKey r) with
  | none => s
  | some q =>
    let c := (s.queue q).ctx
    s.contextFatal 8 (s.slotQuarter r) c q (slotCode r) (mgetD s.core.qm.eiq (slotKey r) []).length

/-- FIFO_DUP_MISMATCH by FIFO: 0 a port's replay FIFO, 1 a receive buffer (`n` a port), 2 a die-to-die link's buffers (`n` a link), 3 an engine's drain
buffer, 4 an EIQ share (`n` as R144 codes a slot), 5 the hub's record queue (R346, R347, R352). -/
def execFifoDupMismatch (kind n : Nat) (s : State) : Out :=
  liftLock (whenLive (fun s =>
    match kind with
    | 0 => if s.portNamed n then s.discardState n else s
    | 1 => if s.portNamed n then s.discardState n else s
    | 2 =>
      if n < 10 then
        { s with core.fab.d2d := mupd s.core.fab.d2d n {} (fun d => { d with failed := true }) }.fatalStop 0x0A (linkDie n) n
      else s
    | 3 => s.drainMismatch n
    | 4 => s.shareMismatch ⟨bits n 12 4, bits n 4 8, bits n 0 4⟩
    | 5 => s.fatalStop 8 4 0
    | _ => s)) s

end Sys2Proof.Machine
end

