-- ==== Sys2Proof/Machine/Errors.lean ====
section
/-! DEFINITION. The engines' own cycles with the errors that they meet in their memories: issue, cell writes and the row port
(04_ope R79-R94, R103, 17_errors R404-R408). -/
namespace Sys2Proof.Machine

/-- An uncorrectable error in a partition's control state: the partition is fenced, and firmware kills the context it works for (R103, R258,
R405). Where it works for none, a release is due at once. -/
def State.controlError (s : State) (n p : Nat) : State :=
  let o := s.ope n
  let r : SlotRef := ⟨o.mode, n, p⟩
  let s := s.bump (rasBase + 0x118) 1
  let u := (s.slotUser r).getD (0xFFFF, 0xFFFF)
  let t := match (o.part p).run with | some x => x.e.tile | none => 0
  let s := if (o.part p).fence = 0 then s.setOpe n (o.fence p 2 t u.2 u.1) else s
  if u.1 = 0xFFFF then (s.rasLog 0x10 2 5 (s.opeQuarter n) (slotCode r) 0xFFFF 0 0 1).raise rasInt 3
  else s.contextFatal 5 (s.opeQuarter n) u.1 u.2 (slotCode r) 1

/-- An error that an engine meets (R405). -/
def State.opeError (s : State) (n : Nat) (x : OpeErr) : State :=
  match x with
  | .control p => if p < (s.ope n).count then s.controlError n p else s
  | x => s.memError n x

/-- The errors met in a step, in order. -/
def State.opeErrors (s : State) (n : Nat) (errs : List OpeErr) : State := if n < 64 then errs.foldl (fun s x => s.opeError n x) s else s

/-- OPE_ISSUE_CYCLE: the errors that are met, then one cycle of issue (R83-R86, R432; log 34). -/
def execOpeIssueCycle (n : Nat) (gated : Bool) (errs : List OpeErr) (s : State) : Out :=
  liftCore (whenLive (fun s => (s.opeErrors n errs).issueCycle n gated)) s

/-- OPE_CELL_WRITE: the errors that are met, then the cell writes (R79, R80, R90; log 34). -/
def execOpeCellWrite (n : Nat) (errs : List OpeErr) (s : State) : Out := liftCore (whenLive (fun s => (s.opeErrors n errs).cellWrites n)) s

/-- ROW_PORT_OP_START: the errors that are met, then the oldest pending operation that may start (R91, R94; log 34). -/
def execRowPortOpStart (n : Nat) (errs : List OpeErr) (s : State) : Out :=
  liftCore (whenLive (fun s => (s.opeErrors n errs).rowPortStart n errs)) s

end Sys2Proof.Machine
end

