-- ==== Sys2Proof/Machine/Preempt.lean ====
section
/-! DEFINITION. Pre-emption: PREEMPT, RESUME and the rebinding that restores a queue; binding; aborts at a deadline; the MMU command
block (10_translation R249-R253, R260; 06_programs R136; 08_streams R210). -/
namespace Sys2Proof.Machine

/-! Vacating a unit (R249, R250) -/

/-- The rest of the K-block that an OPA is in (R100). -/
def State.finishKb (s : State) (n p : Nat) : Nat → State
  | 0 => s
  | k + 1 => match ((s.ope n).part p).run with
    | some x =>
      if x.cyc = 0 then s
      else
        let t := s.issue n p x
        (if stepped s t n then t.bump (opeBase n + 0x100) 1 else t).finishKb n p k
    | none => s

/-- Every step of a partition takes effect. -/
def State.flushPipe (s : State) (n p : Nat) : State :=
  let l := (s.ope n).pipe.filter (fun t => t.part = p)
  let s := l.foldl (fun s t => s.writeStep n t) s
  s.setOpe n { s.ope n with pipe := (s.ope n).pipe.filter (fun t => t.part ≠ p) }

/-- Release the operand-buffer lines of a partition. -/
def State.releaseLines (s : State) (n p : Nat) : State :=
  let o := s.ope n
  s.setOpe n { o with obuf := o.obuf.filter (fun e => e.1 / o.per ≠ p), drop := o.drop.filter (fun l => l.1 / o.per ≠ p) }

/-- Save what an OPE partition holds. -/
def State.savePart (s : State) (n p ctx : Nat) : State × SavedUnit :=
  let s := ((s.finishKb n p 64).flushPipe n p).pumpDrains n
  let o := s.ope n
  let ds := o.drains.filter (fun d => d.part = p)
  let a := ds.foldl (fun (acc : State × List (DrainImg × Option Nat)) d =>
    let r := (acc.1.dropDrain n d).setAside n ctx d.tile
    (r.1, acc.2 ++ [(d, r.2)])) (s, [])
  let b := (o.part p).tiles.foldl (fun (acc : State × List (Nat × Tile × Option Nat)) t =>
    let r := acc.1.setAside n ctx t.2
    (r.1, acc.2 ++ [(t.1, t.2, r.2)])) (a.1, [])
  let s := b.1
  let o := s.ope n
  let x : SavedUnit := { run := (o.part p).run, pend := (o.pend.filter (fun y => y.1 = p)).map (·.2), drains := a.2 ++ o.back.filter (fun d => d.1.part = p), tiles := b.2 }
  let staged := o.staged.map (fun (y : Staged) => if y.part = p then { y with part := 5 } else y)
  (s.setOpe n { o.setPart p {} with back := o.back.filter (fun d => d.1.part ≠ p), pend := o.pend.filter (fun y => y.1 ≠ p), staged := staged }, x)

/-- What firmware writes of an MVU: its vector slots in ascending number, then its accumulators: M of 4 bytes, X, and status bits packed as in R55.
The order is the model's: DESIGN CHOICE, log 97 (R250). -/
def Mvu.image (m : Mvu) : List Byte :=
  let acc := match m.run.or m.result with | some x => x.acc | none => []
  let row (i : Nat) : Row := mgetD acc i { ms := [0] }
  let n := 16384
  let vs := (m.vecs.flatMap (fun v => v.2.bytes)).take slotStore
  vs ++ leBytes (slotStore - vs.length) 0 ++ (List.range n).flatMap (fun i => leBytes 4 (toWord 32 ((row i).ms.getD 0 0)))
    ++ (List.range n).map (fun i => BitVec.ofNat 8 (toWord 8 (row i).x))
    ++ (List.range (n / 2)).map (fun i => BitVec.ofNat 8 ((row (2 * i)).st % 16 + 16 * ((row (2 * i + 1)).st % 16)))

/-- Save what a queue's unit holds; a fenced partition is left as it is (R249). -/
def State.saveUnit (s : State) (q : Nat) (r : SlotRef) : State × SavedUnit :=
  if r.cls ≤ 3 then
    if ((s.ope r.unit).part r.slot).fence ≠ 0 then (s, {})
    else
      let a := s.savePart r.unit r.slot (s.queue q).ctx
      (a.1.releaseLines r.unit r.slot, a.2)
  else if r.cls = 4 then
    let m := s.mvu r.unit
    let a := (s.setMvu r.unit {}).hbmAside (s.quarterOf 4 r.unit) mvuSpans (s.queue q).ctx m.image
    (a.1, { mvx := m.run, result := m.result, vecs := m.vecs, held := m.held, at_ := a.2 })
  else if r.cls = 5 then
    let x := (s.vu r.unit).slot r.slot
    ((s.setVu r.unit { slots := mdel (s.vu r.unit).slots r.slot }).give 0xE r.unit x.units, { vu := x })
  else (s, {})

/-! Streams and jobs of an SE slot -/

/-- Lines of which partitions are released: engine and partition of each. -/
abbrev Vacated := List (Nat × Nat)

/-- Does a fetch go to lines that are released? -/
def State.feeds (s : State) (v : Vacated) (f : Fetch) : Bool := f.engines.any (fun e => v.contains (e.1, e.2 / (s.ope e.1).per))

/-- Tags of a stream in places that are released and not read to the end, and in fetches that become silt. -/
def State.lostTags (s : State) (v : Vacated) (n : Nat) : List TuTag :=
  let keep (t : Option TuTag) : Option TuTag := match t with | some t => if t.stream = n then some t else none | none => none
  v.flatMap (fun p => ((s.ope p.1).obuf.filter (fun e => e.1 / (s.ope p.1).per = p.2 && !e.2.leaving)).filterMap (fun e => keep e.2.by_))
    ++ ((s.se (s.stream n).slot.unit).fetchesOf n (s.feeds v)).filterMap (fun f => keep f.tag)

/-- Insert a tag by its k. -/
def TuTag.insert (t : TuTag) : List TuTag → List TuTag
  | [] => [t]
  | x :: l => if t.k < x.k then t :: x :: l else if t.k = x.k then x :: l else x :: t.insert l

/-- A suspended stream is ARMED again at the lowest k of its generation that is to be fetched anew, and passed over until RESUME; TUs of its earlier
generations go first. A DONE stream is suspended where places of it are lost: DEDUCED, log 98 (R249, R253). -/
def State.suspendStream (s : State) (v : Vacated) (n : Nat) : State :=
  let st := s.stream n
  let lost := s.lostTags v n
  if st.st = 5 then s.setStream n { st with parked := true }
  else if !([1, 2, 7].contains st.st) && !(decide (st.st = 4) && !lost.isEmpty) then s
  else
    let of (g : Nat) : List TuTag := (lost.filter (fun t => t.gen = g)).foldr TuTag.insert []
    let redo := (st.past ++ st.old.toList).flatMap (fun a => ((st.redo.filter (fun t => t.gen = a.gen)) ++ of a.gen).foldr TuTag.insert [])
    let st := match of st.cur.gen with
      | [] => st
      | t :: _ => { st with entry := t.entry, tu := t.tu, ent := none,
                            cur := { st.cur with k := t.k, sigs := st.cur.sigs.filter (fun b => b ≤ t.k) } }
    s.setStream n { st with st := 1, parked := true, redo := redo }

/-- A job whose fetches to released lines are lost issues them again: a POP reads the same places again (R250; log 29). -/
def State.rewindJob (s : State) (u : Nat) (v : Vacated) (j : SeJob) : State :=
  let l := ((s.se u).jobFetches j.e.q j.e.seq).filter (fun f => s.feeds v f && !f.silt)
  match l with
  | [] => s
  | f :: fs =>
    let m := fs.foldl (fun m g => if g.at_.1 < m.1 then g.at_ else m) f.at_
    let back := l.flatMap (·.from_)
    let s := if back.isEmpty then s else
      let x := s.sed j.e.ctx
      let mb := x.mb j.e.mb
      s.setSed j.e.ctx { x with mbs := mput x.mbs j.e.mb { mb with claimed := mb.claimed ++ back } }
    let k := if back.isEmpty then m.1 else j.k - back.length
    s.setJob u { j with k := k, idx := m.2, places := back ++ j.places }

/-- Streams and jobs that feed released lines: positions first, then their fetches become silt. -/
def State.suspendFeeds (s : State) (v : Vacated) (slots : List (Nat × Nat)) : State :=
  let mine (st : Stream) : Bool := slots.contains (st.slot.unit, st.slot.slot)
  let ns := (s.core.streams.filter (fun e => mine e.2)).map (·.1)
  let s := ns.foldl (fun s n => s.suspendStream v n) s
  let us := (slots.map (·.1)).eraseDups
  let s := us.foldl (fun s u => (s.se u).jobs.foldl (fun s j => s.rewindJob u v j) s) s
  us.foldl (fun s u =>
    let x := s.se u
    s.setSe u { x with tracker := x.tracker.map (fun (t : Nat × Fetch) => if s.feeds v t.2 then (t.1, { t.2 with silt := true }) else t) }) s

/-! Vacating a queue -/

/-- The instruction at the head of an RCE slot has begun, and completes first (R249). -/
def State.mustFinish (s : State) (r : SlotRef) : Bool :=
  r.cls = 7 && (match s.head r with | some e => s.rceBegun e | none => false)

/-- A GATHER leaves the share and goes on without the slot (R249). -/
def State.freeGather (s : State) (r : SlotRef) : State :=
  match s.head r with
  | some e => if r.cls = 7 && s.core.rce.gathers.any (fun j => j.e = e) then s.popHead r else s
  | none => s

/-- The queue leaves its slot for PREEMPTED with its state saved (R249 steps 1 to 7, R250). -/
def State.vacate (s : State) (q : Nat) : State :=
  match (s.queue q).slot with
  | none => s
  | some r =>
    let s := s.freeGather r
    let s := (s.withdraw q).endStall q
    let s := { s with core.qm.waiters := s.core.qm.waiters.filter (fun w => w.q ≠ q) }
    let l := mgetD s.core.qm.eiq (slotKey r) []
    let s := { s with core.qm.eiq := mdel s.core.qm.eiq (slotKey r) }.give 8 (eiqPart r) l.length
    let a := s.saveUnit q r
    let s := { a.1 with core.saved := mput a.1.core.saved q a.2,
                        core.pmc.kc := a.1.core.pmc.kc.map (fun (k : Nat × KcSample) => match k.2.live with
                          | some x => if x.1 = q then (k.1, { k.2 with preempted := true }) else k
                          | none => k) }
    let s := s.updQueue q (fun x => { x with
      saved := l, st := .preempted, was := x.st, errPend := x.errPend || x.st = QState.error, left := some r,
      stopping := false, aside := x.aside <|> x.stalled, stalled := none, stall := 0, cur := x.cur.map (fun c => { c with waitFt := none }) })
    let t := s.now - s.core.mmu.preemptFt
    let s := (s.freeSlot q).bump (mmuBase + 0x130) 1
    let s := s.setCounter (mmuBase + 0x138) (max (s.counter (mmuBase + 0x138)) t)
    s.setReg (fldArg mmuBase 1) (max (s.arg mmuBase 1) t)

/-- Vacate, or wait for the head instruction of an RCE slot. -/
def State.stopQueue (s : State) (q : Nat) : State :=
  match (s.queue q).slot with
  | none => s
  | some r => if s.mustFinish r then s.updQueue q (fun x => { x with stopping := true }) else s.vacate q

/-- Bound queues of a context with their slots. -/
def State.boundOf (s : State) (c : Nat) : List (Nat × SlotRef) :=
  s.core.qm.queues.filterMap (fun e => match e.2.slot with | some r => if e.2.ctx = c then some (e.1, r) else none | none => none)

/-- Engines of a mask, with the whole gang of each (R107). -/
def State.maskEngines (s : State) (mask : Nat) : List Nat :=
  (List.range s.opeCount).filter (fun n => mask.testBit n || (decide ((s.ope n).gang < 8) &&
    (List.range s.opeCount).any (fun m => mask.testBit m && decide ((s.ope m).gang = (s.ope n).gang) && decide (s.opeQuarter m = s.opeQuarter n))))

/-- Engine of a destination word that is an operand buffer. -/
def State.obufEngine (s : State) (w : Nat) : Option Nat :=
  if destKind w = 3 then (s.obufOf w).map (·.1) else none

/-- Does a bound queue belong to a PREEMPT of some engines (R249)? -/
def State.affected (s : State) (es : List Nat) (q : Nat) (r : SlotRef) : Bool :=
  let hits (w : Nat) : Bool := match s.obufEngine w with | some n => es.contains n | none => false
  let share := mgetD s.core.qm.eiq (slotKey r) []
  if r.cls ≤ 3 then es.contains r.unit
  else if r.cls = 6 then
    share.any (fun e => (e.op = 0x32 || e.op = 0x35) && hits e.dest)
      || (s.se r.unit).jobs.any (fun j => j.e.q = q && j.e.op ≠ 0x34 && hits j.e.dest)
      || s.core.streams.any (fun e => decide (slotKey e.2.slot = slotKey r) && (([1, 2, 7].contains e.2.st && hits e.2.cur.dest)
          || (decide (e.2.st = 4) && es.any (fun n => (s.ope n).obuf.any (fun t => !t.2.leaving && t.2.by_.any (fun g => g.stream = e.1))))))
  else if r.cls = 5 then
    share.any (fun e => e.op = 0x21 && e.f 16 1 = 0 && (match s.engineOf (e.f 24 2) with | .ok n => es.contains n | .error _ => false))
  else false

/-- PREEMPT ends once every named unit has vacated; the context is SUSPENDED once no queue of it is bound (R249, R260). -/
def State.settlePreempt (s : State) : State :=
  let c := (mgetD s.core.cmds 1 {}).arg
  let l := s.boundOf c
  let s := l.foldl (fun s x => if (s.queue x.1).stopping && !s.mustFinish x.2 then s.vacate x.1 else s) s
  if (s.boundOf c).any (fun x => (s.queue x.1).stopping) then s
  else
    let s := if (s.boundOf c).isEmpty then (s.updCtx c (fun x => { x with st := .suspended })).ctxWrite c else s
    (s.raise mmuInt 2).cmdDone 1 0 mmuInt 3

/-- PREEMPT (R249, R260). A context that is not ACTIVE has nothing bound. -/
def State.preempt (s : State) : State :=
  let c := s.cmdCtx
  let all := (s.arg mmuBase 0).testBit 16
  let mask := s.arg mmuBase 1
  if !all && decide (2 ^ s.opeCount ≤ mask) then s.mmuCmd 6 (fun s => (s, 6))
  else if (s.ctx c).st ≠ .active then s.mmuCmd 6 (fun s => ((s.setReg (fldArg mmuBase 1) 0).raise mmuInt 2, 0))
  else if s.cmdBusy 1 then s
  else
    let es := if all then List.range s.opeCount else s.maskEngines mask
    let l := (s.boundOf c).filter (fun x => all || s.affected es x.1 x.2)
    let s := { (s.startCmd 1 6 c).setReg (fldArg mmuBase 1) 0 with core.mmu.preemptFt := s.now }
    let v : Vacated := l.filterMap (fun x => if x.2.cls ≤ 3 && ((s.ope x.2.unit).part x.2.slot).fence = 0 then some (x.2.unit, x.2.slot) else none)
    let s := s.suspendFeeds v (l.filterMap (fun x => if x.2.cls = 6 then some (x.2.unit, x.2.slot) else none))
    (l.foldl (fun s x => s.stopQueue x.1) s).settlePreempt

/-- PREEMPT (R249). -/
def execPreempt (s : State) : Out := liftCore (whenDispatching State.preempt) s

/-- Commands of the MMU block that wait for something are looked at again. -/
def State.mmuSettle (s : State) : State :=
  let c := mgetD s.core.cmds 1 {}
  if !c.busy then s else if c.op = 8 then s.settleInv else if c.op = 6 then s.settlePreempt else s

/-! RESUME (R253) -/

/-- RESUME: the context is ACTIVE, and its PREEMPTED queues wait for their slots (R253, R260). -/
def State.resume (s : State) : State :=
  s.mmuCmd 7 (fun s =>
    let c := s.cmdCtx
    if (s.ctx c).st ≠ .suspended then (s, 0xC)
    else
      let s := (s.updCtx c (fun x => { x with st := .active })).ctxWrite c
      let qs := (s.core.qm.queues.filter (fun e => e.2.ctx = c && decide (e.2.st = .preempted))).map (·.1)
      (qs.foldl (fun s q => s.updQueue q (fun x => { x with st := .ready, readyFt := s.now })) s, 0))

/-- RESUME (R253). -/
def execResume (s : State) : Out := liftCore (whenDispatching State.resume) s

/-- Put a saved partition back: tiles reloaded, waiting images in the drain buffer again as it has room (R93, R253). -/
def State.restorePart (s : State) (n p : Nat) (x : SavedUnit) : State :=
  let s := x.tiles.foldl (fun s t =>
    ((s.unAside n t.2.1 t.2.2).setTile n p t.1 t.2.1).bump (opeBase n + 0x188) (imageBytes t.2.1.a32 t.2.1.shape)) s
  let s := (s.setOpe n { s.ope n with back := (s.ope n).back ++ x.drains }).refill n
  let o := s.ope n
  let staged := o.staged.map (fun (y : Staged) => if x.pend.contains y.e then { y with part := p } else y)
  s.setOpe n { o.setPart p { o.part p with run := x.run } with pend := o.pend ++ x.pend.map (fun e => (p, e)), staged := staged }

/-- Restore the state of R250 at rebinding. -/
def State.restoreUnit (s : State) (q : Nat) (r : SlotRef) (x : SavedUnit) : State :=
  if r.cls ≤ 3 then (if ((s.ope r.unit).part r.slot).fence ≠ 0 then s else s.restorePart r.unit r.slot x)
  else if r.cls = 4 then
    let q := s.quarterOf 4 r.unit
    let s := match x.at_.bind (s.fwAddr q) with | some a => s.hbmTouch a (16384 * mvuSpans) | none => s
    (s.asideFree q mvuSpans x.at_).setMvu r.unit { vecs := x.vecs, run := x.mvx, result := x.result, held := x.held }
  else if r.cls = 5 then
    (s.setVu r.unit ((s.vu r.unit).setSlot r.slot x.vu)).take 0xE r.unit x.vu.units
  else if r.cls = 6 then
    { s with core.streams := s.core.streams.map (fun (e : Nat × Stream) =>
        if e.2.parked && decide (slotKey e.2.slot = slotKey r) && (decide (e.2.cur.q = q) || !mhas s.core.saved e.2.cur.q) then
          (e.1, { e.2 with parked := false }) else e) }
  else s

/-- A PREEMPTED queue that has been bound again: its saved state, its share, and ERROR or HALTED where it stood so (R147, R253). -/
def State.restore (s : State) (q : Nat) (r : SlotRef) : State :=
  match mget s.core.saved q with
  | none => s
  | some x =>
    let l := (s.queue q).saved
    let s := { s with core.saved := mdel s.core.saved q }.restoreUnit q r x
    let s := { s with core.qm.eiq := mput s.core.qm.eiq (slotKey r) l }.take 8 (eiqPart r) l.length
    s.updQueue q (fun y => ({ y with
      saved := [], errPend := false
      st := if y.errPend then .error else if y.was = QState.halted then .halted else y.onward }).rest s.now)

/-- QUEUE_BIND: firmware binds a READY queue to a free slot (R136, R253). -/
def execQueueBind (q : Nat) (r : SlotRef) (s : State) : Out :=
  liftCore (whenLive (fun s => if s.mayBind q r then (s.bind q r).restore q r else s)) s

/-! Aborts at a deadline (R210) -/

/-- Lines that an OPA reads on a side from a K-tile on. -/
def Ope.lines (o : Ope) (p : Nat) (e : Entry) (from_ side : Nat) : List Nat :=
  ((List.range (ceilDiv e.nkb 4)).filter (from_ ≤ ·)).flatMap (fun t => opTiles o p e side t)

/-- OPAs of a partition that come before one, each with the first K-tile that it still reads: the one at issue, and those ahead in the share. -/
def State.opasBefore (s : State) (n p : Nat) (e : Entry) : List (Entry × Nat) :=
  let run := match ((s.ope n).part p).run with | some x => [(x.e, x.kb / 4)] | none => []
  let share := match (s.queue e.q).slot with | some r => mgetD s.core.qm.eiq (slotKey r) [] | none => []
  run.filter (fun x => x.1.q = e.q && x.1.seq < e.seq) ++ (share.filter (fun x => x.op = 0x10 && x.seq < e.seq)).map (fun x => (x, 0))

/-- Lines that an OPA would have read are released as though read, unless kept, and behind what the earlier OPAs of the partition read there: those
that have landed for it now, one that an earlier OPA keeps as that OPA ends, the others as they land (R210). -/
def State.releaseOpa (s : State) (n p : Nat) (e : Entry) : State :=
  let o := s.ope n
  let before := s.opasBefore n p e
  let reads (kept : Bool) : List (Nat × Nat) := before.flatMap (fun x => [0, 1].flatMap (fun k =>
    if x.1.mod (k + 1) = kept then (o.lines p x.1 x.2 k).map (fun l => (l, x.1.seq)) else []))
  let used := (reads false).map (·.1)
  let gone := [0, 1].flatMap (fun k => if e.mod (k + 1) then [] else o.lines p e 0 k)
  let one (o : Ope) (l : Nat) : Ope :=
    let c := gone.count l
    let m := used.count l
    match ((reads true).filter (fun x => x.1 = l)).getLast? with
    | some x => { o with unkeep := x :: o.unkeep, drop := o.drop ++ List.replicate (c - 1) (l, m + 1 - b2n (o.landed l)) }
    | none =>
      if o.landed l && decide (m = 0) then { o with obuf := mdel o.obuf l, drop := o.drop ++ List.replicate (c - 1) (l, 0) }
      else { o with drop := o.drop ++ List.replicate c (l, m - b2n (o.landed l)) }
  s.setOpe n (gone.eraseDups.foldl one o)

/-- The partition that an OPA in a share or at issue belongs to. -/
def State.releaseFor (s : State) (e : Entry) : State :=
  match (s.queue e.q).part with
  | some (n, p) => if e.op = 0x10 then s.releaseOpa n p e else s
  | none => s

/-- The entry of an instruction that waits: set aside, stalled, in its share or at the issue stage of its engine. -/
def State.entryOf (s : State) (q seq : Nat) : Option Entry :=
  let x := s.queue q
  let share := match x.slot with | some r => mgetD s.core.qm.eiq (slotKey r) [] | none => []
  let run := match x.part with | some (n, p) => (((s.ope n).part p).run.map (fun (y : OpaRun) => y.e)).toList | none => []
  (x.aside.toList ++ x.stalled.toList ++ x.saved ++ share ++ run).find? (fun e => e.is q seq)

/-- A BCLOSE aborted before it has come to the head closes its bucket, which treats later data as late (R329). -/
def State.closeUnread (s : State) (q seq : Nat) : State :=
  match s.entryOf q seq, (s.queue q).slot with
  | some e, some r =>
    if e.op ≠ 0x52 || !(s.closingOf q seq).isEmpty then s
    else match s.bktOf r e with
      | some b => (s.setBkt { b with passed := true, st := .held }).settleBkt b.key
      | none => s
  | _, _ => s

/-- Abort an instruction at its deadline: it has no other effect, and what it fetched is silt (R210). -/
def State.abortLate (s : State) (q : Nat) (i : InFlight) : State :=
  let late := s.nowAt (s.dieOf q) - i.deadline
  match s.jobOf q i.seq with
  | some (u, j) =>
    let x := s.se u
    let s := s.setSe u { x with tracker := x.tracker.map (fun (t : Nat × Fetch) =>
      if t.2.tag.isNone && t.2.q = q && t.2.seq = i.seq && !t.2.spill then (t.1, { t.2 with silt := true }) else t) }
    ((s.updInst q i.seq (fun i => { i with fid := none })).note q i.seq 3 late false).stopJob u j
  | none =>
    let s := match s.core.rce.gathers.find? (fun j => j.e.is q i.seq) with
      | some j => s.abortGather j
      | none => s
    let s := match s.entryOf q i.seq with | some e => s.releaseFor e | none => s
    let bs := s.closingOf q i.seq
    let s := bs.foldl (fun s b => s.setBkt { b with passed := true }) s
    let s := s.closeUnread q i.seq
    let s := if (s.queue q).stalled.any (fun e => e.is q i.seq) then s.endStall q else s
    let s := s.updQueue q (fun x => { x with aside := x.aside.filter (fun e => !e.is q i.seq), stalled := x.stalled.filter (fun e => !e.is q i.seq) })
    (s.finishWith q i.seq 3 late).quash q i.seq

/-- DEADLINE_ABORT (R38, R210). -/
def State.deadlineAbort (s : State) (q seq : Nat) : State :=
  whenLive (fun s =>
    let x := s.queue q
    match x.inst seq with
    | none => s
    | some i =>
      if x.lateAbort && i.deadline ≠ 0 && decide (s.nowAt (s.dieOf q) ≥ i.deadline) && !i.done && !i.ctl && (!i.effect || i.op = 0x53)
      then s.scheduled.abortLate q i else s) s

/-- DEADLINE_ABORT. -/
def execDeadlineAbort (q seq : Nat) (s : State) : Out := liftCore (fun s => s.deadlineAbort q seq) s

/-! The command block -/

/-- An MMU command by its OP, as a write of MMU_CMD with GO starts it (R259, R260). -/
def State.mmuGo (s : State) (op : Nat) : State :=
  match op with
  | 0x01 => s.ctxCreate | 0x02 => s.ctxModify | 0x03 => s.ctxRead | 0x04 => s.ctxKill | 0x05 => s.ctxDestroy
  | 0x06 => s.preempt | 0x07 => s.resume | 0x08 => s.tlbInv | 0x09 => s.faultResolve | 0x0A => s.fenceDump
  | _ => s.mmuCmd op (fun s => (s, 0xC))

end Sys2Proof.Machine
end

