-- ==== Sys2Proof/Machine/HostLink.lean ====
section
/-! DEFINITION. The host link, MSI-X, Function Level Reset and the CXL.mem window (15_host R362-R383). -/
namespace Sys2Proof.Machine

/-! The link (R362, R363, R381) -/

/-- A fetch in flight when reads of host memory are lost. -/
def Fetch.lost (f : Fetch) : Fetch :=
  let tus := f.tus.zipIdx.map (fun x => if f.t2.getD x.2 false then poisonTu x.1 else x.1)
  { f with tus := tus, bad := (tus.filter tuPoison).length }

/-- Reads of T2 outstanding return poison: those of the fetches that p picks by SE and place in its tracker (R380, R381). -/
def State.loseReads (s : State) (p : Nat → Nat → Bool) : State :=
  { s with core.ses := s.core.ses.map (fun (x : Nat × Se) =>
      (x.1, { x.2 with tracker := x.2.tracker.map (fun (t : Nat × Fetch) => (t.1, if p x.1 t.1 then t.2.lost else t.2)) })) }

/-- Record writes that the host has not acknowledged are lost: counted, and host memory stands as before them (R381). -/
def State.loseWrites (s : State) : State :=
  let l := s.core.host.cacheOut
  if l.isEmpty then s
  else
    let m := l.reverse.foldl (fun m w => memWrites m w.addr w.old) s.core.mem.host
    ({ s with core.mem.host := m, core.host.cacheOut := [] }.invPass (fun i => { i with lines := 0 })).bump (hifBase + 0x138) l.length |>.raise hifInt 1

/-- Write-backs of pool TUs that the host has not acknowledged are lost too: each is refused (R221, R381). -/
def State.loseBacks (s : State) : State :=
  let l := s.core.mem.pool.filter (fun e => e.2.wb && !e.2.t1 && !e.2.refused)
  l.foldl (fun s e => ((s.undoWb e.1 e.2).bump (hifBase + 0x138) 1).raise hifInt 1) s

/-- HOST_LINK_DOWN (R381). -/
def execHostLinkDown (s : State) : Out :=
  liftCore (fun s =>
    if !s.timing || !s.core.host.linkUp then s
    else ({ s with core.host.linkUp := false }.raise hifInt 3).loseReads (fun _ _ => true) |>.loseWrites |>.loseBacks) s

/-- A link that may train: rate code, width and flit modes of R362. -/
def linkOk (rate width : Nat) (flit256 lopt : Bool) : Bool :=
  (width = 4 || width = 8 || width = 16) && (match rate with
    | 4 => flit256
    | 3 => !lopt
    | 2 => !flit256 && !lopt
    | 1 => !flit256 && !lopt
    | _ => false)

/-- HOST_LINK_UP: the link enters L0 as negotiated: rate code and width of HIF_LINK, flit mode, and CXL with its protocols or PCIe mode alone
(R362, R363, R381). PCIe mode is also where the link trained below 8 GT/s, rate 0, or narrower than x4. -/
def execHostLinkUp (rate width : Nat) (flit256 lopt cxl cache mem : Bool) (s : State) : Out :=
  liftCore (fun s =>
    let b := s.core.boot
    if !s.timing || !b.outs || b.phase = .verify || b.phase = .failed || s.core.host.linkUp then s
    else
      let on := cxl && linkOk rate width flit256 lopt && decide (b.phase ≠ .recovery)
      { s with
        core.host.linkUp := true, core.host.cxl := on, core.host.cacheOn := on && cache, core.host.memOn := on && mem,
        core.host.rate := rate % 16, core.host.width := width % 32, core.host.flit256 := flit256, core.host.lopt := lopt }.raise hifInt 2) s

/-- IDE_INTEGRITY_FAILURE: the flit is discarded; the requests it held complete as when the link is down (R380, R381). Which reads'
answers the flit held is a free value. -/
def execIdeIntegrityFailure (s : State) : Out :=
  liftCore (fun s =>
    if s.timing && s.core.host.linkUp then
      let k := s.core.free
      ({ s with core.free := k + 1 }.ideFailure).loseReads (fun n t => Config.flitHeld k n t)
    else s) s

/-- CXL_CACHE_COMPLETION: n record writes are acknowledged, oldest first, and their interrupts follow; invalidations that waited for the
last of theirs are completed (R242, R370, R376). -/
def State.cacheDone (s : State) : Nat → State
  | 0 => s
  | n + 1 => match s.core.host.cacheOut with
    | [] => s
    | w :: rest =>
      let s := { s with core.host.cacheOut := rest }.invPass (fun i => { i with lines := i.lines - 1 })
      let s := match w.vector with
        | some v => s.sendVector v
        | none => s
      s.cacheDone n

/-- CXL.cache write credits that the hub reserves for records: as many of them are at the host at a time, and the others wait in the hub's queue (R355;
log 89). -/
def recordCredits : Nat := 64

def execCxlCacheCompletion (n : Nat) (s : State) : Out :=
  liftCore (whenLive (fun s => (s.cacheDone (min n recordCredits)).retryRecords)) s

/-- HOST_SNOOP: the module caches no host line and answers RspIHitI (R376). -/
def execHostSnoop (s : State) : Out :=
  liftCore (whenLive (fun s => { s with core.host.snoops := s.core.host.snoops + 1 })) s

/-! MSI-X (R373) -/

/-- MSIX_MOD_EXPIRY: a vector's interval ends; the sets that arrived within it are sent once. -/
def execMsixModExpiry (v : Nat) (s : State) : Out :=
  liftCore (fun s => match mget s.core.irq.busy v with
    | none => s
    | some t =>
      if !s.timing || s.now < t then s
      else
        let s := { s with core.irq.busy := mdel s.core.irq.busy v }
        if s.core.irq.again.contains v then { s with core.irq.again := sdel v s.core.irq.again }.sendVector v else s) s

/-- MSIX_UNMASK: the host writes the MSI-X masks: the vectors masked from now on and the function mask. Pending vectors that are no longer masked
are sent (R373). -/
def execMsixUnmask (masked : List Nat) (fmask : Bool) (s : State) : Out :=
  liftCore (fun s =>
    if !s.timing then s
    else
      let s := { s with core.irq.masked := masked.foldl (fun l v => sins (v % 2048) l) [], core.irq.fmask := fmask }
      if fmask then s
      else
        let l := s.core.irq.pba.filter (fun v => !smem v s.core.irq.masked)
        l.foldl (fun s v => { s with core.irq.pba := sdel v s.core.irq.pba }.sendVector v) s) s

/-- FLR: MSI-X and the HIF registers return to reset values; what shows the link and the window follows the link and the window (R382; log 33). -/
def execFlr (s : State) : Out :=
  liftCore (fun s =>
    if !s.timing then s
    else
      let hif (k : Nat) : Bool := decide (8 * hifBase ≤ k) && decide (k < 8 * (hifBase + 0x1000))
      { s with
        core.irq := { sent := s.core.irq.sent }
        core.mmu.priOn := true
        core.regs.csr := s.core.regs.csr.filter (fun e => !hif e.1)
        core.regs.evc := s.core.regs.evc.filter (fun e => !hif e.1)
        core.regs.cnt := s.core.regs.cnt.filter (fun e => !hif (8 * e.1)) }) s

/-! The CXL.mem window (R374, R375) -/

def fldWinReq : Fld := ⟨hifBase + 0x10, 0, 12, 0⟩

/-- A frame of the direct region of its stack (R214). -/
def State.directFrame (s : State) (a : Nat) : Bool :=
  let k := a / 2 ^ 37
  let f := mgetD s.core.mem.frames k (0, 0, 0)
  let i := a % 2 ^ 37 / frameBytes
  s.stackPresent k && decide (a % 2 ^ 37 % frameBytes = 0) && decide (f.1 ≤ i) && decide (i < f.1 + f.2.1)

/-- HDM_COMMIT: firmware builds the window from direct-region frames that hold no page, as many whole 256 MiB units as it can; `frames` are the
DPAs of the frames it has free (R374). -/
def execHdmCommit (frames : List Nat) (s : State) : Out :=
  liftCore (whenLive (fun s =>
    if s.core.host.committed || !s.core.host.memOn then s
    else
      let l := (frames.filter s.directFrame).eraseDups
      let n := min (s.reg fldWinReq) (l.length / 128)
      { s with core.host.committed := true, core.host.winSize := n, core.host.win := l.take (128 * n) })) s

/-- DPA of a window offset. -/
def State.winDpa (s : State) (off : Nat) : Option Nat := (s.core.host.win[off / frameBytes]?).map (· + off % frameBytes)

/-- Lines of a stack's snoop filter, and those it holds (R375). -/
def filterCap : Nat := 2097152
def State.filterOf (s : State) (k : Nat) : List Nat := (s.core.host.filter.filter (fun e => e.1 / 2 ^ 31 = k)).map (·.1)

/-- A host's read of the line at a DPA: served, and entered in the filter where it may stay in the host's cache. A full filter first gives up its
lowest entry, and the read waits for that (R375, R407). `excl`: the host may modify the line without asking again. -/
def State.windowRead (s : State) (a : Nat) (cached excl : Bool) : State :=
  let l := a / 64
  let k := a / 2 ^ 37
  if cached && !mhas s.core.host.filter l && decide ((s.filterOf k).length ≥ filterCap) then
    { s with core.host.rdWait := s.core.host.rdWait ++ [(a, excl)] }.askSnoop ((s.filterOf k).headD 0) true
  else
    let s := { s with core.host.rdData := memReads s.core.mem.hbm a 64, core.host.rdBad := s.hbmPoison a 64,
                      core.host.filter := if cached then mput s.core.host.filter l excl else s.core.host.filter }
    (s.bump (hifBase + 0x118) 64).hbmTouch a 64

/-- Reads that waited are tried again, oldest first. -/
def State.serveReads (s : State) : State :=
  s.core.host.rdWait.foldl (fun s r => s.windowRead r.1 true r.2) { s with core.host.rdWait := [] }

/-- HOST_MEM_READ of a line of the window (R375). -/
def execHostMemRead (off : Nat) (cached excl : Bool) (s : State) : Out :=
  liftCore (whenLive (fun s => match s.winDpa (off / 64 * 64) with
    | none => s
    | some a =>
      if !s.core.host.linkUp then s else s.windowRead a cached excl)) s

/-- HOST_MEM_WRITE of a line, poisoned where the host says so; before any waiting unit's access to it (R375). -/
def execHostMemWrite (off : Nat) (data : List Byte) (poison : Bool) (s : State) : Out :=
  liftCore (whenLive (fun s => match s.winDpa (off / 64 * 64) with
    | none => s
    | some a =>
      if !s.core.host.linkUp || data.length ≠ 64 then s
      else
        let s := (s.hbmWrite a data).bump (hifBase + 0x120) 64
        if poison then { s with core.mem.badLines := sins (a / 64) s.core.mem.badLines } else s)) s

/-- BIRSP: the line leaves the filter, or stays as shared after BISnpData; what waited for it is tried again (R375). -/
def execBirsp (line : Nat) (keep : Bool) (s : State) : Out :=
  liftCore (whenLive (fun s => match mget s.core.host.bisnp line with
    | none => s
    | some inv =>
      { s with core.host.bisnp := mdel s.core.host.bisnp line,
               core.host.filter := if keep && !inv then mput s.core.host.filter line false else mdel s.core.host.filter line }.serveReads.retryRecords)) s

end Sys2Proof.Machine
end

