-- ==== Sys2Proof/Machine/Manage.lean ====
section
/-! DEFINITION. Power caps and duty, pacing entries, heat, and the management endpoint (19_power_thermal_management R431-R439). -/
namespace Sys2Proof.Machine

def pwrInt : Nat := pwrBase + 0x80
def fldPwrCap : Fld := ⟨pwrBase + 8, 0, 16, 0⟩

/-- Has the marl controller its supply: rails up, or up to VIBC after a TRIP in a frozen module (R429, R435)? -/
def State.marlOn (s : State) : Bool := s.powered || s.core.boot.trip

def whenMarl (f : State → State) : State → State := guardBy State.marlOn f

/-- An event of the marl controller in PWR_INT; a frozen module's registers hold (R411). -/
def State.pwrEvent (s : State) (i : Nat) : State := if s.core.ras.frozen || !s.powered then s else s.raise pwrInt i

/-! Caps (R431) -/

/-- Module power limit in W (R2). -/
def State.pwrLimit (s : State) : Nat := if s.fuse.grade = 3 then 1900 else if s.fuse.grade = 2 then 2250 else 2400

/-- The thermal cap in W: the power at entry, less 2 % for each fall (R435). -/
def thermCap (t : Nat × Nat) : Nat := t.1 * 98 ^ t.2 / 100 ^ t.2

/-- Caps in force with their sources: 0 limit, 1 host, 2 out-of-band, 3 pacing, 4 thermal (R431, R439). -/
def State.caps (s : State) : List (Nat × Nat) :=
  let p := s.core.pwr
  let on (w src : Nat) : List (Nat × Nat) := if w = 0 then [] else [(max 600 w, src)]
  on s.pwrLimit 0 ++ on (s.reg fldPwrCap) 1 ++ on p.oob 2 ++ on p.pace 3
    ++ (match p.therm with | some t => [(max 600 (thermCap t), 4)] | none => [])

/-- The effective cap with its source (R431). -/
def State.effCap (s : State) : Nat × Nat :=
  s.caps.foldl (fun m c => if c.1 < m.1 then c else m) (s.pwrLimit, 0)

/-- SB_ALERT_N (R432, R435). -/
def State.alert (s : State) : Bool := s.core.pwr.alertDuty || s.core.pwr.alertTherm

/-- PACE_STEP: the power over the last 10 us in W moves the duty by one (R432). -/
def execPaceStep (p : Nat) (s : State) : Out :=
  liftCore (whenMarl (fun s =>
    let cap := s.effCap.1
    let d := s.core.pwr.duty
    let s := if p < cap then { s with core.pwr.alertDuty := false } else s
    if p > cap && decide (d > 1) then
      let s := { s with core.pwr.duty := d - 1 }
      if d = 64 then s.pwrEvent 3 else s
    else if 100 * p < 98 * cap && decide (d < 64) then { s with core.pwr.duty := d + 1 }
    else s)) s

/-- DUTY_FLOOR_TIMEOUT: the duty has stood at 1 with power above the cap for 10 ms (R432). -/
def execDutyFloorTimeout (s : State) : Out :=
  liftCore (whenMarl (fun s => if s.core.pwr.duty = 1 then { s with core.pwr.alertDuty := true } else s)) s

/-! Pacing (R433) -/

/-- The armed entry that triggers first of those whose FT has come. -/
def firstDue (now : Nat) : Map Pace → Option (Nat × Pace)
  | [] => none
  | e :: es =>
    match firstDue now es with
    | none => if e.2.armed && decide (e.2.ft ≤ now) then some e else none
    | some f => if e.2.armed && decide (e.2.ft ≤ f.2.ft) then some e else some f

/-- PACE_ENTRY_TRIGGER: in order of FT values, and of entries where they are equal (R38, R433). -/
def State.paceTrigger (s : State) (n : Nat) : State :=
  whenTiming (fun s => match firstDue s.now s.core.pwr.entries with
    | none => s
    | some (j, e) =>
      if j ≠ n then s
      else
        let s := s.scheduled
        (({ s with core.pwr.entries := mput s.core.pwr.entries n { e with armed := false }, core.pwr.pace := e.w }).bump (pwrBase + 0x118) 1).pwrEvent 4) s

/-- PACE_ENTRY_TRIGGER. -/
def execPaceEntryTrigger (n : Nat) (s : State) : Out := liftCore (fun s => s.paceTrigger n) s

/-! Heat (R434, R435) -/

/-- WARN, THROTTLE and TRIP of a sensor in degrees. -/
def levelsOf (k : Nat) : Int × Int × Int :=
  if k ≤ 4 then (95, 100, 110) else if k ≤ 12 then (85, 90, 100) else if k = 13 then (45, 50, 60) else if k = 14 then (65, 70, 80)
  else (110, 115, 125)

/-- The level of a sensor at a temperature in units of 0.125 degrees; one held clears 5 degrees below it. -/
def levelAt (k : Nat) (t : Int) (old : Nat) : Nat :=
  let l := levelsOf k
  let holds (n : Nat) (thr : Int) : Bool := decide (t ≥ 8 * thr) || (decide (n ≤ old) && decide (t > 8 * (thr - 5)))
  if holds 3 l.2.2 then 3 else if holds 2 l.2.1 then 2 else if holds 1 l.1 then 1 else 0

/-- One sensor's reading: its maximum, its level, and an event for each level reached; `true` where TRIP was. -/
def State.senseOne (s : State) (k : Nat) (t : Int) : State × Bool :=
  let absent := decide (5 ≤ k) && decide (k ≤ 12) && !s.stackPresent (k - 5)
  let t := if absent then 0 else t
  let old := mgetD s.core.pwr.sensors k {}
  let n := if absent then 0 else levelAt k t old.level
  let s := { s with core.pwr.sensors := mput s.core.pwr.sensors k { t := t, max := max old.max t, level := n } }
  let up (l : Nat) : Bool := decide (old.level < l) && decide (l ≤ n)
  let down (l : Nat) : Bool := decide (n < l) && decide (l ≤ old.level)
  let s := { s with core.pwr.events := s.core.pwr.events ++ ([1, 2, 3].filter up).map (fun l => (k, l, true)) ++ ([3, 2, 1].filter down).map (fun l => (k, l, false)) }
  let s := if up 1 then s.pwrEvent 1 else s
  let s := if up 2 then s.pwrEvent 2 else s
  (s, up 3)

/-- Does a sensor hold THROTTLE? -/
def State.throttled (s : State) : Bool := s.core.pwr.sensors.any (fun e => decide (e.2.level ≥ 2))

/-- A TRIP: the module is reset, or loses all rails but VMARL and VIBC where it was frozen (R412, R435). -/
def State.tripModule (s : State) : State :=
  let s := { s with core.boot.tripN := true, core.boot.trip := true }
  if s.core.boot.phase = .off then s
  else if s.core.ras.frozen then
    let p := s.core.pwr
    { s.newLife 6 false .off with core.pwr := { vin := p.vin, watts := p.watts, vinLow := p.vinLow, sensors := p.sensors, rails := p.rails } }
  else s.resetModule 6

/-- THERMAL_SAMPLE, every 1 ms, with the thermal cap begun where a THROTTLE level comes, or stands over from before a reset: the 16 temperatures in units of 0.125 degrees, the input in 10 mV and W, and the power of each rail (R434-R437). -/
def execThermalSample (temps : List Int) (vin watts : Nat) (rails : List Nat) (s : State) : Out :=
  liftTime (whenMarl (fun s =>
    let was := s.throttled
    let s := { s with core.pwr.vin := vin % 65536, core.pwr.watts := watts % 65536, core.pwr.vinLow := decide (vin < 4000),
                      core.pwr.rails := rails.zipIdx.map (fun x => (x.2, x.1)) }
    let r := (temps.take 16).zipIdx.foldl (fun (a : State × Bool) x =>
      let b := a.1.senseOne x.2 x.1
      (b.1, a.2 || b.2)) (s, false)
    let s := r.1
    let hot := s.throttled
    let s := if hot && (!was || s.core.pwr.therm.isNone && !s.core.boot.trip) then { s with core.pwr.therm := some (watts % 65536, 0), core.pwr.alertTherm := true }
      else if !hot then { s with core.pwr.therm := none, core.pwr.alertTherm := false } else s
    let s := s.bump (pwrBase + 0x108) (watts % 65536)
    let s := if hot then s.bump (pwrBase + 0x110) 1 else s
    if r.2 then s.tripModule else s)) s

/-- THERMAL_CAP_STEP: 10 ms with a THROTTLE level held (R435). -/
def execThermalCapStep (s : State) : Out :=
  liftCore (whenMarl (fun s => match s.core.pwr.therm with
    | some (w, n) => if s.throttled then { s with core.pwr.therm := some (w, n + 1) } else s
    | none => s)) s

/-- TRIP_RESTART: every sensor has cleared THROTTLE. From the 40 ms point, or from 0 ms after a TRIP in a frozen module (R435, R446). -/
def execTripRestart (s : State) : Out :=
  liftTime (fun s =>
    let b := s.core.boot
    if !b.trip || s.throttled then s
    else if b.phase = .off then
      if b.perst || !b.pwrEn then s else { s with core.boot.trip := false, core.boot.tripN := false }.startRails 6
    else { s with core.boot.trip := false, core.boot.tripN := false, core.boot.phase := if b.phase = .rails && !b.perst then .rom else b.phase }) s

/-- HARD_THERMAL: a comparator outside the marl controller takes every rail down (R435, R446). -/
def execHardThermal (s : State) : Out :=
  liftTime (whenMarl (fun s => { s with core.boot.tripN := true, core.boot.hard := true, core.boot.trip := false }.powerOff)) s

/-! The management endpoint (R437, R438) -/

/-- Does the endpoint answer: from the end of the ROM stage until power is removed? -/
def State.managed (s : State) : Bool := s.core.boot.outs && s.powered

def whenManaged (f : State → State) : State → State := guardBy State.managed f

/-- MCTP_CONTROL: the bus owner assigns the endpoint identifier (R437). -/
def execMctpControl (eid : Nat) (s : State) : Out :=
  liftCore (whenManaged (fun s => { s with core.pwr.eid := eid % 256 }.say .success)) s

/-- STAGE code of GLB_BOOT (R402). -/
def Phase.code : Phase → Nat
  | .off => 0 | .rails => 0 | .rom => 0 | .verify => 1 | .stage1 => 2 | .hbmDone => 2 | .stage2 => 3 | .ready => 4 | .recovery => 5 | .failed => 6

/-- The reading of a numeric or state sensor (R436, R438), numbered by the model: 0 input voltage, 1 input power, 2 energy, 3 GLB_BOOT.STAGE, 16 + k
temperature and 32 + k maximum of sensor k, 64 + r the power of rail r (log 9). -/
def State.sensorValue (s : State) (id : Nat) : Option Int :=
  let p := s.core.pwr
  if id = 0 then some p.vin
  else if id = 1 then some p.watts
  else if id = 2 then some (s.counter (pwrBase + 0x108))
  else if id = 3 then some s.core.boot.phase.code
  else if 16 ≤ id ∧ id < 32 then some (mgetD p.sensors (id - 16) {}).t
  else if 32 ≤ id ∧ id < 48 then some (mgetD p.sensors (id - 32) {}).max
  else if 64 ≤ id then (mget p.rails (id - 64)).map (fun (w : Nat) => (w : Int))
  else none

/-- PLDM_SENSOR_READ (R438). -/
def execPldmSensorRead (id : Nat) (s : State) : Out :=
  liftCore (whenManaged (fun s => s.say (match s.sensorValue id with | some v => .value v | none => .invalidInput))) s

/-- PLDM_SET_EFFECTER: the out-of-band cap, 0 or 600 up to the limit (R431, R438). -/
def execPldmSetEffecter (w : Nat) (s : State) : Out :=
  liftCore (whenManaged (fun s =>
    if w = 0 || (decide (600 ≤ w) && decide (w ≤ s.pwrLimit)) then { s with core.pwr.oob := w }.say .success else s.say .invalidInput)) s

end Sys2Proof.Machine
end

