-- ==== Sys2Proof/Machine/RasCmds.lean ====
section
/-! DEFINITION. Scrubbing, module-fatal errors, freeze and the test access port (17_errors_freeze_readout R404-R416). -/
namespace Sys2Proof.Machine

/-- Is a DPA in the firmware region of its stack (R214)? -/
def State.inFirmware (s : State) (a : Nat) : Bool :=
  decide (a % 2 ^ 37 / frameBytes < (mgetD s.core.mem.frames (a / 2 ^ 37) (0, 0, 0)).1)

/-- HBM_SCRUB of the line at a DPA: corrected and written back, or uncorrectable: marked and logged, or fatal in the firmware region
(R405, R406); a latest word that left the write queue with bad parity stands there with HBM poison (R346). -/
def execHbmScrub (a : Nat) (corrected : Bool) (check : LineCheck) (s : State) : Out :=
  liftCore (whenLive (fun s =>
    if !s.dpaOk a then s
    else
      let k := a / 2 ^ 37
      let s := s.bump (rasBase + 0x128) 1
      let s := if check.parity then
          { (s.bump (rasBase + 0x120) 1).rasUc 8 (k / 2) 0xFFFF 0xFFFF (a / 64 * 64) 1 with core.mem.badLines := sins (a / 64) s.core.mem.badLines }
        else s
      if check.bad then
        if s.inFirmware a then s.fatalStop 2 (k / 2) k
        else (s.markLine a).rasUc 1 (k / 2) 0xFFFF 0xFFFF (a / 64 * 64) 1
      else if corrected then (s.bump (rasBase + 0x100) 1).rasCe 1 (k / 2)
      else s)) s

/-- MODULE_FATAL_ERROR of a source of class MF that no other row meets: HBM firmware region, FIFOs, kaolin-core memory, die-to-die links,
bedrock (R405, R410). -/
def execModuleFatalError (src die unit : Nat) (s : State) : Out :=
  liftCore (whenTiming (fun s =>
    if [2, 8, 9, 0xA, 0xD].contains src && decide (die ≤ 4) then s.fatalStop src die (unit % 256) else s)) s

/-- FATAL_HOLD_EXPIRY: RAS_CTL.HOLD after a fatal error; a freeze in the meantime stands (R388, R410). -/
def execFatalHoldExpiry (s : State) : Out :=
  liftTime (whenTiming (fun s =>
    if !s.core.ras.stop then s
    else if s.reg fldFrzOnFatal = 1 then s.freeze
    else s.resetModule 4)) s

/-- FREEZE_REQUEST: a falling edge of SB_FREEZE_N is taken (R411, R448). -/
def execFreezeRequest (s : State) : Out :=
  liftCore (whenTiming (fun s => if s.reg fldFrzEn = 1 && !s.core.boot.perst then s.freeze else s)) s

/-- A write of RAS_CTL.SWFREEZE (R411). -/
def State.swFreeze (s : State) : State := if s.reg fldFrzEn = 1 then s.freeze else s

/-- SWFREEZE (R411). -/
def execSwfreeze (s : State) : Out := liftCore (whenLive State.swFreeze) s

/-- GLB_FRZ_READ: how the previous life ended; the first read after ready clears it (R416). -/
def execGlbFrzRead (s : State) : Out :=
  liftCore (whenTiming (fun s =>
    if !s.core.boot.outs then s
    else
      let r := s.core.ras
      let s := { s with core.ras.readVal := 2 * b2n r.froze + b2n r.fatal }
      if s.core.boot.phase = .ready then { s with core.ras.froze := false, core.ras.fatal := false } else s)) s

/-! The test access port (R413, R414) -/

/-- SB_TCK is sensed from the ROM stage, frozen or not (R411, R445). -/
def State.tapOn (s : State) : Bool := decide (s.core.boot.phase ≠ .off) && decide (s.core.boot.phase ≠ .rails)

/-- A TAP instruction: its code, and what its data register shifts out. -/
def State.tap (s : State) (ir : Nat) (out : List Nat) : State := { s with core.ras.tapIr := ir, core.ras.tapOut := out }

def whenTap (f : State → State) : State → State := guardBy State.tapOn f

/-- Boundary scan: the pins captured are shifted out, and a value is shifted in (R413). -/
def State.boundaryScan (s : State) (ir val : Nat) : State :=
  ({ s with core.free := s.core.free + 1, core.ras.scan := val }).tap ir [Config.boundary s.core.free]

/-- EXTEST: the value shifted in drives the pins. -/
def execExtest (val : Nat) (s : State) : Out := liftCore (whenTap (fun s => s.boundaryScan 0 val)) s

/-- SAMPLE_PRELOAD. -/
def execSamplePreload (val : Nat) (s : State) : Out := liftCore (whenTap (fun s => s.boundaryScan 1 val)) s

/-- IDCODE. -/
def execIdcode (s : State) : Out :=
  liftCore (whenTap (fun s => s.tap 2 [put 28 4 Config.revision + put 12 16 0x0340 + put 1 11 0x2B7 + 1])) s

/-- FRZ_STAT, 128 bits. -/
def execFrzStat (s : State) : Out :=
  liftCore (whenTap (fun s =>
    let r := s.core.ras
    s.tap 3 [put 64 64 r.frozenFt + put 63 1 (b2n r.frozen) + put 62 1 (b2n s.core.sec.roEn) + put 61 1 (b2n r.v) + put 48 8 r.src])) s

/-- FRZ_SEL (R413, R414). -/
def execFrzSel (val : Nat) (s : State) : Out :=
  liftCore (whenTap (fun s => { s.tap 4 [] with core.ras.tapSel := val % 2 ^ 32 })) s

/-- Words of an item; 0 for an item that is not listed, or of an absent position (R414). MVUs, VUs and kaolin cores count within their quarter. -/
def State.itemWords (s : State) (sel : Nat) : Nat :=
  let die := bits sel 28 3
  let it := bits sel 16 12
  if !sel.testBit 31 then
    if it ≠ 0 then 0 else if die < 4 then ceilDiv 12582912 72 else if die = 4 then ceilDiv 4194304 72 else 0
  else if die > 3 then 0
  else
    let e := it % 32
    let here := decide (e < 16) && s.fuse.opePresent.testBit (16 * die + e)
    match it / 32 with
    | 8 => if here then 131072 else 0
    | 9 => if here then 262144 else 0
    | 10 => if here then 36864 else 0
    | 11 => if here then 8960 else 0
    | _ =>
      if it = 0x200 then 8388608
      else if it = 0x201 then 2097152
      else if 0x210 ≤ it ∧ it < 0x212 then 65536
      else if 0x220 ≤ it ∧ it < 0x224 then 16384
      else if 0x240 ≤ it ∧ it < 0x248 then 8192
      else 0

/-- A memory of the model that an item of KIND 1 reads out, and the address of its word 0: the park or a kaolin core's local memory. -/
def State.itemMem (s : State) (sel : Nat) : Option (Mem × Nat) :=
  let die := bits sel 28 3
  let it := bits sel 16 12
  if it = 0x200 then some (s.core.mem.park, die * 2 ^ 26)
  else if 0x240 ≤ it ∧ it < 0x248 then some (s.core.mem.kc, (8 * die + (it - 0x240)) * 2 ^ 16)
  else none

/-- Word i of an item: its 64 bits, with the 8 check bits above them, a free value as every word of an item that the spec lays out no further
(R413, R414, log 6). -/
def State.itemWord (s : State) (sel i : Nat) : Nat :=
  let w := Config.frozenWord s.core.fab.draw sel i % 2 ^ 72
  match s.itemMem sel with
  | some m => memNat m.1 (m.2 + 8 * i) 8 + w / 2 ^ 64 * 2 ^ 64
  | none => w

/-- FRZ_READ of n words from word 0: zeros unless the module is frozen with read-out enabled (R413, R414). -/
def execFrzRead (n : Nat) (s : State) : Out :=
  liftCore (whenTap (fun s =>
    let sel := s.core.ras.tapSel
    let on := s.core.ras.frozen && s.core.sec.roEn
    s.tap 5 ((List.range n).map (fun i =>
      if on && decide (i < s.itemWords sel) then s.itemWord sel i else 0)))) s

/-- BYPASS (R413). -/
def execBypass (s : State) : Out := liftCore (whenTap (fun s => s.tap 0xFF [0])) s

end Sys2Proof.Machine
end

