-- ==== Sys2Proof/Machine/Pmc.lean ====
section
/-! DEFINITION. Reading counters together: gathers, dump records, single reads and tagging (18_performance_counters R417-R426). -/
namespace Sys2Proof.Machine

/-! Counter identity (R417) -/

/-- n counters from an offset on. -/
def span (off base n : Nat) : Bool := decide (base ≤ off) && decide (off < base + 8 * n)

/-- Is there a counter in the layout of R109 at a BAR0 offset? -/
def State.counterOk (s : State) (off : Nat) : Bool :=
  let at_ (base size : Nat) : Nat × Nat := ((off - base) / size, (off - base) % size)
  decide (off % 8 = 0) &&
  (if off < 0x10000 then span off 0x830 1
   else if off < qmgBase then span off (hifBase + 0x100) 9
   else if off < flgBase then span off (qmgBase + 0x100) 7
   else if off < opeBase 0 then false
   else if off < mvuBase 0 then
     let x := at_ (opeBase 0) 0x4000
     decide (x.1 < s.opeCount) && (span x.2 0x100 7 || span x.2 0x140 4 || span x.2 0x160 4 || span x.2 0x180 2)
   else if off < vuBase 0 then
     let x := at_ (mvuBase 0) 0x4000
     decide (x.1 < 8) && span x.2 0x100 5
   else if off < seBase 0 then
     let x := at_ (vuBase 0) 0x4000
     decide (x.1 < 16) && (span x.2 0x100 2 || (decide (0x200 ≤ x.2) && decide (x.2 < 0x600) && (span (x.2 % 256) 0 5 || span (x.2 % 256) 0x80 16)))
   else if off < memBase 0 then
     let x := at_ (seBase 0) 0x2000
     decide (x.1 < 32) && span x.2 0x100 13
   else if off < ftlBase then
     let x := at_ (memBase 0) 0x10000
     s.stackPresent x.1 && (span x.2 0x100 8 || span x.2 0x8100 7 || (decide (x.1 = 0) && span x.2 0xC100 7))
   else if off < mmuBase then span off (ftlBase + 0x100) 8
   else if off < fabBase 0 then span off (mmuBase + 0x100) 10
   else if off < fabGBase then
     let x := at_ (fabBase 0) 0x8000
     s.portPresent x.1 && span x.2 0x100 14
   else if off < rceBase 0 then false
   else if off < rceGBase then
     let x := at_ (rceBase 0) 0x4000
     decide (x.1 < 16) && span x.2 0x100 11
   else if off < pmcBase then false
   else if off < pmcBase + 0x10000 then span off (pmcBase + 0x100) 7
   else if off < rasBase then
     let x := (off - pmcBase - 0x10000) / 64
     decide (x < 648) && (decide (256 ≤ x) || decide (x / 4 < s.opeCount))
   else if off < secBase then span off (rasBase + 0x100) 7
   else if off < pwrBase then span off (secBase + 0x200) 2
   else span off (pwrBase + 0x100) 4)

/-- Head latency of a counter in cycles: 15 in a quarter, 0 in the hub (R20, R419). -/
def latchDelay (off : Nat) : Nat := if (opeBase 0 ≤ off ∧ off < ftlBase) ∨ (fabBase 0 ≤ off ∧ off < fabGBase) ∨ (rceBase 0 ≤ off ∧ off < rceGBase) then 15 else 0

/-- A list entry names a counter (R419). -/
def State.idOk (s : State) (id : Nat) : Bool := decide (id < 2 ^ 23) && s.counterOk (8 * id)

/-! Gathers (R419, R421) -/

def fldCsel : Fld := ⟨pmcBase, 0, 23, 0⟩
def fldListBase : Fld := ⟨pmcBase + 0x18, 6, 50, 0⟩
def fldListN : Fld := ⟨pmcBase + 0x20, 0, 13, 0⟩
def fldDumpBase : Fld := ⟨pmcBase + 0x28, 12, 44, 0⟩
def fldDumpK : Fld := ⟨pmcBase + 0x30, 28, 4, 0⟩
def fldInterval : Fld := ⟨pmcBase + 0x30, 0, 20, 0⟩

/-- Nanoseconds of n cycles of 0.4 ns. -/
def nsOf (cc : Nat) : Nat := 2 * cc / 5

/-- Cycles after the first latch at which entry i is latched. -/
def latchCc (i id : Nat) : Nat := 4 * i + latchDelay (8 * id)

/-- FT of the last latch. -/
def Gather.last (g : Gather) : Nat :=
  g.first + nsOf ((((g.ids.getD []).zipIdx).map (fun x => latchCc x.2 x.1)).foldl max 0)

/-- Latch every entry whose cycle has come. -/
def State.latchDue (s : State) : State :=
  match s.core.pmc.gather with
  | none => s
  | some g =>
    let v := ((g.ids.getD []).zipIdx).foldl (fun (m : Map Nat) x =>
      if mhas m x.2 || decide (s.now < g.first + nsOf (latchCc x.2 x.1)) then m
      else mput m x.2 (if s.idOk x.1 then s.counter (8 * x.1) else 0)) g.vals
    { s with core.pmc.gather := some { g with vals := v } }

/-- A dump record is discarded (R422). -/
def State.dumpLost (s : State) : State :=
  ({ s with core.pmc.gather := none, core.pmc.seq := (s.core.pmc.seq + 1) % 65536 }.bump (pmcBase + 0x110) 1).raise pmcInt 1

/-- A fault of the reader's own access: recorded, never waited for (R422). -/
def State.readerFault (s : State) (c addr cause : Nat) (write : Bool) : State :=
  let now := s.now
  let s1 := s.bump (mmuBase + 0x110) 1
  (s1.errRecord c (fun p n => faultRecord p n cause write 0xFFFF 0xFFFF 0xFFFF addr now 0xFFFF (s1.faultsOf c))).raise mmuInt 0

/-- Read the list of a gather that has not begun to latch. -/
def State.gatherList (s : State) : State :=
  match s.core.pmc.gather with
  | none => s
  | some g =>
    if g.ids.isSome then s
    else match (if g.n = 0 then Stop.none else s.vcheck g.ctx g.list (4 * g.n) false false) with
      | .none =>
        let m := s.vget g.ctx g.list (4 * g.n) false
        let ids := (List.range g.n).map (fun i => bytesAt m.1 (4 * i) 4)
        ({ (s.vtouch g.ctx g.list (4 * g.n) false false) with core.pmc.gather := some { g with ids := some ids, first := s.now } }).latchDue
      | .fault cause addr => (s.readerFault g.ctx addr cause false).dumpLost
      | st => s.askFor g.ctx st

/-- FT is free-running (R39). -/
def State.unsynced (s : State) : Bool := decide (s.ft.lock = .free) || decide (s.ft.lock = .acquiring)

/-- Begin a gather for the owner. -/
def State.beginDump (s : State) (c : Nat) (demand : Bool) (instant : Nat) : State :=
  let g : Gather := { demand := demand, instant := instant, list := s.reg fldListBase * 64, n := min 4096 (s.reg fldListN),
                      dump := s.reg fldDumpBase * 4096, k := s.reg fldDumpK, ctx := c, unsync := s.unsynced }
  ({ s with core.pmc.gather := some g }).gatherList

/-- DUMP_INSTANT: FT has come to a multiple of the interval (R38, R421, R422). -/
def State.dumpInstant (s : State) : State :=
  whenLive (fun s =>
    let iv := s.reg fldInterval
    let step := 1000 * (if iv < 10 then 10 else iv)
    let t := s.now / step * step
    match s.pmcOwner with
    | none => s
    | some c =>
      if iv = 0 || t ≤ s.core.pmc.lastInstant then s
      else
        let s := { s.scheduled with core.pmc.lastInstant := t }
        if s.core.pmc.gather.isSome then
          ({ s with core.pmc.missed := sat 65535 (s.core.pmc.missed + 1) }.bump (pmcBase + 0x108) 1).raise pmcInt 2
        else s.beginDump c false t) s

/-- DUMP_INSTANT. -/
def execDumpInstant (s : State) : Out := liftCore (fun s => s.dumpInstant) s

/-- A write of PMC_CTL.GATHER (R421, R422). -/
def State.demandGather (s : State) : State :=
  match s.pmcOwner with
  | none => s
  | some c =>
    if s.core.pmc.gather.isSome then { s with core.pmc.demandPend := s.core.pmc.demandPend <|> some s.now }
    else s.beginDump c true s.now

/-- PMC_GATHER (R421). -/
def execPmcGather (s : State) : Out := liftCore (whenDispatching State.demandGather) s

/-- Bytes of a slot of the dump ring. -/
def dumpSlot (n : Nat) : Nat := ceilDiv (64 + 8 * n) 64 * 64

/-- The dump record of a gather (R422). -/
def State.dumpRecord (s : State) (g : Gather) : List Byte :=
  let p := s.core.pmc
  let ids := g.ids.getD []
  let phase := if (p.idx / 2 ^ g.k) % 2 = 0 then 1 else 0
  leBytes 64 (put 0 8 2 + put 8 1 phase + put 9 1 (b2n p.step) + put 10 1 (b2n g.unsync) + put 11 1 (b2n g.demand) + put 16 16 g.n
      + put 32 16 (ids.filter (fun i => !s.idOk i)).length + put 48 16 p.missed + put 64 64 g.instant + put 128 64 g.first + put 192 64 g.last
      + put 496 16 p.seq)
    ++ (List.range g.n).flatMap (fun i => leBytes 8 (mgetD g.vals i 0))

/-- The gather that was asked for meanwhile follows at once (R422). -/
def State.nextGather (s : State) : State :=
  if s.core.pmc.gather.isSome then s
  else match s.core.pmc.demandPend, s.pmcOwner with
    | some t, some c => { s with core.pmc.demandPend := none }.beginDump c true t
    | _, _ => { s with core.pmc.demandPend := none }

/-- PMC_GATHER_DONE: the record is written, or discarded where its address does not translate (R422). -/
def execPmcGatherDone (s : State) : Out :=
  liftCore (whenLive (fun s =>
    let s := s.gatherList
    match s.core.pmc.gather with
    | none => s
    | some g0 =>
      if g0.ids.isNone || s.now < g0.last then s
      else if s.pmcOwner ≠ some g0.ctx then s.dumpLost.nextGather
      else
        let s := s.latchDue
        let g := s.core.pmc.gather.getD g0
        let bs := s.dumpRecord g
        let a := g.dump + dumpSlot g.n * (s.core.pmc.idx % 2 ^ g.k)
        match s.vcheck g.ctx a bs.length true false with
        | .none =>
          let s := s.vput g.ctx a bs false
          let s := { s with core.pmc.gather := none, core.pmc.idx := (s.core.pmc.idx + 1) % 2 ^ (g.k + 1),
                            core.pmc.seq := (s.core.pmc.seq + 1) % 65536, core.pmc.missed := 0, core.pmc.step := false }
          ((s.bump (pmcBase + 0x100) 1).raise pmcInt 0).nextGather
        | .fault cause addr => (s.readerFault g.ctx addr cause true).dumpLost.nextGather
        | .readOnly => s.dumpLost.nextGather
        | st => s.askFor g.ctx st)) s

/-- PMC_CVIEW_READ (R420). -/
def execPmcCviewRead (s : State) : Out :=
  liftCore (whenDispatching (fun s =>
    let id := s.reg fldCsel
    { s with core.ras.readVal := if s.idOk id then s.counter (8 * id) else 0 })) s

/-- SAMPLE_COUNTDOWN: the countdown of a queue's core comes to 0 at the dispatch of the queue's next instruction, which is tagged unless R425 says
otherwise. The dispatch is the queue's, as INSTRUCTION_DISPATCH makes it. -/
def execSampleCountdown (q : Nat) (s : State) : Out :=
  liftCore (whenDispatching (fun s =>
    if (mgetD s.core.pmc.kc (kcOf (s.queue q) q) {}).count ≤ 1 then s.dispatch q else s)) s

end Sys2Proof.Machine
end

