-- ==== Sys2Proof/Machine/Passed.lean ====
section
/-! DEFINITION. Scheduled actions that a step of FT passes, and the commands that correct FT (02_fabric_time R31, R33, R35-R40). -/
namespace Sys2Proof.Machine

/-- What can trigger from an FT value (R38). -/
inductive Act where
  /-- The gate that holds a queue. -/
  | gate (q : Nat)
  /-- The deadline of an instruction in flight. -/
  | deadline (q seq : Nat)
  /-- The deadline of a stream. -/
  | stream (n : Nat)
  /-- The close of a bucket's round, and the end of its grace. -/
  | close (id epoch : Nat)
  | grace (id epoch : Nat)
  /-- An instant of the counter dump. -/
  | dump
  /-- A pacing entry. -/
  | pace (n : Nat)
  deriving DecidableEq, Repr

/-- The actions that are pending, with their FT values, in unit order: kaolin cores, stream engines, collective engines, counters, marl controller
(R37; log 74). Of the instants of the counter dump only the last one reached stands for all. -/
def State.actions (s : State) : List (Nat × Act) :=
  let iv := s.reg fldInterval
  let step := 1000 * (if iv < 10 then 10 else iv)
  s.core.qm.queues.flatMap (fun e => match e.2.hold with | .gate v => [(v, Act.gate e.1)] | _ => [])
    ++ s.core.qm.queues.flatMap (fun e => (e.2.fl.filter (fun i => i.deadline ≠ 0)).map (fun i => (i.deadline, Act.deadline e.1 i.seq)))
    ++ (s.core.streams.filter (fun e => e.2.cur.deadline ≠ 0)).map (fun e => (e.2.cur.deadline, Act.stream e.1))
    ++ (s.core.rce.buckets.filter (fun e => e.2.close ≠ 0)).flatMap (fun e =>
        [(e.2.close, Act.close e.2.id e.2.epoch), (e.2.close + 1000 * s.reg fldGrace, Act.grace e.2.id e.2.epoch)])
    ++ (if iv = 0 then [] else [(s.now / step * step, Act.dump)])
    ++ (s.core.pwr.entries.filter (fun e => e.2.armed)).map (fun e => (e.2.ft, Act.pace e.1))

/-- Trigger an action, where it still can. -/
def State.trigger (s : State) : Act → State
  | .gate q => s.gateExpiry q
  | .deadline q seq => s.deadlineAbort q seq
  | .stream n => s.streamDeadline n
  | .close id epoch => s.roundClose id epoch
  | .grace id epoch => s.finalGrace id epoch
  | .dump => s.dumpInstant
  | .pace n => s.paceTrigger n

/-- Put an action into a list in ascending order of FT values, behind those with the same value. -/
def actIns (a : Nat × Act) : List (Nat × Act) → List (Nat × Act)
  | [] => [a]
  | b :: l => if a.1 < b.1 then a :: b :: l else b :: actIns a l

/-- Every pending action whose FT value lies after `t0` and not after FT triggers, in ascending order of FT values, ties in unit order (R37). -/
def State.firePassed (s : State) (t0 : Nat) : State :=
  let l := s.actions.filter (fun a => decide (t0 < a.1) && decide (a.1 ≤ s.now))
  (l.foldl (fun acc a => actIns a acc) []).foldl (fun s a => s.trigger a.2) s

/-- After a correction: where it has stepped FT forward, what the step has passed triggers at once, and FT stays at what it was set to (R37).
`old`: the state before. -/
def State.afterStep (s old : State) : State :=
  if s.ft.steps ≠ old.ft.steps && decide (old.ft.units < s.ft.units) then { s with core := (s.firePassed old.ft.ns).core } else s

/-- RESTEP (R37). -/
def execRestep (s : State) : Out := liftTime (whenTiming (fun s => s.restep.afterStep s)) s

/-- NEXTSEC_WRITE (R37, R40). -/
def execNextsecWrite (sec : Nat) (s : State) : Out := liftTime (whenTiming (fun s => (s.nextsecWrite sec).afterStep s)) s

/-- A TSYNC edge: NEXTSEC rises; in reference mode the edge gives phase, and drives lock while SB_TIMEREF is good (R31, R35).
Under SRC 0b11 an edge that sets TSYNC_OK, and so makes the reference the source in use, already gives FT its phase: DESIGN CHOICE, log 99. -/
def State.tsyncEdge (s : State) : State :=
  let d : Int := (s.ft.units : Int) - (s.ft.nextSec * 1000000000 * 65536 : Nat)
  let s := { s with ft.nextSec := (s.ft.nextSec + 1) % 2 ^ 64, ft.tsyncOk := true }.resource s
  if s.source = 1 then
    let s := s.correct d
    if s.ft.refOk then s.lockRule d 3 1 else { s with ft.good := 0 }.loseLock
  else s

/-- TSYNC_EDGE (R31, R35, R37). -/
def execTsyncEdge (s : State) : Out := liftTime (whenTiming (fun s => s.tsyncEdge.afterStep s)) s

/-- TIME_REPLY: t4 is the receive stamp; on the parent the offset and the delay drive correction and lock; stamps are in 2^-16 ns (R33, R35, R37). -/
def execTimeReply (port t1 t2 t3 hop st : Nat) (s : State) : Out :=
  liftTime (whenLive (fun old =>
    if (old.port port).st = .active then
      let m := old.timeMsg port 2 (t1 / 65536)
      let t4 := old.stampOf m
      let s := (old.takeTime m).notePartner port hop st
      if s.source = 2 && decide (s.ft.parent = port) then (s.measured t1 t2 t3 t4).afterStep old else s
    else old)) s

end Sys2Proof.Machine
end

