-- ==== Sys2Proof/Machine/Registers.lean ====
section
/-! DEFINITION. BAR0 as the host driver writes it: the writable fields of every block and what a write sets off (00_scope R7-R9, 15 R367, and the
register tables of every chapter). -/
namespace Sys2Proof.Machine

/-- Access codes that a write can act on (R9). -/
inductive Acc where
  | rw | rwl | w1c
  deriving DecidableEq, Repr

/-- W1C bits 0 to n - 1 of the register at an offset (R155). -/
def w1cs (off n : Nat) : List (Fld × Acc) := (List.range n).map (fun i => (⟨off, i, 1, 0⟩, Acc.w1c))

/-- Fields that are read and written. -/
def rws (l : List Fld) : List (Fld × Acc) := l.map (fun f => (f, Acc.rw))

/-- OP of a command register, and the two arguments of its block (R160). -/
def cmdFields (off arg : Nat) : List (Fld × Acc) := rws [⟨off, 0, 8, 0⟩, ⟨arg, 0, 64, 0⟩, ⟨arg + 8, 0, 64, 0⟩]

/-- Data words of a command block. -/
def dataFields (base n o : Nat) : List (Fld × Acc) :=
  if 0x200 ≤ o ∧ o < 0x200 + 4 * n then rws [fldData base ((o - 0x200) / 8 * 2), fldData base ((o - 0x200) / 8 * 2 + 1)] else []

/-- GLB (R40, R361). -/
def glbFields : List (Fld × Acc) :=
  rws [fldHoldLimit, fldExch, fldSrc, fldLdgCls, fldLdgInst, fldLive, fldQuiesce, fldLinkTmo] ++ w1cs ldgInt 3

/-- HIF (R383); a write of HIF_WIN_REQ is discarded while the decoder is committed (R374). -/
def hifFields (committed : Bool) : List (Fld × Acc) :=
  (if committed then [] else rws [fldWinReq])
    ++ rws [⟨hifBase + 0x18, 0, 19, 0⟩, ⟨hifBase + 0x28, 12, 52, 0⟩, fldModUsec, fldEvtMask] ++ w1cs hifInt 6

/-- QMG (R160). -/
def qmgFields (o : Nat) : List (Fld × Acc) :=
  cmdFields qmgBase (qmgBase + 8) ++ [(fldCqtBase, Acc.rwl), (fldStallMax, Acc.rwl)] ++ w1cs qmgInt 4 ++ dataFields qmgBase 16 o

/-- VU n (R128). -/
def vuFields (n : Nat) : List (Fld × Acc) := rws ((List.range 4).flatMap (fun k => [fldHistBase n k, fldHistWidth n k]))

/-- SE n (R211). -/
def seFields (n : Nat) : List (Fld × Acc) := rws [⟨seBase n + 0x40, 0, 18, 0⟩] ++ w1cs (seBase n + 0x80) 3

/-- MEM and NMU of stack k, and SED in the window of S0 (R232, R283, R284). -/
def memFields (k : Nat) : List (Fld × Acc) :=
  rws [⟨memBase k + 0x200, 0, 12, 0⟩] ++ w1cs (memBase k + 0x80) 4 ++ w1cs (nmuBase k + 0x80) 2
    ++ (if k = 0 then rws [fldSedSel] ++ w1cs sedInt 3 else [])

/-- FTL (R233). -/
def ftlFields : List (Fld × Acc) :=
  rws [fldReplBase, fldReplN, ⟨ftlBase + 0x28, 0, 8, 0⟩, fldFtlArg 0, fldFtlArg 1] ++ w1cs (ftlBase + 0x80) 5

/-- MMU (R259). -/
def mmuFields (o : Nat) : List (Fld × Acc) :=
  cmdFields mmuBase (mmuBase + 8) ++ [(fldCtxtBase, Acc.rwl)] ++ rws [⟨mmuBase + 0x20, 0, 10, 0⟩] ++ w1cs mmuInt 4 ++ dataFields mmuBase 32 o

/-- FAB of port p (R309); EN, HALF and RESET act through their own operations. -/
def fabFields (p : Nat) : List (Fld × Acc) :=
  rws [fldDegrade p, ⟨fabBase p + 0x200, 4, 1, 0⟩, ⟨fabBase p + 0x200, 0, 4, 0⟩] ++ w1cs (fabBase p + 0x80) 8

/-- The fabric as a whole, with its route and multicast tables (R299, R301, R310). -/
def fabGFields (o : Nat) : List (Fld × Acc) :=
  if o < 0x10000 then rws [fldHops, fldW3, fldWg]
  else if o < 0x18000 then rws [fldRoute ((o - 0x10000) / 8 * 2), fldRoute ((o - 0x10000) / 8 * 2 + 1)]
  else if 0x20000 ≤ o ∧ o < 0x28000 then rws [fldMcastLo ((o - 0x20000) / 8), fldMcastHi ((o - 0x20000) / 8)]
  else []

/-- RCE n (R341), and the RCEs as a whole (R342). -/
def rceFields (n : Nat) : List (Fld × Acc) :=
  rws [⟨rceBase n + 0x40, 0, 4, 0⟩, ⟨rceBase n + 0x60, 16, 8, 0⟩, ⟨rceBase n + 0x60, 0, 16, 0⟩] ++ w1cs (rceBase n + 0x80) 6
def rceGFields : List (Fld × Acc) := cmdFields rceGBase (rceGBase + 8) ++ rws [fldGrace] ++ w1cs (rceGBase + 0x80) 1

/-- PMC (R428, R431): the access list and the flag tables of 128 words each at 0x200, 0x400 and 0x600. -/
def pmcFields (o : Nat) : List (Fld × Acc) :=
  rws [fldCsel, fldOwnerV, fldOwnerCtx, fldListBase, fldListN, fldDumpBase, fldDumpK, fldInterval, fldSampBase, fldSampK, fldSampEn, fldSampP]
    ++ w1cs pmcInt 3
    ++ (if 0x200 ≤ o ∧ o < 0x800 then rws [⟨pmcBase + o, 0, 32, 0⟩, ⟨pmcBase + o + 4, 0, 32, 0⟩] else [])

/-- RAS (R415); SWFREEZE and RO_EN act through their own operations. -/
def rasFields : List (Fld × Acc) :=
  rws [fldHold, fldFrzOnFatal, fldFrzEn, fldLogBase, fldLogN, fldCeThresh, ⟨rasBase + 0x30, 0, 8, 0⟩] ++ w1cs rasInt 5

/-- SEC (R401). -/
def secFields : List (Fld × Acc) :=
  cmdFields (secBase + 0x20) (secBase + 0x28) ++ rws [⟨secBase + 0x100, 0, 3, 0⟩] ++ w1cs secInt 5

def fldPaceSel : Fld := ⟨pwrBase + 0x20, 0, 4, 0⟩

/-- PWR (R439). -/
def pwrFields : List (Fld × Acc) := rws [fldPwrCap, fldPaceSel, ⟨pwrBase + 0x48, 0, 4, 0⟩] ++ w1cs pwrInt 5

/-- The writable fields of the block that the doubleword at d lies in; none where the block, stack or port is absent (R3, R8, R367). -/
def State.blockFields (s : State) (d : Nat) : List (Fld × Acc) :=
  if d < 0x10000 then glbFields
  else if d < 0x20000 then hifFields s.core.host.committed
  else if d < 0x100000 then qmgFields (d - qmgBase)
  else if d < 0x200000 then rws [⟨flgBase + 0x80000, 0, 4, 0⟩]
  else if d < 0x340000 then []
  else if d < 0x380000 then vuFields ((d - 0x340000) / 0x4000)
  else if d < 0x400000 then (if d < 0x3C0000 then seFields ((d - 0x380000) / 0x2000) else [])
  else if d < 0x480000 then
    let k := (d - 0x400000) / 0x10000
    if s.stackPresent k then memFields k else []
  else if d < 0x500000 then ftlFields
  else if d < 0x600000 then mmuFields (d - mmuBase)
  else if d < 0x6C0000 then
    let p := (d - 0x600000) / 0x8000
    if s.portPresent p then fabFields p else []
  else if d < 0x700000 then fabGFields (d - fabGBase)
  else if d < 0x780000 then (if d < 0x740000 then rceFields ((d - 0x700000) / 0x4000) else [])
  else if d < 0x800000 then rceGFields
  else if d < 0x900000 then pmcFields (d - pmcBase)
  else if d < 0xA00000 then rasFields
  else if d < 0xB00000 then secFields
  else pwrFields

/-- Bits of the doubleword at d that lie in no reserved field, for the tables whose words are stored whole (R8, R299, R301). -/
def lawful (d : Nat) : Nat :=
  if fabRtBase ≤ d ∧ d < fabMcBase then 0x83FFFFFF83FFFFFF
  else if fabMcBase ≤ d ∧ d < 0x700000 then 0x80001FFFFFFFFFFF
  else 2 ^ 64 - 1

/-- Is a write of a field discarded where it stands: RWL after the lock (R9), and a command register or ledger control that is busy (R160, R361)? -/
def State.fieldShut (s : State) (x : Fld × Acc) : Bool :=
  (decide (x.2 = .rwl) && s.core.boot.locked)
  || (decide (x.1 = ⟨qmgBase, 0, 8, 0⟩) && s.cmdBusy 0) || (decide (x.1 = ⟨mmuBase, 0, 8, 0⟩) && s.cmdBusy 1)
  || (decide (x.1 = ⟨rceGBase, 0, 8, 0⟩) && s.cmdBusy 2) || (decide (x.1 = ⟨secBase + 0x20, 0, 8, 0⟩) && s.cmdBusy 3)
  || (decide (x.1 = ⟨ftlBase + 0x28, 0, 8, 0⟩) && s.cmdBusy 4)
  || ((decide (x.1 = fldLive) || decide (x.1 = fldQuiesce)) && s.core.ldg.busy)

/-- x with the bits of mask m taken from v. -/
def merge (x m v : Nat) : Nat := (x - (x &&& m)) + (v &&& m)

/-- Write the bits of mask m of the doubleword at d to one field: W1C clears where a 1 is written (R9). -/
def State.writeField (s : State) (d m v : Nat) (x : Fld × Acc) : State :=
  let lo := 8 * (x.1.off - d) + x.1.lo
  let fm := bits m lo x.1.w
  let fv := bits v lo x.1.w
  if s.fieldShut x || fm = 0 then s
  else match x.2 with
    | .w1c => if fv &&& fm = 0 then s else s.setReg x.1 0
    | _ => s.setReg x.1 (merge (s.reg x.1) fm fv)

/-- The fields of the doubleword at d. -/
def State.fieldsAt (s : State) (d : Nat) : List (Fld × Acc) :=
  (s.blockFields d).filter (fun x => decide (x.1.off = d) || decide (x.1.off = d + 4))

/-! What a write sets off -/

/-- A write of GLB_FT_CTL.SRC that changes the source in use: 0 enters FREE; a FREE module begins ACQUIRING where the new source is usable; lock is
lost where the reference is not there or the fabric has no eligible parent, and kept otherwise (R30, R32, R35; log 36). `old`: the state before. -/
def State.sourceChange (s old : State) : State :=
  if s.source = old.source then s
  else
    let s := s.resource old
    match s.source with
    | 0 => s.setLock .free
    | 1 => if s.ft.refOk then s.beginAcquire else s.loseLock
    | _ => if s.ft.depth then s else s.beginAcquire

/-- GO of a command register in the low word: its command starts unless one is in progress (R160). -/
def State.cmdGo (s : State) (key m v : Nat) (go : State → Nat → State) : State :=
  if m.testBit 31 && v.testBit 31 && !s.cmdBusy key then go s (bits v 0 8) else s

/-- A stack's region register as it reads (R284). -/
def State.sedReg (s : State) (o : Nat) : Nat :=
  let x := s.sed (s.reg fldSedSel)
  match o with
  | 0x08 => x.base | 0x10 => x.size | 0x18 => x.spbase | _ => x.spsize

/-- Effects of a write in the window of stack k at offset o. -/
def State.memWrote (s : State) (k o m v : Nat) : State :=
  let low := decide (m % 2 ^ 32 ≠ 0)
  if k = 0 && (decide (o = 0xC008) || (decide (o = 0xC010) && low) || decide (o = 0xC018) || (decide (o = 0xC020) && low)) then
    s.sedConfig (o - 0xC000) (merge (s.sedReg (o - 0xC000)) m v)
  else s

/-- A write of FAB_CTL of port p: RESET, then the mode, then the enables (R286, R302, R309). -/
def State.fabWrote (s : State) (p m v : Nat) : State :=
  let rst (s : State) (h : Nat) : State := if m.testBit (8 + h) && v.testBit (8 + h) && s.portNamed (2 * p + h) then s.portReset (2 * p + h) else s
  let en (s : State) (h : Nat) : State :=
    let now := decide (s.reg (fldEn (2 * p + h)) = 1)
    if m.testBit h && now != v.testBit h then s.setEn (2 * p + h) (v.testBit h) else s
  let s := rst (rst s 0) 1
  let s := if m.testBit 4 && (decide (s.reg (fldHalf p) = 1)) != v.testBit 4 then s.setHalf p (v.testBit 4) else s
  en (en s 0) 1

/-- The selected pacing entry as PWR_PACE_FT and PWR_PACE_CAP write it (R433, R439). -/
def State.paceWrote (s : State) (o m v : Nat) : State :=
  let i := s.reg fldPaceSel
  let x := mgetD s.core.pwr.entries i {}
  if o = 0x28 then { s with core.pwr.entries := mput s.core.pwr.entries i { x with ft := merge x.ft m v } }
  else
    let w := merge (x.w + 2 ^ 31 * b2n x.armed) m v
    { s with core.pwr.entries := mput s.core.pwr.entries i { x with w := bits w 0 16, armed := w.testBit 31 } }

/-- Bytes of SEC_DATA at an offset (R401). -/
def State.secWrote (s : State) (o m v : Nat) : State :=
  { s with core.sec.data := memPutNat s.core.sec.data o 8 (merge (memNat s.core.sec.data o 8) m v) }

/-- What a write of the bits of mask m of the doubleword at d does beside its fields; `old`: the state before. -/
def State.wrote (s old : State) (d m v : Nat) : State :=
  let hit (i : Nat) : Bool := m.testBit i && v.testBit i
  if d = 0x108 then
    let s := s.sourceChange old
    if hit 31 then s.restep.afterStep s else s
  else if d = 0x110 then (s.nextsecWrite (merge s.ft.nextSec m v)).afterStep s
  else if d = 0x800 then
    let s := if hit 32 && !hit 33 then s.doSnap else s
    if hit 33 then s.doCheck else s
  else if d < 0x20000 then s
  else if d < 0x100000 then if d = qmgBase then s.cmdGo 0 m v State.qmgGo else s
  else if d < 0x180000 then s.flagWrite (65536 * s.reg ⟨flgBase + 0x80000, 0, 4, 0⟩ + (d - flgBase) / 8) (v &&& m)
  else if d < 0x340000 then s
  else if d < 0x380000 then
    let n := (d - 0x340000) / 0x4000
    let o := (d - 0x340000) % 0x4000
    if o = 0x18 then s.vuCntClr n (bits (v &&& m) 32 4)
    else if 0x40 ≤ o ∧ o < 0x60 then
      let k := (o - 0x40) / 8
      let x := (s.vu n).slot k
      s.vuSeed n k (merge (x.seedNext.getD x.rng) m v)
    else s
  else if d < 0x400000 then s
  else if d < 0x480000 then s.memWrote ((d - 0x400000) / 0x10000) ((d - 0x400000) % 0x10000) m v
  else if d < 0x500000 then if d = ftlBase + 0x28 then s.cmdGo 4 m v State.ftlGo else s
  else if d < 0x600000 then if d = mmuBase then s.cmdGo 1 m v State.mmuGo else s
  else if d < 0x6C0000 then
    let p := (d - 0x600000) / 0x8000
    if s.portPresent p && decide (d = fabBase p + 8) then s.fabWrote p m v else s
  else if d < 0x700000 then if d = fabGBase && decide (bits m 0 13 ≠ 0) then s.modidWrite (merge s.modid (bits m 0 13) (bits v 0 13)) else s
  else if d < 0x800000 then if d = rceGBase then s.cmdGo 2 m v State.rceGo else s
  else if d < 0x900000 then if d = pmcBase + 0x10 && hit 32 then s.demandGather else s
  else if d < 0xA00000 then
    if d = rasBase then
      let s := if hit 3 then s.setRoEn else s
      if hit 0 then s.swFreeze else s
    else s
  else if d < 0xB00000 then
    if d = secBase + 0x20 then s.cmdGo 3 m v State.secGo
    else if secBase + 0x1000 ≤ d ∧ d < secBase + 0x5000 then s.secWrote (d - secBase - 0x1000) m v
    else s
  else if d = pwrBase + 0x28 ∨ d = pwrBase + 0x30 then s.paceWrote (d - pwrBase) m v
  else s

/-- Does the block at an offset respond now (R363, R386, R410)? -/
def State.responds (s : State) (off : Nat) : Bool :=
  if off < 0x20000 || (decide (0xA00000 ≤ off) && decide (off < 0xB00000)) then s.glbOn
  else s.live && s.core.host.cxl && (!s.core.ras.stop || (decide (0x900000 ≤ off) && decide (off < 0xA00000)))

/-- A write of 4 or 8 bytes of BAR0, naturally aligned; any other is discarded (R7, R8). -/
def State.barWrite (s : State) (off size val : Nat) : State :=
  if !(decide (size = 4) || decide (size = 8)) || off % size ≠ 0 || !s.responds off then s
  else
    let d := off / 8 * 8
    let v := if size = 8 then val % 2 ^ 64 else val % 2 ^ 32 * 2 ^ (8 * (off - d))
    let m := (if size = 8 then 2 ^ 64 - 1 else (2 ^ 32 - 1) * 2 ^ (8 * (off - d))) &&& lawful d
    ((s.fieldsAt d).foldl (fun t x => t.writeField d m v x) s).wrote s d m v

/-- Registers whose writes can change FT: GLB_FT_CTL, GLB_FT_NEXTSEC, and SEC_CMD, whose RESET starts a new life (R37, R40, R401). -/
def timeReg (off : Nat) : Bool := decide (off / 8 * 8 = 0x108) || decide (off / 8 * 8 = 0x110) || decide (off / 8 * 8 = secBase + 0x20)

/-- REG_WRITE: a host driver's write of a BAR0 register (R7-R9). -/
def execRegWrite (off size val : Nat) (s : State) : Out :=
  if timeReg off then liftTime (fun s => s.barWrite off size val) s else liftLock (fun s => s.barWrite off size val) s

end Sys2Proof.Machine
end

