-- ==== Sys2Proof/Machine/Dispatch.lean ====
section
/-! DEFINITION. The one dispatch: each command to its meaning. -/
namespace Sys2Proof.Machine

def exec (i : Instr) (s : State) : Host.Outcome State Fault Refusal :=
  match i with
  | .regWrite off size val => Sys2Proof.Machine.execRegWrite off size val s
  | .glbFtLowRead req => Sys2Proof.Machine.execGlbFtLowRead req s
  | .restep => Sys2Proof.Machine.execRestep s
  | .nextsecWrite sec => Sys2Proof.Machine.execNextsecWrite sec s
  | .tsyncEdge => Sys2Proof.Machine.execTsyncEdge s
  | .tsyncTimeout => Sys2Proof.Machine.execTsyncTimeout s
  | .refLoss => Sys2Proof.Machine.execRefLoss s
  | .holdoverLimit => Sys2Proof.Machine.execHoldoverLimit s
  | .timeExchangeStart => Sys2Proof.Machine.execTimeExchangeStart s
  | .timeRequest port t1 frac hop st => Sys2Proof.Machine.execTimeRequest port t1 frac hop st s
  | .timeReply port t1 t2 t3 hop st => Sys2Proof.Machine.execTimeReply port t1 t2 t3 hop st s
  | .doorbellForward q => Sys2Proof.Machine.execDoorbellForward q s
  | .dbTail q size val => Sys2Proof.Machine.execDbTail q size val s
  | .dbCrhead q w => Sys2Proof.Machine.execDbCrhead q w s
  | .dbCtlResume q w => Sys2Proof.Machine.execDbCtlResume q w s
  | .dbCtlAbort q w => Sys2Proof.Machine.execDbCtlAbort q w s
  | .cqCreate => Sys2Proof.Machine.execCqCreate s
  | .cqModify => Sys2Proof.Machine.execCqModify s
  | .cqDestroy => Sys2Proof.Machine.execCqDestroy s
  | .cqRead => Sys2Proof.Machine.execCqRead s
  | .flagAlloc => Sys2Proof.Machine.execFlagAlloc s
  | .flagFree => Sys2Proof.Machine.execFlagFree s
  | .tagRange => Sys2Proof.Machine.execTagRange s
  | .errRing => Sys2Proof.Machine.execErrRing s
  | .flagHostWrite f val => Sys2Proof.Machine.execFlagHostWrite f val s
  | .instructionDispatch q => Sys2Proof.Machine.execInstructionDispatch q s
  | .setAside q => Sys2Proof.Machine.execSetAside q s
  | .setAsideWrite q => Sys2Proof.Machine.execSetAsideWrite q s
  | .queueBind q r => Sys2Proof.Machine.execQueueBind q r s
  | .queueIdleUnbind q => Sys2Proof.Machine.execQueueIdleUnbind q s
  | .nop q h => Sys2Proof.Machine.execNop q h s
  | .wait q h tmo => Sys2Proof.Machine.execWait q h tmo s
  | .sig q h => Sys2Proof.Machine.execSig q h s
  | .clr q h => Sys2Proof.Machine.execClr q h s
  | .gate q h ft => Sys2Proof.Machine.execGate q h ft s
  | .gateExpiry q => Sys2Proof.Machine.execGateExpiry q s
  | .dep r => Sys2Proof.Machine.execDep r s
  | .lbar r => Sys2Proof.Machine.execLbar r s
  | .fence q h => Sys2Proof.Machine.execFence q h s
  | .halt q h => Sys2Proof.Machine.execHalt q h s
  | .cset q h dst rel value => Sys2Proof.Machine.execCset q h dst rel value s
  | .cadd q h dst addend => Sys2Proof.Machine.execCadd q h dst addend s
  | .cmpb q h ctr rel ctr2 value offset => Sys2Proof.Machine.execCmpb q h ctr rel ctr2 value offset s
  | .end_ q h => Sys2Proof.Machine.execEnd q h s
  | .flagUpdateCycle f => Sys2Proof.Machine.execFlagUpdateCycle f s
  | .waitTimeout q seq => Sys2Proof.Machine.execWaitTimeout q seq s
  | .instructionComplete q seq => Sys2Proof.Machine.execInstructionComplete q seq s
  | .deadlineAbort q seq => Sys2Proof.Machine.execDeadlineAbort q seq s
  | .opa r => Sys2Proof.Machine.execOpa r s
  | .accld r => Sys2Proof.Machine.execAccld r s
  | .accz r => Sys2Proof.Machine.execAccz r s
  | .accdr r => Sys2Proof.Machine.execAccdr r s
  | .accpk r => Sys2Proof.Machine.execAccpk r s
  | .accup r => Sys2Proof.Machine.execAccup r s
  | .gacc r => Sys2Proof.Machine.execGacc r s
  | .opeIssueCycle n gated errs => Sys2Proof.Machine.execOpeIssueCycle n gated errs s
  | .opeCellWrite n errs => Sys2Proof.Machine.execOpeCellWrite n errs s
  | .rowPortOpStart n errs => Sys2Proof.Machine.execRowPortOpStart n errs s
  | .opeStop n p => Sys2Proof.Machine.execOpeStop n p s
  | .partModeChange n mode gang gside => Sys2Proof.Machine.execPartModeChange n mode gang gside s
  | .fenceRelease n p => Sys2Proof.Machine.execFenceRelease n p s
  | .mvx r groups struck => Sys2Proof.Machine.execMvx r groups struck s
  | .mvuStop n => Sys2Proof.Machine.execMvuStop n s
  | .vectorSlotWrite n slot => Sys2Proof.Machine.execVectorSlotWrite n slot s
  | .vop r struck => Sys2Proof.Machine.execVop r struck s
  | .qnt r struck => Sys2Proof.Machine.execQnt r struck s
  | .vred r struck => Sys2Proof.Machine.execVred r struck s
  | .vuDrainGrant r => Sys2Proof.Machine.execVuDrainGrant r s
  | .vuSeedWrite n slot seed => Sys2Proof.Machine.execVuSeedWrite n slot seed s
  | .vuCntClr n mask => Sys2Proof.Machine.execVuCntClr n mask s
  | .sarm r => Sys2Proof.Machine.execSarm r s
  | .scan r => Sys2Proof.Machine.execScan r s
  | .tcopy r => Sys2Proof.Machine.execTcopy r s
  | .push r => Sys2Proof.Machine.execPush r s
  | .pop r => Sys2Proof.Machine.execPop r s
  | .pin r => Sys2Proof.Machine.execPin r s
  | .unpin r => Sys2Proof.Machine.execUnpin r s
  | .upd r => Sys2Proof.Machine.execUpd r s
  | .streamActivate se => Sys2Proof.Machine.execStreamActivate se s
  | .seFetchIssue u side => Sys2Proof.Machine.execSeFetchIssue u side s
  | .tuLand n t struck => Sys2Proof.Machine.execTuLand n t struck s
  | .streamWritebackAck se k => Sys2Proof.Machine.execStreamWritebackAck se k s
  | .streamDeadline n => Sys2Proof.Machine.execStreamDeadline n s
  | .bopen r => Sys2Proof.Machine.execBopen r s
  | .bput r => Sys2Proof.Machine.execBput r s
  | .bclose r => Sys2Proof.Machine.execBclose r s
  | .gather r => Sys2Proof.Machine.execGather r s
  | .epoch r => Sys2Proof.Machine.execEpoch r s
  | .roundClose id epoch => Sys2Proof.Machine.execRoundClose id epoch s
  | .finalGraceExpiry id epoch => Sys2Proof.Machine.execFinalGraceExpiry id epoch s
  | .grpSet => Sys2Proof.Machine.execGrpSet s
  | .grpClr => Sys2Proof.Machine.execGrpClr s
  | .grant p => Sys2Proof.Machine.execGrant p s
  | .rdata p => Sys2Proof.Machine.execRdata p s
  | .mdata p => Sys2Proof.Machine.execMdata p s
  | .ggrant p => Sys2Proof.Machine.execGgrant p s
  | .gdata p => Sys2Proof.Machine.execGdata p s
  | .revoke p => Sys2Proof.Machine.execRevoke p s
  | .rdReq p => Sys2Proof.Machine.execRdReq p s
  | .wrReq p => Sys2Proof.Machine.execWrReq p s
  | .flagUpd f ctx op q => Sys2Proof.Machine.execFlagUpd f ctx op q s
  | .rdRsp p => Sys2Proof.Machine.execRdRsp p s
  | .wrAck p => Sys2Proof.Machine.execWrAck p s
  | .notify q => Sys2Proof.Machine.execNotify q s
  | .drop p => Sys2Proof.Machine.execDrop p s
  | .mgmt p => Sys2Proof.Machine.execMgmt p s
  | .gateNotice p => Sys2Proof.Machine.execGateNotice p s
  | .freezeStatusNotice p => Sys2Proof.Machine.execFreezeStatusNotice p s
  | .packetTransit port id => Sys2Proof.Machine.execPacketTransit port id s
  | .frameTransmit port struck => Sys2Proof.Machine.execFrameTransmit port struck s
  | .markerFrame port => Sys2Proof.Machine.execMarkerFrame port s
  | .frameReceived port f corr uncorr check => Sys2Proof.Machine.execFrameReceived port f corr uncorr check s
  | .replayTimeout port => Sys2Proof.Machine.execReplayTimeout port s
  | .retryLimit port => Sys2Proof.Machine.execRetryLimit port s
  | .trainComplete port pol fail rev => Sys2Proof.Machine.execTrainComplete port pol fail rev s
  | .lossOfSignal port lane => Sys2Proof.Machine.execLossOfSignal port lane s
  | .resync port f => Sys2Proof.Machine.execResync port f s
  | .survivorDrained port => Sys2Proof.Machine.execSurvivorDrained port s
  | .resyncDone port f => Sys2Proof.Machine.execResyncDone port f s
  | .linkTmo port => Sys2Proof.Machine.execLinkTmo port s
  | .fabCtlEn port v => Sys2Proof.Machine.execFabCtlEn port v s
  | .fabCtlReset port => Sys2Proof.Machine.execFabCtlReset port s
  | .fabCtlHalf p v => Sys2Proof.Machine.execFabCtlHalf p v s
  | .fabModidWrite id => Sys2Proof.Machine.execFabModidWrite id s
  | .d2dUnitReceived link check => Sys2Proof.Machine.execD2dUnitReceived link check s
  | .d2dLinkFailed link => Sys2Proof.Machine.execD2dLinkFailed link s
  | .poolMiss ctx va write => Sys2Proof.Machine.execPoolMiss ctx va write s
  | .poolFillDone key => Sys2Proof.Machine.execPoolFillDone key s
  | .evictorRun stack => Sys2Proof.Machine.execEvictorRun stack s
  | .writebackAck key => Sys2Proof.Machine.execWritebackAck key s
  | .writebackRefused key => Sys2Proof.Machine.execWritebackRefused key s
  | .flashReadDone tu bad => Sys2Proof.Machine.execFlashReadDone tu bad s
  | .flashWriteDone tu => Sys2Proof.Machine.execFlashWriteDone tu s
  | .ftlReadOnly => Sys2Proof.Machine.execFtlReadOnly s
  | .discard => Sys2Proof.Machine.execDiscard s
  | .recover => Sys2Proof.Machine.execRecover s
  | .tableWalk who va => Sys2Proof.Machine.execTableWalk who va s
  | .faultTimeout fid => Sys2Proof.Machine.execFaultTimeout fid s
  | .faultResolve => Sys2Proof.Machine.execFaultResolve s
  | .atsCompletion ctx addr host write ok => Sys2Proof.Machine.execAtsCompletion ctx addr host write ok s
  | .prgResponse idx pasid code => Sys2Proof.Machine.execPrgResponse idx pasid code s
  | .atsInvalidation pasid page n => Sys2Proof.Machine.execAtsInvalidation pasid page n s
  | .priDisable => Sys2Proof.Machine.execPriDisable s
  | .ctxCreate => Sys2Proof.Machine.execCtxCreate s
  | .ctxModify => Sys2Proof.Machine.execCtxModify s
  | .ctxRead => Sys2Proof.Machine.execCtxRead s
  | .ctxKill => Sys2Proof.Machine.execCtxKill s
  | .ctxDestroy => Sys2Proof.Machine.execCtxDestroy s
  | .preempt => Sys2Proof.Machine.execPreempt s
  | .resume => Sys2Proof.Machine.execResume s
  | .tlbInv => Sys2Proof.Machine.execTlbInv s
  | .fenceDump => Sys2Proof.Machine.execFenceDump s
  | .sedConfigWrite off val => Sys2Proof.Machine.execSedConfigWrite off val s
  | .fifoDupMismatch kind n => Sys2Proof.Machine.execFifoDupMismatch kind n s
  | .snap => Sys2Proof.Machine.execSnap s
  | .check => Sys2Proof.Machine.execCheck s
  | .ledgerCheckDone => Sys2Proof.Machine.execLedgerCheckDone s
  | .hostLinkDown => Sys2Proof.Machine.execHostLinkDown s
  | .hostLinkUp rate width flit256 lopt cxl cache mem => Sys2Proof.Machine.execHostLinkUp rate width flit256 lopt cxl cache mem s
  | .flr => Sys2Proof.Machine.execFlr s
  | .cxlReset => Sys2Proof.Machine.execCxlReset s
  | .msixModExpiry v => Sys2Proof.Machine.execMsixModExpiry v s
  | .hdmCommit frames => Sys2Proof.Machine.execHdmCommit frames s
  | .hostMemRead off cached excl => Sys2Proof.Machine.execHostMemRead off cached excl s
  | .hostMemWrite off data poison => Sys2Proof.Machine.execHostMemWrite off data poison s
  | .birsp line keep => Sys2Proof.Machine.execBirsp line keep s
  | .hostSnoop => Sys2Proof.Machine.execHostSnoop s
  | .ideIntegrityFailure => Sys2Proof.Machine.execIdeIntegrityFailure s
  | .ideKm => Sys2Proof.Machine.execIdeKm s
  | .doeObject proto type len payload => Sys2Proof.Machine.execDoeObject proto type len payload s
  | .identify => Sys2Proof.Machine.execIdentify s
  | .getSupportedLogs => Sys2Proof.Machine.execGetSupportedLogs s
  | .mailboxGetLog => Sys2Proof.Machine.execMailboxGetLog s
  | .getFwInfo => Sys2Proof.Machine.execGetFwInfo s
  | .transferFw off data => Sys2Proof.Machine.execTransferFw off data s
  | .activateFw => Sys2Proof.Machine.execActivateFw s
  | .getHealthInfo => Sys2Proof.Machine.execGetHealthInfo s
  | .getTimestamp => Sys2Proof.Machine.execGetTimestamp s
  | .getIdentity path => Sys2Proof.Machine.execGetIdentity path s
  | .quote path payload => Sys2Proof.Machine.execQuote path payload s
  | .getLog path payload => Sys2Proof.Machine.execGetLog path payload s
  | .cmaSpdmRequest payload => Sys2Proof.Machine.execCmaSpdmRequest payload s
  | .secGetIdentity => Sys2Proof.Machine.execSecGetIdentity s
  | .secQuote => Sys2Proof.Machine.execSecQuote s
  | .secGetLog => Sys2Proof.Machine.execSecGetLog s
  | .extend => Sys2Proof.Machine.execExtend s
  | .secReset => Sys2Proof.Machine.execSecReset s
  | .indexReserve => Sys2Proof.Machine.execIndexReserve s
  | .indexRecordWritten => Sys2Proof.Machine.execIndexRecordWritten s
  | .securityStateChange io cm => Sys2Proof.Machine.execSecurityStateChange io cm s
  | .roEn => Sys2Proof.Machine.execRoEn s
  | .pldmFirmwareUpdate op off data => Sys2Proof.Machine.execPldmFirmwareUpdate op off data s
  | .activateFirmware selfContained => Sys2Proof.Machine.execActivateFirmware selfContained s
  | .mctpControl eid => Sys2Proof.Machine.execMctpControl eid s
  | .pldmSensorRead id => Sys2Proof.Machine.execPldmSensorRead id s
  | .pldmSetEffecter w => Sys2Proof.Machine.execPldmSetEffecter w s
  | .sbPwrEnAssert early => Sys2Proof.Machine.execSbPwrEnAssert early s
  | .sbPwrEnDeassert => Sys2Proof.Machine.execSbPwrEnDeassert s
  | .hostPerstNAssert => Sys2Proof.Machine.execHostPerstNAssert s
  | .hostPerstNDeassert => Sys2Proof.Machine.execHostPerstNDeassert s
  | .railFault vmarl => Sys2Proof.Machine.execRailFault vmarl s
  | .romStageEnd => Sys2Proof.Machine.execRomStageEnd s
  | .imageVerified => Sys2Proof.Machine.execImageVerified s
  | .d2dTrained => Sys2Proof.Machine.execD2dTrained s
  | .ready frames wm cqt ctxt stall => Sys2Proof.Machine.execReady frames wm cqt ctxt stall s
  | .startupFailure code link => Sys2Proof.Machine.execStartupFailure code link s
  | .vinLow => Sys2Proof.Machine.execVinLow s
  | .vinOutOfRange gone => Sys2Proof.Machine.execVinOutOfRange gone s
  | .inputRestart => Sys2Proof.Machine.execInputRestart s
  | .paceStep p => Sys2Proof.Machine.execPaceStep p s
  | .dutyFloorTimeout => Sys2Proof.Machine.execDutyFloorTimeout s
  | .paceEntryTrigger n => Sys2Proof.Machine.execPaceEntryTrigger n s
  | .thermalSample temps vin watts rails => Sys2Proof.Machine.execThermalSample temps vin watts rails s
  | .thermalCapStep => Sys2Proof.Machine.execThermalCapStep s
  | .tripRestart => Sys2Proof.Machine.execTripRestart s
  | .hardThermal => Sys2Proof.Machine.execHardThermal s
  | .hbmScrub a corrected check => Sys2Proof.Machine.execHbmScrub a corrected check s
  | .moduleFatalError src die unit => Sys2Proof.Machine.execModuleFatalError src die unit s
  | .fatalHoldExpiry => Sys2Proof.Machine.execFatalHoldExpiry s
  | .freezeRequest => Sys2Proof.Machine.execFreezeRequest s
  | .swfreeze => Sys2Proof.Machine.execSwfreeze s
  | .glbFrzRead => Sys2Proof.Machine.execGlbFrzRead s
  | .extest val => Sys2Proof.Machine.execExtest val s
  | .samplePreload val => Sys2Proof.Machine.execSamplePreload val s
  | .idcode => Sys2Proof.Machine.execIdcode s
  | .frzStat => Sys2Proof.Machine.execFrzStat s
  | .frzSel val => Sys2Proof.Machine.execFrzSel val s
  | .frzRead n => Sys2Proof.Machine.execFrzRead n s
  | .bypass => Sys2Proof.Machine.execBypass s
  | .dumpInstant => Sys2Proof.Machine.execDumpInstant s
  | .pmcGather => Sys2Proof.Machine.execPmcGather s
  | .pmcGatherDone => Sys2Proof.Machine.execPmcGatherDone s
  | .pmcCviewRead => Sys2Proof.Machine.execPmcCviewRead s
  | .sampleCountdown q => Sys2Proof.Machine.execSampleCountdown q s
  | .timerefPresent => Sys2Proof.Machine.execTimerefPresent s
  | .cxlCacheCompletion n => Sys2Proof.Machine.execCxlCacheCompletion n s
  | .priTimeout idx => Sys2Proof.Machine.execPriTimeout idx s
  | .msixUnmask masked fmask => Sys2Proof.Machine.execMsixUnmask masked fmask s
  | .hbmTrained => Sys2Proof.Machine.execHbmTrained s
  | .pwrEnDeferredStart => Sys2Proof.Machine.execPwrEnDeferredStart s

end Sys2Proof.Machine
end

