-- ==== Sys2Proof/Machine/Account.lean ====
section
/-! DEFINITION. Accounting by the cycle: the seven classes of a binding slot, gated cycles, and the counters of cycles spent waiting
(05 R114, 13 R318, 18 R423, R424, 19 R432). -/
namespace Sys2Proof.Machine

/-- The slot of a key of the slot map; the class of an OPE partition is its engine's mode (R135). -/
def State.slotOf (s : State) (k : Nat) : SlotRef :=
  let u := k % 65536 / 16
  ⟨if k / 65536 = 0 then (s.ope u).mode else k / 65536 + 3, u, k % 16⟩

/-- Index of a slot in the PMC (R424). -/
def slotIndex (k : Nat) : Nat :=
  let u := k % 65536 / 16
  let p := k % 16
  match k / 65536 with
  | 0 => 4 * u + p
  | 1 => 256 + u
  | 2 => 264 + 4 * u + p
  | 3 => 328 + 8 * u + p
  | _ => 584 + 4 * u + p

/-- The flags that a queue waits on: its own at dispatch, and those of its markers. -/
def State.waitsOn (s : State) (q : Nat) : List Nat := (s.core.qm.waiters.filter (fun w => w.q = q)).map (·.flag)

/-- Is a flag's block set in PMC_OUTFLAG or PMC_INFLAG (R423)? -/
def State.blockIn (s : State) (base f : Nat) : Bool := (s.reg ⟨pmcBase + base + 4 * (f / 256 / 32), 0, 32, 0⟩).testBit (f / 256 % 32)

/-- Is a queue WAITING for a tag or a completion-ring slot (R139)? -/
def Queue.waitsRoom (x : Queue) : Bool :=
  decide (x.st = .waiting) && decide (x.hold = .none) && (match x.cur with | some c => c.fid.isNone && (c.waitFt.isNone || c.served) | none => false)

/-- What holds an SE slot back, as the counters of an attempt to fetch show it: room, and ordering (R196, R197, R199, R202). -/
def State.seHolds (s : State) (r : SlotRef) : Bool × Bool :=
  let b := seBase r.unit
  ((s.candidates r.unit).filter (fun c => match c with
    | .stream n => decide (slotKey (s.stream n).slot = slotKey r)
    | .slot k => decide (k = r.slot))).foldl (fun a c =>
    let t := (c.run r.unit false s).1
    let up (o : Nat) : Bool := t.counter (b + o) != s.counter (b + o)
    (a.1 || up 0x138 || up 0x140, a.2 || up 0x128 || up 0x130)) (false, false)

/-- Blocks of a bucket that are ready and wait for a grant (R318). -/
def State.awaitGrant (s : State) (b : Bucket) : Nat := if (s.grantFor b).isNone then (s.unsent b (s.bktGroup b)).length else 0

/-- Has a slot's head instruction begun or stopped its way for data that is still to arrive (R423)? -/
def State.awaitData (s : State) (r : SlotRef) : Bool :=
  s.core.rce.gathers.any (fun j => !j.fin && j.rce = r.unit && decide ((s.queue j.e.q).slot = some r))
    || (match s.head r with | some e => decide (e.op = 0x52) && s.core.rce.buckets.any (fun b => b.2.bclose = some e) | none => false)

/-- Does the QNT at a VU slot's head wait for its drain or its MVU's result (R423)? -/
def State.awaitDrain (s : State) (r : SlotRef) : Bool :=
  match s.head r with
  | none => false
  | some e =>
    if e.op ≠ 0x21 then false
    else match e.f 16 1 with
      | 0 => match s.engineOf (e.f 24 2) with
        | .ok n => !((s.vu r.unit).slot r.slot).landed.any (fun d => d.1 = n && d.2.1 = bits (e.f 24 4) 16 2)
        | .error _ => false
      | 1 => (s.mvu (bits (e.f 24 1) 0 3)).result.isNone
      | _ => false

/-- What an OPE partition's OPA meets now (R84). -/
def State.partMeets (s : State) (n p : Nat) : Meets :=
  match ((s.ope n).part p).run with
  | some x => meets (s.ope n) p x
  | none => {}

/-- Class of a bound slot in a cycle in which it made no progress, in the order of R423: 1 LOST to 6 EMPTY. -/
def State.idleClass (s : State) (k q : Nat) (gated : Bool) : Nat :=
  let r := s.slotOf k
  let x := s.queue q
  let kind := k / 65536
  let o := s.ope r.unit
  let pt := o.part r.slot
  let m := s.mvu r.unit
  let mt := if kind = 0 then s.partMeets r.unit r.slot else {}
  let fl := s.waitsOn q
  let se := if kind = 3 then s.seHolds r else (false, false)
  let lost := x.stopping || (kind = 0 && (pt.fence ≠ 0 || pt.stopAt.isSome || (o.frz && pt.run.isSome && !mt.any))) || (kind = 1 && m.stopped)
  if lost then 1
  else if gated && kind ≤ 1 then 2
  else if mt.slot || mt.drain || se.1 || x.waitsRoom || (kind = 1 && m.result.isSome)
      || (kind = 2 && s.core.mvus.any (fun e => e.2.held.any (fun h => h.2.2.1 = q)))
      || (kind = 4 && s.core.rce.buckets.any (fun b => b.2.rce = r.unit && b.2.slot = r.slot && s.awaitGrant b.2 ≠ 0))
      || fl.any (s.blockIn 0x400) then 3
  else if mt.a || mt.b || (kind = 1 && m.run.isSome) || (kind = 2 && s.awaitDrain r) || (kind = 4 && s.awaitData r) || fl.any (s.blockIn 0x600) then 4
  else if !fl.isEmpty || se.2 || (match x.hold with | .gate _ => true | _ => false)
      || (match s.head r with | some e => decide (e.op = 5) || decide (e.op = 6) | none => false) then 5
  else 6

/-- Count n cycles of a bound slot: those with progress as WORK, the rest in the class that applies (R423, R424). -/
def State.accountSlot (s : State) (k q n : Nat) (gated : Bool) : State :=
  let b := pmcBase + 0x10000 + 64 * slotIndex k
  let w := min n (mgetD s.core.pmc.work k 0)
  let s' := if w = 0 then s else s.bump b w
  if w = n then s' else s'.bump (b + 8 * s.idleClass k q gated) (n - w)

/-- An MVX in progress without a group ready, and the writes it holds (R113, R114). -/
def State.accountMvu (s : State) (i n : Nat) : State :=
  let m := s.mvu i
  match m.run with
  | some x => if m.stopped || mhas s.core.pmc.work (slotKey ⟨4, i, 0⟩) then s else (s.bump (mvuBase i + 0x108) n).heldBy x.e.q x.e.seq n
  | none => s

/-- Blocks held for a grant, by the cycle (R318). -/
def State.accountBkt (s : State) (b : Bucket) (n : Nat) : State :=
  let k := s.awaitGrant b
  if k = 0 then s else s.bump (rceBase b.rce + 0x128) (n * k)

/-- Cycles of 0.4 ns in the next nanosecond: two and three in turn (R10; log 4). -/
def State.cyclesNow (s : State) : Nat := (s.core.pmc.half + 5) / 2 - s.core.pmc.half / 2

/-- Does the duty gate the cycles that come, by their place in the run of 64 (R432; log 4)? -/
def State.gatedNow (s : State) : Bool := decide (s.core.pmc.half / 2 % 64 ≥ s.core.pwr.duty)

/-- One nanosecond's cycles for every slot and every wait that is counted by the cycle. -/
def State.account (s : State) : State :=
  let n := s.cyclesNow
  let g := s.gatedNow
  let s := (s.core.mvus.map (·.1)).foldl (fun s i => s.accountMvu i n) s
  let s := (mvals s.core.rce.buckets).foldl (fun s b => s.accountBkt b n) s
  let s := s.core.qm.slots.foldl (fun s (e : Nat × Nat) => s.accountSlot e.1 e.2 n g) s
  let s := if g then s.bump (pwrBase + 0x100) n else s
  { s with core.pmc.half := s.core.pmc.half + 5,
           core.pmc.work := (s.core.pmc.work.map (fun (e : Nat × Nat) => (e.1, e.2 - n))).filter (fun (e : Nat × Nat) => e.2 ≠ 0) }

end Sys2Proof.Machine
end

