-- ==== Sys2Proof/Machine/Tick.lean ====
section
/-! DEFINITION. What the module does by its own clock: the step on an empty queue (log 4). -/
namespace Sys2Proof.Machine

/-- What a running module does in a nanosecond beside counting FT: commands of the MMU and the RCEs that can end do, latches whose cycle has come are taken,
records that wait are tried again, the RCEs and the recoveries of flash go on with what waits, write queues are emptied into DRAM, and the cycles are accounted for (R160, R421, R423, R426). -/
def State.housekeep (s : State) : State :=
  let s := s.mmuSettle.rceSettle
  let s := s.gatherList.latchDue
  let s := (s.flushSamples s.core.pmc.sampWait).retryRecords
  let s := s.core.ses.foldl (fun s x => s.retryBacks x.1) s
  s.rceWork.landFlying.flashWork.wqDrain.account

/-- One nanosecond of the module by itself: FT counts, without the rest of a slew where the module falls to FREE (R35), while the timekeeper runs; a module whose rails are up and which nothing holds in reset goes
on to its ROM stage (R28, R32, R36, R384). -/
def State.tick (s : State) : State :=
  if s.timing then
    let t := (if s.dispatching then s.housekeep else s).noParent
    { s with ft := { t.ft with ns := s.ft.ns, frac := s.ft.frac, slew := if s.ft.lock ≠ Lock.free ∧ t.ft.lock = Lock.free then 0 else s.ft.slew }.tick, core := t.core }
  else if decide (s.core.boot.phase = .rails) && !s.core.boot.perst && !s.core.boot.trip then { s with core.boot.phase := .rom }
  else s

end Sys2Proof.Machine
end

