-- ==== Sys2Proof/Machine/RegRead.lean ====
section
/-! DEFINITION. BAR0 and BAR2 as the host driver reads them: the value of every register, and the function's identifiers and BARs (00_scope R1-R9,
15_host R365-R367, and the register tables of every chapter). The table has no row for a plain read: a value "sampled at the read" is this function of
the state. -/
namespace Sys2Proof.Machine

/-! Shared parts -/

/-- The stored fields of the block that the doubleword at d lies in, whether or not a write reaches them now. -/
def State.readFields (s : State) (d : Nat) : List Fld :=
  let l := (if glbBase + 0x10000 ≤ d ∧ d < 0x20000 then hifFields false else s.blockFields d).map (·.1)
  let p := (d - 0x600000) / 0x8000
  l ++ (if 0x600000 ≤ d ∧ d < 0x6C0000 then [fldEn (2 * p), fldEn (2 * p + 1), fldHalf p] else if d = fabGBase then [fldModid] else [])

/-- The stored fields of the doubleword at d, in their places (R8: all other bits read as 0). -/
def State.fieldWord (s : State) (d : Nat) : Nat :=
  sumNat (((s.readFields d).filter (fun x => decide (x.off = d) || decide (x.off = d + 4))).map (fun x => put (8 * (x.off - d) + x.lo) x.w (s.reg x)))

/-- Event counts of W1C bits: 16 bits each, 0x40 above their register (R155). -/
def State.eventWord (s : State) (d : Nat) : Nat :=
  if d % 0x80 < 0x40 then 0
  else
    let i := d % 0x40 / 2
    sumNat ((List.range 4).map (fun j => put (16 * j) 16 (mgetD s.core.regs.evc (8 * (d / 0x80 * 0x80) + i + j) 0)))

/-- COUNT of an event counter (R109). -/
def State.countWord (s : State) (d : Nat) : Nat := if s.counterOk d then s.counter d % 2 ^ 48 else 0

/-- Entries in the shares of a unit of a kind. -/
def State.eiqHeld (s : State) (kind u : Nat) : Nat :=
  sumNat ((s.core.qm.eiq.filter (fun e => decide (e.1 / 16 = 4096 * kind + u))).map (fun e => e.2.length))

/-- V and CQ of n slots of a unit from slot k on, as OPE_BIND lays them out (R108). -/
def State.bindWord (s : State) (kind u k n : Nat) : Nat :=
  sumNat ((List.range n).map (fun i => match mget s.core.qm.slots (65536 * kind + 16 * u + k + i) with
    | some q => put (16 * i) 16 (0x8000 + q % 0x8000)
    | none => 0))

/-- BUSY and RESULT of a command block, in the upper word of its first doubleword (R160). -/
def State.cmdWord (s : State) (key : Nat) : Nat :=
  let c := mgetD s.core.cmds key {}
  put 63 1 (b2n c.busy) + put 32 8 c.result

/-- One bit for each of n numbers that p holds of. -/
def mask (n : Nat) (p : Nat → Bool) : Nat := sumNat ((List.range n).map (fun i => put i 1 (b2n (p i))))

/-! GLB (R1, R14, R40, R361, R402, R403, R416) -/

/-- GLB_GRADE, once the fuses are loaded (R1, R384). -/
def State.gradeWord (s : State) : Nat :=
  if s.core.boot.fusesLoaded then
    put 24 8 (if s.fuse.grade = 3 then 16 else 20) + put 16 8 (if s.fuse.grade = 3 then 6 else 8) + put 8 8 s.opeCount + put 0 8 s.fuse.grade
  else 0

/-- GLB_FT_STAT (R40). -/
def State.ftStat (s : State) : Nat :=
  let f := s.ft
  put 24 4 (if f.lock = .locked then f.hop else 0xF) + put 16 6 f.parent + put 10 1 (b2n f.disjoint) + put 9 1 (b2n f.depth) + put 8 1 (b2n f.tsyncOk)
    + put 7 1 (b2n f.refOk) + f.lock.code

/-- The ledger entry that the views show, with its capacity: live, or of the latest snapshot (R361). -/
def State.ldgShown (s : State) : Nat × Ldg :=
  let c := s.reg fldLdgCls
  let i := s.reg fldLdgInst
  if !s.ldgExists c i then (0, {})
  else if s.reg fldLive = 1 then (s.ldgCap c i, mgetD s.core.ldg.live (ldgKey c i) {})
  else (mgetD s.core.ldg.snapCap (ldgKey c i) (s.ldgCap c i), mgetD s.core.ldg.snap (ldgKey c i) {})

def State.glbRead (s : State) (o : Nat) : Nat :=
  let b := s.core.boot
  match o with
  | 0x10 => s.gradeWord
  | 0x18 => if b.fusesLoaded then s.fuse.opePresent else 0
  | 0x20 => put 16 8 b.link + put 8 8 b.fail + put 0 8 b.cause + put 63 1 (b2n (decide (b.phase = .ready))) + put 32 4 b.phase.code
  | 0x28 => 2 * b2n s.core.ras.froze + b2n s.core.ras.fatal
  | 0x100 => s.ft.ns
  | 0x108 => put 32 32 s.ftStat
  | 0x110 => s.ft.nextSec
  | 0x118 => toWord 32 s.ft.offsetPs + put 56 8 s.ft.steps + put 48 8 s.ft.losses + put 32 16 s.core.unsync
  | 0x808 => put 31 1 (b2n s.core.ldg.busy) + put 24 2 s.core.ldg.kind + put 16 8 s.core.ldg.cls + put 0 16 s.core.ldg.inst_
  | 0x810 => put 32 32 s.ldgShown.1 + put 0 32 s.ldgShown.2.heldOf
  | 0x818 => s.ldgShown.2.taken
  | 0x820 => s.ldgShown.2.returned
  | 0x828 => s.ldgShown.2.reclaimed
  | _ => 0

/-! HIF (R383) -/

def State.hifRead (s : State) (o : Nat) : Nat :=
  let h := s.core.host
  match o with
  | 0x00 =>
    if !h.linkUp then 0
    else put 16 5 h.width + put 12 4 h.rate + put 6 1 (b2n h.ideCm) + put 5 1 (b2n h.ideIo) + put 4 1 (b2n h.lopt) + put 3 1 (b2n h.flit256)
      + put 2 1 (b2n h.memOn) + put 1 1 (b2n h.cacheOn) + put 0 1 (b2n h.cxl)
  | 0x10 => put 63 1 (b2n h.committed) + put 32 12 h.winSize
  | 0x20 => match h.win[s.reg ⟨hifBase + 0x18, 0, 19, 0⟩]? with
    | some a => put 63 1 1 + put 21 19 (a / 2 ^ 21)
    | none => 0
  | _ => 0

/-! FLG (R151, R162) -/

/-- The word of a flag (R151). -/
def Flag.word (w : Flag) : Nat := put 63 1 (b2n w.state) + put 47 1 (b2n w.sv) + put 32 15 w.setter + put 0 16 w.count

/-- The stack whose HBM controller is a flag's home (R151). -/
def flagHome (f : Nat) : Nat := 2 * bits f 18 2

def State.flgRead (s : State) (o : Nat) : Nat :=
  if o < 0x80000 then
    let f := 65536 * s.reg ⟨flgBase + 0x80000, 0, 4, 0⟩ + o / 8
    if (mget s.core.qm.owner (f / 256)).isSome then (s.flag f).word else 0
  else if o = 0x80008 then 4096 - s.core.qm.owner.length
  else 0

/-! Engines (R108, R127, R128) -/

/-- State of half-slot t of a partition (R108). -/
def Ope.halfSlot (o : Ope) (p t : Nat) : Nat :=
  if t ≠ 0 && (match mget (o.part p).tiles (t - 1) with | some x => !x.a32 | none => false) then 3
  else if o.pend.any (fun x => decide (x.1 = p) && decide (x.2.tile = t)) then 2
  else if o.pipe.any (fun x => decide (x.part = p) && decide (x.tile = t)) then 1
  else 0

def State.opeRead (s : State) (n o : Nat) : Nat :=
  let x := s.ope n
  let parts (p : OPart → Bool) : Nat := mask 4 (fun i => p (x.part i))
  let slots (p : Nat) : Nat := sumNat ((List.range 16).map (fun t => put (2 * t) 2 (x.halfSlot p t)))
  match o with
  | 0x00 => put 8 6 n + put 4 2 (s.opeQuarter n) + put 0 4 ((s.opePhys n).getD 0)
  | 0x08 => put 8 4 x.gang + put 4 1 (b2n x.gside) + put 0 2 x.mode
  | 0x10 => s.bindWord 0 n 0 4
  | 0x18 => put 16 7 (s.eiqHeld 0 n) + put 12 4 (parts (fun p => decide (p.fence ≠ 0))) + put 8 4 (parts (fun p => p.run.isSome)) + put 4 1 (b2n x.frz)
      + put 3 1 (b2n x.causeDrain) + put 2 1 (b2n x.causeSlot) + put 1 1 (b2n x.causeB) + put 0 1 (b2n x.causeA)
  | 0x20 => sumNat ((List.range 4).map (fun p => put (8 * p) 8 (x.part p).fence))
  | 0x28 => put 16 13 (s.linesHeld n).length + put 0 10 (sumNat (x.drains.map (·.units))) + put 32 5 ((x.pipe.map (·.age)).eraseDups.length)
  | 0x40 => slots 0 + put 32 32 (slots 1)
  | 0x48 => slots 2 + put 32 32 (slots 3)
  | _ => 0

def State.mvuRead (s : State) (n o : Nat) : Nat :=
  let m := s.mvu n
  match o with
  | 0x00 => put 4 2 (n / 2) + put 0 3 n
  | 0x08 => s.bindWord 1 n 0 1
  | 0x10 => put 16 7 (s.eiqHeld 1 n) + put 8 8 (mask 8 (fun k => mhas m.vecs k)) + put 2 1 (b2n m.stopped)
      + put 1 1 (b2n (m.run.isSome && !m.stopped && !mhas s.core.pmc.work (slotKey ⟨4, n, 0⟩))) + put 0 1 (b2n (m.run.isSome || m.result.isSome))
  | 0x18 => put 0 19 (sumNat (m.vecs.map (fun v => v.2.bytes.length)))
  | _ => 0

/-- Has a slot of a VU an instruction in progress: begun at the head, or out of the share and not finished (R113, R117, R128)? -/
def State.vuBusy (s : State) (n k : Nat) : Bool :=
  let r : SlotRef := ⟨5, n, k⟩
  ((s.vu n).slot k).run.isSome || s.qntOn n k || (match mget s.core.qm.slots (slotKey r) with
    | some q => (s.queue q).fl.any (fun i => i.unit = slotCode r && !i.done && !(mgetD s.core.qm.eiq (slotKey r) []).any (fun e => e.seq = i.seq))
    | none => false)

def State.vuRegRead (s : State) (n o : Nat) : Nat :=
  let v := s.vu n
  if 0x40 ≤ o ∧ o < 0x60 then (v.slot ((o - 0x40) / 8)).rng
  else match o with
  | 0x00 => put 4 2 (n / 4) + put 0 4 n
  | 0x08 => s.bindWord 2 n 0 4
  | 0x18 => put 16 7 (s.eiqHeld 2 n) + put 8 6 (s.vuScratch n) + put 4 4 (mask 4 (fun k => !(v.slot k).landed.isEmpty))
      + put 0 4 (mask 4 (fun k => s.vuBusy n k))
  | _ => 0

/-! SE (R190, R211) -/

/-- State code of a stream: HELD where it is active and its next entry waits for a DEP or its slot has an LBAR (R190, R196, R202). -/
def State.streamCode (s : State) (n : Nat) : Nat :=
  let st := s.stream n
  let behind : Bool := match st.ent.or ((s.reachEntry n).stream n).ent with
    | some d => decide (((s.queue st.cur.q).dep + 65536 - st.cur.darm) % 65536 < bits d 128 16)
    | none => false
  if st.st = 2 && (s.lbarPending st.slot || (decide (st.entry < st.cur.nent) && behind)) then 3 else st.st

/-- The context in whose range a stream lies; 0: none (R235). -/
def State.streamOwner (s : State) (n : Nat) : Nat :=
  ((s.core.mmu.ctxs.find? (fun c => decide (c.2.st ≠ .free) && decide (c.2.streams.1 ≤ n) && decide (n < c.2.streams.2))).map (·.1)).getD 0

/-- A wait at the head of a slot that has not been satisfied. -/
def State.waitsAt (s : State) (e : Entry) : Bool := decide (refMode (iWait e.raw) ≠ 0) && !s.core.qm.marks.contains (e.q, e.seq)

/-- The view registers of stream n at SE u; a stream held by another SE shows STATE and OWNER alone (R211). -/
def State.streamView (s : State) (u n o : Nat) : Nat :=
  let st := s.stream n
  let x := s.se u
  let here := decide (st.slot.unit = u) || !([1, 2, 5, 7].contains st.st)
  let infl (g : Nat) : Nat := sat 255 (x.tusOf n (fun f => f.gen = g))
  match o with
  | 0 => put 40 12 (if st.st = 0 then s.streamOwner n else st.ctx) + put 0 4 (s.streamCode n)
      + (if here then put 32 8 st.cur.gen + put 24 8 (match st.old with | some a => infl a.gen | none => 0) + put 16 8 (infl st.cur.gen) else 0)
  | 1 => if here then put 48 16 st.entry + put 24 24 st.tu + put 0 16 st.cur.darm else 0
  | _ => if here then put 32 32 st.cur.late + put 0 32 st.cur.poisoned else 0

def State.seRead (s : State) (u o : Nat) : Nat :=
  let x := s.se u
  let mine (p : Nat → Bool) : Nat := (s.core.streams.filter (fun e => decide (e.2.slot.unit = u) && p e.2.st)).length
  let dep (k : Nat) : Bool := match s.head ⟨6, u, k⟩ with | some e => decide (e.op = 5) && s.waitsAt e | none => false
  let sel := s.reg ⟨seBase u + 0x40, 0, 18, 0⟩
  match o with
  | 0x00 => put 6 2 (u / 8) + put 0 5 u
  | 0x08 => s.bindWord 3 u 0 4
  | 0x10 => s.bindWord 3 u 4 4
  | 0x18 => put 16 7 (s.eiqHeld 3 u) + put 8 8 (mask 8 (fun k => s.lbarPending ⟨6, u, k⟩)) + put 0 8 (mask 8 dep)
      + put 48 9 x.inflight + put 40 7 x.sbuf
  | 0x20 => put 16 10 (sat 1023 (mine (· = 1))) + put 0 10 (mine (fun st => [2, 5, 7].contains st))
  | 0x48 => s.streamView u sel 0
  | 0x50 => s.streamView u sel 1
  | 0x58 => s.streamView u sel 2
  | _ => 0

/-! MEM, NMU, SED and FTL (R232, R233, R283, R284) -/

def State.memRead (s : State) (k o : Nat) : Nat :=
  let f := mgetD s.core.mem.frames k (0, 0, 0)
  let w := mgetD s.core.mem.wm k (0, 0)
  let tus (p : PoolTu → Bool) : Nat := mcount s.core.mem.pool (fun t => decide (t.stack = k) && t.resident && p t)
  let c := s.reg ⟨memBase k + 0x200, 0, 12, 0⟩
  match o with
  | 0x00 => put 6 2 (k / 2) + put 0 3 k
  | 0x08 => put 16 16 f.1 + put 0 16 framesPerStack + put 48 16 f.2.2 + put 32 16 f.2.1
  | 0x10 => put 32 24 (tus (fun t => decide (t.pin ≠ 0) || t.poisonPin || t.imagePin)) + put 0 24 (s.poolFree k)
  | 0x18 => put 32 24 (tus (·.dirty)) + put 0 24 (tus (fun _ => true))
  | 0x20 => put 32 24 w.2 + put 0 24 w.1
  | 0x28 => put 0 5 (s.reg (fldAgeShift k))
  | 0x208 => put 32 24 (mcount s.core.mem.pool (fun t => decide (t.stack = k) && decide (t.owner = c) && decide (t.pin ≠ 0)))
      + put 0 24 (tus (fun t => decide (t.owner = c)))
  | _ => 0

/-- Blocks of an UPD in progress that the NMU of stack k is still to update (R276). -/
def State.nmuLeft (s : State) (k : Nat) (u : UpdRun) : Nat :=
  ((List.range u.e.updBlks).filter (fun b => decide (u.b ≤ b) && decide (s.stackOf u.e.ctx (u.e.paddr + 64 * b) = some k))).length

/-- GACC images of which some cells are merged and the next one lies on stack k (R246, R283). -/
def State.nmuMerging (s : State) (k : Nat) : Bool :=
  s.core.opes.any (fun o => (o.2.drains ++ o.2.back.map (·.1)).any (fun d =>
    d.e.op = 0x41 && decide (d.done ≠ 0) && decide (s.stackOf d.e.ctx (destAddr d.e.dest + 8 * d.done) = some k)))

/-- NMU_STAT of stack k (R283). -/
def State.nmuRead (s : State) (k o : Nat) : Nat :=
  if o ≠ 0x8000 then 0
  else
    let n := sumNat (s.core.ses.flatMap (fun x => x.2.upds.map (s.nmuLeft k)))
    put 31 1 (b2n (decide (n ≠ 0) || s.nmuMerging k)) + put 0 24 (sat (2 ^ 24 - 1) n)

def State.sedRead (s : State) (o : Nat) : Nat :=
  let x := s.sed (s.reg fldSedSel)
  match o with
  | 0x28 => put 32 32 x.reserved + put 0 32 (x.used 0).length
  | 0x30 => put 0 32 (x.used 1).length + put 32 17 (x.mbs.filter (fun m => decide (m.2.resv ≠ 0) || !m.2.held.isEmpty)).length
  | 0x08 | 0x10 | 0x18 | 0x20 => s.sedReg o
  | _ => 0

def State.ftlRead (s : State) (o : Nat) : Nat :=
  let m := s.core.mem
  let w := m.wear
  match o with
  | 0x00 => s.flashTus
  | 0x08 => put 2 1 (b2n (!m.recovering.isEmpty)) + put 0 1 (b2n m.flashRo) + put 40 8 (sat 100 (Config.flashSpare w)) + put 32 8 (sat 255 (Config.flashUsed w))
  | 0x10 => sat (2 ^ 24 - 1) m.marked.length
  | 0x28 => s.cmdWord 4
  | 0x40 => m.unrecLast
  | _ => 0

/-! QMG, MMU, RCE and the fabric (R160, R259, R309, R310, R341, R342) -/

def State.mmuRead (s : State) (o : Nat) : Nat :=
  let f := mget s.core.mmu.faults (s.reg ⟨mmuBase + 0x20, 0, 10, 0⟩)
  match o with
  | 0x00 => s.cmdWord 1
  | 0x28 => match f with | some f => put 63 1 1 + put 60 3 f.cause + put 0 56 f.addr | none => 0
  | 0x30 => match f with
    | some f => put 48 12 f.ctx + put 32 16 (sat 65535 f.joined) + put 0 32 (sat (2 ^ 32 - 1) ((s.now - f.ft) / 64))
    | none => 0
  | 0x38 => s.core.mmu.faults.length
  | _ => 0

/-- FAB_PARTNERh, in RESYNC and ACTIVE (R309). -/
def State.partnerWord (s : State) (i : Nat) : Nat :=
  let p := s.port i
  match p.partner with
  | some h => if p.st = .resync || p.st = .active then put 24 8 h.incarn + put 16 6 h.port + put 13 2 h.grade + put 0 13 h.modid else 0
  | none => 0

def State.fabRead (s : State) (p o : Nat) : Nat :=
  let a := s.port (2 * p)
  let b := s.port (2 * p + 1)
  let i := 2 * p + s.reg ⟨fabBase p + 0x200, 4, 1, 0⟩
  let v := s.reg ⟨fabBase p + 0x200, 0, 4, 0⟩
  match o with
  | 0x00 => put 12 4 (p / 4) + put 8 2 (p / 5) + put 0 5 p
  | 0x10 => put 24 4 b.width + put 16 4 b.st.code + put 8 4 a.width + put 0 4 a.st.code
  | 0x18 => s.partnerWord (2 * p) + put 32 32 (s.partnerWord (2 * p + 1))
  | 0x20 =>
    if s.halfMode (2 * p) then put 16 8 (a.pol ||| b.pol) + put 8 8 (a.fail ||| b.fail) + put 0 1 (b2n (a.rev || b.rev))
    else put 16 8 a.pol + put 8 8 a.fail + put 0 1 (b2n a.rev)
  | 0x208 => put 32 16 (mgetD (s.port i).limit v 0) + put 16 16 (sat 65535 ((s.port i).outst v)) + put 0 16 (mgetD (s.port i).rxUsed v 0)
  | _ => 0

def State.rceRead (s : State) (n o : Nat) : Nat :=
  let gc := s.reg ⟨rceBase n + 0x40, 0, 4, 0⟩
  let key := 256 * s.reg ⟨rceBase n + 0x60, 0, 16, 0⟩ + s.reg ⟨rceBase n + 0x60, 16, 8, 0⟩
  let b := (mget s.core.rce.buckets key).filter (fun b => b.rce = n)
  let g := if gc < 12 then s.group n gc else none
  match o with
  | 0x00 => put 4 2 (n / 4) + put 0 4 n
  | 0x08 => s.bindWord 4 n 0 4
  | 0x18 => put 24 8 (s.rceSlots n) + put 16 7 (s.eiqHeld 4 n) + put 0 13 (mcount s.core.rce.buckets (fun b => b.rce = n))
  | 0x48 => match g with | some g => put 63 1 1 + put 48 12 g.ctx + put 32 14 g.m + put 16 13 g.rank + put 0 16 g.seq | none => 0
  | 0x50 => match g with | some g => put 16 16 g.succ + put 0 16 g.pred | none => 0
  | 0x68 => match b with
    | some b => put 61 3 (match b.st with | .open_ => 1 | .closing => 2 | .held => 3 | .carry => 4) + put 60 1 (b2n (s.grantFor b = some false)) + put 58 2 b.op
        + put 56 2 b.late + put 52 4 b.gc + put 44 8 b.round + put 32 12 b.ctx + put 0 32 b.nblk
    | none => 0
  | 0x70 => match b with | some b => b.close | none => 0
  | _ => 0

/-! PMC, RAS, SEC and PWR (R401, R415, R428, R439) -/

/-- RAS_RVIEW: a doubleword of the kept record that RAS_RSEL names (R409, R415). -/
def State.rasView (s : State) (o : Nat) : Nat := numAt (s.core.ras.kept.getD (s.reg ⟨rasBase + 0x30, 0, 8, 0⟩) []) o 8

def State.rasRead (s : State) (o : Nat) : Nat :=
  let r := s.core.ras
  if 0x40 ≤ o ∧ o < 0x80 then s.rasView (o - 0x40)
  else match o with
  | 0x00 => put 3 1 (b2n s.core.sec.roEn)
  | 0x10 => put 0 17 r.idx
  | 0x20 => put 31 1 (b2n r.v) + put 30 1 (b2n r.more) + put 16 3 r.die + put 8 8 r.unit + put 0 8 r.src
  | 0x28 => r.fatalFt
  | _ => 0

def State.secRead (s : State) (o : Nat) : Nat :=
  let c := s.core.sec
  if 0x140 ≤ o ∧ o < 0x180 then numAt (s.meas (s.reg ⟨secBase + 0x100, 0, 3, 0⟩)) (o - 0x140) 8
  else if 0x1000 ≤ o ∧ o < 0x5000 then memNat c.data (o - 0x1000) 8
  else match o with
  | 0x00 => put 24 8 c.svnFuse + put 16 8 c.imgSvn + put 7 1 (b2n s.fuse.krev1) + put 6 1 (b2n s.fuse.krev0) + put 5 1 c.imgKey
      + put 2 1 (b2n (decide (c.path ≠ 0))) + put 1 1 (b2n (decide (s.core.boot.phase = .recovery))) + put 0 1 (b2n s.core.boot.locked)
  | 0x08 => put 0 40 c.next
  | 0x10 => put 0 40 c.blkEnd
  | 0x20 => s.cmdWord 3
  | _ => 0

def State.pwrRead (s : State) (o : Nat) : Nat :=
  let p := s.core.pwr
  let e := mgetD p.entries (s.reg fldPaceSel) {}
  let t := mgetD p.sensors (s.reg ⟨pwrBase + 0x48, 0, 4, 0⟩) {}
  match o with
  | 0x00 => put 16 7 p.duty + put 4 3 (p.sensors.foldl (fun m x => max m (min 2 x.2.level)) 0) + put 3 1 (b2n s.alert) + put 2 1 (b2n (decide (p.duty < 64)))
      + put 1 1 (b2n p.vinLow) + put 32 16 s.pwrLimit
  | 0x08 => put 32 16 p.oob
  | 0x10 => put 16 3 s.effCap.2 + put 0 16 s.effCap.1
  | 0x28 => e.ft
  | 0x30 => put 31 1 (b2n e.armed) + put 0 16 e.w
  | 0x40 => put 16 16 p.vin + put 0 16 p.watts
  | 0x48 => put 48 16 (toWord 16 t.max) + put 32 16 (toWord 16 t.t)
  | _ => 0

/-! The whole of BAR0 (R3, R7-R9, R363, R367, R386) -/

/-- Is the doubleword at d in the window of a unit that is present (R3, R108)? -/
def State.windowOn (s : State) (d : Nat) : Bool :=
  if opeBase 0 ≤ d ∧ d < mvuBase 0 then decide ((d - opeBase 0) / 0x4000 < s.opeCount)
  else if memBase 0 ≤ d ∧ d < ftlBase then s.stackPresent ((d - memBase 0) / 0x10000)
  else if fabBase 0 ≤ d ∧ d < fabGBase then s.portPresent ((d - fabBase 0) / 0x8000)
  else true

/-- What is no stored field, event count or counter of the doubleword at d. -/
def State.shownWord (s : State) (d : Nat) : Nat :=
  if d < 0x10000 then s.glbRead d
  else if d < qmgBase then s.hifRead (d - hifBase)
  else if d < flgBase then (if d = qmgBase then s.cmdWord 0 else 0)
  else if d < opeBase 0 then s.flgRead (d - flgBase)
  else if d < mvuBase 0 then s.opeRead ((d - opeBase 0) / 0x4000) (d % 0x4000)
  else if d < vuBase 0 then (if d < mvuBase 8 then s.mvuRead ((d - mvuBase 0) / 0x4000) (d % 0x4000) else 0)
  else if d < seBase 0 then s.vuRegRead ((d - vuBase 0) / 0x4000) (d % 0x4000)
  else if d < memBase 0 then (if d < seBase 32 then s.seRead ((d - seBase 0) / 0x2000) (d % 0x2000) else 0)
  else if d < ftlBase then
    let o := d % 0x10000
    if o < 0x8000 then s.memRead ((d - memBase 0) / 0x10000) o
    else if o < 0xC000 then s.nmuRead ((d - memBase 0) / 0x10000) o
    else if d < memBase 1 then s.sedRead (o - 0xC000) else 0
  else if d < mmuBase then s.ftlRead (d - ftlBase)
  else if d < fabBase 0 then s.mmuRead (d - mmuBase)
  else if d < fabGBase then s.fabRead ((d - fabBase 0) / 0x8000) (d % 0x8000)
  else if d < rceBase 0 then
    (if d = fabGBase + 8 then put 32 8 (Config.freeNat s.core.fab.draw % 255 + 1) else 0)
  else if d < rceGBase then (if d < rceBase 16 then s.rceRead ((d - rceBase 0) / 0x4000) (d % 0x4000) else 0)
  else if d < pmcBase then
    (if d = rceGBase then s.cmdWord 2 else if d = rceGBase + 0x18 then put 32 13 s.core.rce.buckets.length else 0)
  else if d < rasBase then (if d = pmcBase + 8 then (let id := s.reg fldCsel; if s.idOk id then s.counter (8 * id) else 0) else 0)
  else if d < secBase then s.rasRead (d - rasBase)
  else if d < pwrBase then s.secRead (d - secBase)
  else s.pwrRead (d - pwrBase)

/-- The doubleword at d of BAR0: the stored fields, the event counts, the counters and what is shown; absent windows read as 0 (R3, R8). -/
def State.regWord (s : State) (d : Nat) : Nat :=
  if s.windowOn d then s.fieldWord d + s.eventWord d + s.countWord d + s.shownWord d else 0

/-- What the host driver's read of BAR0 returns: none where it completes as an unsupported request (R7), 0 in a block that does not respond
(R363, R386). A 32-bit read of the upper half of GLB_FT returns what the read of the lower half latched (R29); a further read of it without a read of
the lower half between returns the same half again, since a read as such leaves the latch: DESIGN CHOICE, log 99. -/
def State.barRead (s : State) (off size : Nat) : Option Nat :=
  if !(decide (size = 4) || decide (size = 8)) || off % size ≠ 0 then none
  else if !s.responds off then some 0
  else if off = 0x104 && size = 4 then some (s.ftHighRead 0).1
  else
    let w := s.regWord (off / 8 * 8)
    some (if size = 8 then w % 2 ^ 64 else bits w (8 * (off % 8)) 32)

/-! Doorbell pages (R159) -/

/-- State code of a queue (R134). -/
def QState.code : QState → Nat
  | .disabled => 0 | .idle => 1 | .ready => 2 | .bound => 3 | .waiting => 4 | .halted => 5 | .error => 6 | .preempted => 7

/-- A doubleword of the doorbell page of queue q; DB_TAIL, DB_CRHEAD and DB_CTL read as 0 (R9, R159). -/
def State.pageWord (s : State) (q o : Nat) : Nat :=
  let x := s.queue q
  match o with
  | 0x08 => put 0 16 x.head + put 32 16 x.fetch
  | 0x10 => put 8 1 (b2n x.aside.isSome) + put 0 4 x.st.code + put 32 17 x.crTail
  | _ => 0

/-- What a read of a doorbell page returns: none where it completes as an unsupported request (R7). -/
def State.pageRead (s : State) (q o size : Nat) : Option Nat :=
  if !(decide (size = 4) || decide (size = 8)) || o % size ≠ 0 then none
  else
    let w := s.pageWord q (o / 8 * 8)
    some (if size = 8 then w else bits w (8 * (o % 8)) 32)

/-! The function (R365, R366) -/

/-- The identifiers that function 0 presents. -/
structure Identity where
  vendor : Nat
  device : Nat
  class_ : Nat
  /-- BAR into which the Register Locator DVSEC points. -/
  locator : Nat
  /-- The device type of its CXL DVSECs. -/
  kind : Nat
  deriving DecidableEq, Repr

/-- The function's identifiers; the Device ID follows the grade (R365). -/
def State.identity (s : State) : Identity :=
  { vendor := 0x1F3B, device := if s.fuse.grade = 3 then 0x0328 else if s.fuse.grade = 2 then 0x0336 else 0x0340, class_ := 0x120000, locator := 4, kind := 2 }

/-- Sizes of the BARs in bytes; all are 64-bit and non-prefetchable (R366). -/
def barSize (b : Nat) : Nat :=
  match b with
  | 0 => 0x4000000 | 2 => 0x8000000 | 4 => 0x40000 | _ => 0

/-- The parts of BAR4: component registers, device registers with the primary mailbox, MSI-X table and PBA; the rest is reserved (R366). -/
inductive Bar4 where
  | component | device | msixTable | msixPba | reserved
  deriving DecidableEq, Repr

/-- The part of BAR4 that an offset lies in (R366). -/
def bar4Part (o : Nat) : Bar4 :=
  if o < 0x10000 then .component
  else if o < 0x20000 then .device
  else if o < 0x28000 then .msixTable
  else if o < 0x28100 then .msixPba
  else .reserved

/-- An entry of the MSI-X PBA: the pending bits of vectors 64 i to 64 i + 63 (R366, R373). -/
def State.pbaWord (s : State) (i : Nat) : Nat := mask 64 (fun k => smem (64 * i + k) s.core.irq.pba)

end Sys2Proof.Machine
end

