-- ==== Sys2Proof/WellFormed.lean ====
section
/-! DEFINITION. Well-formed commands: operands within the ranges that the spec gives them. -/
namespace Sys2Proof

/-- A binding slot of one of the classes: unit and slot within its numbers (06_programs R135). -/
def slotOk (cls : List Nat) (r : SlotRef) : Bool :=
  cls.contains r.cls && decide (r.unit < [64, 64, 64, 64, 8, 16, 32, 16].getD r.cls 0) && decide (r.slot < [1, 2, 2, 4, 1, 4, 8, 4].getD r.cls 0)

/-- A packet's fields fit the link header, and its length is that of its data (12_mladben R290). -/
def packetOk (p : Packet) : Bool :=
  decide (p.type < 256) && decide (p.vc < 16) && decide (p.dest < 65536) && decide (p.src < 65536) && decide (p.hops < 256)
    && decide (64 * p.len = 64 + p.data.length) && decide (p.hdr < 2 ^ 384)

/-- A frame's control area fits its fields (R288). -/
def frameOk (f : Frame) : Bool :=
  decide (f.ctype < 256) && decide (f.nakcnt < 256) && decide (f.crc < 2 ^ 32) && decide (f.seq < 2 ^ 32) && decide (f.ack < 2 ^ 32) && decide (f.units.length ≤ 76) && f.units.all (fun u => packetOk u.pkt)

/-- An engine's error lies in its memories: lines (R81), cells and tiles (R87), images of at most 288 KiB in the drain buffer (R93, R97). -/
def opeErrOk (x : OpeErr) : Bool :=
  match x with
  | .corrected src => [3, 4, 6].contains src
  | .line l => decide (l < 4096)
  | .cell p t k => decide (p < 4) && decide (t < 16) && decide (k < 16384)
  | .control p => decide (p < 4)
  | .staging k => decide (k < 273)
  | .park k => decide (k < 17424)
  | .drain _ w => decide (w < 273)

/-- Header operands of a control instruction fit their fields (07_tile R163). -/
def hdrOk (h : Hdr) : Bool :=
  decide (h.mod < 256) && decide (h.tag < 65536) && decide (h.wait < 2 ^ 32) && decide (h.sig < 2 ^ 32) && decide (h.dl < 2 ^ 32) && decide (h.ixc < 2 ^ 64)

/-- A write of a doorbell register: of 1 to 64 bytes. -/
def dbWriteOk (w : DbWrite) : Bool := decide (w.val < 2 ^ 64) && decide (0 < w.size) && decide (w.size ≤ 64)

/-- A register access of 4 or 8 bytes, naturally aligned (00_scope R7). -/
def sizeOk (off size : Nat) : Bool := (decide (size = 4) || decide (size = 8)) && decide (off % size = 0)

/-- Are a command's operands within their ranges? One check for each command. -/
def WellFormed (i : Instr) : Bool :=
  match i with
  | .regWrite off size val => decide (val < 2 ^ 64) && sizeOk off size && decide (off < 0x1000000)
  | .glbFtLowRead _ => true
  | .restep => true
  | .nextsecWrite sec => decide (sec < 2 ^ 64)
  | .tsyncEdge => true
  | .tsyncTimeout => true
  | .refLoss => true
  | .holdoverLimit => true
  | .timeExchangeStart => true
  | .timeRequest port t1 frac hop st => decide (port < 40) && decide (t1 < 2 ^ 64) && decide (frac < 65536) && decide (hop < 256) && decide (st < 256)
  | .timeReply port t1 t2 t3 hop st => decide (port < 40) && decide (t1 < 2 ^ 80) && decide (t2 < 2 ^ 80) && decide (t3 < 2 ^ 80) && decide (hop < 256) && decide (st < 256)
  | .doorbellForward q => decide (q < 32768)
  | .dbTail q size val => decide (q < 32768) && decide (val < 2 ^ 64) && decide (0 < size) && decide (size ≤ 64)
  | .dbCrhead q w => decide (q < 32768) && dbWriteOk w
  | .dbCtlResume q w => decide (q < 32768) && dbWriteOk w
  | .dbCtlAbort q w => decide (q < 32768) && dbWriteOk w
  | .cqCreate => true
  | .cqModify => true
  | .cqDestroy => true
  | .cqRead => true
  | .flagAlloc => true
  | .flagFree => true
  | .tagRange => true
  | .errRing => true
  | .flagHostWrite f val => decide (f < 2 ^ 20) && decide (val < 2 ^ 64)
  | .instructionDispatch q => decide (q < 32768)
  | .setAside q => decide (q < 32768)
  | .setAsideWrite q => decide (q < 32768)
  | .queueBind q r => decide (q < 32768) && slotOk [0, 1, 2, 3, 4, 5, 6, 7] r
  | .queueIdleUnbind q => decide (q < 32768)
  | .nop q h => decide (q < 32768) && hdrOk h
  | .wait q h tmo => decide (q < 32768) && hdrOk h && decide (tmo < 2 ^ 32)
  | .sig q h => decide (q < 32768) && hdrOk h
  | .clr q h => decide (q < 32768) && hdrOk h
  | .gate q h ft => decide (q < 32768) && hdrOk h && decide (ft < 2 ^ 64)
  | .gateExpiry q => decide (q < 32768)
  | .dep r => slotOk [0, 1, 2, 3, 4, 5, 6, 7] r
  | .lbar r => slotOk [0, 1, 2, 3, 4, 5, 6, 7] r
  | .fence q h => decide (q < 32768) && hdrOk h
  | .halt q h => decide (q < 32768) && hdrOk h
  | .cset q h dst rel value => decide (q < 32768) && hdrOk h && decide (dst < 256) && decide (rel < 256) && decide (value < 2 ^ 32)
  | .cadd q h dst addend => decide (q < 32768) && hdrOk h && decide (dst < 256) && decide (addend < 2 ^ 32)
  | .cmpb q h ctr rel ctr2 value offset => decide (q < 32768) && hdrOk h && decide (ctr < 256) && decide (rel < 256) && decide (ctr2 < 256) && decide (value < 2 ^ 32) && decide (offset < 2 ^ 32)
  | .end_ q h => decide (q < 32768) && hdrOk h
  | .flagUpdateCycle f => decide (f < 2 ^ 20)
  | .waitTimeout q _ => decide (q < 32768)
  | .instructionComplete q _ => decide (q < 32768)
  | .deadlineAbort q _ => decide (q < 32768)
  | .opa r => slotOk [0, 1, 2, 3] r
  | .accld r => slotOk [0, 1, 2, 3] r
  | .accz r => slotOk [0, 1, 2, 3] r
  | .accdr r => slotOk [0, 1, 2, 3] r
  | .accpk r => slotOk [0, 1, 2, 3] r
  | .accup r => slotOk [0, 1, 2, 3] r
  | .gacc r => slotOk [0, 1, 2, 3] r
  | .opeIssueCycle n _ errs => decide (n < 64) && errs.all opeErrOk
  | .opeCellWrite n errs => decide (n < 64) && errs.all opeErrOk
  | .rowPortOpStart n errs => decide (n < 64) && errs.all opeErrOk
  | .opeStop n p => decide (n < 64) && decide (p < 4)
  | .partModeChange n mode gang _ => decide (n < 64) && decide (mode < 4) && decide (gang < 16)
  | .fenceRelease n p => decide (n < 64) && decide (p < 4)
  | .mvx r _ struck => slotOk [4] r && struck.all (fun k => decide (k < 16384))
  | .mvuStop n => decide (n < 8)
  | .vectorSlotWrite n slot => decide (n < 8) && decide (slot < 8)
  | .vop r struck => slotOk [5] r && struck.all (fun k => decide (k < 2 ^ 24))
  | .qnt r struck => slotOk [5] r && struck.all (fun k => decide (k < 2 ^ 24))
  | .vred r struck => slotOk [5] r && struck.all (fun k => decide (k < 2 ^ 24))
  | .vuDrainGrant r => slotOk [5] r
  | .vuSeedWrite n slot seed => decide (n < 16) && decide (slot < 4) && decide (seed < 2 ^ 64)
  | .vuCntClr n mask => decide (n < 16) && decide (mask < 16)
  | .sarm r => slotOk [6] r
  | .scan r => slotOk [6] r
  | .tcopy r => slotOk [6] r
  | .push r => slotOk [6] r
  | .pop r => slotOk [6] r
  | .pin r => slotOk [6] r
  | .unpin r => slotOk [6] r
  | .upd r => slotOk [6] r
  | .streamActivate se => decide (se < 32)
  | .seFetchIssue u _ => decide (u < 32)
  | .tuLand n t struck => decide (n < 32) && decide (t < 256) && struck.all (fun k => decide (k < 2))
  | .streamWritebackAck se _ => decide (se < 32)
  | .streamDeadline n => decide (n < 262144)
  | .bopen r => slotOk [7] r
  | .bput r => slotOk [7] r
  | .bclose r => slotOk [7] r
  | .gather r => slotOk [7] r
  | .epoch r => slotOk [7] r
  | .roundClose id epoch => decide (id < 65536) && decide (epoch < 256)
  | .finalGraceExpiry id epoch => decide (id < 65536) && decide (epoch < 256)
  | .grpSet => true
  | .grpClr => true
  | .grant p => packetOk p
  | .rdata p => packetOk p
  | .mdata p => packetOk p
  | .ggrant p => packetOk p
  | .gdata p => packetOk p
  | .revoke p => packetOk p
  | .rdReq p => packetOk p
  | .wrReq p => packetOk p
  | .flagUpd f ctx op q => decide (f < 2 ^ 20) && decide (ctx < 4096) && decide (op < 6) && decide (q < 32768)
  | .rdRsp p => packetOk p
  | .wrAck p => packetOk p
  | .notify q => decide (q < 32768)
  | .drop p => packetOk p
  | .mgmt p => packetOk p
  | .gateNotice p => packetOk p
  | .freezeStatusNotice p => packetOk p
  | .packetTransit port _ => decide (port < 40)
  | .frameTransmit port struck => decide (port < 40) && struck.all (fun k => decide (k < 76))
  | .markerFrame port => decide (port < 40)
  | .frameReceived port f _ _ check => decide (port < 40) && frameOk f && check.struck.all (· < 76)
  | .replayTimeout port => decide (port < 40)
  | .retryLimit port => decide (port < 40)
  | .trainComplete port pol fail _ => decide (port < 40) && decide (pol < 256) && decide (fail < 256)
  | .lossOfSignal port lane => decide (port < 40) && decide (lane < 8)
  | .resync port f => decide (port < 40) && frameOk f
  | .survivorDrained port => decide (port < 40)
  | .resyncDone port f => decide (port < 40) && frameOk f
  | .linkTmo port => decide (port < 40)
  | .fabCtlEn port _ => decide (port < 40)
  | .fabCtlReset port => decide (port < 40)
  | .fabCtlHalf p _ => decide (p < 20)
  | .fabModidWrite id => decide (id < 8192)
  | .d2dUnitReceived link _ => decide (link < 10)
  | .d2dLinkFailed link => decide (link < 10)
  | .poolMiss ctx va _ => decide (ctx < 4096) && decide (va < 2 ^ 56)
  | .poolFillDone _ => true
  | .evictorRun stack => decide (stack < 8)
  | .writebackAck _ => true
  | .writebackRefused _ => true
  | .flashReadDone tu _ => decide (tu < 1953125000)
  | .flashWriteDone tu => decide (tu < 1953125000)
  | .ftlReadOnly => true
  | .discard => true
  | .recover => true
  | .tableWalk who va => decide (who.ctx < 4096) && decide (va < 2 ^ 56) && decide (who.unit < 2560)
  | .faultTimeout fid => decide (fid < 1024)
  | .faultResolve => true
  | .atsCompletion ctx addr host _ _ => decide (ctx < 4096) && decide (addr < 2 ^ 64) && decide (host < 2 ^ 64)
  | .prgResponse idx pasid code => decide (idx < 512) && decide (pasid < 2 ^ 20) && decide (code < 16)
  | .atsInvalidation pasid _ _ => decide (pasid < 2 ^ 20)
  | .priDisable => true
  | .ctxCreate => true
  | .ctxModify => true
  | .ctxRead => true
  | .ctxKill => true
  | .ctxDestroy => true
  | .preempt => true
  | .resume => true
  | .tlbInv => true
  | .fenceDump => true
  | .sedConfigWrite off val => decide (val < 2 ^ 64) && [0x08, 0x10, 0x18, 0x20].contains off
  | .fifoDupMismatch kind _ => decide (kind < 6)
  | .snap => true
  | .check => true
  | .ledgerCheckDone => true
  | .hostLinkDown => true
  | .hostLinkUp _ _ _ _ _ _ _ => true
  | .flr => true
  | .cxlReset => true
  | .msixModExpiry v => decide (v < 2048)
  | .hdmCommit _ => true
  | .hostMemRead off _ _ => decide (off % 64 = 0)
  | .hostMemWrite off data _ => decide (off % 64 = 0) && decide (data.length = 64)
  | .birsp _ _ => true
  | .hostSnoop => true
  | .ideIntegrityFailure => true
  | .ideKm => true
  | .doeObject proto _ _ _ => decide (proto < 5)
  | .identify => true
  | .getSupportedLogs => true
  | .mailboxGetLog => true
  | .getFwInfo => true
  | .transferFw _ _ => true
  | .activateFw => true
  | .getHealthInfo => true
  | .getTimestamp => true
  | .getIdentity path => decide (path < 3)
  | .quote path _ => decide (path < 3)
  | .getLog path _ => decide (path < 3)
  | .cmaSpdmRequest _ => true
  | .secGetIdentity => true
  | .secQuote => true
  | .secGetLog => true
  | .extend => true
  | .secReset => true
  | .indexReserve => true
  | .indexRecordWritten => true
  | .securityStateChange _ _ => true
  | .roEn => true
  | .pldmFirmwareUpdate op _ _ => decide (op < 5)
  | .activateFirmware _ => true
  | .mctpControl eid => decide (eid < 256)
  | .pldmSensorRead id => decide (id < 65536)
  | .pldmSetEffecter w => decide (w < 65536)
  | .sbPwrEnAssert _ => true
  | .sbPwrEnDeassert => true
  | .hostPerstNAssert => true
  | .hostPerstNDeassert => true
  | .railFault _ => true
  | .romStageEnd => true
  | .imageVerified => true
  | .d2dTrained => true
  | .ready frames wm cqt ctxt stall => decide (cqt < 2 ^ 56) && decide (ctxt < 2 ^ 56) && decide (stall < 65536) && decide (frames.length = 8) && decide (wm.length = 8)
  | .startupFailure code link => decide (code < 256) && decide (link < 256)
  | .vinLow => true
  | .vinOutOfRange _ => true
  | .inputRestart => true
  | .paceStep p => decide (p < 65536)
  | .dutyFloorTimeout => true
  | .paceEntryTrigger n => decide (n < 16)
  | .thermalSample temps vin watts _ => decide (vin < 65536) && decide (watts < 65536) && decide (temps.length = 16)
  | .thermalCapStep => true
  | .tripRestart => true
  | .hardThermal => true
  | .hbmScrub a _ _ => decide (a < 2 ^ 41)
  | .moduleFatalError src die unit => decide (src < 256) && decide (die < 8) && decide (unit < 65536)
  | .fatalHoldExpiry => true
  | .freezeRequest => true
  | .swfreeze => true
  | .glbFrzRead => true
  | .extest _ => true
  | .samplePreload _ => true
  | .idcode => true
  | .frzStat => true
  | .frzSel val => decide (val < 2 ^ 32)
  | .frzRead _ => true
  | .bypass => true
  | .dumpInstant => true
  | .pmcGather => true
  | .pmcGatherDone => true
  | .pmcCviewRead => true
  | .sampleCountdown q => decide (q < 32768)
  | .timerefPresent => true
  | .cxlCacheCompletion _ => true
  | .priTimeout idx => decide (idx < 512)
  | .msixUnmask _ _ => true
  | .hbmTrained => true
  | .pwrEnDeferredStart => true

end Sys2Proof
end

