-- ==== Sys2Proof/Safety.lean ====
section
/-! DEFINITION. What counts as a safe run, in the terms that statements use. -/
namespace Sys2Proof.Machine

/-- Every byte memory of the module and of its host has the canonical form. -/
def State.memOk (s : State) : Bool :=
  memWf s.core.mem.hbm && memWf s.core.mem.host && memWf s.core.mem.flash && memWf s.core.mem.park && memWf s.core.sec.data

/-- FT is a 64-bit count of nanoseconds with a 16-bit fraction (02_fabric_time R27, R29). -/
def State.ftOk (s : State) : Prop := s.ft.ns < 2 ^ 64 ∧ s.ft.frac < 65536

/-- A step answers a next state: neither a fault nor a refusal. -/
def Goes (o : Out) : Prop := ∃ s : State, o = .next s

/-- An outcome is a next state of which p holds. -/
def Answers (o : Out) (p : State → Prop) : Prop := ∃ t : State, o = .next t ∧ p t

/-- Safe: memory in its canonical form, FT within its width, and no front command that stops the module. -/
def State.Safe (s : State) : Prop := s.memOk = true ∧ s.ftOk ∧ Goes (step s)

/-- The entry e of opcode op stands at the head of slot r, its slot runs, and it passes every check made there (06_programs R137, 07_tile R165). -/
def HeadOk (s : State) (r : SlotRef) (op : Nat) (bad : Entry → List Bad) (e : Entry) : Prop :=
  s.head r = some e ∧ e.op = op ∧ s.slotRuns r e = true ∧ firstBad (reservedBad e.raw ++ ixBad e.raw e.ix ++ destBad e.raw ++ bad e) = none
    ∧ s.absentIn e = none

/-- The entry e of opcode op stands at the head of slot r, its slot runs, and b is the first check that it fails (07_tile R165). -/
def HeadBad (s : State) (r : SlotRef) (op : Nat) (bad : Entry → List Bad) (e : Entry) (b : Bad) : Prop :=
  s.head r = some e ∧ e.op = op ∧ s.slotRuns r e = true ∧ firstBad (reservedBad e.raw ++ ixBad e.raw e.ix ++ destBad e.raw ++ bad e) = some b

/-- The instruction `raw` comes next in queue q and nothing holds it back: the queue may dispatch and has nothing in flight, header, body and wait pass,
an automatic tag and a record slot are free, it has no deadline, its queue asks for no record of an OK, and no core is about to sample (R139-R145). -/
def Launches (s : State) (q raw : Nat) : Prop :=
  s.dispatching = true ∧ s.mayDispatch q = true ∧ (s.queue q).cur = none ∧ (s.queue q).avail = true ∧ (s.queue q).fl = [] ∧ (s.queue q).complAll = false
  ∧ (s.queue q).crFree ≠ 0 ∧ firstBad (s.headerBad (s.queue q) raw) = none
  ∧ firstBad (reservedBad raw ++ ixBad raw (ixSums raw (s.queue q).c) ++ ctlBad raw) = none
  ∧ (refMode (iWait raw) = 0 ∨ (refMode (iWait raw) = 1 ∧ (s.flag (refFlag (iWait raw))).state = true))
  ∧ iTag raw = 0xFFFF ∧ (s.autoTag (s.queue q).ctx).isSome = true ∧ iDeadline raw = 0
  ∧ 1 < (mgetD s.core.pmc.kc (kcOf (s.queue q) q) {}).count ∧ s.sampledBy q (s.queue q).nextSeq = none

/-- The queue has moved past one instruction, which has completed without a record: nothing is in flight and no memory has changed. -/
def Passed (s t : State) (q : Nat) : Prop :=
  (t.queue q).fetch = ((s.queue q).fetch + 1) % (s.queue q).rmod ∧ (t.queue q).nextSeq = (s.queue q).nextSeq + 1 ∧ (t.queue q).fl = []
  ∧ (t.queue q).cur = none ∧ t.core.mem = s.core.mem

/-- The head of slot r's share has left it. -/
def Left (s t : State) (r : SlotRef) : Prop := mgetD t.core.qm.eiq (slotKey r) [] = (mgetD s.core.qm.eiq (slotKey r) []).tail

/-- The unit has finished with an instruction. -/
def Done (t : State) (e : Entry) : Prop := ∀ i, (t.queue e.q).inst e.seq = some i → i.done = true

/-- The head of slot r's share has left it, and its instruction has ended with an outcome of a code. -/
def Ended (s t : State) (r : SlotRef) (e : Entry) (code : Nat) : Prop :=
  Left s t r ∧ ∀ i, (t.queue e.q).inst e.seq = some i → i.done = true ∧ mhas i.outs code = true

/-- A command of slot r turns away the head entry that fails a check of its opcode: ILLEGAL_INSTRUCTION, with the check's detail where the instruction
has no earlier outcome of that code; memory, engines, streams and flags are unchanged (R145, R165). -/
def Rejects (s : State) (c : Instr) (r : SlotRef) (op : Nat) (bad : Entry → List Bad) : Prop :=
  ∀ e b, HeadBad s r op bad e b → Answers (exec c s) (fun t => Ended s t r e 0xC ∧ t.core.mem = s.core.mem ∧ t.core.opes = s.core.opes
    ∧ t.core.streams = s.core.streams ∧ t.core.qm.flags = s.core.qm.flags
    ∧ ∀ i, (s.queue e.q).inst e.seq = some i → mget i.outs 0xC = none →
        ∃ j, (t.queue e.q).inst e.seq = some j ∧ mget j.outs 0xC = some (badDetail b))

/-- A doorbell of queue q is taken: the page exists, the queue is enabled and not being destroyed, its context not being killed (R133, R159). -/
def BellOk (s : State) (q : Nat) : Prop :=
  s.dispatching = true ∧ q < 32768 ∧ (s.queue q).st ≠ .disabled ∧ (s.ctx (s.queue q).ctx).st ≠ .killing ∧ (s.queue q).destroying = false

/-- Commands by which one life of the module ends and another can begin (16_bedrock R388, 19_power R430, R435, 20_module R448). -/
def lifeCommand : Instr → Bool
  | .sbPwrEnAssert _ | .pwrEnDeferredStart | .sbPwrEnDeassert | .hostPerstNAssert | .hostPerstNDeassert | .vinOutOfRange _ | .inputRestart
  | .cxlReset | .thermalSample _ _ _ _ | .tripRestart | .hardThermal | .fatalHoldExpiry | .secReset | .activateFw => true
  | .regWrite off _ _ => timeReg off
  | _ => false

/-- Commands by which the host driver or a time source can set FT (02_fabric_time R36, R37, R40). -/
def timeCommand : Instr → Bool
  | .restep | .nextsecWrite _ | .tsyncEdge | .timeReply _ _ _ _ _ _ | .ready _ _ _ _ _ => true
  | .regWrite off _ _ => timeReg off
  | _ => false

/-- Commands that still act on a frozen module: the pins and the input, what ends its life, the marl controller, the management endpoint and the TAP
(17_errors R411-R414, 19_power R430-R438, 20_module R448). -/
def frozenCommand : Instr → Bool
  | .sbPwrEnAssert _ | .pwrEnDeferredStart | .sbPwrEnDeassert | .hostPerstNAssert | .hostPerstNDeassert | .railFault _ | .vinLow
  | .vinOutOfRange _ | .inputRestart | .paceStep _ | .dutyFloorTimeout | .thermalSample _ _ _ _ | .thermalCapStep | .tripRestart | .hardThermal
  | .mctpControl _ | .pldmSensorRead _ | .pldmSetEffecter _ | .extest _ | .samplePreload _ | .idcode | .frzStat | .frzSel _ | .frzRead _
  | .bypass => true
  | _ => false

end Sys2Proof.Machine
end

