-- ==== Sys2Proof/Certificates/Slice0/Obligations.lean ====
section
/-! DEFINITION. The statements about the module. A statement Says.X is a part of an obligation, put together at the end. -/
open Sys2Proof Sys2Proof.Machine

/-! Steps, the whole machine -/

/-- A step runs the command at the front of the queue on the state with the queue's rest. -/
def Obligations.StepRunsFront : Prop :=
  ∀ (s : State) (c : Instr) (rest : List Instr), s.pending = c :: rest → step s = exec c { s with pending := rest }

/-- On an empty queue a step is one nanosecond of the module by itself (the model's choice, log 4). -/
def Says.StepIdles : Prop :=
  ∀ s : State, s.pending = [] → step s = .next s.tick

/-- The state right after reset: what the spec gives each kind of state, and the values named in log entries 1, 2 and 13 (the model's choice). -/
def Obligations.ResetState : Prop :=
  State.reset.core.boot.phase = .off ∧ State.reset.core.boot.perst = true ∧ State.reset.pending = []
  ∧ State.reset.ft.ns = 0 ∧ State.reset.ft.lock = .free ∧ State.reset.ft.hop = 0xF
  ∧ State.reset.reg fldHoldLimit = 100 ∧ State.reset.reg fldExch = 3 ∧ State.reset.reg fldSrc = 3
  ∧ State.reset.reg fldStallMax = 512 ∧ State.reset.reg fldGrace = 1000 ∧ State.reset.reg fldLinkTmo = 1000
  ∧ State.reset.reg fldHold = 10 ∧ State.reset.reg fldLogN = 8 ∧ State.reset.reg fldCeThresh = 1024 ∧ State.reset.reg fldSampP = 16
  ∧ (∀ q, (State.reset.queue q).st = .disabled) ∧ (∀ f, State.reset.flag f = {})
  ∧ (∀ c, (State.reset.ctx c).st = .free) ∧ (∀ i, (State.reset.port i).st = .down) ∧ (∀ n, (State.reset.ope n).mode = 0)
  ∧ (∀ o, State.reset.counter o = 0) ∧ (∀ o i, State.reset.flagBit o i = false)
  ∧ State.reset.core.pwr.duty = 64 ∧ State.reset.memOk = true ∧ State.reset.ftOk

/-- Every command answers a next state, and leaves the fuses (R1) and the commands that wait alone. -/
def Says.EveryCommandGoes : Prop :=
  ∀ (c : Instr) (s : State), Answers (exec c s) (fun t => t.fuse = s.fuse ∧ t.pending = s.pending)

/-- Along every step the fuses stay as they were, and the queue loses its front command and nothing else. -/
def Says.StepKeepsFuses : Prop :=
  ∀ s : State, Answers (step s) (fun t => t.fuse = s.fuse ∧ t.pending = s.pending.tail)

/-- FT stays a 64-bit count of nanoseconds with a 16-bit fraction along every step. -/
def Obligations.FtWidthKept : Prop :=
  ∀ s t : State, s.ftOk → step s = .next t → t.ftOk

/-- Once the module has been ready FT never decreases: no command but those that end a life takes it back, and RESTEP (or a write of the registers
that hold it) only while no context other than CTX 0 is ACTIVE. FT, NEXTSEC and the stamps of a reply stay below 2^62 ns here, so that nothing
wraps at 2^64. -/
def Obligations.FtNeverDecreases : Prop :=
  ∀ (s t : State) (c : Instr), s.ft.everReady = true → s.ft.ns < 2 ^ 62 → s.ft.frac < 65536 → s.ft.nextSec < 2 ^ 32 →
    (∀ d, s.ft.src = some d → -(2 ^ 78) ≤ d) →
    (match c with
      | .nextsecWrite sec => sec < 2 ^ 32
      | .timeReply _ t1 t2 t3 _ _ => t1 < 2 ^ 78 ∧ t2 < 2 ^ 78 ∧ t3 < 2 ^ 78
      | .restep => s.userActive = true
      | _ => lifeCommand c = false) →
    exec c s = .next t → s.ft.units ≤ t.ft.units

/-- While the module is frozen every flop holds its value: no command changes anything, but those that end the life, those of the marl controller,
the management endpoint, the TAP and the pins of J-SIDE and J-PWR, and the record of a thermal or link event that the freeze cannot stop. -/
def Obligations.FrozenHolds : Prop :=
  ∀ (s : State) (c : Instr), s.core.ras.frozen = true → frozenCommand c = false → exec c s = .next s

/-- Before the ready state doorbells are discarded, and so is every write of BAR0 outside GLB, HIF and SEC. -/
def Says.NotReadyDiscards : Prop :=
  ∀ (s : State), s.core.boot.phase ≠ .ready →
    (∀ q size v, exec (.dbTail q size v) s = .next s) ∧ (∀ q v, exec (.dbCrhead q v) s = .next s)
    ∧ (∀ q v, exec (.dbCtlResume q v) s = .next s) ∧ (∀ q v, exec (.dbCtlAbort q v) s = .next s)
    ∧ (∀ off size v, 0x20000 ≤ off → (off < 0xA00000 ∨ 0xB00000 ≤ off) → exec (.regWrite off size v) s = .next s)

/-- After a module-fatal error every kaolin core has stopped dispatching, doorbells and commands of the host driver are not answered, and no unit
begins an instruction, a fetch, a walk or a read. -/
def Says.FatalStopsDispatch : Prop :=
  ∀ (s : State), s.core.ras.stop = true →
    (∀ q, exec (.instructionDispatch q) s = .next s) ∧ (∀ q, exec (.setAsideWrite q) s = .next s)
    ∧ (∀ q size v, exec (.dbTail q size v) s = .next s) ∧ exec .cqCreate s = .next s ∧ exec .preempt s = .next s
    ∧ (∀ r, exec (.opa r) s = .next s) ∧ (∀ r, exec (.accld r) s = .next s)
    ∧ (∀ r n k, exec (.mvx r n k) s = .next s) ∧ (∀ r k, exec (.vop r k) s = .next s) ∧ (∀ r, exec (.sarm r) s = .next s)
    ∧ (∀ r, exec (.bopen r) s = .next s) ∧ (∀ u b, exec (.seFetchIssue u b) s = .next s) ∧ (∀ c v, exec (.tableWalk c v) s = .next s)
    ∧ (∀ c v w, exec (.poolMiss c v w) s = .next s) ∧ (∀ k, exec (.evictorRun k) s = .next s)
    ∧ (∀ p, exec (.rdReq p) s = .next s) ∧ (∀ p, exec (.wrReq p) s = .next s) ∧ (∀ p i, exec (.packetTransit p i) s = .next s)

/-- One step of an empty queue moves FT on by one nanosecond, within 100 ppm, and takes no more of a pending offset than it slews out; a module that
falls to FREE slews no more (R35). -/
def Says.IdleTickRate : Prop :=
  ∀ s : State, s.pending = [] → s.timing = true → s.ft.units + 65543 < 2 ^ 80 →
    Answers (step s) (fun t => s.ft.units + 65529 ≤ t.ft.units ∧ t.ft.units ≤ s.ft.units + 65543
      ∧ (if s.ft.lock ≠ .free ∧ t.ft.lock = .free then t.ft.units = s.ft.units + 65536 ∧ t.ft.slew = 0
        else (t.ft.units : Int) + t.ft.slew = s.ft.units + 65536 + s.ft.slew))

/-! Fabric time -/

/-- A read of the low half of FT returns it and latches the high half for that requester alone; nothing else changes. -/
def Says.FtReadLatches : Prop :=
  ∀ (s : State) (req : Nat), s.timing = true →
    Answers (exec (.glbFtLowRead req) s) (fun t =>
      t.core = { s.core with ras.readVal := s.ft.ns % 2 ^ 32 } ∧ mget t.ft.latch req = some (s.ft.ns / 2 ^ 32)
      ∧ (∀ r, r ≠ req → mget t.ft.latch r = mget s.ft.latch r) ∧ t.ft = { s.ft with latch := t.ft.latch })

/-- Loss of the reference from LOCKED: HOLDOVER (FREE at once with HOLD_LIMIT 0, and ACQUIRING from there where SRC lets the fabric take over and it has an
eligible parent), hop count 15, a loss counted, the time event raised, FT kept;
the end of HOLDOVER is FREE. A reference that comes back takes a FREE module to ACQUIRING. -/
def Says.TimeSourceLost : Prop :=
  ∀ s : State, s.timing = true →
    (s.source = 1 → s.ft.lock = .locked → ∀ c ∈ [Instr.refLoss, Instr.tsyncTimeout],
      Answers (exec c s) (fun t => t.ft.lock = (if s.reg fldHoldLimit ≠ 0 then .holdover else if s.reg fldSrc = 3 ∧ s.eligible ≠ [] then .acquiring else .free) ∧ t.ft.hop = 0xF
        ∧ t.ft.losses = (s.ft.losses + 1) % 256 ∧ t.flagBit hifInt 0 = true ∧ t.ft.ns = s.ft.ns ∧ t.ft.frac = s.ft.frac))
    ∧ (s.ft.lock = .holdover → Answers (exec .holdoverLimit s) (fun t => t.ft.lock = .free ∧ t.ft.ns = s.ft.ns))
    ∧ (s.ft.lock = .free → s.reg fldSrc = 1 →
      Answers (exec .timerefPresent s) (fun t => t.ft.lock = .acquiring ∧ t.ft.refOk = true ∧ t.ft.ns = s.ft.ns))

/-- RESTEP sets FT to the source's time, counts a step and marks the next dump record, and where that is forward every action whose value it passes
triggers; with a context other than CTX 0 ACTIVE or no source time known it changes nothing. A write of NEXTSEC that agrees with the second that FT
stands in sets it, with only the phase of the known offset left, and so does any write while the reference is not the source in use (the model's
choice, log 36); one that puts FT 10 ms or more ahead
leaves FT and marks the module DISJOINT. -/
def Says.RestepSetsTime : Prop :=
  ∀ s : State, s.timing = true →
    (∀ d, s.userActive = false → s.srcKnown = some d →
      let f : FabTime := { s.ft.setUnits ((s.ft.units : Int) - d) with slew := 0, steps := (s.ft.steps + 1) % 256, src := some 0, disjoint := false, copies := [] }
      let u : State := { s with ft := f, core.pmc.step := true, core.pmc.lastInstant := if 0 < d then f.ns else s.core.pmc.lastInstant }
      (0 ≤ d → d ≤ s.ft.units → exec .restep s = .next u)
      ∧ (d < 0 → s.ft.units < 2 ^ 79 → -(2 ^ 79) < d → s.ft.frac < 65536 → s.ft.steps < 256 →
          exec .restep s = .next { u with core := (u.firePassed s.now).core }))
    ∧ ((s.userActive = true ∨ s.srcKnown = none) → exec .restep s = .next s)
    ∧ (∀ sec, sec < 2 ^ 64 → s.source ≠ 1 → exec (.nextsecWrite sec) s = .next { s with ft.nextSec := sec })
    ∧ (∀ sec, sec < 2 ^ 64 → s.source = 1 → s.nextsecOffset sec = 0 →
      exec (.nextsecWrite sec) s = .next { s with ft.nextSec := sec, ft.src := s.ft.src.map (fun _ => s.ft.phase) })
    ∧ (∀ sec, sec < 2 ^ 64 → s.source = 1 → s.ft.everReady = true → 10000000 * 65536 ≤ s.nextsecOffset sec →
      Answers (exec (.nextsecWrite sec) s) (fun t => t.ft.disjoint = true ∧ t.ft.nextSec = sec ∧ t.ft.ns = s.ft.ns ∧ t.ft.frac = s.ft.frac))

/-- A TSYNC edge advances NEXTSEC. In reference mode the third edge in succession within 1 ns locks the module with hop count 0, and one edge more
than 2 ns (and less than 10 us) off takes a LOCKED module to HOLDOVER. -/
def Says.TsyncDrivesLock : Prop :=
  ∀ s : State, s.timing = true →
    let d : Int := (s.ft.units : Int) - (s.ft.nextSec * 1000000000 * 65536 : Nat)
    Answers (exec .tsyncEdge s) (fun t => t.ft.nextSec = (s.ft.nextSec + 1) % 2 ^ 64 ∧ t.ft.tsyncOk = true)
    ∧ (s.reg fldSrc = 1 → s.ft.refOk = true → s.ft.lock = .acquiring → s.ft.disjoint = false → 2 ≤ s.ft.good → -65536 ≤ d → d ≤ 65536 →
        Answers (exec .tsyncEdge s) (fun t => t.ft.lock = .locked ∧ t.ft.hop = 0 ∧ t.ft.parent = 0x3F))
    ∧ (s.reg fldSrc = 1 → s.ft.refOk = true → s.ft.lock = .locked → s.ft.disjoint = false → s.reg fldHoldLimit ≠ 0 → (d < -131072 ∨ 131072 < d) →
        -655360000 < d → d < 655360000 →
        Answers (exec .tsyncEdge s) (fun t => t.ft.lock = .holdover ∧ t.ft.losses = (s.ft.losses + 1) % 256))

/-- Time messages: every ACTIVE port sends a request on VC1; a request on an ACTIVE port is answered there on VC1 with t1 as it came and its receive
stamp as t2; the sixteenth reply in succession on the parent with an offset within 1 ns locks the module one hop below its parent. The receive stamp
is the one of the frame that brought the message, or now where the row stands for the message itself (the model's choice, log 57). -/
def Says.TimeExchange : Prop :=
  ∀ s : State, s.live = true →
    (∀ i, (s.port i).st = .active → Answers (exec .timeExchangeStart s) (fun t =>
        ∃ p : PartPkt, p ∈ mgetD (t.port i).tx 1 [] ∧ p.pkt.type = 0x10 ∧ p.pkt.vc = 1 ∧ p.pkt.len = 1 ∧ p.pkt.src = s.ep 4))
    ∧ (∀ i t1 f hop st : Nat, (s.port i).st = .active → Answers (exec (.timeRequest i t1 f hop st) s) (fun t =>
        let m := s.timeMsg i 1 t1
        let t2 := s.stampOf m
        let u := (s.takeTime m).notePartner i hop st
        ((mgetD (t.port i).tx 1 []).map (·.pkt) = (mgetD (s.port i).tx 1 []).map (·.pkt)
          ++ [u.mkPacket 0x10 1 (match (s.port i).partner with | some h => h.modid | none => 0) 4 0
              (u.timePayload 2 s.ft.ns t1 (t2 / 65536) s.ft.frac f (t2 % 65536)) []])
        ∧ mgetD t.ft.partners i {} = ⟨hop, st⟩))
    ∧ (∀ i t1 t2 t3 hop st : Nat, (s.port i).st = .active →
        let m := s.timeMsg i 2 (t1 / 65536)
        let u := (s.takeTime m).notePartner i hop st
        let off : Int := (((t2 : Int) - t1) - ((s.stampOf m : Int) - t3)) / 2
        u.source = 2 → u.ft.parent = i → u.ft.lock = .acquiring → u.ft.disjoint = false → 15 ≤ u.ft.good → -65536 ≤ off → off ≤ 65536 →
        Answers (exec (.timeReply i t1 t2 t3 hop st) s) (fun t => t.ft.lock = .locked ∧ t.ft.hop = hop + 1))

/-! Registers -/

/-- A BAR0 write of any size but 4 and 8, or out of natural alignment, changes nothing; nor does a write where no register that can be written
lies, or in the window of an absent stack or port. -/
def Says.BarWriteDiscarded : Prop :=
  ∀ (s : State) (off size val : Nat),
    (((size ≠ 4 ∧ size ≠ 8) ∨ off % size ≠ 0) → exec (.regWrite off size val) s = .next s)
    ∧ (0x200000 ≤ off → off < 0x340000 → exec (.regWrite off size val) s = .next s)
    ∧ (0x3C0000 ≤ off → off < 0x400000 → exec (.regWrite off size val) s = .next s)
    ∧ (∀ k, k < 8 → s.stackPresent k = false → memBase k ≤ off → off < memBase k + 0xC000 → exec (.regWrite off size val) s = .next s)
    ∧ (∀ p, p < 20 → s.portPresent p = false → fabBase p ≤ off → off < fabBase p + 0x8000 → exec (.regWrite off size val) s = .next s)

/-- A write of 4 bytes sets the fields of its word alone: HIF_MOD.USEC without HIF_EVT_MASK beside it, the log base, GLB_FT_CTL's limit; and a write of
4 bytes of a register changes no memory, queue or context. -/
def Says.RegWriteSets : Prop :=
  ∀ (s : State) (v : Nat),
    (s.glbOn = true → Answers (exec (.regWrite (hifBase + 0x30) 4 v) s) (fun t =>
      t.reg fldModUsec = v % 2 ^ 16 ∧ t.reg fldEvtMask = s.reg fldEvtMask ∧ t.ft = s.ft
      ∧ t.core.mem = s.core.mem ∧ t.core.qm = s.core.qm ∧ t.core.mmu = s.core.mmu))
    ∧ (s.live = true → s.core.host.cxl = true → Answers (exec (.regWrite (rasBase + 0x14) 4 v) s) (fun t =>
      t.reg fldCeThresh = v % 2 ^ 16 ∧ t.core.mem = s.core.mem ∧ t.core.ras = s.core.ras))
    ∧ (s.glbOn = true → s.reg fldSrc < 4 → v % 4 = s.reg fldSrc → v.testBit 31 = false →
      Answers (exec (.regWrite 0x108 4 v) s) (fun t =>
        t.reg fldHoldLimit = v / 2 ^ 16 % 2 ^ 8 ∧ t.reg fldExch = v / 2 ^ 8 % 2 ^ 4 ∧ t.ft = s.ft))

/-- A W1C bit is cleared by writing 1 and kept by writing 0; a hardware set sets it and adds one to its event count, which the host's clear leaves. -/
def Says.W1cBits : Prop :=
  ∀ (s : State) (v i : Nat), i < 4 →
    (s.live = true → s.core.ras.stop = false → s.core.host.cxl = true → Answers (exec (.regWrite qmgInt 4 v) s) (fun t =>
      t.flagBit qmgInt i = (s.flagBit qmgInt i && !v.testBit i) ∧ t.core.regs.evc = s.core.regs.evc ∧ t.core.irq = s.core.irq))
    ∧ (s.raise qmgInt i).flagBit qmgInt i = true
    ∧ mgetD (s.raise qmgInt i).core.regs.evc (8 * qmgInt + i) 0 = (mgetD s.core.regs.evc (8 * qmgInt + i) 0 + 1) % 65536

/-- RWL: the stall limit is written before bedrock locks the block and stays as it is afterwards. -/
def Says.RwlLock : Prop :=
  ∀ (s : State) (v : Nat), s.live = true → s.core.ras.stop = false → s.core.host.cxl = true →
    Answers (exec (.regWrite fldStallMax.off 4 v) s) (fun t =>
      (s.core.boot.locked = true → t.reg fldStallMax = s.reg fldStallMax)
      ∧ (s.core.boot.locked = false → t.reg fldStallMax = v / 2 ^ fldStallMax.lo % 2 ^ fldStallMax.w))

/-! Control instructions -/

/-- NOP, a WAIT whose flag is set and FENCE and HALT with nothing earlier in flight complete at once and change no flag, counter or memory; HALT
leaves its queue HALTED. -/
def Says.PlainControlCompletes : Prop :=
  ∀ (s : State) (q tmo : Nat) (h : Hdr),
    let keeps (t : State) : Prop := Passed s t q ∧ t.core.qm.flags = s.core.qm.flags ∧ (t.queue q).ctrs = (s.queue q).ctrs
    (Launches s q (ctlWord 0x00 h 0) → refMode (iSig (ctlWord 0x00 h 0)) = 0 → Answers (exec (.nop q h) s) keeps)
    ∧ (Launches s q (ctlWord 0x01 h (bodyPut 16 4 tmo)) → refMode (iSig (ctlWord 0x01 h (bodyPut 16 4 tmo))) = 0 →
        Answers (exec (.wait q h tmo) s) keeps)
    ∧ (Launches s q (ctlWord 0x07 h 0) → refMode (iSig (ctlWord 0x07 h 0)) = 0 →
        Answers (exec (.fence q h) s) (fun t => keeps t ∧ (t.queue q).hold = .none))
    ∧ (Launches s q (ctlWord 0x08 h 0) → refMode (iSig (ctlWord 0x08 h 0)) = 0 →
        Answers (exec (.halt q h) s) (fun t => keeps t ∧ (t.queue q).st = .halted))

/-- A WAIT whose flag does not hold leaves its queue WAITING, registered once with that flag's controller, and not moved on. -/
def Says.WaitRegisters : Prop :=
  ∀ (s : State) (q tmo : Nat) (h : Hdr),
    let raw := ctlWord 0x01 h (bodyPut 16 4 tmo)
    let w := iWait raw
    s.dispatching = true → s.mayDispatch q = true → (s.queue q).cur = none → (s.queue q).avail = true →
    firstBad (s.headerBad (s.queue q) raw) = none → waitHolds (s.flag (refFlag w)) (refMode w) ((s.queue q).c (refCtr w)) = false →
    Answers (exec (.wait q h tmo) s) (fun t =>
      (t.queue q).st = .waiting ∧ (t.queue q).fetch = (s.queue q).fetch ∧ (t.queue q).nextSeq = (s.queue q).nextSeq
      ∧ t.core.qm.waiters = s.core.qm.waiters ++ [⟨refFlag w, refMode w, refCtr w, q, none, s.now⟩] ∧ t.core.mem = s.core.mem)

/-- SIG sets its flag with one update: STATE and SV 1, its queue the SETTER, COUNT up by one. CLR clears STATE, keeps COUNT, and with MOD bit 0
copies it to a counter. No other flag changes. -/
def Obligations.SignalsAndClears : Prop :=
  ∀ (s : State) (q : Nat) (h : Hdr),
    (let raw := ctlWord 0x02 h 0
     let f := refFlag (iSig raw)
     Launches s q raw → (refMode (iSig raw) = 1 ∨ refMode (iSig raw) = 2) → mgetD s.core.qm.upd f [] = [] → (∀ w ∈ s.core.qm.waiters, w.flag ≠ f) →
     Answers (exec (.sig q h) s) (fun t => Passed s t q ∧ t.flag f = ⟨true, true, q, ((s.flag f).count + 1) % 65536⟩
       ∧ ∀ g, g ≠ f → t.flag g = s.flag g))
    ∧ (let raw := ctlWord 0x03 h 0
       let f := refFlag (iSig raw)
       Launches s q raw → mgetD s.core.qm.upd f [] = [] → (∀ w ∈ s.core.qm.waiters, w.flag ≠ f) →
       Answers (exec (.clr q h) s) (fun t => Passed s t q
         ∧ t.flag f = { s.flag f with state := false, count := (s.flag f).count % 65536 } ∧ (∀ g, g ≠ f → t.flag g = s.flag g)
         ∧ ((iMod raw).testBit 0 = true → (t.queue q).c (refCtr (iSig raw)) = (s.flag f).count)
         ∧ ((iMod raw).testBit 0 = false → (t.queue q).ctrs = (s.queue q).ctrs)))

/-- CSET writes a counter or arms a comparator with its signal reference, CADD adds modulo 2^32, and CMPB moves the fetch pointer by its offset where
its relation holds and past itself where it does not. A CMPB that looks ahead reads ring entries, which changes no memory where the ring lies in HBM
itself; elsewhere the tile pool may take them in. -/
def Obligations.CounterInstructions : Prop :=
  ∀ (s : State) (q : Nat) (h : Hdr), (∀ k, (mgetD (s.queue q).comps k {}).armed = false) →
    (∀ dst rel value,
      let raw := ctlWord 0x09 h (bodyPut 16 1 dst + bodyPut 17 1 rel + bodyPut 20 4 value)
      let n := iField raw 16 1 % 16
      Launches s q raw → refMode (iSig raw) = 0 →
      (bits (iField raw 16 1) 4 1 = 0 → Answers (exec (.cset q h dst rel value) s) (fun t => Passed s t q ∧ (t.queue q).c n = iField raw 20 4 % 2 ^ 32
        ∧ ∀ m, m ≠ n → (t.queue q).c m = (s.queue q).c m))
      ∧ (bits (iField raw 16 1) 4 1 = 1 → relHolds (iField raw 17 1 % 16) ((s.queue q).c (iField raw 17 1 / 16)) (iField raw 20 4) = false →
          Answers (exec (.cset q h dst rel value) s) (fun t => Passed s t q ∧ (t.queue q).ctrs = (s.queue q).ctrs
            ∧ mget (t.queue q).comps n = some ⟨true, iField raw 17 1 / 16, iField raw 17 1 % 16, iField raw 20 4, iSig raw⟩)))
    ∧ (∀ dst addend,
      let raw := ctlWord 0x0A h (bodyPut 16 1 dst + bodyPut 20 4 addend)
      let n := iField raw 16 1 % 16
      Launches s q raw → refMode (iSig raw) = 0 →
      Answers (exec (.cadd q h dst addend) s) (fun t => Passed s t q ∧ (t.queue q).c n = ((s.queue q).c n + iField raw 20 4) % 2 ^ 32
        ∧ ∀ m, m ≠ n → (t.queue q).c m = (s.queue q).c m))
    ∧ (∀ ctr rel ctr2 value offset,
      let raw := ctlWord 0x0B h (bodyPut 16 1 ctr + bodyPut 17 1 rel + bodyPut 18 1 ctr2 + bodyPut 20 4 value + bodyPut 24 4 offset)
      let x := s.queue q
      let b := if (iMod raw).testBit 0 then x.c (iField raw 18 1 % 16) else iField raw 20 4
      Launches s q raw → refMode (iSig raw) = 0 → s.targetBad x x.fetch (sext 32 (iField raw 24 4)) = false →
      Answers (exec (.cmpb q h ctr rel ctr2 value offset) s) (fun t =>
        (t.queue q).fetch = (if relHolds (iField raw 17 1 % 16) (x.c (iField raw 16 1 % 16)) b then
            (((x.fetch : Int) + sext 32 (iField raw 24 4)) % (x.rmod : Int)).toNat else (x.fetch + 1) % x.rmod)
        ∧ (t.queue q).ctrs = x.ctrs ∧ (t.queue q).fl = [] ∧ t.core.qm.flags = s.core.qm.flags
        ∧ ((sext 32 (iField raw 24 4) ≤ 1 ∨ ∀ va, x.ring ≤ va → va < x.ring + 64 * 2 ^ x.rsz → ∃ a, s.xlate x.ctx va false false = .ok (.hbm a)) →
          t.core.mem = s.core.mem)))

/-- A GATE whose FT has come, by the copy of FT of its queue's quarter (R27, R38), completes; one whose FT has not come holds its queue WAITING until GATE_EXPIRY at that FT, which before it does nothing. -/
def Says.GateHolds : Prop :=
  ∀ (s : State) (q ft : Nat) (h : Hdr),
    (let raw := ctlWord 0x04 h (bodyPut 16 8 ft)
     let v := effAt raw (ixSums raw (s.queue q).c) 0 128 64
     Launches s q raw → refMode (iSig raw) = 0 →
     (v ≤ s.nowAt (s.dieOf q) → Answers (exec (.gate q h ft) s) (fun t => Passed s t q))
     ∧ (s.nowAt (s.dieOf q) < v → Answers (exec (.gate q h ft) s) (fun t => (t.queue q).hold = .gate v ∧ (t.queue q).st = .waiting
          ∧ (t.queue q).fl.length = 1 ∧ t.core.mem = s.core.mem)))
    ∧ (∀ v, s.dispatching = true → (s.queue q).hold = .gate v →
        (v ≤ s.nowAt (s.dieOf q) → (s.queue q).st ≠ .preempted → Answers (exec (.gateExpiry q) s) (fun t => (t.queue q).hold = .none))
        ∧ (s.nowAt (s.dieOf q) < v → exec (.gateExpiry q) s = .next s))

/-- END moves the head to the fetch pointer, begins the next program and uses one slot of the completion ring, whatever COMPL_ALL says. -/
def Says.EndBeginsProgram : Prop :=
  ∀ (s : State) (q : Nat) (h : Hdr), Launches s q (ctlWord 0x0F h 0) →
    Answers (exec (.end_ q h) s) (fun t =>
      let x := s.queue q
      (t.queue q).fetch = (x.fetch + 1) % x.rmod ∧ (t.queue q).head = (x.fetch + 1) % x.rmod ∧ (t.queue q).prog = x.prog + 1
      ∧ (t.queue q).crTail = (x.crTail + 1) % x.cmod ∧ (t.queue q).fl = [])

/-- DEP and LBAR leave their slot's share once their wait is satisfied (and, for LBAR, the slot has drained); DEP adds one to its slot's count. -/
def Obligations.MarkersPass : Prop :=
  ∀ (s : State) (r : SlotRef) (e : Entry), s.dispatching = true → (refMode (iWait e.raw) = 0 ∨ (e.q, e.seq) ∈ s.core.qm.marks) →
    (HeadOk s r 0x05 (fun _ => []) e → s.seIssuing r = false →
      Answers (exec (.dep r) s) (fun t => (t.queue e.q).dep = ((s.queue e.q).dep + 1) % 65536
        ∧ mgetD t.core.qm.eiq (slotKey r) [] = (mgetD s.core.qm.eiq (slotKey r) []).tail
        ∧ (∀ i, (t.queue e.q).inst e.seq = some i → i.done = true) ∧ t.core.mem = s.core.mem ∧ t.core.qm.flags = s.core.qm.flags))
    ∧ (HeadOk s r 0x06 (fun _ => []) e → s.slotBusy r e = false →
      Answers (exec (.lbar r) s) (fun t => (t.queue e.q).dep = (s.queue e.q).dep
        ∧ mgetD t.core.qm.eiq (slotKey r) [] = (mgetD s.core.qm.eiq (slotKey r) []).tail
        ∧ (∀ i, (t.queue e.q).inst e.seq = some i → i.done = true) ∧ t.core.mem = s.core.mem ∧ t.core.qm.flags = s.core.qm.flags))

/-! Queues, doorbells, dispatch -/

/-- A new tail that the ring allows is stored, counted and sent to the queue's quarter; one that moves back or overfills the ring is discarded with
DB_BAD. A new consumer index is sent, and so is one that comes with a tail in a write of 8 bytes; writes of other sizes are discarded. A forwarded
doorbell brings its index, or its tail, with which an IDLE queue becomes READY or BOUND and one that waited for entries BOUND. -/
def Says.DoorbellsMoveQueues : Prop :=
  ∀ (s : State) (q v : Nat), BellOk s q →
    let x := s.queue q
    let b : Bell := { q := q, home := x.home, tail := some (v % 2 ^ 32) }
    let taken (t : State) : Prop := t.queue q = { x with tail := v % 2 ^ 32 } ∧ (∀ p, p ≠ q → t.queue p = s.queue p) ∧ t.core.mem = s.core.mem
      ∧ t.counter (hifBase + 0x100) = (s.counter (hifBase + 0x100) + 1) % 2 ^ 64
    (v % 2 ^ 32 < x.rmod → x.ahead x.head x.tail ≤ x.ahead x.head (v % 2 ^ 32) → x.ahead x.head (v % 2 ^ 32) ≤ 2 ^ x.rsz →
      Answers (exec (.dbTail q 4 v) s) (fun t => taken t ∧ t.core.qm.doorbells = s.core.qm.doorbells ++ [b])
      ∧ Answers (exec (.dbTail q 8 v) s) (fun t => taken t
          ∧ t.core.qm.doorbells = s.core.qm.doorbells ++ [b, { q := q, home := x.home, crHead := some (v / 2 ^ 32 % 2 ^ 17 % x.cmod) }]))
    ∧ ((x.rmod ≤ v % 2 ^ 32 ∨ 2 ^ x.rsz < x.ahead x.head (v % 2 ^ 32) ∨ x.ahead x.head (v % 2 ^ 32) < x.ahead x.head x.tail) →
      Answers (exec (.dbTail q 4 v) s) (fun t => t.queue q = x ∧ t.flagBit qmgInt 0 = true ∧ t.core.qm.doorbells = s.core.qm.doorbells))
    ∧ Answers (exec (.dbCrhead q ⟨4, v⟩) s) (fun t => t.queue q = x ∧ t.core.mem = s.core.mem
        ∧ t.core.qm.doorbells = s.core.qm.doorbells ++ [{ q := q, home := x.home, crHead := some (v % 2 ^ 17 % x.cmod) }])
    ∧ (∀ n, n ≠ 4 → exec (.dbCrhead q ⟨n, v⟩) s = .next s ∧ (n ≠ 8 → exec (.dbTail q n v) s = .next s
        ∧ exec (.dbCtlResume q ⟨n, v⟩) s = .next s ∧ exec (.dbCtlAbort q ⟨n, v⟩) s = .next s))
    ∧ (∀ d, s.core.qm.doorbells.find? (fun d => d.q = q) = some d → s.core.qm.doorbells.find? (fun b => b.home = d.home) = some d →
      (∀ h, d.crHead = some h → d.tail = none → Answers (exec (.doorbellForward q) s) (fun t => t.queue q = { x with crHead := h }
        ∧ t.core.qm.doorbells = s.core.qm.doorbells.erase d ∧ t.core.mem = s.core.mem))
      ∧ (∀ n, d.crHead = none → d.tail = some n → d.home = x.home → x.ahead x.seen n ≤ x.ahead x.seen x.tail →
        Answers (exec (.doorbellForward q) s) (fun t => (t.queue q).seen = n ∧ t.core.qm.doorbells = s.core.qm.doorbells.erase d
          ∧ t.core.mem = s.core.mem ∧ (t.queue q).fetch = x.fetch ∧ (t.queue q).tail = x.tail
          ∧ (x.st = .idle → n ≠ x.fetch → (t.queue q).st = (if x.slot.isSome then .bound else .ready))
          ∧ (x.st = .waiting → x.cur = none → x.hold = .none → (x.see n).avail = true → (t.queue q).st = .bound))))

/-- DB_CTL: RESUME takes a HALTED or ERROR queue with work back to its slot, BOUND or, where its next instruction waits, WAITING, or to READY where it
has none; ABORT, with or without RESUME, of a queue with nothing in flight empties it and leaves it IDLE. -/
def Says.DbCtlResumesAndAborts : Prop :=
  ∀ (s : State) (q : Nat) (w : DbWrite), BellOk s q → s.fenceOf q ≠ 1 → (w.size = 4 ∨ w.size = 8) →
    let x := s.queue q
    (w.val.testBit 1 = false → w.val.testBit 0 = true → (x.st = .halted ∨ x.st = .error) → x.hasWork = true →
      Answers (exec (.dbCtlResume q w) s) (fun t => (t.queue q).st = (if x.slot.isSome then x.onward else .ready) ∧ (t.queue q).errPend = false
        ∧ (t.queue q).fetch = x.fetch ∧ (t.queue q).tail = x.tail ∧ t.core.mem = s.core.mem)
      ∧ (x.cur = none → x.beyond = 0 → x.hold = .none → x.onward = .bound))
    ∧ (w.val.testBit 1 = true → x.fl = [] → x.held = [] → x.aside = none → x.stalled = none → x.st ≠ .preempted → (∀ v, x.hold ≠ .gate v) →
      Answers (exec (.dbCtlAbort q w) s) (fun t => (t.queue q).st = .idle ∧ (t.queue q).head = x.tail ∧ (t.queue q).fetch = x.tail
        ∧ (t.queue q).tail = x.tail ∧ (t.queue q).cur = none ∧ (t.queue q).hold = .none ∧ t.core.mem = s.core.mem))

/-- INSTRUCTION_DISPATCH of a unit's instruction that passes its checks: the entry that the ring holds goes to the end of its slot's share, under the
next sequence number, and where the share is full it stalls its core until it is set aside and an entry comes free. SAMPLE_COUNTDOWN is the same dispatch,
where the countdown of the queue's core comes to 0 with it. -/
def Says.DispatchFillsShare : Prop :=
  ∀ (s : State) (q : Nat) (r : SlotRef),
    let x := s.queue q
    let a := x.ring + 64 * (x.fetch % 2 ^ x.rsz)
    let raw := leNat (s.vget x.ctx a 64 false).1
    let e : Entry := ⟨q, x.nextSeq, raw, x.ctx, ixSums raw x.c⟩
    let share := mgetD s.core.qm.eiq (slotKey r) []
    s.dispatching = true → s.mayDispatch q = true → x.cur = none → x.avail = true → x.slot = some r →
    s.vcheck x.ctx a 64 false false = .none → (s.vget x.ctx a 64 false).2 = false →
    firstBad (s.headerBad x raw) = none → opControl (iOp raw) = false → refMode (iWait raw) = 0 → iTag raw = 0xFFFF →
    (s.autoTag x.ctx).isSome = true → x.crFree ≠ 0 →
    ∀ c : Instr, c = .instructionDispatch q ∨ (c = .sampleCountdown q ∧ (mgetD s.core.pmc.kc (kcOf x q) {}).count ≤ 1) →
    Answers (exec c s) (fun t =>
      (t.queue q).fetch = (x.fetch + 1) % x.rmod ∧ (t.queue q).nextSeq = x.nextSeq + 1 ∧ (t.queue q).reserved = x.reserved + 1
      ∧ (share.length < shareOf x.cls → mgetD t.core.qm.eiq (slotKey r) [] = share ++ [e] ∧ (t.queue q).stalled = none)
      ∧ (shareOf x.cls ≤ share.length → mgetD t.core.qm.eiq (slotKey r) [] = share ∧ (t.queue q).stalled = some e))

/-- A stalled instruction whose share is still full is set aside, counted and frees its core; it enters the share once an entry is free, set aside or
still stalled. -/
def Says.SetAsideMoves : Prop :=
  ∀ (s : State) (q : Nat) (e : Entry) (r : SlotRef), s.dispatching = true →
    ((s.queue q).stalled = some e → s.shareFull q = false → exec (.setAside q) s = .next s)
    ∧ ((s.queue q).stalled = some e → s.shareFull q = true →
      Answers (exec (.setAside q) s) (fun t => t.queue q = { s.queue q with stalled := none, stall := 0, aside := some e }
        ∧ t.counter (qmgBase + 0x110) = (s.counter (qmgBase + 0x110) + 1) % 2 ^ 64 ∧ t.core.qm.eiq = s.core.qm.eiq ∧ t.core.mem = s.core.mem))
    ∧ (((s.queue q).aside = some e ∨ ((s.queue q).aside = none ∧ (s.queue q).stalled = some e)) → (s.queue q).slot = some r → (mgetD s.core.qm.eiq (slotKey r) []).length < shareOf (s.queue q).cls →
      Answers (exec (.setAsideWrite q) s) (fun t => mgetD t.core.qm.eiq (slotKey r) [] = mgetD s.core.qm.eiq (slotKey r) [] ++ [e]
        ∧ (t.queue q).aside = none ∧ (t.queue q).stalled = none ∧ t.core.mem = s.core.mem))

/-- QUEUE_BIND gives a queue that may be bound the slot and the slot the queue, and its home is the unit's quarter; a queue IDLE for 10 us gives its
slot back, and not before. -/
def Obligations.BindingHolds : Prop :=
  ∀ (s : State) (q : Nat) (r : SlotRef), s.live = true →
    (s.mayBind q r = true → mget s.core.saved q = none →
      Answers (exec (.queueBind q r) s) (fun t => (t.queue q).slot = some r ∧ mget t.core.qm.slots (slotKey r) = some q ∧ (t.queue q).st = .bound
        ∧ (t.queue q).home = s.quarterOf r.cls r.unit ∧ (∀ p, p ≠ q → t.queue p = s.queue p)))
    ∧ ((s.queue q).st = .idle → (s.queue q).slot = some r →
      ((s.queue q).idleFt + 10000 ≤ s.now → Answers (exec (.queueIdleUnbind q) s) (fun t =>
        t.queue q = { s.queue q with slot := none } ∧ mget t.core.qm.slots (slotKey r) = none ∧ t.core.mem = s.core.mem))
      ∧ (s.now < (s.queue q).idleFt + 10000 → exec (.queueIdleUnbind q) s = .next s))

/-- Flags: a host write queues its set and clear for the flag's next update cycle; in the cycle sets win over clears, COUNT rises by the number of
sets, and a waiter in mode TAKE leaves the flag clear and its queue notified. Writes outside an allocated block do nothing. -/
def Obligations.FlagUpdates : Prop :=
  ∀ (s : State) (f : Nat), s.dispatching = true → f < 2 ^ 20 →
    (mhas s.core.qm.owner (f / 256) = true →
      Answers (exec (.flagHostWrite f (2 ^ 62 + 2 ^ 63)) s) (fun t =>
        mgetD t.core.qm.upd f [] = mgetD s.core.qm.upd f [] ++ [⟨true, none⟩, ⟨false, none⟩] ∧ t.core.qm.flags = s.core.qm.flags ∧ t.core.mem = s.core.mem))
    ∧ (mhas s.core.qm.owner (f / 256) = false → ∀ v, exec (.flagHostWrite f v) s = .next s)
    ∧ ((∀ w ∈ s.core.qm.waiters, w.flag ≠ f) → ∀ us, mget s.core.qm.upd f = some us →
      Answers (exec (.flagUpdateCycle f) s) (fun t =>
        (t.flag f).count = ((s.flag f).count + (us.filter (·.set)).length) % 65536 ∧ mget t.core.qm.upd f = none
        ∧ ((∃ u ∈ us, u.set = true) → (t.flag f).state = true) ∧ ((∃ u ∈ us, u.set = true) ∨ us = [] ∨ (t.flag f).state = false)
        ∧ (∀ g, g ≠ f → t.flag g = s.flag g) ∧ t.core.mem = s.core.mem))
    ∧ (∀ w : Waiter, s.core.qm.waiters = [w] → w.flag = f → w.mode = 2 → w.seq = none → mget s.core.qm.upd f = some [⟨true, none⟩] →
      Answers (exec (.flagUpdateCycle f) s) (fun t => (t.flag f).state = false ∧ (t.flag f).count = ((s.flag f).count + 1) % 65536
        ∧ t.core.qm.waiters = [] ∧ w.q ∈ t.core.qm.notes))

/-- Waits, completions: a notified WAITING queue is BOUND again; a finished instruction completes and is no longer in flight; a dispatch wait whose
timeout expires completes its instruction with WAIT_TIMEOUT, stops its queue in ERROR and is counted. -/
def Obligations.WaitsAndCompletions : Prop :=
  ∀ (s : State) (q : Nat), s.dispatching = true →
    (q ∈ s.core.qm.notes → (s.queue q).st = .waiting →
      Answers (exec (.notify q) s) (fun t => t.queue q = { s.queue q with st := .bound } ∧ t.core.qm.notes = s.core.qm.notes.erase q ∧ t.core.mem = s.core.mem))
    ∧ (∀ seq i, (s.queue q).inst seq = some i → i.done = true →
      Answers (exec (.instructionComplete q seq) s) (fun t => (t.queue q).inst seq = none ∧ (t.queue q).fetch = (s.queue q).fetch))
    ∧ (∀ (w : Waiter) (c : Cur), s.core.qm.waiters.find? (fun w => w.q = q && w.seq = none) = some w → (s.queue q).cur = some c →
        s.timeoutOf w ≠ 0 → w.ft + 64 * s.timeoutOf w ≤ s.now → (s.queue q).crFree ≠ 0 → (s.queue q).fl = [] → (s.queue q).st = .waiting →
        (s.queue q).cont = false → (s.queue q).destroying = false → (s.queue q).aborting = false →
      Answers (exec (.waitTimeout q none) s) (fun t => (t.queue q).st = .error ∧ (t.queue q).cur = none
        ∧ (t.queue q).fetch = ((s.queue q).fetch + 1) % (s.queue q).rmod
        ∧ t.counter (qmgBase + 0x128) = (s.counter (qmgBase + 0x128) + 1) % 2 ^ 64))
    ∧ (∀ (w : Waiter) seq, s.core.qm.waiters.find? (fun w => w.q = q && w.seq = seq) = some w → s.now < w.ft + 64 * s.timeoutOf w →
        exec (.waitTimeout q seq) s = .next s)

/-! QMG commands -/

/-- While a command of the QMG block is in progress another is discarded. -/
def Says.QmgBusyDiscards : Prop :=
  ∀ s : State, s.cmdBusy 0 = true → ∀ c ∈ [Instr.cqCreate, .cqModify, .cqDestroy, .cqRead, .flagAlloc, .flagFree, .tagRange, .errRing], exec c s = .next s

/-- CQ_CREATE enables a DISABLED queue with a valid descriptor; CQ_MODIFY replaces the descriptor of an IDLE one that has no slot, whose indices stay, modulo
the sizes of its new rings (the model's choice, log 95); CQ_DESTROY of one
with nothing in flight disables it; CQ_READ returns the descriptor. Each ends with RESULT 0 and CMD_DONE. A bad descriptor: RESULT 0x8C, and no
change of the queue. -/
def Says.QueueCommands : Prop :=
  ∀ s : State, s.dispatching = true → s.cmdBusy 0 = false →
    let q := bits (s.arg qmgBase 0) 0 15
    let d := s.cmdData qmgBase 16
    let x := s.queue q
    let done (t : State) (op code : Nat) : Prop := (mgetD t.core.cmds 0 {}).busy = false ∧ (mgetD t.core.cmds 0 {}).op = op
      ∧ (mgetD t.core.cmds 0 {}).result = code ∧ t.flagBit qmgInt 3 = true
    (x.st = .disabled → s.descBad d = false → s.descAbsent d = false →
      Answers (exec .cqCreate s) (fun t => done t 1 0 ∧ (t.queue q).st = .idle ∧ (t.queue q).desc = withHome d 0 ∧ (t.queue q).fetch = 0
        ∧ (t.queue q).tail = 0 ∧ ∀ p, p ≠ q → t.queue p = s.queue p))
    ∧ (s.descBad d = true → Answers (exec .cqCreate s) (fun t => done t 1 0x8C ∧ t.queue q = x) ∧ Answers (exec .cqModify s) (fun t => done t 2 0x8C ∧ t.queue q = x))
    ∧ (x.st = .idle → x.slot = none → s.descBad d = false → s.descAbsent d = false →
      Answers (exec .cqModify s) (fun t => done t 2 0 ∧ (t.queue q).st = .idle ∧ (t.queue q).desc = withHome d x.home
        ∧ (t.queue q).tail = x.tail % (t.queue q).rmod))
    ∧ (x.st ≠ .disabled → x.st ≠ .preempted → x.fl = [] → x.held = [] → x.aside = none → x.stalled = none → s.fenceOf q ≠ 1 →
      Answers (exec .cqDestroy s) (fun t => done t 3 0 ∧ (t.queue q).st = .disabled ∧ (t.queue q).slot = none))
    ∧ Answers (exec .cqRead s) (fun t => done t 4 0 ∧ t.queue q = x ∧ ∀ i, i < 16 → t.reg (fldData qmgBase i) = bits (withHome x.desc x.home) (32 * i) 32)

/-- FLAG_ALLOC gives a usable context the lowest free block, cleared; FLAG_FREE takes an allocated block without waiters back; TAG_RANGE and ERR_RING
set what the header checks and the error records use, and the context's entry in the table follows. -/
def Obligations.ContextResourceCommands : Prop :=
  ∀ s : State, s.dispatching = true → s.cmdBusy 0 = false → memWf s.core.mem.hbm = true →
    let c := bits (s.arg qmgBase 0) 0 12
    let a := s.reg fldCtxtBase + 128 * c
    let ok (t : State) : Prop := (mgetD t.core.cmds 0 {}).result = 0 ∧ t.flagBit qmgInt 3 = true ∧ t.core.qm.queues = s.core.qm.queues
    let kept (t : State) : Prop := t.core.mem = s.core.mem
    let table (t : State) : Prop := (s.dpaOk a = true → memNat t.core.mem.hbm a 128 = (t.ctx c).word % 2 ^ 1024)
      ∧ ∀ b, (b < a ∨ a + 128 ≤ b) → memRead t.core.mem.hbm b = memRead s.core.mem.hbm b
    (∀ b, s.ctxUsable c = true → firstFree 4096 (s.core.qm.owner.map (·.1)) = some b →
      Answers (exec .flagAlloc s) (fun t => ok t ∧ kept t ∧ mget t.core.qm.owner b = some c ∧ t.reg (fldArg qmgBase 1) = b ∧ ∀ f, f / 256 = b → t.flag f = {}))
    ∧ (mhas s.core.qm.owner c = true → (∀ w ∈ s.core.qm.waiters, w.flag / 256 ≠ c) →
      Answers (exec .flagFree s) (fun t => ok t ∧ kept t ∧ mget t.core.qm.owner c = none))
    ∧ (let f := bits (s.arg qmgBase 0) 16 16
       let n := bits (s.arg qmgBase 1) 0 17
       s.ctxUsable c = true → n ≠ 0 → f + n ≤ 65536 → (∀ e ∈ s.core.mmu.ctxs, e.1 ≠ c → e.2.tagCount = 0) → s.tagsOf c = [] →
      Answers (exec .tagRange s) (fun t => ok t ∧ table t ∧ t.ctx c = { s.ctx c with tagFirst := f, tagCount := n, tagNext := f }))
    ∧ (let n := bits (s.arg qmgBase 1) 0 5
       s.ctxUsable c = true → 7 ≤ n → n ≤ 16 →
      Answers (exec .errRing s) (fun t => ok t ∧ table t
        ∧ t.ctx c = { s.ctx c with errBase := bits (s.arg qmgBase 1) 12 44, errN := n, errSet := true, errPos := 0, errFull := false }))

/-! Contexts, translation, faults, pre-emption -/

/-- CTX_CREATE makes a FREE context with a valid entry ACTIVE; CTX_MODIFY changes a usable one's entry and nothing else of it; CTX_READ returns the entry
and changes no context; an invalid request ends with RESULT 0x8C and no context changed. -/
def Says.ContextCommands : Prop :=
  ∀ s : State, s.dispatching = true → s.cmdBusy 1 = false →
    let c := s.cmdCtx
    let d := s.cmdEntry
    let done (t : State) (code : Nat) : Prop := (mgetD t.core.cmds 1 {}).result = code ∧ (mgetD t.core.cmds 1 {}).busy = false
      ∧ t.flagBit mmuInt 3 = true ∧ t.core.qm = s.core.qm
    (c ≠ 0 → (s.ctx c).st = .free → s.entryBad c d = false →
      Answers (exec .ctxCreate s) (fun t => done t 0 ∧ t.ctx c = { st := .active, entry := entryKept d } ∧ ∀ b, b ≠ c → t.ctx b = s.ctx b))
    ∧ ((c = 0 ∨ (s.ctx c).st ≠ .free) → Answers (exec .ctxCreate s) (fun t => done t 0x8C ∧ t.core.mmu = s.core.mmu ∧ t.core.mem = s.core.mem))
    ∧ (s.ctxUsable c = true → s.entryBad c d = false → (s.ctx c).st = .suspended →
      Answers (exec .ctxModify s) (fun t => done t 0 ∧ t.ctx c = { s.ctx c with entry := entryKept d } ∧ ∀ b, b ≠ c → t.ctx b = s.ctx b))
    ∧ (s.ctxUsable c = true → (s.ctx c).st = .active → bits (entryKept d) 32 20 ≠ bits (s.ctx c).entry 32 20 →
      Answers (exec .ctxModify s) (fun t => done t 0x8C ∧ t.core.mmu = s.core.mmu))
    ∧ Answers (exec .ctxRead s) (fun t => done t 0 ∧ t.core.mmu = s.core.mmu ∧ t.core.mem = s.core.mem
        ∧ ∀ i, i < 32 → t.reg (fldData mmuBase i) = bits (s.ctx c).word (32 * i) 32)

/-- CTX_KILL leaves the context KILLED, its queues DISABLED, no flag block allocated to it and no translation of it cached; CTX_DESTROY frees a KILLED
context that holds nothing in flight and has no record that waits, and refuses one that does. -/
def Says.KillAndDestroy : Prop :=
  ∀ s : State, s.dispatching = true → s.cmdBusy 1 = false →
    let c := s.cmdCtx
    (s.ctxUsable c = true → Answers (exec .ctxKill s) (fun t =>
      (t.ctx c).st = .killed ∧ t.flagBit mmuInt 1 = true ∧ (mgetD t.core.cmds 1 {}).result = 0
      ∧ (∀ q ∈ s.queuesOf c, (t.queue q).st = .disabled) ∧ (∀ b, mget t.core.qm.owner b ≠ some c) ∧ (∀ e ∈ t.core.mmu.tlb, e.ctx ≠ c)))
    ∧ ((s.ctx c).st = .killed → (s.ctx c).infl = 0 → s.recordsLeft c = 0 → Answers (exec .ctxDestroy s) (fun t =>
      t.ctx c = {} ∧ (mgetD t.core.cmds 1 {}).result = 0 ∧ (s.fencedFor c = [] → ∀ b, b ≠ c → t.ctx b = s.ctx b)))
    ∧ (((s.ctx c).st ≠ .killed ∨ (s.ctx c).infl ≠ 0 ∨ s.recordsLeft c ≠ 0) → Answers (exec .ctxDestroy s) (fun t =>
      t.core.mmu = s.core.mmu ∧ (mgetD t.core.cmds 1 {}).result = 0x8C))

/-- PREEMPT of an ACTIVE context takes a queue bound to an MVU out of its slot with its share saved; a context with nothing bound is SUSPENDED. RESUME
makes it ACTIVE and its PREEMPTED queues READY. -/
def Obligations.PreemptAndResume : Prop :=
  ∀ s : State, s.dispatching = true → s.cmdBusy 1 = false →
    let c := s.cmdCtx
    ((s.ctx c).st = .active → (s.arg mmuBase 0).testBit 16 = true → s.boundOf c = [] →
      Answers (exec .preempt s) (fun t => (t.ctx c).st = .suspended ∧ t.flagBit mmuInt 2 = true ∧ (mgetD t.core.cmds 1 {}).result = 0))
    ∧ (∀ q r, (s.ctx c).st = .active → (s.arg mmuBase 0).testBit 16 = true → s.boundOf c = [(q, r)] → r.cls = 4 → (s.queue q).slot = some r →
      Answers (exec .preempt s) (fun t => (t.queue q).st = .preempted ∧ (t.queue q).slot = none ∧ (t.queue q).left = some r
        ∧ (t.queue q).saved = mgetD s.core.qm.eiq (slotKey r) [] ∧ mget t.core.qm.eiq (slotKey r) = none ∧ t.mvu r.unit = {}))
    ∧ ((s.ctx c).st = .suspended → Answers (exec .resume s) (fun t => (t.ctx c).st = .active ∧ (mgetD t.core.cmds 1 {}).result = 0
        ∧ (∀ q, (s.queue q).ctx = c → (s.queue q).st = .preempted → (t.queue q).st = .ready)
        ∧ (∀ q, (∀ e ∈ s.core.qm.queues, e.1 = q → e.2.st ≠ .preempted ∨ e.2.ctx ≠ c) → t.queue q = s.queue q)))
    ∧ ((s.ctx c).st ≠ .suspended → Answers (exec .resume s) (fun t => t.core.qm = s.core.qm ∧ t.core.mmu = s.core.mmu ∧ (mgetD t.core.cmds 1 {}).result = 0x8C))

/-- TLB_INV discards every cached translation of the range; TABLE_WALK caches the leaf it finds in the unit's
TLB and its quarter's, a leaf that the quarter's holds in the unit's, and nothing where it finds none; only a miss in the quarter's walks and counts. -/
def Says.TranslationCache : Prop :=
  ∀ s : State, s.dispatching = true →
    (s.cmdBusy 1 = false →
      let a := s.arg mmuBase 0
      let first := bits (s.arg mmuBase 1) 12 44 * 4096
      Answers (exec .tlbInv s) (fun t =>
        (∀ e ∈ t.core.mmu.tlb, e ∈ s.core.mmu.tlb ∧ ¬ (e.ctx = bits a 0 12 ∧ meetsRange first (bits a 32 32) (e.page * e.size) e.size = true))
        ∧ (∀ e ∈ s.core.mmu.tlb, ¬ (e.ctx = bits a 0 12 ∧ meetsRange first (bits a 32 32) (e.page * e.size) e.size = true) → e ∈ t.core.mmu.tlb)
        ∧ t.core.qm = s.core.qm))
    ∧ (∀ (who : Walker) (va : Nat), who.ctx ≠ 0 → (s.ctx who.ctx).st ≠ .free →
      let hit := s.tlbHit (s.tlbQuarter who.unit) who.ctx va
      (∀ t, hit = some t → exec (.tableWalk who va) s = .next { s with core.mmu.tlb := tlbFill s.core.mmu.tlb { t with tlb := unitTlb who.unit } })
      ∧ (∀ level e, hit = none → s.walk who.ctx va = .ok (level, e) → Answers (exec (.tableWalk who va) s) (fun t =>
        let leaf (k : Nat) : TlbEntry := ⟨who.ctx, va / leafSize level e, leafSize level e, e, k⟩
        leaf (unitTlb who.unit) ∈ t.core.mmu.tlb ∧ leaf (s.tlbQuarter who.unit) ∈ t.core.mmu.tlb
        ∧ t.counter (mmuBase + 0x100) = (s.counter (mmuBase + 0x100) + 1) % 2 ^ 64 ∧ t.core.mem = s.core.mem ∧ t.core.qm = s.core.qm))
      ∧ (∀ k, hit = none → s.walk who.ctx va = .error k → Answers (exec (.tableWalk who va) s) (fun t =>
        t.counter (mmuBase + 0x100) = (s.counter (mmuBase + 0x100) + 1) % 2 ^ 64 ∧ t.core.mmu = s.core.mmu ∧ t.core.mem = s.core.mem)))

/-- FAULT_RESOLVE with RETRY frees the fault and lets what stopped at it go on; FAULT_TIMEOUT ends an instruction that stopped at it with
TRANSLATION_FAULT, and before FAULT_TMO does nothing. (Nothing of a collective engine stands at the fault here: what does goes on by itself.) -/
def Says.FaultsEnd : Prop :=
  ∀ (s : State) (fid : Nat) (f : PageFault), s.dispatching = true → mget s.core.mmu.faults fid = some f → f.rings = [] →
    (∀ b ∈ s.core.rce.buckets, b.2.fid ≠ some fid) → (∀ x ∈ s.core.rce.slots, x.fid ≠ some fid) →
    (s.cmdBusy 1 = false → bits (s.arg mmuBase 0) 0 10 = fid → (s.arg mmuBase 0).testBit 16 = false →
      (∀ j ∈ s.core.rce.gathers, ∀ x ∈ f.stopped, j.e.is x.1 x.2 = false) →
      Answers (exec .faultResolve s) (fun t => mget t.core.mmu.faults fid = none ∧ (mgetD t.core.cmds 1 {}).result = 0
        ∧ (∀ x ∈ f.stopped, ∀ i, (t.queue x.1).inst x.2 = some i → i.fid = none) ∧ t.core.mem = s.core.mem))
    ∧ (∀ q seq, f.stopped = [(q, seq)] → s.stoppedAt fid q seq = true → f.fetches = [] → f.streams = [] → s.jobOf q seq = none → s.closingOf q seq = [] →
      (s.ctx f.ctx).faultTmo ≠ 0 → f.ft + 64 * (s.ctx f.ctx).faultTmo ≤ s.now →
      Answers (exec (.faultTimeout fid) s) (fun t => mget t.core.mmu.faults fid = none
        ∧ ∀ i, (t.queue q).inst seq = some i → i.done = true ∧ mhas i.outs 7 = true))
    ∧ (s.now < f.ft + 64 * (s.ctx f.ctx).faultTmo → exec (.faultTimeout fid) s = .next s)

/-- ATS and PRI: a completion fills the translation cache; a refusal makes a page request where PRI may be used; a response ends the request, with
failure refusing the page; a timeout and PRI's disabling refuse; an invalidation leaves nothing cached of its range. -/
def Obligations.HostTranslation : Prop :=
  ∀ s : State, s.live = true → (∀ e ∈ s.core.qm.queues, e.2.held = []) → (∀ e ∈ s.core.mmu.ctxs, e.2.errWait = []) → s.core.mmu.killRecs = [] →
    (∀ ctx addr host w r, s.core.mmu.ats.find? (fun r => r.ctx = ctx && r.page = addr / 4096) = some r →
      Answers (exec (.atsCompletion ctx addr host w true) s) (fun t =>
        (⟨r.pasid, addr / 4096, host / 4096, w⟩ : AtcEntry) ∈ t.core.mmu.atc ∧ t.core.mmu.ats = s.core.mmu.ats.erase r)
      ∧ ((s.ctx ctx).flag 1 = true → s.core.mmu.priOn = true → s.core.mmu.prg.length < s.core.mmu.priAlloc →
        Answers (exec (.atsCompletion ctx addr host w false) s) (fun t => t.core.mmu.atc = s.core.mmu.atc
          ∧ t.core.mmu.prg = s.core.mmu.prg ++ [⟨ctx, addr / 4096, w, s.core.mmu.prgNext, s.now, r.pasid⟩])))
    ∧ (∀ p : PageReq, s.core.mmu.prg = [p] →
      Answers (exec (.prgResponse p.index p.pasid 0) s) (fun t => t.core.mmu.prg = [] ∧ t.core.mmu.refused = s.core.mmu.refused)
      ∧ Answers (exec (.prgResponse p.index p.pasid 1) s) (fun t => t.core.mmu.prg = [] ∧ (p.ctx, p.addr, 6) ∈ t.core.mmu.refused)
      ∧ ((s.ctx p.ctx).faultTmo ≠ 0 → p.ft + 64 * (s.ctx p.ctx).faultTmo ≤ s.now →
        Answers (exec (.priTimeout p.index) s) (fun t => t.core.mmu.prg = [] ∧ (p.ctx, p.addr, 6) ∈ t.core.mmu.refused)))
    ∧ Answers (exec .priDisable s) (fun t => t.core.mmu.prg = [] ∧ t.core.mmu.priOn = false ∧ ∀ p ∈ s.core.mmu.prg, (p.ctx, p.addr, 6) ∈ t.core.mmu.refused)
    ∧ (∀ pasid page n, Answers (exec (.atsInvalidation pasid page n) s) (fun t =>
        (∀ e ∈ t.core.mmu.atc, ¬ (e.pasid = pasid ∧ page ≤ e.page ∧ e.page < page + n))
        ∧ t.core.mmu.invDone + t.core.mmu.invs.length = s.core.mmu.invDone + s.core.mmu.invs.length + 1))

/-- An instruction whose DEADLINE passes, by the copy of FT of its queue's quarter (R27, R38), in a queue with LATE_ABORT, before it had an effect, ends with DEADLINE_MISS; before its DEADLINE, without
LATE_ABORT, or once it is done, nothing happens. -/
def Says.DeadlineAborts : Prop :=
  ∀ (s : State) (q seq : Nat) (i : InFlight), s.live = true → (s.queue q).inst seq = some i →
    ((s.queue q).lateAbort = true → i.deadline ≠ 0 → i.deadline ≤ s.nowAt (s.dieOf q) → i.done = false → i.ctl = false → i.effect = false →
      s.jobOf q seq = none → s.closingOf q seq = [] → (∀ j ∈ s.core.rce.gathers, j.e.is q seq = false) →
      Answers (exec (.deadlineAbort q seq) s) (fun t => ∀ k, (t.queue q).inst seq = some k → k.done = true ∧ mget k.outs 3 ≠ none))
    ∧ (((s.queue q).lateAbort = false ∨ i.deadline = 0 ∨ s.nowAt (s.dieOf q) < i.deadline ∨ i.done = true) → exec (.deadlineAbort q seq) s = .next s)

/-- FENCE_DUMP of a fenced partition ends with RESULT 0 and leaves the partition as it is; of one that is not fenced, 0x8C; of an absent engine, 0x86. -/
def Says.FenceDumpReads : Prop :=
  ∀ s : State, s.dispatching = true → s.cmdBusy 1 = false →
    let n := bits (s.arg mmuBase 0) 0 6
    let f := ((s.ope n).part (bits (s.arg mmuBase 0) 8 2)).fence
    Answers (exec .fenceDump s) (fun t => t.core.opes = s.core.opes ∧ t.core.mem.hbm = s.core.mem.hbm ∧ t.flagBit mmuInt 3 = true
      ∧ (mgetD t.core.cmds 1 {}).result = (if s.opeCount ≤ n then 0x86 else if f = 0 then 0x8C else 0))

/-! Memory tiers, pool, flash -/

/-- Memory reads back what was written, and every other byte as before; every write keeps the canonical form. -/
def Obligations.MemoryReadBack : Prop :=
  ∀ (s : State) (a : Nat) (bs : List Byte), memWf s.core.mem.hbm = true →
    (∀ i (h : i < bs.length), memRead (s.hbmWrite a bs).core.mem.hbm (a + i) = bs[i])
    ∧ (∀ b, (b < a ∨ a + bs.length ≤ b) → memRead (s.hbmWrite a bs).core.mem.hbm b = memRead s.core.mem.hbm b)
    ∧ memWf (s.hbmWrite a bs).core.mem.hbm = true
    ∧ (∀ l, s.core.mem.badLines.contains l = true → (l * 64 < a ∨ a + bs.length < l * 64 + 64) → (s.hbmWrite a bs).core.mem.badLines.contains l = true)
    ∧ (∀ l, a ≤ l * 64 → l * 64 + 64 ≤ a + bs.length → (s.hbmWrite a bs).core.mem.badLines.contains l = false)

/-- POOL_MISS takes the lowest free pool TU of the stack and begins a fill, one from flash where the transfer buffer has room (R12); POOL_FILL_DONE lands the home's bytes there, with
a write that waited over them, and the TU is resident. -/
def Says.PoolFills : Prop :=
  ∀ (s : State) (key : Nat) (p : PoolTu),
    (∀ ctx va w l k i, s.dispatching = true → s.xlate ctx va w false = .ok l → poolKey l = some (key, k) → mget s.core.mem.pool key = none →
      s.residentOf ctx < s.resQuota ctx → firstFree (s.poolTus k) (s.poolUsed k) = some i →
      ((s.poolEntry key k ctx).t1 = false ∨ s.flashRoom = true) →
      Answers (exec (.poolMiss ctx va w) s) (fun t =>
        (∃ x, mget t.core.mem.pool key = some x ∧ x.index = i ∧ x.filling = true ∧ x.resident = false ∧ x.owner = ctx ∧ x.stack = k)
        ∧ t.counter (memBase k + 0x118) = (s.counter (memBase k + 0x118) + 1) % 2 ^ 64 ∧ t.core.mem.hbm = s.core.mem.hbm))
    ∧ (s.live = true → mget s.core.mem.pool key = some p → p.filling = true → p.t1 = true → p.home ∉ s.core.mem.readQ →
      s.flashMarked (p.home * tuBytes) = false → memWf s.core.mem.hbm = true →
      Answers (exec (.poolFillDone key) s) (fun t =>
        (∃ x, mget t.core.mem.pool key = some x ∧ x.resident = true ∧ x.filling = false ∧ x.dirty = (p.dirty || !p.writes.isEmpty) ∧ x.index = p.index)
        ∧ (p.writes = [] → ∀ i, i < tuBytes → memRead t.core.mem.hbm (s.poolDpa p.stack p.index + i) = memRead s.core.mem.flash (p.home * tuBytes + i))
        ∧ (∀ off bs, p.writes = [(off, bs)] → off + bs.length ≤ tuBytes →
            ∀ i (h : i < bs.length), memRead t.core.mem.hbm (s.poolDpa p.stack p.index + off + i) = bs[i])
        ∧ t.core.mem.flash = s.core.mem.flash))

/-- EVICTOR_RUN below LOW, and then until HIGH, frees the one clean candidate, and writes the one dirty one home and marks its write-back; not at work
and at LOW or above it does nothing. The acknowledgement frees the TU, or leaves it dirty where it was written again; a refusal keeps it resident with an image pin, and a CXL.cache write
that fails leaves host memory as it was. -/
def Says.EvictionFrees : Prop :=
  ∀ (s : State) (key : Nat) (p : PoolTu),
    (s.dispatching = true → s.core.mem.pool = [(key, p)] → p.candidate = true → s.stackPresent p.stack = true → (s.poolFree p.stack < (s.wm p.stack).1 ∨ s.core.mem.evOn.contains p.stack = true) →
      s.poolFree p.stack + s.evicting p.stack < (s.wm p.stack).2 →
      (p.dirty = false → Answers (exec (.evictorRun p.stack) s) (fun t => mget t.core.mem.pool key = none))
      ∧ (p.dirty = true → p.t1 = true → s.core.mem.flashRo = false →
          (∀ l ∈ s.core.mem.badLines, ¬ (s.poolDpa p.stack p.index ≤ l * 64 ∧ l * 64 < s.poolDpa p.stack p.index + tuBytes)) → Answers (exec (.evictorRun p.stack) s) (fun t =>
          t.core.mem.pool = [(key, { p with wb := true, evict := true, again := false, refused := false, old := [] })]
          ∧ t.core.mem.flash = memWrites s.core.mem.flash (p.home * tuBytes) (memReads s.core.mem.hbm (s.poolDpa p.stack p.index) tuBytes))))
    ∧ (∀ k, (s.wm k).1 ≤ s.poolFree k → k ∉ s.core.mem.evOn → exec (.evictorRun k) s = .next s)
    ∧ (s.live = true → mget s.core.mem.pool key = some p → p.wb = true →
      (p.refused = false → p.again = false → p.evict = true → p.pin = 0 →
        Answers (exec (.writebackAck key) s) (fun t => mget t.core.mem.pool key = none ∧ t.core.mem.hbm = s.core.mem.hbm))
      ∧ (p.refused = false → p.again = true → Answers (exec (.writebackAck key) s) (fun t =>
          mget t.core.mem.pool key = some { p with wb := false, evict := false, again := false, old := [] }))
      ∧ (p.refused = true → Answers (exec (.writebackRefused key) s) (fun t => t.flagBit (memInt p.stack) 2 = true
          ∧ mget t.core.mem.pool key = some { p with imagePin := true, wb := false, evict := false, refused := false, old := [] }))
      ∧ (p.refused = false → p.t1 = false → p.old ≠ [] → Answers (exec (.writebackRefused key) s) (fun t => t.flagBit (memInt p.stack) 2 = true
          ∧ t.core.mem.host = memWrites s.core.mem.host p.home p.old
          ∧ mget t.core.mem.pool key = some { p with imagePin := true, wb := false, evict := false, old := [] })))

/-- A flash read that cannot be corrected marks its TU; a recovery's program clears the mark and puts the replica's bytes in place; the tier turns read-only
once; DISCARD makes its range read as zeros and ends the marks in it; RECOVER with no TU marked ends at once. -/
def Obligations.FlashEvents : Prop :=
  ∀ (s : State) (tu : Nat),
    (s.live = true → tu < s.flashTus →
      Answers (exec (.flashReadDone tu true) s) (fun t => smem tu t.core.mem.marked = true ∧ tu ∉ t.core.mem.readQ
        ∧ (smem tu s.core.mem.marked = false → t.flagBit ftlInt 0 = true))
      ∧ Answers (exec (.flashReadDone tu false) s) (fun t => t.core.mem.marked = s.core.mem.marked ∧ tu ∉ t.core.mem.readQ ∧ t.core.mem.flash = s.core.mem.flash))
    ∧ (∀ bs, s.live = true → s.core.mem.progQ = [(tu, bs)] → smem tu s.core.mem.recovering = true →
      Answers (exec (.flashWriteDone tu) s) (fun t => t.core.mem.flash = memWrites s.core.mem.flash (tu * tuBytes) bs
        ∧ smem tu t.core.mem.marked = false ∧ smem tu t.core.mem.recovering = false ∧ t.core.mem.progQ = [] ∧ t.flagBit ftlInt 1 = true))
    ∧ (s.live = true → s.core.mem.flashRo = false →
      Answers (exec .ftlReadOnly s) (fun t => t.core.mem = { s.core.mem with flashRo := true } ∧ t.flagBit ftlInt 3 = true))
    ∧ (s.dispatching = true → s.cmdBusy 4 = false →
      (let a := s.reg (fldFtlArg 0)
       let n := s.reg (fldFtlArg 1)
       (a + n ≤ s.flashTus → Answers (exec .discard s) (fun t => (mgetD t.core.cmds 4 {}).result = 0
          ∧ (∀ b, a ≤ b / tuBytes → b / tuBytes < a + n → memRead t.core.mem.flash b = 0)
          ∧ (∀ b, (b / tuBytes < a ∨ a + n ≤ b / tuBytes) → memRead t.core.mem.flash b = memRead s.core.mem.flash b)
          ∧ (∀ u, a ≤ u → u < a + n → smem u t.core.mem.marked = false)))
       ∧ (s.flashTus < a + n → Answers (exec .discard s) (fun t => (mgetD t.core.cmds 4 {}).result = 0x8C ∧ t.core.mem = s.core.mem)))
      ∧ (s.core.mem.marked = [] → s.core.mem.recovering = [] →
        Answers (exec .recover s) (fun t => (mgetD t.core.cmds 4 {}).result = 0 ∧ (mgetD t.core.cmds 4 {}).busy = false ∧ t.core.mem = s.core.mem)))

/-! Host attachment -/

/-- The link: down, it drops unacknowledged record writes and raises its event, once; up, it is recorded as negotiated, with CXL only where the link
may carry it; an integrity failure raises its event and discards no state of a queue. -/
def Says.HostLinkMoves : Prop :=
  ∀ s : State, s.timing = true →
    (s.core.host.linkUp = true → Answers (exec .hostLinkDown s) (fun t => t.core.host.linkUp = false ∧ t.core.host.cacheOut = []
        ∧ t.flagBit hifInt 3 = true ∧ t.core.mem.hbm = s.core.mem.hbm ∧ t.core.qm = s.core.qm))
    ∧ (s.core.host.linkUp = false → exec .hostLinkDown s = .next s)
    ∧ (∀ rate width flit lopt cxl cache mem, s.core.boot.outs = true → s.core.boot.phase = .ready → s.core.host.linkUp = false →
      Answers (exec (.hostLinkUp rate width flit lopt cxl cache mem) s) (fun t => t.core.host.linkUp = true
        ∧ t.core.host.cxl = (cxl && linkOk rate width flit lopt) ∧ t.core.host.cacheOn = (cxl && linkOk rate width flit lopt && cache)
        ∧ t.core.host.memOn = (cxl && linkOk rate width flit lopt && mem) ∧ t.core.host.rate = rate % 16 ∧ t.flagBit hifInt 2 = true
        ∧ t.core.mem = s.core.mem))
    ∧ (s.core.host.linkUp = true → Answers (exec .ideIntegrityFailure s) (fun t => t.flagBit hifInt 4 = true ∧ t.core.host = s.core.host
        ∧ t.core.qm = s.core.qm ∧ t.core.mem = s.core.mem))
    ∧ (s.core.ras.frozen = false → s.live = true → Answers (exec .hostSnoop s) (fun t => t.core.mem = s.core.mem ∧ t.core.host.cacheOut = s.core.host.cacheOut
        ∧ t.core.host.snoops = s.core.host.snoops + 1))

/-- Record writes: the oldest is acknowledged first, and its interrupt follows; an invalidation completion that waits goes out with the last of what it
waits for. -/
def Says.RecordsAcknowledged : Prop :=
  ∀ (s : State) (w : CacheWr) (rest : List CacheWr), s.live = true → s.core.host.cacheOut = w :: rest →
    (∀ e ∈ s.core.qm.queues, e.2.held = []) → (∀ e ∈ s.core.mmu.ctxs, e.2.errWait = []) → s.core.mmu.killRecs = [] →
    Answers (exec (.cxlCacheCompletion 1) s) (fun t => t.core.host.cacheOut = rest ∧ t.core.mem = s.core.mem
      ∧ t.core.mmu.invs = (s.core.mmu.invs.map (fun i => { i with lines := i.lines - 1 })).filter InvWait.owed
      ∧ t.core.mmu.invDone + t.core.mmu.invs.length = s.core.mmu.invDone + s.core.mmu.invs.length
      ∧ (∀ v, w.vector = some v → s.core.irq.fmask = false → smem v s.core.irq.masked = false → mhas s.core.irq.busy v = false →
          mgetD t.core.irq.sent v 0 = mgetD s.core.irq.sent v 0 + 1)
      ∧ (w.vector = none → t.core.irq = s.core.irq))

/-- MSI-X: a masked vector is kept pending and sent when it is unmasked; at the end of a vector's interval the sets that came within it are sent once, and
nothing where none came. FLR puts MSI-X and the HIF registers back and leaves queues, contexts and memory. -/
def Obligations.MsixModeration : Prop :=
  ∀ (s : State) (v : Nat), s.timing = true → v < 2048 →
    ((s.core.irq.fmask = true ∨ smem v s.core.irq.masked = true) → smem v (s.sendVector v).core.irq.pba = true ∧ (s.sendVector v).core.irq.sent = s.core.irq.sent)
    ∧ (s.core.irq.pba = [v] → mhas s.core.irq.busy v = false →
      Answers (exec (.msixUnmask [] false) s) (fun t => t.core.irq.pba = [] ∧ mgetD t.core.irq.sent v 0 = mgetD s.core.irq.sent v 0 + 1))
    ∧ (∀ ft, mget s.core.irq.busy v = some ft → ft ≤ s.now → s.core.irq.fmask = false → smem v s.core.irq.masked = false →
      Answers (exec (.msixModExpiry v) s) (fun t =>
        mgetD t.core.irq.sent v 0 = mgetD s.core.irq.sent v 0 + (if s.core.irq.again.contains v then 1 else 0)
        ∧ t.core.irq.again.contains v = false ∧ t.core.qm = s.core.qm))
    ∧ (∀ ft, mget s.core.irq.busy v = some ft → s.now < ft → exec (.msixModExpiry v) s = .next s)
    ∧ Answers (exec .flr s) (fun t => t.core.irq.masked = [] ∧ t.core.irq.pba = [] ∧ t.core.irq.fmask = false ∧ t.reg fldModUsec = 0 ∧ t.reg fldEvtMask = 0
        ∧ t.reg fldHold = s.reg fldHold ∧ t.reg fldStallMax = s.reg fldStallMax ∧ t.core.qm = s.core.qm ∧ t.core.mem = s.core.mem
        ∧ t.core.mmu.ctxs = s.core.mmu.ctxs ∧ t.core.fab = s.core.fab)

/-- The CXL.mem window: committed once, in whole units; a line that the host writes is what it reads next, and no other byte of HBM changes; a poisoned
write marks the line, a later whole write clears the mark; a read returns the line with its poison, and where the host may cache it, its filter holds it. -/
def Says.WindowReadBack : Prop :=
  ∀ (s : State) (off a : Nat) (d : List Byte), s.live = true → s.core.host.linkUp = true → s.winDpa (off / 64 * 64) = some a → a % 64 = 0 → d.length = 64 →
    memWf s.core.mem.hbm = true →
    Answers (exec (.hostMemWrite off d false) s) (fun t =>
      (∀ b, (b < a ∨ a + 64 ≤ b) → memRead t.core.mem.hbm b = memRead s.core.mem.hbm b) ∧ t.core.host = s.core.host ∧ t.core.qm = s.core.qm
      ∧ Answers (exec (.hostMemRead off false false) t) (fun u => u.core.host.rdData = d ∧ u.core.host.rdBad = false ∧ u.core.mem = t.core.mem
          ∧ u.core.host.filter = s.core.host.filter))
    ∧ Answers (exec (.hostMemWrite off d true) s) (fun t => t.hbmPoison a 64 = true)
    ∧ (let served (t : State) : Prop := t.core.host.rdData = memReads s.core.mem.hbm a 64 ∧ t.core.host.rdBad = s.hbmPoison a 64 ∧ t.core.mem = s.core.mem
         ∧ t.core.qm = s.core.qm
       (∀ x, Answers (exec (.hostMemRead off false x) s) (fun t => served t ∧ t.core.host.filter = s.core.host.filter))
       ∧ (∀ x, (mhas s.core.host.filter (a / 64) = true ∨ (s.filterOf (a / 2 ^ 37)).length < filterCap) →
         Answers (exec (.hostMemRead off true x) s) (fun t => served t ∧ mget t.core.host.filter (a / 64) = some x)))

/-- HDM_COMMIT of frames of the direct region makes the window, as many units of 256 MiB as asked for and as the frames allow, and a second does nothing;
a back-invalidate response takes the line out of the filter, and a read that waited for room there is served. -/
def Says.WindowCommit : Prop :=
  ∀ s : State, s.live = true →
    (∀ frames, s.core.host.committed = false → s.core.host.memOn = true →
      Answers (exec (.hdmCommit frames) s) (fun t => t.core.host.committed = true
        ∧ t.core.host.winSize = min (s.reg fldWinReq) (((frames.filter s.directFrame).eraseDups).length / 128)
        ∧ t.core.host.win.length = 128 * t.core.host.winSize ∧ (∀ a ∈ t.core.host.win, s.directFrame a = true) ∧ t.core.mem = s.core.mem))
    ∧ (∀ frames, s.core.host.committed = true → exec (.hdmCommit frames) s = .next s)
    ∧ (∀ line inv, mget s.core.host.bisnp line = some inv → (∀ e ∈ s.core.qm.queues, e.2.held = []) → (∀ e ∈ s.core.mmu.ctxs, e.2.errWait = []) →
      s.core.mmu.killRecs = [] →
      (s.core.host.rdWait = [] → Answers (exec (.birsp line false) s) (fun t => mget t.core.host.filter line = none ∧ mget t.core.host.bisnp line = none ∧ t.core.mem = s.core.mem))
      ∧ (inv = false → s.core.host.rdWait = [] → Answers (exec (.birsp line true) s) (fun t => mget t.core.host.filter line = some false))
      ∧ (∀ a x, s.core.host.rdWait = [(a, x)] → mhas s.core.host.filter line = true → line / 2 ^ 31 = a / 2 ^ 37 → line ≠ a / 64 →
        (s.filterOf (a / 2 ^ 37)).length ≤ filterCap →
        Answers (exec (.birsp line false) s) (fun t => t.core.host.rdData = memReads s.core.mem.hbm a 64 ∧ t.core.host.rdWait = []
          ∧ mget t.core.host.filter (a / 64) = some x ∧ mget t.core.host.filter line = none)))

/-! Bedrock, mailbox, management -/

/-- The primary mailbox: each command it accepts answers Success with a payload where the spec lays none out; in recovery only Identify, Get FW Info,
Transfer FW and Activate FW are supported. A staged piece can be read back in place. -/
def Says.MailboxAnswers : Prop :=
  ∀ s : State,
    (s.live = true → ∀ c ∈ [Instr.identify, .getSupportedLogs, .mailboxGetLog, .getFwInfo, .getHealthInfo, .getTimestamp],
      Answers (exec c s) (fun t => t.core.host.mbox = some .success ∧ t.core.mem = s.core.mem ∧ t.core.qm = s.core.qm ∧ t.core.sec = s.core.sec))
    ∧ (s.core.boot.phase = .recovery → s.core.ras.frozen = false → ∀ c ∈ [Instr.getSupportedLogs, .mailboxGetLog, .getHealthInfo, .getTimestamp],
      Answers (exec c s) (fun t => t.core.host.mbox = some .unsupported ∧ t.core.sec = s.core.sec))
    ∧ (∀ data, s.live = true → s.core.sec.path ≠ 2 →
      Answers (exec (.transferFw 0 data) s) (fun t => t.core.host.mbox = some .success ∧ t.core.sec.staged = data ∧ t.core.sec.path = 1
        ∧ t.core.sec.bootArea = s.core.sec.bootArea))
    ∧ (s.live = true → s.core.sec.path ≠ 2 →
      Answers (exec .activateFw s) (fun t => t.core.host.mbox = some (if s.verifyImage s.core.sec.staged = 0 then .success else .invalidInput)
        ∧ t.core.sec.bootArea = (if s.verifyImage s.core.sec.staged = 0 then s.core.sec.staged else s.core.sec.bootArea)
        ∧ t.core.boot.phase = .ready ∧ (s.verifyImage s.core.sec.staged = 0 → t.core.sec.staged = [] ∧ t.flagBit secInt 2 = true)))
    ∧ (s.live = true → s.core.sec.path = 2 → Answers (exec .activateFw s) (fun t => t.core.host.mbox = some .busy ∧ t.core.sec = s.core.sec))

/-- Firmware update by PLDM: an update in progress turns another away; a verified component is applied to the boot area and an unverified one is not;
self-contained activation is refused. -/
def Says.PldmUpdate : Prop :=
  ∀ s : State, s.live = true →
    (∀ off d, s.core.sec.path = 0 → Answers (exec (.pldmFirmwareUpdate 0 off d) s) (fun t => t.core.sec.path = 2 ∧ t.core.sec.staged = [] ∧ t.core.pwr.mctp = some .success))
    ∧ (∀ off d, s.core.sec.path ≠ 0 → Answers (exec (.pldmFirmwareUpdate 0 off d) s) (fun t => t.core.sec = s.core.sec ∧ t.core.pwr.mctp = some .alreadyInUpdateMode))
    ∧ (∀ off d, s.core.sec.path = 2 →
      Answers (exec (.pldmFirmwareUpdate 2 off d) s) (fun t => t.core.sec.verified = decide (s.verifyImage s.core.sec.staged = 0)
        ∧ t.core.pwr.mctp = some (.verify (s.verifyImage s.core.sec.staged)) ∧ t.core.sec.bootArea = s.core.sec.bootArea)
      ∧ (s.core.sec.verified = true → Answers (exec (.pldmFirmwareUpdate 3 off d) s) (fun t => t.core.sec.bootArea = s.core.sec.staged ∧ t.core.sec.path = 0))
      ∧ (s.core.sec.verified = false → exec (.pldmFirmwareUpdate 3 off d) s = .next s))
    ∧ Answers (exec (.activateFirmware true) s) (fun t => t.core.pwr.mctp = some .activationNotSupported ∧ t.core.sec = s.core.sec)
    ∧ Answers (exec (.activateFirmware false) s) (fun t => t.core.pwr.mctp = some .success ∧ t.core.sec = s.core.sec)

/-- Identity: each signature takes the next index of the reserved block, never one twice; what finds no index left is answered EXHAUSTED and takes none.
A block is reserved at 64 left, and its indices are there once the record is written. -/
def Says.IdentityIndices : Prop :=
  ∀ s : State, s.bedrockOn = true →
    (∀ path payload, isPath path = true → payload.length = 36 → numAt payload 33 3 = 0 → s.exhausted = false → s.core.sec.queue = [] → s.core.sec.next < s.core.sec.blkEnd →
      Answers (exec (.quote path payload) s) (fun t => t.core.sec.next = s.core.sec.next + 1 ∧ (mget t.core.sec.resp path).map (·.1) = some 0x82
        ∧ t.core.sec.queue = []))
    ∧ (∀ path payload, isPath path = true → payload.length = 4 → s.logNamed (numAt payload 0 2) (numAt payload 2 2) 512 = true → s.exhausted = false →
      s.core.sec.queue = [] → s.core.sec.next < s.core.sec.blkEnd →
      Answers (exec (.getLog path payload) s) (fun t => t.core.sec.next = s.core.sec.next + 1 ∧ (mget t.core.sec.resp path).map (·.1) = some 0x83))
    ∧ (∀ payload, s.exhausted = false → s.core.sec.queue = [] → s.core.sec.next < s.core.sec.blkEnd →
      Answers (exec (.cmaSpdmRequest payload) s) (fun t => t.core.sec.next = s.core.sec.next + 1 ∧ mget t.core.sec.resp 3 = some (0, s.sign payload)))
    ∧ (∀ payload, s.exhausted = true → Answers (exec (.cmaSpdmRequest payload) s) (fun t => t.core.sec.next = s.core.sec.next ∧ t.flagBit secInt 3 = true
        ∧ mget t.core.sec.resp 3 = some (badType, leBytes 4 2)))
    ∧ (∀ path, isPath path = true → Answers (exec (.getIdentity path) s) (fun t => mget t.core.sec.resp path = some (0x81, s.identityResponse)
        ∧ t.core.sec.next = s.core.sec.next))
    ∧ (s.live = true → s.core.sec.writing = false → s.core.sec.blkEnd ≤ s.core.sec.next + 64 → s.core.sec.idxRec + 256 ≤ 2 ^ 40 →
      exec .indexReserve s = .next { s with core.sec.writing := true })
    ∧ (s.live = true → s.core.sec.writing = true → s.core.sec.queue = [] → Answers (exec .indexRecordWritten s) (fun t =>
        t.core.sec.writing = false ∧ t.core.sec.blkEnd = s.core.sec.idxRec + 256 ∧ t.core.sec.idxRec = s.core.sec.idxRec + 256 ∧ t.core.sec.next = s.core.sec.next))

/-- SEC commands: GET_IDENTITY and GET_LOG end with their bytes in SEC_DATA, QUOTE with the next index used; EXTEND extends registers 4 to 7 alone and logs
it; RESET with its key begins a new life with cause 5 and without it is refused. -/
def Says.SecCommands : Prop :=
  ∀ s : State, s.bedrockOn = true → s.cmdBusy 3 = false →
    let a := s.reg ⟨secBase + 0x28, 0, 64, 0⟩
    let done (t : State) (code : Nat) : Prop := (mgetD t.core.cmds 3 {}).result = code ∧ (mgetD t.core.cmds 3 {}).busy = false ∧ t.flagBit secInt 0 = true
    Answers (exec .secGetIdentity s) (fun t => done t 0 ∧ t.core.sec.data = memWrites s.core.sec.data 0 (fitTo 16384 s.identityResponse)
      ∧ t.core.sec.next = s.core.sec.next)
    ∧ (s.exhausted = false → s.core.sec.queue = [] → s.core.sec.next < s.core.sec.blkEnd →
      Answers (exec .secQuote s) (fun t => done t 0 ∧ t.core.sec.next = s.core.sec.next + 1)
      ∧ (s.logNamed (bits a 0 16) (bits a 16 16) 64 = true → Answers (exec .secGetLog s) (fun t => t.core.sec.next = s.core.sec.next + 1)))
    ∧ (s.logNamed (bits a 0 16) (bits a 16 16) 64 = false → Answers (exec .secGetLog s) (fun t => done t 0x8C ∧ t.core.sec = s.core.sec))
    ∧ (4 ≤ bits a 0 3 → s.core.sec.log.length < logHost → Answers (exec .extend s) (fun t => done t 0
        ∧ t.core.sec.log = s.core.sec.log ++ [⟨bits a 0 3, s.now, memReads s.core.sec.data 0 64⟩]
        ∧ (∀ r, r ≠ bits a 0 3 → t.meas r = s.meas r)))
    ∧ (bits a 0 3 < 4 → Answers (exec .extend s) (fun t => done t 0x8C ∧ t.core.sec = s.core.sec))
    ∧ (4 ≤ bits a 0 3 → logHost ≤ s.core.sec.log.length → Answers (exec .extend s) (fun t => done t 0x8E ∧ t.core.sec = s.core.sec ∧ t.flagBit secInt 4 = true))
    ∧ (a = 0x52535400 → Answers (exec .secReset s) (fun t => t.core.boot.cause = 5 ∧ t.core.boot.phase ≠ .ready ∧ t.ft = {} ∧ t.core.qm = {}
        ∧ t.core.mem.hbm = [] ∧ t.core.mem.host = s.core.mem.host ∧ t.core.sec.bootArea = s.core.sec.bootArea))
    ∧ (a ≠ 0x52535400 → Answers (exec .secReset s) (fun t => done t 0x8C ∧ t.ft = s.ft ∧ t.core.sec = s.core.sec))

/-- The security state: a change of IDE or of read-out extends M3 with one event, read-out is enabled once; keys are refreshed without any other change;
a DOE object above 64 KiB is discarded with DOE Error, and one of a known protocol is accepted. -/
def Says.SecurityState : Prop :=
  ∀ s : State, s.live = true → s.bedrockOn = true → s.core.sec.m3closed = false → s.core.sec.log.length + 1 < logCap →
    (∀ io cm, (s.core.host.ideIo ≠ io ∨ s.core.host.ideCm ≠ cm) → Answers (exec (.securityStateChange io cm) s) (fun t =>
        t.core.host.ideIo = io ∧ t.core.host.ideCm = cm ∧ t.core.sec.log.length = s.core.sec.log.length + 1 ∧ (∀ r, r ≠ 3 → t.meas r = s.meas r)))
    ∧ exec (.securityStateChange s.core.host.ideIo s.core.host.ideCm) s = .next s
    ∧ (s.core.sec.roEn = false → Answers (exec .roEn s) (fun t => t.core.sec.roEn = true ∧ t.core.sec.log.length = s.core.sec.log.length + 1))
    ∧ (s.core.sec.roEn = true → exec .roEn s = .next s)
    ∧ Answers (exec .ideKm s) (fun t => t.core.host = { s.core.host with ideEpoch := s.core.host.ideEpoch + 1 } ∧ t.core.sec = s.core.sec)
    ∧ (∀ proto type len payload, 65536 < len → exec (.doeObject proto type len payload) s = .next { s with core.host.doeError := true })
    ∧ (∀ proto type len payload, len ≤ 65536 → proto < 4 → exec (.doeObject proto type len payload) s = .next { s with core.host.doe := some proto })

/-! Start-up and resets -/

/-- The pins: asserting SB_PWR_EN with HOST_PERST_N released brings the rails up, early it waits for the second to pass, deasserting takes every rail down;
asserting HOST_PERST_N of a running module begins a new life with cause 2, releasing it lets one held at the rails go on to its ROM stage. -/
def Says.PinsStartAndStop : Prop :=
  ∀ s : State,
    (s.core.boot.pwrEn = false → s.core.boot.phase = .off → s.core.boot.perst = false → s.core.boot.inputLost = false → s.core.boot.hard = false →
      s.core.boot.trip = false →
      Answers (exec (.sbPwrEnAssert false) s) (fun t => t.core.boot.phase = .rails ∧ t.core.boot.pwrEn = true ∧ t.core.boot.cause = 1 ∧ t.ft = {})
      ∧ Answers (exec (.sbPwrEnAssert true) s) (fun t => t.core.boot.phase = .off ∧ t.core.boot.pwrEn = true ∧ t.core.boot.deferred = true))
    ∧ (s.core.boot.pwrEn = true → s.core.boot.deferred = true → s.core.boot.phase = .off → s.core.boot.perst = false → s.core.boot.inputLost = false →
      s.core.boot.hard = false → s.core.boot.trip = false →
      Answers (exec .pwrEnDeferredStart s) (fun t => t.core.boot.phase = .rails ∧ t.core.boot.deferred = false))
    ∧ Answers (exec .sbPwrEnDeassert s) (fun t => t.core.boot.phase = .off ∧ t.core.boot.pwrEn = false ∧ t.core.boot.tripN = false ∧ t.ft = {}
        ∧ t.core.mem.hbm = [] ∧ t.core.ras.froze = false ∧ t.core.sec.bootArea = s.core.sec.bootArea)
    ∧ (s.core.boot.perst = false → s.powered = true → Answers (exec .hostPerstNAssert s) (fun t => t.core.boot.phase = .rails ∧ t.core.boot.cause = 2
        ∧ t.core.boot.perst = true ∧ t.ft = {} ∧ t.core.qm = {} ∧ t.core.ras.v = s.core.ras.v))
    ∧ (s.core.boot.phase = .rails → s.core.boot.trip = false → Answers (exec .hostPerstNDeassert s) (fun t => t.core.boot.phase = .rom ∧ t.core.boot.perst = false))
    ∧ (s.core.boot.phase = .rails → s.core.boot.perst = false → s.core.boot.trip = false → ∀ v, Answers (exec (.railFault v) s) (fun t =>
        t.core.boot.phase = .failed ∧ t.core.boot.faultN = !v))

/-- Start-up goes from the ROM stage to verification, stage 1, HBM training, stage 2 and ready, each stage measured in its register; an image that fails goes
to recovery for codes 2 to 4; READY locks the RWL fields and needs the frames of every present stack. -/
def Says.StartupStages : Prop :=
  ∀ s : State, s.core.ras.frozen = false →
    (s.core.boot.phase = .rom → s.core.boot.perst = false → s.core.boot.trip = false →
      Answers (exec .romStageEnd s) (fun t => t.core.boot.phase = .verify ∧ t.core.boot.outs = true ∧ t.core.boot.fusesLoaded = true
        ∧ t.core.sec.log.length = s.core.sec.log.length + 1 ∧ ∀ r, r ≠ 0 → t.meas r = s.meas r))
    ∧ (s.core.boot.phase = .verify →
      Answers (exec .imageVerified s) (fun t =>
        if s.verifyImage s.core.sec.bootArea = 0 then t.core.boot.phase = .stage1 ∧ ∀ r, r ≠ 1 → t.meas r = s.meas r
        else t.core.boot.phase = .recovery ∧ t.core.boot.fail = s.verifyImage s.core.sec.bootArea ∧ t.core.boot.faultN = true
          ∧ t.core.sec.log = s.core.sec.log))
    ∧ (s.core.boot.phase = .stage1 → exec .hbmTrained s = .next { s with core.boot.phase := .hbmDone })
    ∧ (s.core.boot.phase = .hbmDone → Answers (exec .d2dTrained s) (fun t => t.core.boot.phase = .stage2 ∧ (∀ l, l < 10 → (mgetD t.core.fab.d2d l {}).trained = true)
        ∧ ∀ r, r ≠ 2 → t.meas r = s.meas r))
    ∧ (∀ code l, ((s.core.boot.phase = .rom ∧ code = 1) ∨ (s.core.boot.phase = .stage1 ∧ code = 5) ∨ (s.core.boot.phase = .stage2 ∧ (code = 7 ∨ code = 8))) →
      Answers (exec (.startupFailure code l) s) (fun t => t.core.boot.phase = .failed ∧ t.core.boot.fail = code ∧ t.core.boot.link = 0xFF ∧ t.core.boot.faultN = true))
    ∧ (∀ l, s.core.boot.phase = .hbmDone → l < 10 → Answers (exec (.startupFailure 6 l) s) (fun t => t.core.boot.phase = .failed ∧ t.core.boot.fail = 6
        ∧ t.core.boot.link = l ∧ t.core.boot.faultN = true))
    ∧ (∀ frames wm cqt ctxt stall, s.core.boot.phase = .stage2 → s.core.host.cxl = true → s.framesOk frames wm = true → s.ft.src = none →
      Answers (exec (.ready frames wm cqt ctxt stall) s) (fun t => t.core.boot.phase = .ready ∧ t.core.boot.locked = true ∧ t.ft.everReady = true
        ∧ t.ft.ns = s.ft.ns ∧ t.core.sec.svnFuse = max s.core.sec.svnFuse s.core.sec.imgSvn ∧ t.reg fldStallMax = stall % 2 ^ 16 ∧ t.reg fldCqtBase = cqt % 2 ^ 56))
    ∧ (∀ frames wm cqt ctxt stall, s.core.boot.phase = .stage2 → s.framesOk frames wm = false → exec (.ready frames wm cqt ctxt stall) s = .next s)

/-- The input: below 40 V it is flagged while the module runs on; out of range every rail goes down, and it starts again with cause 7 once the input has been
back; CXL Reset of a running module begins a new life with cause 3. -/
def Says.InputAndCxlReset : Prop :=
  ∀ s : State,
    (s.powered = true → s.core.ras.frozen = false → Answers (exec .vinLow s) (fun t => t.core.pwr.vinLow = true ∧ t.flagBit pwrInt 0 = true
        ∧ t.core.boot = s.core.boot ∧ t.core.qm = s.core.qm))
    ∧ Answers (exec (.vinOutOfRange false) s) (fun t => t.core.boot.phase = .off ∧ t.core.boot.inputLost = s.core.boot.pwrEn ∧ t.ft = {} ∧ t.core.mem.hbm = [])
    ∧ (s.core.boot.inputLost = true → s.core.boot.pwrEn = true → s.core.boot.perst = false → s.core.boot.deferred = false → s.core.boot.hard = false →
      s.core.boot.trip = false → s.core.boot.phase = .off →
      Answers (exec .inputRestart s) (fun t => t.core.boot.phase = .rails ∧ t.core.boot.cause = 7 ∧ t.core.boot.inputLost = false))
    ∧ (s.timing = true → s.core.boot.perst = false → s.core.boot.trip = false →
      Answers (exec .cxlReset s) (fun t => t.core.boot.phase = .rom ∧ t.core.boot.cause = 3 ∧ t.ft = {} ∧ t.core.mmu.ctxs = [] ∧ t.core.qm.queues = []))

/-! Power and heat -/

/-- The duty falls by one while power is above the cap, rises by one below 98 % of it, and otherwise stays, always from 1 to 64; at 1 for 10 ms above the cap
SB_ALERT_N is asserted. -/
def Says.DutyFollowsPower : Prop :=
  ∀ (s : State) (p : Nat), s.marlOn = true → 1 ≤ s.core.pwr.duty → s.core.pwr.duty ≤ 64 →
    Answers (exec (.paceStep p) s) (fun t => 1 ≤ t.core.pwr.duty ∧ t.core.pwr.duty ≤ 64
      ∧ (s.effCap.1 < p → 1 < s.core.pwr.duty → t.core.pwr.duty = s.core.pwr.duty - 1)
      ∧ (100 * p < 98 * s.effCap.1 → s.core.pwr.duty < 64 → t.core.pwr.duty = s.core.pwr.duty + 1)
      ∧ (98 * s.effCap.1 ≤ 100 * p → p ≤ s.effCap.1 → t.core.pwr.duty = s.core.pwr.duty)
      ∧ (p < s.effCap.1 → t.core.pwr.alertDuty = false) ∧ t.core.qm = s.core.qm ∧ t.core.mem = s.core.mem)
    ∧ (s.core.pwr.duty = 1 → Answers (exec .dutyFloorTimeout s) (fun t => t.alert = true ∧ t.core.pwr.duty = 1))

/-- The cap in force is the least of those set, none below 600 W, and never above the module's limit; a pacing entry whose FT has come sets its cap, is disarmed
and counted; a management write sets the out-of-band cap within its range. -/
def Says.CapsAndPacing : Prop :=
  ∀ s : State,
    (s.effCap.1 ≤ s.pwrLimit ∧ 600 ≤ s.effCap.1 ∧ (∀ c ∈ s.caps, s.effCap.1 ≤ c.1))
    ∧ (∀ n e, s.timing = true → firstDue s.now s.core.pwr.entries = some (n, e) →
      Answers (exec (.paceEntryTrigger n) s) (fun t => t.core.pwr.pace = e.w ∧ mget t.core.pwr.entries n = some { e with armed := false }
        ∧ t.counter (pwrBase + 0x118) = (s.counter (pwrBase + 0x118) + 1) % 2 ^ 64
        ∧ ((s.ft.lock = .locked ∨ s.ft.lock = .holdover) → t.core.unsync = s.core.unsync)))
    ∧ (s.managed = true → ∀ w, (w = 0 ∨ (600 ≤ w ∧ w ≤ s.pwrLimit)) → Answers (exec (.pldmSetEffecter w) s) (fun t =>
        t.core.pwr.oob = w ∧ t.core.pwr.mctp = some .success))
    ∧ (s.managed = true → ∀ w, w ≠ 0 → (w < 600 ∨ s.pwrLimit < w) → Answers (exec (.pldmSetEffecter w) s) (fun t =>
        t.core.pwr.oob = s.core.pwr.oob ∧ t.core.pwr.mctp = some .invalidInput))
    ∧ (s.managed = true → ∀ id v, s.sensorValue id = some v → Answers (exec (.pldmSensorRead id) s) (fun t => t.core.pwr.mctp = some (.value v)))
    ∧ (s.managed = true → ∀ e, Answers (exec (.mctpControl e) s) (fun t => t.core.pwr.eid = e % 256 ∧ t.core.pwr.mctp = some .success))

/-- Heat: a sample records the input and each sensor's temperature; a sensor first at THROTTLE sets the thermal cap at the power of that sample, which falls with each
step while it holds; a HARD level takes every rail down; a TRIP that has cleared lets the module go on. -/
def Says.ThermalLevels : Prop :=
  ∀ s : State,
    (∀ t0 vin watts, s.marlOn = true → s.core.pwr.sensors = [] → 100 * 8 ≤ t0 → t0 < 110 * 8 →
      Answers (exec (.thermalSample [t0] vin watts []) s) (fun t => (mgetD t.core.pwr.sensors 0 {}).t = t0 ∧ (mgetD t.core.pwr.sensors 0 {}).level = 2
        ∧ t.core.pwr.therm = some (watts % 65536, 0) ∧ t.alert = true ∧ t.core.pwr.vin = vin % 65536 ∧ t.core.boot = s.core.boot))
    ∧ (∀ w n, s.marlOn = true → s.core.pwr.therm = some (w, n) → s.throttled = true →
      Answers (exec .thermalCapStep s) (fun t => t.core.pwr.therm = some (w, n + 1) ∧ t.core.pwr.duty = s.core.pwr.duty))
    ∧ (s.marlOn = true → Answers (exec .hardThermal s) (fun t => t.core.boot.phase = .off ∧ t.core.boot.hard = true ∧ t.core.boot.tripN = true ∧ t.ft = {}))
    ∧ (s.core.boot.trip = true → s.throttled = false → s.core.boot.phase = .rails → s.core.boot.perst = false →
      Answers (exec .tripRestart s) (fun t => t.core.boot.trip = false ∧ t.core.boot.tripN = false ∧ t.core.boot.phase = .rom))
    ∧ (s.throttled = true → exec .tripRestart s = .next s)

/-- Ten commands of power, heat and management complete: MCTP_CONTROL, PLDM_SENSOR_READ and PLDM_SET_EFFECTER whenever the endpoint answers (R437, R438);
PACE_STEP (R432), DUTY_FLOOR_TIMEOUT at a duty of 1 (R432), THERMAL_SAMPLE where no sensor reaches TRIP (R434, R435), THERMAL_CAP_STEP while THROTTLE holds
(R435) and HARD_THERMAL (R435) whenever the marl controller runs; PACE_ENTRY_TRIGGER of the entry that triggers first (R433); TRIP_RESTART once every sensor
has cleared THROTTLE (R435). -/
def Says.PowerCommandsComplete : Prop :=
  ∀ s : State,
    let b := s.core.boot
    let d := s.core.pwr.duty
    let cap := s.effCap.1
    (s.managed = true →
      (∀ e, exec (.mctpControl e) s = .next { s with core.pwr.eid := e % 256, core.pwr.mctp := some .success })
      ∧ (∀ id v, s.sensorValue id = some v → exec (.pldmSensorRead id) s = .next { s with core.pwr.mctp := some (.value v) })
      ∧ (∀ id, s.sensorValue id = none → exec (.pldmSensorRead id) s = .next { s with core.pwr.mctp := some .invalidInput })
      ∧ (∀ w, (w = 0 ∨ (600 ≤ w ∧ w ≤ s.pwrLimit)) →
          exec (.pldmSetEffecter w) s = .next { s with core.pwr.oob := w, core.pwr.mctp := some .success })
      ∧ (∀ w, w ≠ 0 → (w < 600 ∨ s.pwrLimit < w) → exec (.pldmSetEffecter w) s = .next { s with core.pwr.mctp := some .invalidInput }))
    ∧ (s.marlOn = true →
      (∀ p, ∃ t, exec (.paceStep p) s = .next t
        ∧ t.core.pwr = { s.core.pwr with
            duty := if cap < p ∧ 1 < d then d - 1 else if 100 * p < 98 * cap ∧ d < 64 then d + 1 else d,
            alertDuty := s.core.pwr.alertDuty && decide (cap ≤ p) }
        ∧ t.ft = s.ft ∧ t.core.boot = b ∧ t.core.qm = s.core.qm ∧ t.core.mem = s.core.mem)
      ∧ (d = 1 → exec .dutyFloorTimeout s = .next { s with core.pwr.alertDuty := true })
      ∧ (∀ temps vin watts rails, (∀ k v, (temps.take 16)[k]? = some v → v < 8 * (levelsOf k).2.2) →
        ∃ t, exec (.thermalSample temps vin watts rails) s = .next t ∧ t.core.pwr.vin = vin % 65536 ∧ t.core.pwr.watts = watts % 65536
          ∧ (∀ k v, (temps.take 16)[k]? = some v → (mgetD t.core.pwr.sensors k {}).t = (if 5 ≤ k ∧ k ≤ 12 ∧ s.stackPresent (k - 5) = false then 0 else v))
          ∧ t.ft = s.ft ∧ t.core.boot = b ∧ t.core.qm = s.core.qm ∧ t.core.mem = s.core.mem)
      ∧ (∀ w n, s.core.pwr.therm = some (w, n) → s.throttled = true → exec .thermalCapStep s = .next { s with core.pwr.therm := some (w, n + 1) })
      ∧ (∃ t, exec .hardThermal s = .next t ∧ t.core.boot.phase = .off ∧ t.core.boot.hard = true ∧ t.core.boot.tripN = true ∧ t.ft = {}
          ∧ t.core.mem.hbm = [] ∧ t.fuse = s.fuse))
    ∧ (∀ n e, s.timing = true → firstDue s.now s.core.pwr.entries = some (n, e) →
      ∃ t, exec (.paceEntryTrigger n) s = .next t
        ∧ t.core.pwr = { s.core.pwr with pace := e.w, entries := mput s.core.pwr.entries n { e with armed := false } }
        ∧ t.ft = s.ft ∧ t.core.qm = s.core.qm ∧ t.core.mem = s.core.mem)
    ∧ (b.trip = true → s.throttled = false →
      (b.phase ≠ .off → exec .tripRestart s = .next { s with
        core.boot.trip := false,
        core.boot.tripN := false,
        core.boot.phase := if b.phase = .rails ∧ b.perst = false then .rom else b.phase })
      ∧ (b.phase = .off → b.perst = false → b.pwrEn = true →
        ∃ t, exec .tripRestart s = .next t ∧ t.core.boot.phase = .rails ∧ t.core.boot.cause = 6 ∧ t.ft = {}))

/-! Errors, freeze, test access port -/

/-- A module-fatal error latches its source and the FT once and stops dispatch; a second only sets MORE. The hold's end resets the module with cause 4. -/
def Says.FatalErrors : Prop :=
  ∀ s : State, s.timing = true → s.reg fldFrzOnFatal = 0 →
    (∀ src ∈ [2, 8, 9, 0xA, 0xD], ∀ die unit, die ≤ 4 → s.core.ras.stop = false → Answers (exec (.moduleFatalError src die unit) s) (fun t =>
        t.core.ras.stop = true ∧ t.core.ras.v = true ∧ t.core.ras.src = src ∧ t.core.ras.die = die ∧ t.core.ras.unit = unit % 256 ∧ t.core.ras.fatalFt = s.now
        ∧ t.core.boot.faultN = true ∧ t.flagBit rasInt 4 = true ∧ t.dispatching = false ∧ t.core.mem.hbm = s.core.mem.hbm ∧ t.core.qm = s.core.qm))
    ∧ (∀ src ∈ [2, 8, 9, 0xA, 0xD], ∀ die unit, die ≤ 4 → s.core.ras.stop = true → s.core.ras.v = true → exec (.moduleFatalError src die unit) s = .next { s with core.ras.more := true })
    ∧ (s.core.ras.stop = true → Answers (exec .fatalHoldExpiry s) (fun t => t.core.boot.cause = 4 ∧ t.ft = {} ∧ t.core.ras.fatal = true ∧ t.core.ras.v = s.core.ras.v
        ∧ t.core.ras.stop = false))
    ∧ (s.core.ras.stop = false → exec .fatalHoldExpiry s = .next s)

/-- Scrub of a line corrects and counts, or marks the line poisoned and counts nothing else of memory; in the firmware region an uncorrectable line is fatal; bad
parity of the write queue marks the line. -/
def Says.ScrubMarks : Prop :=
  ∀ (s : State) (a : Nat), s.live = true → s.dpaOk a = true →
    Answers (exec (.hbmScrub a true ⟨false, false⟩) s) (fun t => t.counter (rasBase + 0x128) = (s.counter (rasBase + 0x128) + 1) % 2 ^ 64
      ∧ t.core.mem.hbm = s.core.mem.hbm ∧ t.core.mem.badLines = s.core.mem.badLines)
    ∧ (s.inFirmware a = false → Answers (exec (.hbmScrub a false ⟨true, false⟩) s) (fun t => t.hbmPoison (a / 64 * 64) 64 = true ∧ t.flagBit rasInt 2 = true
        ∧ t.core.mem.hbm = s.core.mem.hbm ∧ t.core.ras.stop = s.core.ras.stop))
    ∧ (s.inFirmware a = true → Answers (exec (.hbmScrub a false ⟨true, false⟩) s) (fun t => t.core.ras.stop = true))
    ∧ (∀ c, Answers (exec (.hbmScrub a c ⟨false, true⟩) s) (fun t => t.hbmPoison (a / 64 * 64) 64 = true ∧ t.flagBit rasInt 2 = true ∧ t.core.mem.hbm = s.core.mem.hbm))

/-- Errors in an engine's memories: one in a cell's data sets POISON there and leaves every other tile; one in a line of an operand tile that the OPA
reads is kept for its K-block, and one elsewhere stops nothing; one in the control state of a partition that works for no queue fences it; a staged image
takes POISON where a line in error loads it; a TU whose word in the stream buffer has bad parity is poisoned. -/
def Says.StorageErrors : Prop :=
  (∀ (s : State) (n p : Nat), s.live = true → n < 64 → (∀ y ∈ (s.ope n).pipe, y.age < 23) →
    let o := s.ope n
    (∀ t k tl, mget (o.part p).tiles t = some tl →
      Answers (exec (.opeCellWrite n [.cell p t k]) s) (fun u => mget ((u.ope n).part p).tiles t = some (tl.poisonCell k)
        ∧ (∀ j, j ≠ t → mget ((u.ope n).part p).tiles j = mget (o.part p).tiles j) ∧ (u.ope n).pipe = o.pipe))
    ∧ (∀ l x, l / o.per = p → (o.part p).run = some x → s.core.pwr.duty < 64 →
      Answers (exec (.opeIssueCycle n true [.line l]) s) (fun u => ∃ y, ((u.ope n).part p).run = some y ∧ y.e = x.e ∧ y.kb = x.kb ∧ y.cyc = x.cyc
        ∧ (∀ k, k ∈ y.struck ↔ k ∈ x.struck ∨ k ∈ struckBy o p x l)))
    ∧ (p < o.count → (o.part p).fence = 0 → s.slotUser ⟨o.mode, n, p⟩ = none →
      Answers (exec (.opeCellWrite n [.control p]) s) (fun u => ((u.ope n).part p).fence = 2 ∧ ((u.ope n).part p).run = none
        ∧ ((u.ope n).part p).tiles = (o.part p).tiles ∧ (∀ k, k ≠ p → (u.ope n).part k = o.part k) ∧ ∀ y ∈ (u.ope n).pipe, y.part = p → y.dead = true)))
  ∧ (∀ (t : Tile) k, k < shapeCells t.shape → (t.poisonCell k).poisonAt k = true)
  ∧ (∀ sh m errs k, k < shapeCells sh → stagedBad errs (8 * k / 64) = true → (tileOfImage false sh m (stagedBad errs)).poisonAt k = true)
  ∧ (∀ (f : Fetch) k tu, f.staged = true → f.tus[k]? = some tu → 2 ≤ tu.length → tuPoison ((f.struck [k]).tus.getD k []) = true)

/-- A freeze request with FRZ_EN stops the module at its FT with the host link down and leaves memory and queues as they stand; without FRZ_EN it does nothing.
GLB_FRZ tells how the last life ended, and reading it once ready clears it. -/
def Obligations.FreezeStops : Prop :=
  ∀ s : State, s.core.ras.frozen = false → s.timing = true →
    (s.reg fldFrzEn = 1 → s.core.boot.perst = false → ∀ c ∈ [Instr.freezeRequest, .swfreeze], (c = .swfreeze → s.live = true) →
      Answers (exec c s) (fun t => t.core.ras.frozen = true ∧ t.core.ras.froze = true ∧ t.core.ras.frozenFt = s.now ∧ t.core.host.linkUp = false
        ∧ t.core.mem = s.core.mem ∧ t.core.qm = s.core.qm ∧ t.ft = s.ft ∧ step { t with pending := [] } = .next { t with pending := [] }))
    ∧ (s.reg fldFrzEn = 0 → ∀ c ∈ [Instr.freezeRequest, .swfreeze], exec c s = .next s)
    ∧ (s.core.boot.outs = true → Answers (exec .glbFrzRead s) (fun t => t.core.ras.readVal = 2 * b2n s.core.ras.froze + b2n s.core.ras.fatal
        ∧ t.core.ras.froze = (s.core.ras.froze && decide (s.core.boot.phase ≠ .ready))
        ∧ t.core.ras.fatal = (s.core.ras.fatal && decide (s.core.boot.phase ≠ .ready))))

/-- The test access port answers whether frozen or not: IDCODE, FRZ_STAT with the FT of the freeze, FRZ_SEL, BYPASS, boundary scan with the pins captured (a free
value); FRZ_READ gives zeros unless the module is frozen with read-out enabled, and zeros past an item's end. -/
def Obligations.TapInstructions : Prop :=
  ∀ s : State, s.tapOn = true →
    Answers (exec .idcode s) (fun t => t.core.ras.tapOut.map (fun x => bits x 0 28) = [0x0340 * 2 ^ 12 + 0x2B7 * 2 + 1] ∧ t.core.mem = s.core.mem)
    ∧ Answers (exec .frzStat s) (fun t => t.core.ras.tapOut.map (fun x => x / 2 ^ 64) = [s.core.ras.frozenFt % 2 ^ 64]
        ∧ t.core.ras.tapOut.map (fun x => x.testBit 63) = [s.core.ras.frozen])
    ∧ (∀ v, Answers (exec (.frzSel v) s) (fun t => t.core.ras.tapSel = v % 2 ^ 32))
    ∧ (∀ n, (s.core.ras.frozen = false ∨ s.core.sec.roEn = false) → Answers (exec (.frzRead n) s) (fun t => t.core.ras.tapOut = List.replicate n 0))
    ∧ (∀ n i, i < n → s.itemWords s.core.ras.tapSel ≤ i → Answers (exec (.frzRead n) s) (fun t => t.core.ras.tapOut[i]? = some 0))
    ∧ Answers (exec .bypass s) (fun t => t.core.ras.tapOut = [0] ∧ t.core.ras.tapIr = 0xFF)
    ∧ (∀ v, Answers (exec (.extest v) s) (fun t => t.core.ras.scan = v ∧ t.core.ras.tapIr = 0 ∧ t.core.ras.tapOut.length = 1 ∧ t.core.mem = s.core.mem)
        ∧ Answers (exec (.samplePreload v) s) (fun t => t.core.ras.scan = v ∧ t.core.ras.tapIr = 1 ∧ t.core.ras.tapOut.length = 1))

/-! Counters and the ledger -/

/-- A single read of a counter gives its chained value, or 0 where there is no such counter; a demand gather of an empty list is ready at once and its record
follows, counted; a dump instant begins a gather at that multiple of the interval, and one within a gather is missed and counted. -/
def Says.CounterReads : Prop :=
  ∀ s : State, s.dispatching = true →
    Answers (exec .pmcCviewRead s) (fun t => t.core.ras.readVal = (if s.idOk (s.reg fldCsel) then s.counter (8 * s.reg fldCsel) else 0) ∧ t.core.regs = s.core.regs)
    ∧ (∀ c, s.pmcOwner = some c → s.core.pmc.gather = none → s.reg fldListN = 0 →
      Answers (exec .pmcGather s) (fun t => ∃ g, t.core.pmc.gather = some g ∧ g.ids = some [] ∧ g.ctx = c ∧ g.demand = true ∧ g.instant = s.now ∧ g.last = s.now))
    ∧ (s.pmcOwner = none → exec .pmcGather s = .next s)
    ∧ (∀ c g, s.pmcOwner = some c → s.core.pmc.gather = some g → g.ctx = c → g.n = 0 → g.ids = some [] → g.first ≤ s.now → s.core.pmc.demandPend = none →
      s.vcheck c (g.dump + 64 * (s.core.pmc.idx % 2 ^ g.k)) 64 true false = .none →
      Answers (exec .pmcGatherDone s) (fun t => t.core.pmc.gather = none ∧ t.core.pmc.seq = (s.core.pmc.seq + 1) % 65536
        ∧ t.core.pmc.idx = (s.core.pmc.idx + 1) % 2 ^ (g.k + 1) ∧ t.flagBit pmcInt 0 = true))
    ∧ (∀ c g, s.pmcOwner = some c → s.core.pmc.gather = some g → s.reg fldInterval ≠ 0 →
      s.core.pmc.lastInstant < s.now / (1000 * (if s.reg fldInterval < 10 then 10 else s.reg fldInterval))
        * (1000 * (if s.reg fldInterval < 10 then 10 else s.reg fldInterval)) →
      Answers (exec .dumpInstant s) (fun t => t.core.pmc.gather = some g ∧ t.flagBit pmcInt 2 = true
        ∧ t.counter (pmcBase + 0x108) = (s.counter (pmcBase + 0x108) + 1) % 2 ^ 64))
    ∧ (∀ c, let step := 1000 * (if s.reg fldInterval < 10 then 10 else s.reg fldInterval)
        s.pmcOwner = some c → s.core.pmc.gather = none → s.reg fldInterval ≠ 0 → s.core.pmc.lastInstant < s.now / step * step → s.reg fldListN = 0 →
      Answers (exec .dumpInstant s) (fun t => t.core.pmc.lastInstant = s.now / step * step ∧ ∃ g, t.core.pmc.gather = some g ∧ g.ids = some [] ∧ g.ctx = c
        ∧ g.demand = false ∧ g.instant = s.now / step * step ∧ g.unsync = s.unsynced ∧ g.last = s.now))
    ∧ (∀ q, 1 < (mgetD s.core.pmc.kc (kcOf (s.queue q) q) {}).count → exec (.sampleCountdown q) s = .next s)

/-- SAMPLE_COUNTDOWN is the dispatch at which the countdown of a queue's core comes to 0: it is that dispatch, and leaves the core's countdown at or above half its
period. -/
def Says.SampleDispatch : Prop :=
  ∀ (s : State) (q k seq : Nat), s.dispatching = true → (mgetD s.core.pmc.kc k {}).count ≤ 1 → 4 ≤ s.reg fldSampP → s.reg fldSampP ≤ 24 →
    (∀ ctx, 2 ^ (s.reg fldSampP - 1) ≤ (mgetD (s.countDispatch k q seq ctx).core.pmc.kc k {}).count
      ∧ (mgetD (s.countDispatch k q seq ctx).core.pmc.kc k {}).count < 3 * 2 ^ (s.reg fldSampP - 1))
    ∧ (k = kcOf (s.queue q) q → exec (.sampleCountdown q) s = exec (.instructionDispatch q) s
        ∧ (s.mayDispatch q = false → exec (.sampleCountdown q) s = .next s))

/-- The ledger: taking raises HELD and giving back lowers it; SNAP latches the counts, CHECK begins a check of them, and its end reports the first class that holds
more than its capacity, or that is not empty at quiescence, or success. -/
def Says.LedgerCounts : Prop :=
  ∀ s : State, s.glbOn = true →
    (∀ c i n, s.heldUnits c i + n < 2 ^ 48 → (s.take c i n).heldUnits c i = s.heldUnits c i + n)
    ∧ (∀ c i n, n ≤ s.heldUnits c i → (s.give c i n).heldUnits c i = s.heldUnits c i - n)
    ∧ (s.core.ldg.busy = false → Answers (exec .snap s) (fun t => t.core.ldg.snap = s.core.ldg.live ∧ t.core.ldg.busy = false ∧ t.core.regs = s.core.regs)
        ∧ Answers (exec .check s) (fun t => t.core.ldg.snap = s.core.ldg.live ∧ t.core.ldg.busy = true ∧ t.core.ldg.live = s.core.ldg.live))
    ∧ (s.core.ldg.busy = true → exec .snap s = .next s ∧ exec .check s = .next s)
    ∧ (s.core.ldg.busy = true → (∀ e ∈ s.core.ldg.snap, s.core.ldg.failure e.1 e.2 = 0) → Answers (exec .ledgerCheckDone s) (fun t =>
        t.core.ldg = { s.core.ldg with busy := false } ∧ t.flagBit ldgInt 0 = true ∧ t.flagBit ldgInt 1 = s.flagBit ldgInt 1))
    ∧ (∀ key x rest, s.core.ldg.busy = true → s.core.ldg.snap = (key, x) :: rest → s.core.ldg.failure key x ≠ 0 → Answers (exec .ledgerCheckDone s) (fun t =>
        t.core.ldg.busy = false ∧ t.core.ldg.kind = s.core.ldg.failure key x ∧ t.core.ldg.cls = key / 65536 ∧ t.core.ldg.inst_ = key % 65536
        ∧ t.flagBit ldgInt 1 = true))

/-! Outer-product engines, matrix-vector units, vector units -/

/-- OPA and the six row-port instructions leave the share where no OPA is in progress on their partition: OPA becomes the one in progress, a row-port
instruction is handed to the row port behind those that wait; nothing else of any engine changes, and no memory. -/
def Obligations.OpeInstructionsIssue : Prop :=
  ∀ (s : State) (r : SlotRef) (e : Entry), s.dispatching = true → ((s.ope r.unit).part r.slot).run = none →
    let o := s.ope r.unit
    let with_ (x : Ope) (t : State) : Prop := Left s t r ∧ t.ope r.unit = x ∧ (∀ n, n ≠ r.unit → t.ope n = s.ope n) ∧ t.core.mem = s.core.mem
      ∧ t.core.qm.flags = s.core.qm.flags
    let queued := with_ { o with pend := o.pend ++ [(r.slot, e)] }
    (HeadOk s r 0x10 (s.opaBad r) e → Answers (exec (.opa r) s)
      (with_ (o.setPart r.slot { o.part r.slot with run := some { e := e }, stopAsk := false, stopAt := none })))
    ∧ (HeadOk s r 0x13 (fun e => s.tileBad r e ++ []) e → Answers (exec (.accz r) s) queued)
    ∧ (HeadOk s r 0x12 (fun e => s.tileBad r e ++ alignBad 24 (e.eff 1 24 56) 16384) e → Answers (exec (.accld r) s) queued)
    ∧ (HeadOk s r 0x14 (fun e => s.tileBad r e ++ (e.destAlign 24 16384 ++ vuQuarterBad (s.opeQuarter r.unit) 24 e)) e →
        Answers (exec (.accdr r) s) queued)
    ∧ (HeadOk s r 0x15 (fun e => s.tileBad r e ++ (s.placeBad r e ++ s.placeHeld r e)) e → Answers (exec (.accpk r) s) queued)
    ∧ (HeadOk s r 0x16 (fun e => s.tileBad r e ++ s.placeBad r e) e → Answers (exec (.accup r) s) queued)
    ∧ (HeadOk s r 0x41 (fun e => s.tileBad r e ++ (check e.a32 (19, 7) ++ e.destAlign 24 16384)) e → Answers (exec (.gacc r) s) queued)

/-- An issue cycle: where a ready partition meets a cause of R84 the array freezes and no OPA advances; where pacing withholds issue none advances;
otherwise a ready partition issues one step: the next cycle of its K-block, or the next K-block, and after its last K-block no OPA is in progress. -/
def Says.IssueOrFreeze : Prop :=
  ∀ (s : State) (n : Nat), s.live = true → (∀ t ∈ (s.ope n).pipe, t.age < 23) →
    let o := (s.ope n).advance
    (∀ g x, (g = false ∨ 64 ≤ s.core.pwr.duty) → x ∈ o.ready → (meets o x.1 x.2).any = true →
      Answers (exec (.opeIssueCycle n g []) s) (fun t => (t.ope n).parts = o.parts ∧ (t.ope n).pipe = o.pipe ∧ (t.ope n).frz = true
        ∧ t.counter (opeBase n + 0x108) = (s.counter (opeBase n + 0x108) + 1) % 2 ^ 64 ∧ t.core.mem = s.core.mem ∧ t.core.qm = s.core.qm))
    ∧ (s.core.pwr.duty < 64 → Answers (exec (.opeIssueCycle n true []) s) (fun t => (t.ope n).parts = o.parts ∧ (t.ope n).pipe = o.pipe
        ∧ t.counter (opeBase n + 0x100) = s.counter (opeBase n + 0x100) ∧ t.core.mem = s.core.mem ∧ t.core.qm = s.core.qm))
    ∧ (∀ p x, o.ready = [(p, x)] → (meets o p x).any = false → (x.started = true ∨ o.clash p x.e (fun _ => true) = false) →
      (x.cyc = 0 → mismatch o p x = none) →
      Answers (exec (.opeIssueCycle n false []) s) (fun t =>
        t.counter (opeBase n + 0x100) = (s.counter (opeBase n + 0x100) + 1) % 2 ^ 64 ∧ (t.ope n).pipe.length = o.pipe.length + 1
        ∧ t.core.mem = s.core.mem
        ∧ (x.cyc + 1 = x.e.cycles → x.kb + 1 = x.e.nkb → ((t.ope n).part p).run = none)
        ∧ (x.cyc + 1 ≠ x.e.cycles → ((t.ope n).part p).run = some { x with cyc := x.cyc + 1, started := true })
        ∧ (x.cyc + 1 = x.e.cycles → x.kb + 1 ≠ x.e.nkb → ∃ y, ((t.ope n).part p).run = some y ∧ y.e = x.e ∧ y.kb = x.kb + 1 ∧ y.cyc = 0)
        ∧ (x.cyc + 1 = x.e.cycles → ∃ y ab, (t.ope n).pipe = o.pipe ++ [y] ∧ y.kb = some ab
            ∧ (∀ i, i < (shapeDims x.e.shape).1 → i / 128 ∈ x.struck → (ab.1.getD i {}).poison = true)
            ∧ (∀ i, i < (shapeDims x.e.shape).2 → 2 + i / 128 ∈ x.struck → (ab.2.getD i {}).poison = true))))

/-- A step of a partition that is not fenced, when it reaches stage 23, merges its K-block into its tile, zeroed first where it says so; OPE_STOP has
the partition stop at the end of its K-block; PART_MODE_CHANGE sets mode and gang of an engine that holds nothing; FENCE_RELEASE frees a partition, and
what waited there ends. -/
def Says.EngineEvents : Prop :=
  ∀ (s : State) (n p : Nat), s.live = true →
    (∀ (x : OpeStep) (tl : Tile) (ab : List Blk × List Blk), (s.ope n).pipe.filter (fun t => decide (t.age ≥ 23)) = [x] → x.dead = false → x.part = p →
        ((s.ope n).part p).fence = 0 → mget ((s.ope n).part p).tiles x.tile = some tl → x.kb = some ab →
      Answers (exec (.opeCellWrite n []) s) (fun t =>
        let z := if x.zero then Tile.zero tl.a32 tl.shape else tl
        mget ((t.ope n).part p).tiles x.tile = some (z.mergeKBlock (fun i j => blockSum (ab.1.getD i {}) (ab.2.getD j {}))).1
        ∧ (∀ k, k ≠ x.tile → mget ((t.ope n).part p).tiles k = mget ((s.ope n).part p).tiles k)
        ∧ (∀ y ∈ (t.ope n).pipe, y.age < 23) ∧ t.core.mem = s.core.mem))
    ∧ (∀ x, ((s.ope n).part p).run = some x →
      Answers (exec (.opeStop n p) s) (fun t => ((t.ope n).part p).stopAsk = true ∧ ((t.ope n).part p).run = some x
        ∧ (x.cyc = 0 → ((t.ope n).part p).stopAt = some x.kb) ∧ (∀ k, k ≠ p → (t.ope n).part k = (s.ope n).part k) ∧ t.core.mem = s.core.mem))
    ∧ (∀ m g sd, n < s.opeCount → (∀ e ∈ s.core.qm.slots, e.1 / 16 ≠ n) → (s.ope n).obuf = [] → (s.ope n).drains = [] →
        (s.ope n).pipe = [] → (s.ope n).pend = [] → (∀ e ∈ (s.ope n).parts, e.2.tiles = [] ∧ e.2.fence = 0 ∧ e.2.run = none) →
        (m = 0 ∧ g < 8 ∨ m ≤ 3 ∧ g = 0xF) →
      Answers (exec (.partModeChange n m g sd) s) (fun t => t.ope n = { s.ope n with mode := m, gang := g, gside := sd, parts := [] }
        ∧ (∀ k, k ≠ n → t.ope k = s.ope k) ∧ t.core.mem = s.core.mem ∧ t.core.qm = s.core.qm))
    ∧ (((s.ope n).part p).fence ≠ 0 → ((s.ope n).part p).fence ≠ 1 → (s.ctx ((s.ope n).part p).fenceCtx).st = .free →
      Answers (exec (.fenceRelease n p) s) (fun t => ((t.ope n).part p).fence = 0 ∧ ((t.ope n).part p).tiles = []
        ∧ (∀ k, k ≠ p → (t.ope n).part k = (s.ope n).part k) ∧ (∀ y ∈ (t.ope n).pipe, y.part ≠ p) ∧ (∀ y ∈ (t.ope n).pend, y.1 ≠ p)
        ∧ (∀ y ∈ (s.ope n).pend, y.1 = p → Done t y.2)
        ∧ ((∀ y ∈ (s.ope n).pend, y.1 ≠ p) → (∀ d ∈ (s.ope n).drains, d.part ≠ p) → (∀ d ∈ (s.ope n).back, d.1.part ≠ p) → t.core.mem = s.core.mem)))

/-- The row port starts the oldest operation that may start: ACCZ zeroes its tile, ACCPK moves it to its park places and frees its half-slots, ACCDR to
memory drains its image and keeps or frees it; a held park place ends ACCPK with ILLEGAL_INSTRUCTION and the tile stays, and so do half-slots that another
tile holds. -/
def Obligations.RowPortStarts : Prop :=
  ∀ (s : State) (n p : Nat) (e : Entry), s.live = true → (s.ope n).drains = [] → (s.ope n).back = [] → (∀ x ∈ (s.ope n).staged, x.part ≠ 4) →
    s.pickRow n [] (s.ope n).pend = some (p, e) →
    let left (t : State) : Prop := Done t e ∧ ∀ y ∈ (t.ope n).pend, ¬ (y.2.q = e.q ∧ y.2.seq = e.seq)
    let q := s.opeQuarter n
    let held := (s.ope n).clash p e (fun _ => true)
    (held = true → Answers (exec (.rowPortOpStart n []) s) (fun t => left t ∧ (∀ i, (t.queue e.q).inst e.seq = some i → mhas i.outs 0xC = true)
        ∧ (t.ope n).parts = (s.ope n).parts ∧ t.core.mem = s.core.mem))
    ∧ (held = false → e.op = 0x13 → Answers (exec (.rowPortOpStart n []) s) (fun t => left t ∧ mget ((t.ope n).part p).tiles e.tile = some (Tile.zero e.a32 e.shape)
        ∧ (∀ k, k ≠ e.tile → mget ((t.ope n).part p).tiles k = mget ((s.ope n).part p).tiles k) ∧ t.core.mem = s.core.mem))
    ∧ (∀ tl, held = false → mget ((s.ope n).part p).tiles e.tile = some tl →
      (e.op = 0x15 → s.parkHeld q e.place e.spans = false →
        Answers (exec (.rowPortOpStart n []) s) (fun t => left t ∧ mget ((t.ope n).part p).tiles e.tile = none
          ∧ mget t.core.mem.parked (parkKey q e.place) = some ((if tl.a32 then 9 else 8) + 256 * tl.shape, e.ctx)
          ∧ t.core.mem.hbm = s.core.mem.hbm ∧ t.core.mem.host = s.core.mem.host))
      ∧ (e.op = 0x15 → s.parkHeld q e.place e.spans = true →
        Answers (exec (.rowPortOpStart n []) s) (fun t => left t ∧ (∀ i, (t.queue e.q).inst e.seq = some i → mhas i.outs 0xC = true)
          ∧ mget ((t.ope n).part p).tiles e.tile = some tl ∧ t.core.mem = s.core.mem))
      ∧ (let img := imageOf tl s.now (s.genAt e.ctx (destAddr e.dest)) (s.epochOf e.ctx)
         let d : DrainImg := { part := p, e := e, tile := tl, bytes := img, units := imageUnits e.a32 e.shape }
         let u := (s.setOpe n { s.ope n with drains := [d] }).take 9 n d.units
         let v := if e.mod 0 then u else u.freeTile n p e.tile
         e.op = 0x14 → destKind e.dest = 0 → s.vcheck e.ctx (destAddr e.dest) img.length true false = .none →
        Answers (exec (.rowPortOpStart n []) s) (fun t => left t ∧ (t.ope n).drains = []
          ∧ mget ((t.ope n).part p).tiles e.tile = (if e.mod 0 then some tl else none)
          ∧ t.core.mem = ((v.vput e.ctx (destAddr e.dest) img false).pinImage e.ctx (destAddr e.dest) img.length).core.mem)))

/-- A cell's exponent never decreases, whatever is merged into it, a block sum of a K-block or another cell; ACCZ sets it to -128, and ACCLD loads it
from memory. A cell of 56-bit mantissa and 8-bit exponent is what its word in an image says. -/
def Obligations.CellExponentKept : Prop :=
  (∀ c : Cell, c.x ≤ 127 → (∀ b, c.x ≤ (c.mergeBlock b).1.x ∧ (c.mergeBlock b).1.x ≤ 127)
    ∧ (∀ d, d.x ≤ 127 → c.x ≤ (c.mergeCell d).1.x ∧ (c.mergeCell d).1.x ≤ 127))
  ∧ (∀ sh n, ((Tile.zero false sh).cell n).x = -128)
  ∧ (∀ sh m p n, n < shapeCells sh → ((tileOfImage false sh m p).cell n).x = sext 8 (bytesAt m (8 * n) 8))
  ∧ (∀ c : Cell, -(2 ^ 55) ≤ c.m → c.m < 2 ^ 55 → -128 ≤ c.x → c.x < 128 → c.st < 16 → Cell.ofWord c.word c.st = c)

/-- MVX begins at its head, once no write is held for a slot that it reads, and holds its unit; an uncorrectable error in its accumulators sets POISON in the output; a unit that is asked to stop consumes no further weight group and reports output and K index; a held
write of a vector slot lands once no MVX reads the slot. -/
def Obligations.MvuCommands : Prop :=
  ∀ (s : State) (r : SlotRef) (e : Entry), s.dispatching = true →
    (HeadOk s r 0x18 (s.mvxBad r) e → (s.mvu r.unit).run = none → (s.mvu r.unit).result = none → (s.mvu r.unit).stopped = false →
      (∀ h ∈ (s.mvu r.unit).held, h.1 ∉ e.vsel) →
      Answers (exec (.mvx r 0 []) s) (fun t => Left s t r ∧ t.mvu r.unit = { s.mvu r.unit with run := some { e := e } }
        ∧ (∀ n, n ≠ r.unit → t.mvu n = s.mvu n) ∧ t.core.mem = s.core.mem ∧ t.core.qm.flags = s.core.qm.flags))
    ∧ (∀ x i k, (s.mvu r.unit).run = some x → (s.queue x.e.q).inst x.e.seq = some i → i.done = false → i.fid = none →
        x.g < x.e.outs * x.e.rowGroups → k < x.e.outs * x.e.vsel.length →
      Answers (exec (.mvx r 0 [k]) s) (fun t => t.mvu r.unit = { s.mvu r.unit with
          run := some { x with acc := mupd x.acc k { ms := [0] } (fun w => { w with st := w.st ||| 4 }) } } ∧ (∀ n, n ≠ r.unit → t.mvu n = s.mvu n)))
    ∧ (∀ n x, (s.mvu n).run = some x →
      Answers (exec (.mvuStop n) s) (fun t => t.mvu n = { s.mvu n with stopped := true, stopAt := some (x.g / x.e.rowGroups, 32 * (x.g % x.e.rowGroups)) }
        ∧ (∀ k, k ≠ n → t.mvu k = s.mvu k) ∧ t.core.mem = s.core.mem ∧ t.core.qm = s.core.qm))
    ∧ (∀ n slot h, (s.mvu n).reads slot = false → (s.mvu n).held.find? (fun h => h.1 = slot) = some h →
      Answers (exec (.vectorSlotWrite n slot) s) (fun t => mget (t.mvu n).vecs slot = some h.2.1 ∧ (t.mvu n).held = (s.mvu n).held.erase h
        ∧ (∀ k, k ≠ slot → mget (t.mvu n).vecs k = mget (s.mvu n).vecs k) ∧ t.core.mem = s.core.mem))

/-- What VOP computes element by element: the sum, difference, product, greater and lesser of two, the absolute value and the shifted value. -/
def Says.VectorFunctions : Prop :=
  ∀ (s : State) (n k : Nat) (e : Entry) (a b : List Dy) (i : Nat) (x : Dy), a[i]? = some x →
    let y := b.getD i {}
    let r := (s.vopValues n k e a b)[i]?
    (e.func = 1 → r = some (Dy.add x y)) ∧ (e.func = 2 → r = some (Dy.sub x y)) ∧ (e.func = 3 → r = some (Dy.mul x y))
    ∧ (e.func = 4 → r = some (Dy.max x y)) ∧ (e.func = 5 → r = some (Dy.min x y)) ∧ (e.func = 6 → r = some x.abs)
    ∧ (e.func = 7 → r = some (x.scale (sext 8 (e.f 19 1))))
    ∧ (e.func = 8 → r = some (Dy.add x (b.getD (i % e.row) {}))) ∧ (e.func = 9 → r = some (Dy.mul x (b.getD (i % e.row) {})))

/-- LDTBL, behind every earlier LUT of its slot, loads the table of its slot; every other VOP, with its scratch allocated until it completes, writes its
quantised result blocks to memory; VRED ARGMAX writes one 32-bit index a row, and the other
reductions their quantised blocks; each leaves the share and is finished. All inputs and the result translate. -/
def Says.VopAndVred : Prop :=
  ∀ (s : State) (r : SlotRef) (e : Entry), s.dispatching = true → s.headStopped r = false → (s.vuPos r e).outs = [] →
    let a := e.eff 0 24 56
    let d := destAddr e.dest
    let units := if e.func = 0xC then 12 else 0
    let mine := ((s.vu r.unit).slot r.slot).scr.any (fun x => x.1 = e.q && x.2.1 = e.seq)
    let v := if units = 0 ∨ mine = true then s else (s.take 0x0E r.unit units).holdScratch r e units
    (HeadOk s r 0x20 vopBad e → (∀ i ∈ (s.queue e.q).fl, ¬ (i.op = 0x20 ∧ i.fn = 0x0B ∧ i.unit = slotCode r ∧ i.seq < e.seq)) →
      e.func = 0x0D → v.vcheck e.ctx a 1040 false false = .none →
      Answers (exec (.vop r []) s) (fun t => Left s t r ∧ Done t e ∧ ((t.vu r.unit).slot r.slot).table = (v.vget e.ctx a 1040 false).1
        ∧ (∀ k, k ≠ r.slot → (t.vu r.unit).slot k = (s.vu r.unit).slot k) ∧ t.core.mem = (v.vtouch e.ctx a 1040 false false).core.mem))
    ∧ (let u := v.vuTouch e (vopAll e)
       let q := State.vopRun r e [] u 0 (e.vopN / 32)
       let bs := blockArray (qCode (e.f 20 4)) q.2
       HeadOk s r 0x20 vopBad e → e.func ≠ 0x0D → (mine = true ∨ units ≤ s.scratchFree r.unit) → destKind e.dest = 0 →
       v.piecesStop e.ctx (vopAll e) false false = .none → u.vcheck e.ctx d bs.length true false = .none →
      Answers (exec (.vop r []) s) (fun t => Left s t r ∧ Done t e ∧ t.core.vus = q.1.core.vus
        ∧ t.core.mem = ((q.1.qOutcomes e q.2).vput e.ctx d bs false).core.mem))
    ∧ (let u := s.vuTouch e (vredAll e)
       let row (i : Nat) : List Dy := (u.vredVals e i).1
       let bs := (List.range e.redRows).flatMap (fun i => leBytes 4 (argMax (row i) 0 (0, (row i).getD 0 {})).1)
       HeadOk s r 0x22 vredBad e → e.func = 5 → destKind e.dest = 0 → s.piecesStop e.ctx (vredAll e) false false = .none →
       u.vcheck e.ctx d (4 * e.redRows) true false = .none →
      Answers (exec (.vred r []) s) (fun t => Left s t r ∧ Done t e ∧ t.core.vus = s.core.vus
        ∧ ∃ k, t.core.mem = ((u.noteCount e 1 k).vput e.ctx d bs false).core.mem))
    ∧ (let u := s.vuTouch e (vredAll e)
       let q := State.vredRun r e [] u 0 (ceilDiv e.redRows 32)
       let bs := blockArray (qCode (e.f 20 4)) q.2
       HeadOk s r 0x22 vredBad e → e.func ≠ 5 → destKind e.dest = 0 → s.piecesStop e.ctx (vredAll e) false false = .none →
       u.vcheck e.ctx d bs.length true false = .none →
      Answers (exec (.vred r []) s) (fun t => Left s t r ∧ Done t e ∧ t.core.vus = q.1.core.vus
        ∧ t.core.mem = ((q.1.qOutcomes e q.2).vput e.ctx d bs false).core.mem))

/-- QNT of a block array in memory begins with the seed last written, writes its quantised blocks and is finished; QNT of an MVU's result takes the
result, and finishes the MVX that made it as well. -/
def Says.QntCompletes : Prop :=
  ∀ (s : State) (r : SlotRef) (e : Entry), s.dispatching = true → s.headStopped r = false → HeadOk s r 0x21 qntBad e → destKind e.dest = 0 →
    (s.vuPos r e).outs = [] →
    let a := e.eff 0 24 56
    let d := destAddr e.dest
    let spec := e.f 20 4
    let mine := ((s.vu r.unit).slot r.slot).scr.any (fun x => x.1 = e.q && x.2.1 = e.seq)
    let begun (units : Nat) : State := (if mine then s else (s.take 0x0E r.unit units).holdScratch r e units).qntBegin r.unit r.slot e
    (let v := begun 1
     let c := e.f 17 1 % 16
     let n := e.f 32 4 % 2 ^ 24
     let u := v.vuTouch e [(a, arrayBytes c n)]
     let bl := (List.range (n / 32)).map (u.arrBlk e.ctx a c n (u.vget e.ctx a (arrayBytes c n) false).1)
     let vb := strike [] (toVBlks (bl.flatMap Blk.vals) (fun i => (bl.getD i {}).poison) (fun _ => false) (fun i => c = 6 && (bl.getD i {}).raised))
     let q := u.quantiseAll r.unit r.slot spec ((vb.take (n / 32)).drop 0)
     let bs := blockArray (qCode spec) q.2
     e.f 16 1 = 3 → (mine = true ∨ 1 ≤ s.scratchFree r.unit) → v.piecesStop e.ctx [(a, arrayBytes c n)] false false = .none →
     u.vcheck e.ctx d bs.length true false = .none →
      Answers (exec (.qnt r []) s) (fun t =>
        let x := (s.vu r.unit).slot r.slot
        let y := (t.vu r.unit).slot r.slot
        Left s t r ∧ Done t e ∧ t.core.mem = ((q.1.qOutcomes e q.2).vput e.ctx d bs false).core.mem
        ∧ (x.qnt ≠ some (e.q, e.seq) → y.seedNext = none ∧ (qSr spec = false → ∀ k, x.seedNext = some k → y.rng = k))))
    ∧ (∀ x : MvxRun,
       let n := bits (e.f 24 1) 0 3
       let u := (begun 5).vuTouch e []
       let l := mvxVals (mvxImage x s.now 0 0) (x.e.outs * x.e.vsel.length)
       let vs := l.map (·.1)
       let nb := ceilDiv vs.length 32
       let vb := strike [] (toVBlks (vs ++ List.replicate (32 * nb - vs.length) ({} : Dy)) (fun i => ((l.drop (32 * i)).take 32).any (·.2)) (fun _ => false))
       let q := u.quantiseAll r.unit r.slot spec ((vb.take nb).drop 0)
       e.f 16 1 = 1 → (mine = true ∨ 5 ≤ s.scratchFree r.unit) → (s.mvu n).result = some x → bits x.e.dest 0 4 = r.unit → bits x.e.dest 4 2 = r.slot →
       u.vcheck e.ctx d (blockArray (qCode spec) q.2).length true false = .none →
      Answers (exec (.qnt r []) s) (fun t => Left s t r ∧ Done t e ∧ Done t x.e ∧ (t.mvu n).result = none ∧ (∀ k, k ≠ n → t.mvu k = s.mvu k)))

/-- A drain gets landing space in the VU whose QNT waits for it and leaves the drain buffer; a seed write takes effect at once, or
waits for the slot's next QNT while one is in progress; VU_CNT_CLR
clears the counters of the slots it names and no other counter. -/
def Says.VectorEvents : Prop :=
  ∀ (s : State) (r : SlotRef), s.dispatching = true →
    (∀ e n d, s.head r = some e → r.cls = 5 → e.op = 0x21 → e.f 16 1 = 0 → s.engineOf (e.f 24 2) = .ok n →
        (s.ope n).drains.find? (fun d => d.part = bits (e.f 24 4) 16 2 && destKind d.e.dest = 1 && bits d.e.dest 0 4 = r.unit && bits d.e.dest 4 2 = r.slot)
          = some d →
        ((s.ope n).part (bits (e.f 24 4) 16 2)).fence = 0 → (if d.tile.a32 then 5 else 9) ≤ s.scratchFree r.unit →
      Answers (exec (.vuDrainGrant r) s) (fun t => (t.ope n).drains = (s.ope n).drains.erase d ∧ Done t d.e ∧ t.core.mem = s.core.mem
        ∧ ((t.vu r.unit).slot r.slot).landed
            = ((s.vu r.unit).slot r.slot).landed ++ [(n, bits (e.f 24 4) 16 2, if d.tile.a32 then 5 else 9, d.tile)]))
    ∧ (∀ n k seed, n < 16 → k < 4 →
      Answers (exec (.vuSeedWrite n k seed) s) (fun t => (t.vu n).slot k = (if s.qntOn n k then { (s.vu n).slot k with seedNext := some (seedState (seed % 2 ^ 64)) }
          else { (s.vu n).slot k with rng := seedState (seed % 2 ^ 64), seedNext := none })
        ∧ (∀ j, j ≠ k → (t.vu n).slot j = (s.vu n).slot j) ∧ t.core.mem = s.core.mem ∧ t.core.qm = s.core.qm))
    ∧ (∀ n m, Answers (exec (.vuCntClr n m) s) (fun t =>
        (∀ k, k < 4 → m.testBit k = true → ∀ o, o < 0x100 → t.counter (vuCnt n k o) = 0)
        ∧ (∀ o, (∀ k, k < 4 → m.testBit k = true → o < vuCnt n k 0 ∨ vuCnt n k 0x100 ≤ o) → t.counter o = s.counter o)
        ∧ t.core.mem = s.core.mem ∧ t.core.qm = s.core.qm ∧ t.core.vus = s.core.vus))

/-! Stream engines and the sediment stack -/

/-- SARM of an idle stream with a valid descriptor arms it under the next generation; a stream becomes active when its turn comes; SCAN of a stream
that is not armed ends as CANCELLED; a stream with RT and ABORT is cancelled at its DEADLINE, by the copy of FT of its
quarter (R27, R38), and not before. -/
def Says.StreamStates : Prop :=
  ∀ (s : State) (r : SlotRef) (e : Entry), s.dispatching = true → s.seIssuing r = false →
    (let d := s.vnat e.ctx e.descAt 48 true
     HeadOk s r 0x30 (sarmBad s r) e → s.headHeld r = false → s.vcheck e.ctx e.descAt 48 false true = .none →
     (s.stream e.stream).st = 0 → firstBad (s.streamBad e.ctx d) = none → s.destAbsent (bits d 192 64) = none →
      Answers (exec (.sarm r) s) (fun t => Left s t r ∧ Done t e ∧ (t.stream e.stream).st = 1 ∧ (t.stream e.stream).ctx = e.ctx
        ∧ (t.stream e.stream).slot = r ∧ (t.stream e.stream).cur.desc = d ∧ (t.stream e.stream).cur.at_ = e.descAt
        ∧ (∀ n, n ≠ e.stream → t.stream n = s.stream n) ∧ t.core.mem = (s.vtouch e.ctx e.descAt 48 false true).core.mem))
    ∧ (HeadOk s r 0x31 (fun e => s.streamIdBad r e) e → ((s.stream e.stream).st = 0 ∨ (s.stream e.stream).st = 4 ∨ (s.stream e.stream).st = 6) →
        (∀ w ∈ (s.se r.unit).wbs, (e.q, e.seq) ∉ w.scans) →
      Answers (exec (.scan r) s) (fun t => Ended s t r e 5 ∧ t.core.streams = s.core.streams ∧ t.core.ses = s.core.ses ∧ t.core.mem = s.core.mem))
    ∧ (∀ u n x, (s.core.streams.filter (fun e => [2, 5, 7].contains e.2.st && decide (e.2.slot.unit = u))).length < 512 →
        firstStream (s.armedOf u) = some (n, x) →
        let st := s.stream n
        let d := s.vnat st.ctx st.cur.at_ 48 true
        s.vcheck st.ctx st.cur.at_ 48 false true = .none → st.old = none → st.redo = [] → st.cur.ended = false → st.cur.sigs = [] → st.illegal = none → st.entry < bits d 16 16 →
        firstBad (s.streamBad st.ctx d) = none →
      Answers (exec (.streamActivate u) s) (fun t => (t.stream n).st = 2 ∧ (t.stream n).cur.desc = d ∧ (t.stream n).cur.gen = st.cur.gen
        ∧ (∀ m, m ≠ n → t.stream m = s.stream m)))
    ∧ (∀ n, let st := s.stream n
        (st.cur.rt = true → st.cur.abort = true → st.cur.deadline ≠ 0 → st.cur.deadline ≤ s.nowAt (st.slot.unit / 8) →
          (st.st = 2 ∨ st.st = 7) → st.cur.ended = false →
          (s.se st.slot.unit).fetchesOf n (fun _ => true) ≠ [] →
          Answers (exec (.streamDeadline n) s) (fun t => (t.stream n).st = 5 ∧ (t.stream n).endCode = 3
            ∧ (∀ f ∈ (t.se st.slot.unit).fetchesOf n (fun _ => true), f.silt = true) ∧ (∀ m, m ≠ n → t.stream m = s.stream m) ∧ t.core.mem = s.core.mem))
        ∧ (s.nowAt (st.slot.unit / 8) < st.cur.deadline → exec (.streamDeadline n) s = .next s))

/-- The first stream that may fetch does, where its entry, WINDOW, tracker, stream buffer and destination allow it: its TU stands in the tracker and
its turn has passed, where it takes turns. An arriving TU of a stream leaves the tracker, and lands in its operand-buffer place with its generation, or is counted as silt.
An acknowledged write-back is no longer owed. -/
def Says.FetchesMove : Prop :=
  ∀ (s : State) (u : Nat), s.dispatching = true →
    (∀ side n cs d, s.candidates u = .stream n :: cs →
        let st := s.stream n
        let w := s.streamWant st d side
        let f := s.fetchOf w st.cur.q 0 (some ⟨n, st.cur.gen, st.cur.k, st.entry, st.tu⟩) false
        st.fid = none → st.illegal = none → st.redo = [] → st.entry < st.cur.nent → s.lbarPending st.slot = false → st.ent = some d →
        bits d 128 16 ≤ ((s.queue st.cur.q).dep + 65536 - st.cur.darm) % 65536 → (s.wantStop w).1 = .none →
        (s.se u).tusOf n (fun _ => true) + f.tus.length ≤ st.cur.window → (s.se u).fits f = true → s.busyLines w.engines w.plines = [] →
        ∀ k, firstFree 256 ((s.se u).tracker.map (·.1)) = some k →
      Answers (exec (.seFetchIssue u side) s) (fun t => mget (t.se u).tracker k = some f ∧ (t.se u).turn = (if st.cur.rt then (s.se u).turn else n + 1)
        ∧ (t.stream n).cur.k = st.cur.k + 1 ∧ (∀ m, m ≠ n → t.stream m = s.stream m)))
    ∧ (∀ (k : Nat) (f : Fetch) (g : TuTag), mget (s.se u).tracker k = some f → f.tag = some g → f.addrs = [] → (s.ctx f.ctx).st = .active →
        (s.stream g.stream).slot.unit = u →
      (∀ m line, f.silt = false → f.engines = [(m, line)] → f.transpose = false → (s.ope m).drop.contains (line, 0) = false →
        landLines (f.tus.map (fun x => withGen x g.gen)) ≤ f.plines →
        Answers (exec (.tuLand u k []) s) (fun t => mget (t.se u).tracker k = none
          ∧ mget (t.ope m).obuf line = some { lines := landLines (f.tus.map (fun x => withGen x g.gen)), tus := f.tus.map (fun x => withGen x g.gen), by_ := some g }
          ∧ (∀ j, j ≠ m → t.ope j = s.ope j)))
      ∧ (f.silt = true → Answers (exec (.tuLand u k []) s) (fun t => mget (t.se u).tracker k = none ∧ t.core.opes = s.core.opes)))
    ∧ (∀ k w, (s.se u).wbs[k]? = some w → w.scans = [] → refMode w.endref = 0 → w.wrote = true →
      Answers (exec (.streamWritebackAck u k) s) (fun t => (t.se u).wbs = (s.se u).wbs.eraseIdx k ∧ t.core.qm = s.core.qm ∧ t.core.mem = s.core.mem
        ∧ t.core.streams = s.core.streams))
    ∧ (∀ k w, (s.se u).wbs[k]? = some w → w.wrote = false → exec (.streamWritebackAck u k) s = .next s)

/-- TCOPY of tile units, PUSH within its reservation and POP of a written entry leave the share and begin as jobs of the SE; TCOPY of a vector that fits
lands in every slot it names and is finished; PUSH takes the first free places and
puts them on its entry, POP takes its TUs off the top entry; an overflowing PUSH ends with SEDIMENT_OVERFLOW and the stack unchanged. -/
def Says.MovesBegin : Prop :=
  ∀ (s : State) (r : SlotRef) (e : Entry), s.dispatching = true → s.seIssuing r = false →
    let x := s.sed e.ctx
    let m := x.mb e.mb
    let n := e.count24
    let job (t : State) (j : SeJob) : Prop := Left s t r ∧ (t.se r.unit).jobs = (s.se r.unit).jobs ++ [j] ∧ t.core.mem = s.core.mem ∧ t.core.opes = s.core.opes
    (HeadOk s r 0x32 s.tcopyBad e → s.headHeld r = false → vecDest e.dest = false →
      (e.eff 0 16 24 ≠ 0 → Answers (exec (.tcopy r) s) (fun t => job t { e := e, total := e.eff 0 16 24 } ∧ t.core.seds = s.core.seds))
      ∧ (e.eff 0 16 24 = 0 → Answers (exec (.tcopy r) s) (fun t => Left s t r ∧ Done t e ∧ t.core.ses = s.core.ses ∧ t.core.mem = s.core.mem)))
    ∧ (let code := e.f 36 1 % 16
       let nn := e.eff 0 16 24
       let g := s.vget e.ctx (e.eff 1 24 56) (arrayBytes code nn) true
       let el := elemBytes code * (nn / 32)
       let sc := scaleBytes code * (nn / 32)
       let padE := if code = 4 then el else pad64 el
       let padS := if code = 4 then 0 else pad64 sc
       let bs := g.1.take el ++ (g.1.drop padE).take sc ++ (if code = 2 then (g.1.drop (padE + padS)).take (4 * (nn / 32)) else [])
       let v : MvuVec := { fmt := code, n := nn, bytes := bs, poison := g.2 }
       HeadOk s r 0x32 s.tcopyBad e → s.headHeld r = false → vecDest e.dest = true → s.roomFor r e.q e.ctx (e.eff 1 24 56) (arrayBytes code nn) = true →
       s.vcheck e.ctx (e.eff 1 24 56) (arrayBytes code nn) false true = .none → s.vecHeld e.q e.seq = false →
       (∀ p ∈ vecTargets e.dest, (s.mvu p.1).fits p.2 v = true ∧ (s.mvu p.1).reads p.2 = false ∧ ∀ h ∈ (s.mvu p.1).held, h.1 ≠ p.2) →
      Answers (exec (.tcopy r) s) (fun t => Left s t r ∧ Done t e ∧ (∀ p ∈ vecTargets e.dest, mget (t.mvu p.1).vecs p.2 = some v)
        ∧ (t.se r.unit).jobs = (s.se r.unit).jobs ∧ t.core.opes = s.core.opes))
    ∧ (HeadOk s r 0x34 (fun e => alignBad 24 (e.eff 1 24 56) tuBytes) e → m.entries ≠ [] → n ≠ 0 →
      (n ≤ m.free → Answers (exec (.push r) s) (fun t =>
        let places := (freePlaces x.size (x.used 0) n).map (2 * ·)
        job t { e := e, total := n, places := places, moves := [] } ∧ (t.sed e.ctx).mb e.mb = m.push e.layer places
        ∧ ∀ k, k ≠ e.mb → (t.sed e.ctx).mb k = x.mb k))
      ∧ (m.free < n → (s.ctx e.ctx).flag 3 = false → Answers (exec (.push r) s) (fun t => Ended s t r e 0xD ∧ t.core.seds = s.core.seds
          ∧ t.flagBit sedInt 2 = true ∧ t.core.mem = s.core.mem)))
    ∧ (∀ top rest, HeadOk s r 0x35 (fun e => e.destAlign 24 tuBytes ++ s.obufBad 24 e.dest ++ s.popStackBad e) e → m.entries = top :: rest →
        top.writing = 0 → n ≠ 0 →
      Answers (exec (.pop r) s) (fun t => job t { e := e, total := n, places := top.places.take n }
        ∧ ((t.sed e.ctx).mb e.mb).entries = (if (top.places.drop n).isEmpty then rest else { top with places := top.places.drop n } :: rest)
        ∧ ((t.sed e.ctx).mb e.mb).claimed = m.claimed ++ top.places.take n))

/-- PIN within every limit raises the pin counts of its TUs and completes without a fetch; one over a limit ends with LIMIT_EXCEEDED and pins nothing;
UNPIN lowers them; UPD of a block whose arrays can be reached updates exactly that block; a stack's registers are set while the context holds nothing. -/
def Says.PinsAndUpdates : Prop :=
  ∀ (s : State) (r : SlotRef) (e : Entry), s.dispatching = true → s.seIssuing r = false → s.headHeld r = false →
    (HeadOk s r 0x36 pinBad e → s.pinStop e = .none → s.hadEffect e = false →
      (∀ key k, e.mod 0 = false → s.pinRange e = [(key, k)] → s.pinLimit e (s.pinRange e) = none →
        Answers (exec (.pin r) s) (fun t => Left s t r ∧ Done t e
          ∧ (∃ y, mget t.core.mem.pool key = some y ∧ y.pin = (s.poolEntry key k e.ctx).pin + 1 ∧ y.evict = false
              ∧ ((s.poolEntry key k e.ctx).resident = true → y = { s.poolEntry key k e.ctx with pin := (s.poolEntry key k e.ctx).pin + 1, evict := false }))
          ∧ t.core.mem.hbm = s.core.mem.hbm ∧ ∀ j, j ≠ key → mget t.core.mem.pool j = mget s.core.mem.pool j))
      ∧ (∀ d, s.pinLimit e (s.pinRange e) = some d → Answers (exec (.pin r) s) (fun t => Ended s t r e 0xE ∧ t.core.mem = s.core.mem)))
    ∧ (∀ key k p, HeadOk s r 0x37 pinBad e → s.pinStop e = .none → s.pinRange e = [(key, k)] → mget s.core.mem.pool key = some p → p.resident = true →
      Answers (exec (.unpin r) s) (fun t => Left s t r ∧ Done t e ∧ mget t.core.mem.pool key = some { p with pin := p.pin - 1, imagePin := false }
        ∧ t.core.mem.hbm = s.core.mem.hbm))
    ∧ (let d := s.vnat e.ctx e.orec 64 false
       let u := s.vtouch e.ctx e.orec 64 false false
       HeadOk s r 0x40 s.updBad e → (s.se r.unit).upds = [] → e.updBlks = 1 → s.vcheck e.ctx e.orec 64 false false = .none →
       firstBad (recBad e.opt d) = none → (u.updStop e d 0).1 = .none →
      Answers (exec (.upd r) s) (fun t => Left s t r ∧ Done t e ∧ t.core.mem = (u.updBlock e d 0).1.core.mem ∧ (t.se r.unit).upds = []))
    ∧ (∀ v, let c := s.reg fldSedSel
        (∀ m ∈ (s.sed c).mbs, m.2.entries = [] ∧ m.2.resv = 0) →
      Answers (exec (.sedConfigWrite 0x10 v) s) (fun t => t.sed c = { s.sed c with size := v % 2 ^ 32 } ∧ t.core.mem = s.core.mem)
      ∧ Answers (exec (.sedConfigWrite 0x08 v) s) (fun t => t.sed c = { s.sed c with base := bits v 14 42 * tuBytes } ∧ t.core.mem = s.core.mem)
      ∧ Answers (exec (.sedConfigWrite 0x18 v) s) (fun t => t.sed c = { s.sed c with spbase := bits v 14 42 * tuBytes } ∧ t.core.mem = s.core.mem)
      ∧ Answers (exec (.sedConfigWrite 0x20 v) s) (fun t => t.sed c = { s.sed c with spsize := v % 2 ^ 32 } ∧ t.core.mem = s.core.mem))

/-- An instruction that fails a check at the head of its slot is turned away with ILLEGAL_INSTRUCTION and the check's detail, and has no other effect:
OPA, ACCZ, MVX, VOP, VRED, QNT, SARM, SCAN, TCOPY, PUSH, PIN, UNPIN, BOPEN and EPOCH. -/
def Obligations.FailedChecksEnd : Prop :=
  ∀ (s : State) (r : SlotRef), s.dispatching = true →
    (((s.ope r.unit).part r.slot).run = none → Rejects s (.opa r) r 0x10 (s.opaBad r) ∧ Rejects s (.accz r) r 0x13 (fun e => s.tileBad r e ++ []))
    ∧ ((s.mvu r.unit).run = none → (s.mvu r.unit).result = none → (s.mvu r.unit).stopped = false → s.mvxWaits r = false →
        Rejects s (.mvx r 0 []) r 0x18 (s.mvxBad r))
    ∧ (s.headStopped r = false → ∀ k, Rejects s (.vop r k) r 0x20 vopBad
        ∧ Rejects s (.vred r k) r 0x22 vredBad 
        ∧ Rejects s (.qnt r k) r 0x21 (fun e => qntBad e ++ (if e.f 16 1 = 2 then s.imageBad e else [])))
    ∧ (s.seIssuing r = false → s.headHeld r = false → Rejects s (.sarm r) r 0x30 (sarmBad s r) ∧ Rejects s (.scan r) r 0x31 (fun e => s.streamIdBad r e)
        ∧ Rejects s (.tcopy r) r 0x32 s.tcopyBad ∧ Rejects s (.push r) r 0x34 (fun e => alignBad 24 (e.eff 1 24 56) tuBytes)
        ∧ Rejects s (.pin r) r 0x36 pinBad ∧ Rejects s (.unpin r) r 0x37 pinBad)
    ∧ (s.headHeld r = false → Rejects s (.bopen r) r 0x50 (fun e => if s.core.rce.puts.any (fun p => p.e = e) then [] else s.bopenBad r e))
    ∧ Rejects s (.epoch r) r 0x54 s.epochBad

/-! Collectives -/

/-- GRP_SET takes a valid member table into the group register of its RCE and channel, with SEQ 0; a channel above 11 is refused, and a table behind a
page fault is one that ends the command; GRP_CLR of a group without buckets and GATHERs clears it. -/
def Obligations.GroupCommands : Prop :=
  ∀ s : State, s.dispatching = true → s.cmdBusy 2 = false →
    let gc := bits (s.arg rceGBase 0) 0 4
    let n := bits (s.arg rceGBase 0) 8 4
    let c := bits (s.arg rceGBase 0) 16 12
    let a := bits (s.arg rceGBase 1) 6 50 * 64
    let s0 := s.startCmd 2 1 0
    let h := s0.vnat c a 64 false
    let u := s0.vtouch c a 64 false false
    let m := bits h 0 16
    let rank := bits h 16 16
    let eps := (List.range m).map (fun i => u.vnat c (a + 64 + 2 * i) 2 false)
    let w := u.vtouch c (a + 64) (2 * m) false false
    let result (t : State) : Nat := (mgetD t.core.cmds 2 {}).result
    (gc ≤ 11 → s0.vcheck c a 64 false false = .none → 0 < m → m ≤ 8192 → rank < m → u.vcheck c (a + 64) (2 * m) false false = .none →
        w.tableBad n gc c m rank (bits h 32 480) eps = false →
      Answers (exec .grpSet s) (fun t => t.group n gc = some ⟨c, m, rank, eps.getD ((rank + m - 1) % m) 0, eps.getD ((rank + 1) % m) 0, 0⟩
        ∧ (∀ k, k ≠ 16 * n + gc → mget t.core.rce.groups k = mget s.core.rce.groups k) ∧ result t = 0 ∧ t.core.mem = w.core.mem))
    ∧ (∀ k x, gc ≤ 11 → s0.vcheck c a 64 false false = .fault k x →
        Answers (exec .grpSet s) (fun t => t.core.rce = s.core.rce ∧ result t = 0x87 ∧ t.core.mem = s.core.mem))
    ∧ (11 < gc → Answers (exec .grpSet s) (fun t => t.core.rce = s.core.rce ∧ result t = 0x8C ∧ t.core.mem = s.core.mem))
    ∧ ((∀ b ∈ s.core.rce.buckets, ¬ (b.2.rce = n ∧ b.2.gc = gc)) → (∀ j ∈ s.core.rce.gathers, ¬ (j.rce = n ∧ j.gc = gc)) →
      Answers (exec .grpClr s) (fun t => t.group n gc = none ∧ (∀ k, k ≠ 16 * n + gc → mget t.core.rce.groups k = mget s.core.rce.groups k)
        ∧ result t = 0 ∧ t.core.mem = s.core.mem))

/-- BOPEN opens its bucket; BPUT of one block into an open reduce-scatter merges it into MAIN with OWN set; BCLOSE of a local round ends that round;
EPOCH with nothing of another epoch left moves its context and restarts its groups' SEQ; GATHER takes the next SEQ of its group. -/
def Says.CollectiveInstructions : Prop :=
  ∀ (s : State) (r : SlotRef) (e : Entry), s.dispatching = true → s.headHeld r = false →
    let key := bktKey e.bucket e.bEpoch
    let fresh : Prop := ∀ p ∈ s.core.rce.puts, p.e ≠ e
    (let b : Bucket := { rce := r.unit, slot := r.slot, q := e.q, ctx := e.ctx, id := e.bucket, epoch := e.bEpoch, gc := e.gc, op := e.f 20 1 % 4,
                         late := e.f 21 1 % 4, ncontrib := e.f 22 2, stage := e.eff 1 24 56, nblk := e.f 32 4, thin := e.f 36 1, close := e.eff 2 40 64 }
     HeadOk s r 0x50 (s.bopenBad r) e → fresh → mget s.core.rce.buckets key = none → s.core.rce.buckets.length < 4096 →
     (∀ g, mget s.core.rce.grants key = some g → g.nblk = b.nblk ∧ g.op = b.op) →
     (s.openRun b (b.parts.length * b.nblk) { e := e }).2.2.1 = .none →
      Answers (exec (.bopen r) s) (fun t => Left s t r ∧ Done t e
        ∧ ∃ x y z, mget t.core.rce.buckets key = some { b with sent := x, fid := y, lost := z }))
    ∧ (∀ b, mget s.core.rce.buckets key = some b → b.key = key → b.op = 0 → b.st = .open_ → b.bclose = none → b.cut = false →
      mget s.core.rce.grants key = none →
      (let k := e.eff 2 32 32
       let x := s.readBlk e.ctx (e.eff 1 24 56) (e.f 20 1 % 16) 1 0 false
       let v := s.touchBlk e.ctx (e.eff 1 24 56) (e.f 20 1 % 16) 1 0 false
       let w := v.recWord b 0 k
       let d := { b with counted := sins k b.counted }
       let m := (v.setBkt d).mergeAt b 0 k { toRsi x with count := b2n (!ownBit w && !b.counted.contains k) } true (partBit w) false
       HeadOk s r 0x51 (s.bputBad r) e → fresh → e.f 36 4 = 1 → b.ownLate (s.nowAt (b.rce / 4)) = false → doneBit w = false →
       doneBit (s.recWord b 0 k) = false →
       (s.spansStop e.ctx (blkPieces (e.eff 1 24 56) (e.f 20 1 % 16) 1 0) (b.blkSpans 0 k)).1 = .none → m.wordsStop d = .none →
        Answers (exec (.bput r) s) (fun t => Left s t r ∧ Done t e ∧ mget t.core.rce.buckets key = some d ∧ t.core.mem = m.core.mem))
      ∧ (HeadOk s r 0x52 (s.bcloseBad r) e → s.bktOf r e = some b → b.last = false →
         (∀ k, k < b.nblk → s.piecesStop b.ctx [b.wordSpan 0 k] true false = .none) →
        Answers (exec (.bclose r) s) (fun t => Left s t r ∧ Done t e
          ∧ ∃ y z, mget t.core.rce.buckets key = some { b with round := b.round + 1, fid := y, lost := z })))
    ∧ (HeadOk s r 0x54 s.epochBad e → s.core.rce.epochs = [] → s.oldEpoch e.ctx e.bEpoch = false →
      Answers (exec (.epoch r) s) (fun t => Left s t r ∧ Done t e ∧ (t.ctx e.ctx).epoch = e.bEpoch ∧ (∀ c, c ≠ e.ctx → t.ctx c = s.ctx c)
        ∧ (∀ g ∈ t.core.rce.groups, g.2.ctx = e.ctx → g.2.seq = 0) ∧ t.core.rce.buckets = s.core.rce.buckets
        ∧ t.core.mem = ((s.updCtx e.ctx (fun c => { c with epoch := e.bEpoch })).ctxWrite e.ctx).core.mem))
    ∧ (∀ g, HeadOk s r 0x53 (s.gatherBad r) e → (∀ j ∈ s.core.rce.gathers, j.e ≠ e) → s.group r.unit e.gc = some g →
      Answers (exec (.gather r) s) (fun t => t.group r.unit e.gc = some { g with seq := (g.seq + 1) % 2 ^ 32 }
        ∧ ((∃ j ∈ t.core.rce.gathers, j.e = e ∧ j.seq = g.seq) ∨ Done t e)))

/-- A round under carry or drop passes at CLOSE and not before; finals of an all-reduce are given up GRACE microseconds after it. -/
def Says.RoundsPass : Prop :=
  ∀ (s : State) (id ep : Nat) (b : Bucket), s.live = true → mget s.core.rce.buckets (bktKey id ep) = some b → b.key = bktKey id ep →
    b.st = .open_ → b.last = true → b.late ≠ 0 → b.close ≠ 0 → b.cut = false → mget s.core.rce.grants b.key = none →
    (b.passed = false → b.op = 0 → b.close ≤ s.nowAt (b.rce / 4) → s.wordsStop b = .none →
      Answers (exec (.roundClose id ep) s) (fun t => mget t.core.rce.buckets b.key = some { b with passed := true } ∧ t.core.mem = s.core.mem))
    ∧ (s.nowAt (b.rce / 4) < b.close → exec (.roundClose id ep) s = .next s)
    ∧ (b.op = 2 → b.gaveUp = false → b.close + 1000 * s.reg fldGrace ≤ s.nowAt (b.rce / 4) →
      Answers (exec (.finalGraceExpiry id ep) s) (fun t => ∃ y z, mget t.core.rce.buckets b.key = some { b with gaveUp := true, fid := y, lost := z }))
    ∧ (s.nowAt (b.rce / 4) < b.close + 1000 * s.reg fldGrace → exec (.finalGraceExpiry id ep) s = .next s)

/-- Group packets that reach the RCE holding their channel: GRANT and GGRANT are held for their bucket or GATHER, REVOKE takes a held grant away,
RDATA merges a partial into MAIN with PART set, MDATA lands in an all-gather or broadcast, GDATA lands in its GATHER. -/
def Obligations.GroupPackets : Prop :=
  ∀ (s : State) (p : Packet) (n : Nat), s.live = true → s.firstIn p = true → s.rceOf (epDie p.dest) (gGc p) = some n →
    (p.len ≤ 1 ∨ s.rceSlots n < rceShare) → (∀ x ∈ s.core.rce.slots, ¬ (x.rce = n ∧ x.pkt = p)) →
    let taken (t : State) : Prop := t.core.fab.inbox = s.core.fab.inbox.erase p
    (mget s.core.rce.buckets (gBkt p) = none →
      (p.type = 0x40 → mget s.core.rce.grants (gBkt p) = none →
        Answers (exec (.grant p) s) (fun t => taken t ∧ mget t.core.rce.grants (gBkt p) = some ⟨n, gGc p, gClose p, gFirst p, hdrField p 41 1 % 4, 1⟩
          ∧ t.core.mem = s.core.mem))
      ∧ (p.type = 0x45 → Answers (exec (.revoke p) s) (fun t => taken t ∧ mget t.core.rce.grants (gBkt p) = none ∧ t.core.mem = s.core.mem))
      ∧ (p.type = 0x41 → 0 < gK p → Answers (exec (.rdata p) s) (fun t => taken t ∧ t.core.mem = s.core.mem ∧ t.core.rce = s.core.rce
          ∧ t.flagBit (rceInt n) 2 = true)))
    ∧ (∀ b, mget s.core.rce.buckets (gBkt p) = some b → b.key = gBkt p → b.rce = n → b.gc = gGc p → gClose p = b.close → b.st = .open_ →
        b.passed = false → b.cut = false → b.fid = none → mget s.core.rce.grants (gBkt p) = none → gK p = 1 → gFirst p < b.nblk →
      (p.type = 0x41 → b.op = 0 → (hdrField p 41 1).testBit 0 = false → doneBit (s.recWord b 0 (gFirst p)) = false →
       (s.spansStop b.ctx [b.wordSpan 0 (gFirst p)] (b.blkSpans 0 (gFirst p))).1 = .none →
        Answers (exec (.rdata p) s) (fun t => ∃ u : State, u.core.mem = s.core.mem ∧ u.core.mmu = s.core.mmu ∧ u.core.host = s.core.host
          ∧ (let m := u.mergeAt b 0 (gFirst p) (gRblk p 0) (ownBit (u.recWord b 0 (gFirst p))) true false
             m.wordsStop b = .none → mget t.core.rce.buckets (gBkt p) = some b ∧ t.core.mem = m.core.mem)))
      ∧ (p.type = 0x42 → (b.op = 1 ∨ b.op = 3) →
         (s.spansStop b.ctx [] (blkPieces b.stage (gFmt p % 16) b.nblk (gFirst p) ++ [b.wordSpan 0 (gFirst p)])).1 = .none →
        Answers (exec (.mdata p) s) (fun t => ∃ y z, mget t.core.rce.buckets (gBkt p)
          = some { b with fmt := some (gFmt p), landed := mput b.landed (gFirst p) (gOrigin p, (gMoved p 0).2),
                          sent := b.sent.filter (· ≠ gFirst p), fid := y, lost := z })))
    ∧ (p.type = 0x43 → s.gatherOf p n = none → Answers (exec (.ggrant p) s) (fun t => taken t ∧ t.core.mem = s.core.mem
        ∧ ⟨16 * n + gGc p, hdrField p 18 1, hdrField p 20 4, gFirst p, gFmt p, gOrigin p⟩ ∈ t.core.rce.ggrants))
    ∧ (∀ j, p.type = 0x44 → s.gatherOf p n = some j → j.fin = false → gOrigin p < (s.gGroup j).m → j.unfit p = false →
      Answers (exec (.gdata p) s) (fun t => Done t j.e
        ∨ ∃ k ∈ t.core.rce.gathers, k.e = j.e ∧ ∀ i, i < gK p → mhas k.landed (gOrigin p * j.nblk + gFirst p + i) = true))

/-- The blocks of a bucket are numbered from 0; with S the number of blocks over M, rounded up, shard r consists of blocks r S to the smaller of (r + 1) S
and their number, less one, and rank r owns it. -/
def Obligations.ShardsOwned : Prop :=
  ∀ (b : Bucket) (m k r : Nat), 0 < m → k < b.nblk →
    (shardLen b.nblk m = (b.nblk + m - 1) / m)
    ∧ (b.owner m k = r ↔ (r * shardLen b.nblk m ≤ k ∧ k < min ((r + 1) * shardLen b.nblk m) b.nblk)) ∧ b.owner m k < m

/-! Fabric packets, ports and links -/

/-- Requests at their responder: a read of HBM for this module answers its bytes, a write to a device physical address is made and acknowledged; a
request of another module with a CTX other than 0 is answered DENIED, and reads and writes nothing. An answer to another die of this module sets out
over the direct link between the two. -/
def Says.RequestsServed : Prop :=
  ∀ (s : State) (p : Packet), s.dispatching = true → s.firstIn p = true →
    let rsp (t : State) (type status : Nat) (data : List Byte) : Prop := ∃ x : Packet, x.type = type
      ∧ (match linkOf (epDie p.dest) (epDie p.src) with
        | none => t.core.fab.inbox = s.core.fab.inbox.erase p ++ [x]
        | some l => t.core.fab.inbox = s.core.fab.inbox.erase p ∧ ∃ c : Crossing, t.core.fab.crossing = s.core.fab.crossing ++ [c] ∧ c.link = l
          ∧ c.die = epDie p.dest ∧ c.pkt = x ∧ c.out = none)
      ∧ x.vc = 2 ∧ x.dest = p.src ∧ x.txid = p.txid ∧ hdrField x 16 1 = status ∧ x.data = data
    let n := reqBytes p
    (epModule p.src = s.modid → s.denied p = false → reqT1 p = false →
      (p.type = 0x20 → s.vcheck (reqCtx p) (reqAddr p) n false false = .none →
        (∀ c ∈ s.cut (reqCtx p) (reqAddr p) n false false, ∃ d, s.xlate (reqCtx p) c.1 false false = .ok (.hbm d)) →
        Answers (exec (.rdReq p) s) (fun t => rsp t 0x30 (b2n (s.vget (reqCtx p) (reqAddr p) n false).2) (s.vget (reqCtx p) (reqAddr p) n false).1
          ∧ t.core.mem = (s.vtouch (reqCtx p) (reqAddr p) n false false).core.mem))
      ∧ (p.type = 0x21 → p.data.length = n → p.poison = false → reqCtx p = 0 → s.vcheck (reqCtx p) (reqAddr p) n true false = .none →
        Answers (exec (.wrReq p) s) (fun t => rsp t 0x31 0 [] ∧ t.core.mem = (s.vput (reqCtx p) (reqAddr p) p.data false).core.mem)))
    ∧ (∀ i, epModule p.src ≠ s.modid → reqCtx p ≠ 0 → s.routeOf (s.ep (epDie p.dest)) p.src 2 = some i → p.mc = false →
        let out (t : State) (type : Nat) : Prop := ∃ x : Packet, (mgetD (t.port i).tx 2 []).map (·.pkt) = (mgetD (s.port i).tx 2 []).map (·.pkt) ++ [x] ∧ x.type = type
          ∧ x.dest = p.src ∧ x.txid = p.txid ∧ hdrField x 16 1 = 2 ∧ t.core.mem = s.core.mem ∧ t.core.fab.inbox = s.core.fab.inbox.erase p
      (p.type = 0x20 → Answers (exec (.rdReq p) s) (fun t => out t 0x30)) ∧ (p.type = 0x21 → Answers (exec (.wrReq p) s) (fun t => out t 0x31)))

/-- Responses and notices: a clean response or acknowledgement ends its transaction and its instruction, a bad one and a DROP end it as POISONED; a DROP
of group data counts its blocks as lost; MGMT and the two CTRL notices are taken; a flag update of the context that owns the block reaches the flag. -/
def Says.ResponsesAndNotices : Prop :=
  ∀ (s : State) (p : Packet), s.live = true → s.firstIn p = true →
    let taken (t : State) : Prop := t.core.fab.inbox = s.core.fab.inbox.erase p
    (∀ o type, mget s.core.fab.outst p.txid = some o → o.tu = none → o.queue ≠ 0xFFFF → p.type = type → (type = 0x30 ∨ type = 0x31) →
      let c := if type = 0x30 then Instr.rdRsp p else .wrAck p
      (hdrField p 16 1 = 0 → p.poison = false → Answers (exec c s) (fun t => taken t ∧ mget t.core.fab.outst p.txid = none
        ∧ (∀ i, (t.queue o.queue).inst o.seq = some i → i.done = true) ∧ t.core.mem = s.core.mem))
      ∧ (hdrField p 16 1 ≠ 0 → Answers (exec c s) (fun t => taken t ∧ mget t.core.fab.outst p.txid = none
        ∧ (∀ i, (t.queue o.queue).inst o.seq = some i → i.done = true ∧ mhas i.outs 1 = true) ∧ t.core.mem = s.core.mem)))
    ∧ (p.type = 0x50 → 0x40 ≤ hdrField p 16 1 → hdrField p 16 1 ≤ 0x4F →
      let n := hdrField p 20 4 / 65536 % 16
      Answers (exec (.drop p) s) (fun t => taken t ∧ t.flagBit (rceInt n) 4 = true
        ∧ t.counter (rceBase n + 0x138) = (s.counter (rceBase n + 0x138) + hdrField p 20 4 % 65536) % 2 ^ 64 ∧ t.core.mem = s.core.mem))
    ∧ (p.type = 0x51 → Answers (exec (.mgmt p) s) (fun t => taken t ∧ t.core.mem = s.core.mem ∧ t.core.qm = s.core.qm ∧ t.core.rce = s.core.rce))
    ∧ (p.type = 0x11 → ctrlSub p = 2 → Answers (exec (.gateNotice p) s) (fun t => taken t ∧ t.core.mem = s.core.mem ∧ t.core.qm = s.core.qm))
    ∧ (p.type = 0x11 → ctrlSub p = 3 → Answers (exec (.freezeStatusNotice p) s) (fun t => taken t ∧ t.core.mem = s.core.mem ∧ t.core.qm = s.core.qm))
    ∧ (∀ f c q, s.ownsFlag c f = true →
      Answers (exec (.flagUpd f c 1 q) s) (fun t => mgetD t.core.qm.upd f [] = mgetD s.core.qm.upd f [] ++ [⟨true, some q⟩] ∧ t.core.mem = s.core.mem)
      ∧ Answers (exec (.flagUpd f c 2 q) s) (fun t => mgetD t.core.qm.upd f [] = mgetD s.core.qm.upd f [] ++ [⟨false, some q⟩] ∧ t.core.mem = s.core.mem))
    ∧ (∀ f c q, s.ownsFlag c f = false → exec (.flagUpd f c 1 q) s = .next (s.takeFlagUpd f 1 q) ∧ exec (.flagUpd f c 2 q) s = .next (s.takeFlagUpd f 2 q))

/-- PACKET_TRANSIT: a unicast packet whose route names an ACTIVE port is queued there with HOPS one less, over the direct link where the port lies on
another die; one with HOPS 0 is dropped and counted. -/
def Says.TransitForwards : Prop :=
  ∀ (s : State) (i id : Nat) (x : RxPkt), s.dispatching = true → s.rxPkt i id = some x → x.taken = false → s.nextRx i x = true → min 4 x.pkt.len ≤ x.here → x.pkt.mc = false →
    epModule x.pkt.dest ≠ s.modid → Machine.packetOk x.pkt = true → ∀ o, s.routeOf x.pkt.src x.pkt.dest x.pkt.vc = some o →
    let q : Packet := { x.pkt with hops := x.pkt.hops - 1 }
    (x.pkt.hops ≠ 0 → o ≠ i → s.fillXbar o x.pkt.vc = s → Answers (exec (.packetTransit i id) s) (fun t =>
      (match linkOf (dieOfPort i) (dieOfPort o) with
        | none => (∃ m, mgetD (t.port o).tx x.pkt.vc [] = mgetD (s.port o).tx x.pkt.vc []
              ++ [{ pkt := q, here := x.here, ps := x.ps, src := some (i, id), moved := m }])
            ∧ t.core.fab.crossing = s.core.fab.crossing
        | some l => mgetD (t.port o).tx x.pkt.vc [] = mgetD (s.port o).tx x.pkt.vc [] 
              ++ [{ pkt := q, here := 0, via := some s.core.fab.crossNext, hop := some (l, dieOfPort i) }]
            ∧ t.core.fab.crossing = s.core.fab.crossing ++ [⟨s.core.fab.crossNext, l, dieOfPort i, q, x.here, 0, x.ps, some (i, id), some o, none⟩])
      ∧ t.core.mem = s.core.mem
      ∧ ∀ j, j ≠ o → j ≠ i → t.port j = s.port j))
    ∧ (x.pkt.hops = 0 → Answers (exec (.packetTransit i id) s) (fun t => t.flagBit (fabInt i) 4 = true ∧ t.core.mem = s.core.mem))

/-- Frames: an ACTIVE port resends the oldest frame of a replay under its SEQ, or sends a new frame that its replay FIFO keeps under the next SEQ; a
marker frame after 1,024 frames; a good frame in order is accepted, a frame that fails starts a NAK episode; a replay begins when ACK has stood still
for 4 us, and not before. -/
def Says.FramesAndRetry : Prop :=
  ∀ (s : State) (i : Nat), s.live = true → s.portActive i = true →
    let p := s.port i
    (p.framesSinceMarker < 1024 →
      (∀ f rest k, p.resend = f :: rest → Answers (exec (.frameTransmit i k) s) (fun t => (t.port i).resend = rest ∧ (t.port i).replay = p.replay
        ∧ (t.port i).seq = p.seq ∧ (∃ g, (t.port i).out = some g ∧ g.seq = f.seq ∧ g.ack = p.next ∧ g.ctype = 1 ∧ frameCrcOk g (s.frameSlots i) = true ∧ (k = [] → g.units = f.units)
          ∧ g.units.length = f.units.length ∧ ∀ j ∈ k, ∀ u, g.units[j]? = some u → u.p = true)
        ∧ t.core.mem.hbm = s.core.mem.hbm ∧ (k = [] → t.core.mem = s.core.mem)))
      ∧ (∀ k, p.resend = [] → (∀ e ∈ p.tx, e.2 = []) → Answers (exec (.frameTransmit i k) s) (fun t => (t.port i).seq = (p.seq + 1) % 2 ^ 32
        ∧ (∃ g, (t.port i).out = some g ∧ (t.port i).replay = p.replay ++ [g] ∧ g.seq = p.seq ∧ g.units = []) ∧ t.core.mem = s.core.mem)))
    ∧ (1024 ≤ p.framesSinceMarker → Answers (exec (.markerFrame i) s) (fun t => t.port i = { p with framesSinceMarker := 0, out := none }
        ∧ (∀ j, j ≠ i → t.port j = s.port j) ∧ t.core.mem = s.core.mem) ∧ ∀ k, exec (.frameTransmit i k) s = .next s)
    ∧ (∀ f corr chk, frameCrcOk f (s.frameSlots i) = true → f.ctype = 1 → f.seq = p.next → f.units = [] → f.freed = [] → f.nak = false →
      Answers (exec (.frameReceived i f corr 0 chk) s) (fun t => (t.port i).next = (p.next + 1) % 2 ^ 32 ∧ (t.port i).nakOn = false
        ∧ (t.port i).ack = f.ack ∧ (∀ g ∈ (t.port i).replay, g ∈ p.replay ∧ seqBefore g.seq f.ack = false) ∧ t.core.mem = s.core.mem))
    ∧ (∀ f corr un chk, (un ≠ 0 ∨ frameCrcOk f (s.frameSlots i) = false ∨ f.ctype = 0 ∨ 3 < f.ctype) → p.nakOn = false →
      Answers (exec (.frameReceived i f corr un chk) s) (fun t => (t.port i).nakOn = true ∧ (t.port i).nakcnt = (p.nakcnt + 1) % 256
        ∧ (t.port i).next = p.next ∧ (t.port i).replay = p.replay ∧ t.core.mem = s.core.mem))
    ∧ (p.replay ≠ [] → p.ackFt + 4000 ≤ s.now → Answers (exec (.replayTimeout i) s) (fun t =>
        t.port i = { p with resend := p.replay, ackFt := s.now } ∧ t.core.mem = s.core.mem))
    ∧ (s.now < p.ackFt + 4000 → exec (.replayTimeout i) s = .next s)
    ∧ (16 ≤ p.episodes → Answers (exec (.retryLimit i) s) (fun t => (t.port i).st = .train ∧ (t.port i).episodes = 0 ∧ (t.port i).replay = p.replay
        ∧ (t.port i).seq = p.seq ∧ t.flagBit (fabInt i) 2 = true ∧ t.core.mem.hbm = s.core.mem.hbm))
    ∧ (p.episodes < 16 → exec (.retryLimit i) s = .next s)

/-- Bring-up: training with every lane good leads to RESYNC, and a lost signal or a port reset back to TRAIN with SEQ and replay FIFO kept; a first
RESYNC frame is answered; with RESYNC_DONE sent and received the port is ACTIVE; a mismatch leaves it FAILED. -/
def Says.PortsComeUp : Prop :=
  ∀ (s : State) (i : Nat), s.live = true → s.portNamed i = true →
    let p := s.port i
    let kept (t : State) : Prop := (t.port i).seq = p.seq ∧ (t.port i).replay = p.replay ∧ (t.port i).rx = p.rx ∧ t.core.mem.hbm = s.core.mem.hbm
      ∧ t.core.mem.flash = s.core.mem.flash ∧ t.core.mem.pool = s.core.mem.pool
    (∀ pol rev, p.st = .train → Answers (exec (.trainComplete i pol 0 rev) s) (fun t => kept t ∧ (t.port i).st = .resync ∧ (t.port i).fail = 0
        ∧ (t.port i).rsSent = true ∧ (t.port i).degraded = false ∧ (t.port i).width = (if s.halfMode i then 4 else 8)))
    ∧ (∀ lane, (p.st = .active ∨ p.st = .resync) → (s.lanesOf i).testBit lane = true →
      Answers (exec (.lossOfSignal i lane) s) (fun t => kept t ∧ (t.port i).st = .train ∧ (t.port i).fail.testBit lane = true))
    ∧ (∀ f h, p.st = .resync → f.ctype = 2 → f.hs = some h → p.rsGot = false → p.doneGot = false →
      frameCrcOk f (s.frameSlots i) = true →
      (s.hsBad i h = true → Answers (exec (.resync i f) s) (fun t => (t.port i).st = .failed ∧ t.flagBit (fabInt i) 6 = true ∧ t.core.mem.hbm = s.core.mem.hbm))
      ∧ (s.hsBad i h = false → p.fresh = false → h.fresh = false → h.incarn = p.partnerInc → p.partnerInc ≠ 0 → (∀ x ∈ p.rx, x.old = false) →
        Answers (exec (.resync i f) s) (fun t => (t.port i).st = .resync ∧ (t.port i).rsGot = true ∧ (t.port i).doneSent = true
          ∧ (t.port i).seq = p.seq ∧ (t.port i).limit = (List.range 16).zip h.limits ∧ t.core.mem = s.core.mem)))
    ∧ (∀ t0, p.st = .resync → p.rsFt = some t0 → (∀ x ∈ p.rx, x.old = false) → p.doneGot = false →
      Answers (exec (.survivorDrained i) s) (fun t => (t.port i).doneSent = true ∧ (t.port i).rsFt = none ∧ t.core.mem = s.core.mem))
    ∧ (∀ f h, p.st = .resync → f.ctype = 3 → f.hs = some h → frameCrcOk f (s.frameSlots i) = true → p.rsGot = true → p.doneSent = true →
      Answers (exec (.resyncDone i f) s) (fun t => kept t ∧ (t.port i).st = .active ∧ (t.port i).resend = p.replay ∧ (t.port i).fresh = false
        ∧ t.flagBit (fabInt i) 0 = true))
    ∧ (p.left = true → s.reg fldLinkTmo ≠ 0 → p.leftFt + 1000000 * s.reg fldLinkTmo ≤ s.now → p.st ≠ .active → p.st ≠ .down → p.tx = [] → p.rx = [] → p.replay = [] →
      Answers (exec (.linkTmo i) s) (fun t => (t.port i).st = (if p.st = .failed then .failed else .train) ∧ (t.port i).left = false
        ∧ (t.port i).fresh = true ∧ t.flagBit 0x880 2 = true))
    ∧ ((p.left = false ∨ s.now < p.leftFt + 1000000 * s.reg fldLinkTmo) → exec (.linkTmo i) s = .next s)

/-- The host's control of ports: ENh set takes a DOWN port to TRAIN once FAB_MODID has been written, cleared returns it to DOWN; a reset returns it to
TRAIN; the mode changes while both halves are DOWN only; FAB_MODID is taken while every port is DOWN only. A good unit of a die-to-die link passes on,
one that fails its CRC is sent again, and the link fails at 16 consecutive failed replays. A
mismatch of a pointer of the hub's record queue or of a link's buffers is fatal. -/
def Says.PortControl : Prop :=
  ∀ (s : State) (i : Nat), s.dispatching = true → s.portPresent (i / 2) = true →
    let p := s.port i
    (i % 2 = 0 → p.st = .down → s.core.fab.modidSet = true → Answers (exec (.fabCtlEn i true) s) (fun t => (t.port i).st = .train ∧ t.reg (fldEn i) = 1
        ∧ (∀ j, j ≠ i → t.port j = s.port j) ∧ t.core.mem.hbm = s.core.mem.hbm))
    ∧ (i % 2 = 0 → p.tx = [] → p.rx = [] → p.replay = [] → Answers (exec (.fabCtlEn i false) s) (fun t => (t.port i).st = .down ∧ t.reg (fldEn i) = 0))
    ∧ (i % 2 = 0 → p.st ≠ .down → Answers (exec (.fabCtlReset i) s) (fun t => (t.port i).st = .train ∧ (t.port i).seq = p.seq ∧ (t.port i).replay = p.replay
        ∧ (t.port i).rx = p.rx ∧ t.core.mem.hbm = s.core.mem.hbm))
    ∧ (∀ v, let k := i / 2
        ((s.port (2 * k)).st = .down → (s.port (2 * k + 1)).st = .down →
          Answers (exec (.fabCtlHalf k v) s) (fun t => t.reg (fldHalf k) = b2n v ∧ t.core.fab = s.core.fab ∧ t.core.mem = s.core.mem))
        ∧ (((s.port (2 * k)).st ≠ .down ∨ (s.port (2 * k + 1)).st ≠ .down) → exec (.fabCtlHalf k v) s = .next s))
    ∧ (∀ id, ((∀ e ∈ s.core.fab.ports, e.2.st = .down) → (∀ j, j < 40 → s.reg (fldEn j) = 0) →
          Answers (exec (.fabModidWrite id) s) (fun t => t.modid = id % 8192 ∧ t.core.fab.modidSet = true ∧ t.core.fab.ports = s.core.fab.ports ∧ t.core.mem = s.core.mem))
        ∧ ((∃ e ∈ s.core.fab.ports, e.2.st ≠ .down) → exec (.fabModidWrite id) s = .next s))
    ∧ (∀ l, l < 10 → let d := mgetD s.core.fab.d2d l {}
        d.failed = false →
        Answers (exec (.d2dUnitReceived l ⟨true, false⟩) s) (fun t =>
          (∃ x, mget t.core.fab.d2d l = some x ∧ x.units = d.units + 1 ∧ x.fails = 0 ∧ x.retry = false ∧ x.again = none) ∧ t.core.mem = s.core.mem
          ∧ (s.nextOn l = none → t.core.fab.crossing = s.core.fab.crossing ∧ t.core.fab.inbox = s.core.fab.inbox)
          ∧ ∀ c w, s.nextOn l = some (c, w) → c.src = none → c.out = none → c.stamp = none → c.pkt.type ≠ 0x11 →
            let k : Packet := { c.pkt with poison := c.pkt.poison || !c.ps.isEmpty }
            let here : Prop := c.pkt.len ≤ c.sent + 1
            (here → t.core.fab.inbox = s.core.fab.inbox ++ [k] ∧ t.core.fab.held = s.core.fab.held ++ [{ pkt := k, link := some (l, c.die) }])
            ∧ (¬ here → t.core.fab.inbox = s.core.fab.inbox ∧ t.core.fab.held = s.core.fab.held)
            ∧ (mgetD t.core.fab.d2d l {}).sent = mupd d.sent (16 * c.die + c.pkt.vc) 0 (fun n => (n + 1) % 2 ^ 24)
            ∧ (mgetD t.core.fab.d2d l {}).wrr = mput d.wrr c.die w)
        ∧ (∀ k, Answers (exec (.d2dUnitReceived l ⟨false, k⟩) s) (fun t =>
            t.core.fab = { s.core.fab with d2d := mput s.core.fab.d2d l { d with
                fails := if d.retry then d.fails + 1 else 0, retry := true, again := ((s.nextCrossing l).map (·.id)).or d.again } }
            ∧ t.core.mem = s.core.mem))
        ∧ (16 ≤ d.fails → Answers (exec (.d2dLinkFailed l) s) (fun t => t.core.ras.stop = true ∧ (mgetD t.core.fab.d2d l {}).failed = true))
        ∧ (d.fails < 16 → exec (.d2dLinkFailed l) s = .next s))
    ∧ (∀ n, Answers (exec (.fifoDupMismatch 5 n) s) (fun t => t.core.ras.stop = true ∧ t.core.mem.hbm = s.core.mem.hbm)
      ∧ (n < 10 → Answers (exec (.fifoDupMismatch 2 n) s) (fun t => t.core.ras.stop = true ∧ (mgetD t.core.fab.d2d n {}).failed = true
          ∧ t.core.mem.hbm = s.core.mem.hbm)))

/-! Formats -/

/-- Relations are coded in 4 bits: 0 EQ, 1 NE, 2 LTU, 3 GEU, 4 LTS and 5 GES, on 32-bit words; an instruction with a code of 6 to 15 fails with reason
0x08, at the byte of its relation or before it. -/
def Obligations.RelationCodes : Prop :=
  (∀ a b : BitVec 32,
    (relHolds 0 a.toNat b.toNat = decide (a = b)) ∧ (relHolds 1 a.toNat b.toNat = decide (a ≠ b))
    ∧ (relHolds 2 a.toNat b.toNat = decide (a.toNat < b.toNat)) ∧ (relHolds 3 a.toNat b.toNat = decide (b.toNat ≤ a.toNat))
    ∧ (relHolds 4 a.toNat b.toNat = decide (a.toInt < b.toInt)) ∧ (relHolds 5 a.toNat b.toNat = decide (b.toInt ≤ a.toInt)))
  ∧ (∀ raw, 6 ≤ iField raw 17 1 % 16 → (iOp raw = 0x0B ∨ (iOp raw = 0x09 ∧ bits (iField raw 16 1) 4 1 = 1)) →
      (17, 8) ∈ ctlBad raw ∧ ∃ b, firstBad (ctlBad raw) = some b ∧ b.1 ≤ 17 ∧ b.2 = 8)

/-! Statements put together from the parts above -/

/-- The idle step: one nanosecond of the module by itself, at the rate of its clock. -/
def Obligations.IdleStep : Prop := Says.StepIdles ∧ Says.IdleTickRate

/-- Every command answers a next state; no step changes a fuse. -/
def Obligations.EveryCommandCompletes : Prop := Says.EveryCommandGoes ∧ Says.StepKeepsFuses

/-- What the module does not answer before it is ready and after a fatal error. -/
def Obligations.BeforeReadyAndAfterFatal : Prop := Says.NotReadyDiscards ∧ Says.FatalStopsDispatch

/-- Reads of FT, RESTEP and NEXTSEC. -/
def Obligations.HostTime : Prop := Says.FtReadLatches ∧ Says.RestepSetsTime

/-- Sources, lock state and the exchange of time. -/
def Obligations.TimeDiscipline : Prop := Says.TimeSourceLost ∧ Says.TsyncDrivesLock ∧ Says.TimeExchange

/-- Which register writes are discarded or locked. -/
def Obligations.RegisterWrites : Prop := Says.BarWriteDiscarded ∧ Says.RwlLock

/-- What a register write sets, and W1C bits. -/
def Obligations.RegisterFields : Prop := Says.RegWriteSets ∧ Says.W1cBits

/-- NOP, WAIT, FENCE and HALT. -/
def Obligations.PlainControlAndWait : Prop := Says.PlainControlCompletes ∧ Says.WaitRegisters

/-- GATE, GATE_EXPIRY and END. -/
def Obligations.GateAndEnd : Prop := Says.GateHolds ∧ Says.EndBeginsProgram

/-- The four doorbells and their forwarding. -/
def Obligations.Doorbells : Prop := Says.DoorbellsMoveQueues ∧ Says.DbCtlResumesAndAborts

/-- Dispatch of a unit's instruction, and setting it aside. -/
def Obligations.DispatchAndShare : Prop := Says.DispatchFillsShare ∧ Says.SetAsideMoves

/-- The QMG commands on queues. -/
def Obligations.QueueManager : Prop := Says.QmgBusyDiscards ∧ Says.QueueCommands

/-- The MMU commands on contexts, and their end. -/
def Obligations.ContextLife : Prop := Says.ContextCommands ∧ Says.KillAndDestroy

/-- The translation cache and the end of faults. -/
def Obligations.WalksAndFaults : Prop := Says.TranslationCache ∧ Says.FaultsEnd

/-- LATE_ABORT and FENCE_DUMP. -/
def Obligations.DeadlineAndDump : Prop := Says.DeadlineAborts ∧ Says.FenceDumpReads

/-- The pool in HBM: misses, fills, evictions. -/
def Obligations.PoolMoves : Prop := Says.PoolFills ∧ Says.EvictionFrees

/-- The host link, and records acknowledged. -/
def Obligations.LinkAndRecords : Prop := Says.HostLinkMoves ∧ Says.RecordsAcknowledged

/-- The host's window on device memory. -/
def Obligations.HostWindow : Prop := Says.WindowReadBack ∧ Says.WindowCommit

/-- The mailbox and firmware updates. -/
def Obligations.MailboxAndPldm : Prop := Says.MailboxAnswers ∧ Says.PldmUpdate

/-- Identity, evidence and the security state. -/
def Obligations.Security : Prop := Says.IdentityIndices ∧ Says.SecCommands ∧ Says.SecurityState

/-- The power and reset pins, and start-up. -/
def Obligations.PinsAndStartup : Prop := Says.PinsStartAndStop ∧ Says.StartupStages ∧ Says.InputAndCxlReset

/-- Pacing, caps, temperature and management; each of their ten commands completes. -/
def Obligations.PowerAndHeat : Prop := Says.PowerCommandsComplete ∧ Says.DutyFollowsPower ∧ Says.CapsAndPacing ∧ Says.ThermalLevels

/-- Fatal errors, scrubbing, and errors in the engines' memories. -/
def Obligations.ErrorsHandled : Prop := Says.FatalErrors ∧ Says.ScrubMarks ∧ Says.StorageErrors

/-- Counters, sampling and the ledger. -/
def Obligations.Counting : Prop := Says.CounterReads ∧ Says.SampleDispatch ∧ Says.LedgerCounts

/-- The engines' cycles and events. -/
def Obligations.EngineCycles : Prop := Says.IssueOrFreeze ∧ Says.EngineEvents

/-- The vector units' instructions and events. -/
def Obligations.VectorUnits : Prop := Says.VectorFunctions ∧ Says.VopAndVred ∧ Says.QntCompletes ∧ Says.VectorEvents

/-- Streams and their fetches. -/
def Obligations.Streams : Prop := Says.StreamStates ∧ Says.FetchesMove

/-- The stream engines' instructions. -/
def Obligations.MovesAndPins : Prop := Says.MovesBegin ∧ Says.PinsAndUpdates

/-- The collective instructions and their rounds. -/
def Obligations.Collectives : Prop := Says.CollectiveInstructions ∧ Says.RoundsPass

/-- Packets at their endpoints. -/
def Obligations.PacketsServed : Prop := Says.RequestsServed ∧ Says.ResponsesAndNotices

/-- Transit, frames and retry. -/
def Obligations.TransitAndFrames : Prop := Says.TransitForwards ∧ Says.FramesAndRetry

/-- Bring-up and control of ports, and the links. -/
def Obligations.PortsAndLinks : Prop := Says.PortsComeUp ∧ Says.PortControl
end

