-- ==== Sys2Proof/Laws/Errors.lean ====
section
/-! SUPPORT. Laws of errors in memories: a step that meets none is the plain step, and what one marks. -/
namespace Sys2Proof.Machine

@[simp] theorem strike_nil (l : List VBlk) : strike [] l = l := by simp [strike]

@[simp] theorem strikeUnits_nil (l : List FabUnit) : strikeUnits [] l = l := by simp [strikeUnits]

@[simp] theorem Fetch.struck_nil (f : Fetch) : f.struck [] = f := by simp [Fetch.struck]

@[simp] theorem State.opeErrors_nil (s : State) (n : Nat) : s.opeErrors n [] = s := by simp [State.opeErrors]

@[simp] theorem State.ramError_zero (s : State) (src : Nat) (r : SlotRef) : s.ramError src 0 r = s := rfl
@[simp] theorem State.parityError_zero (s : State) (r : SlotRef) : s.parityError 0 r = s := rfl
@[simp] theorem State.portParity_zero (s : State) (i : Nat) : s.portParity i 0 = s := rfl

/-- The units of a frame keep their number and packets; those struck carry P. -/
theorem strikeUnits_length (k : List Nat) (l : List FabUnit) : (strikeUnits k l).length = l.length := by simp [strikeUnits]

end Sys2Proof.Machine
end

