-- ==== Sys2Proof/Laws/Fabric.lean ====
section
/-! SUPPORT. Frames of the fabric's queues: what moves packets changes the fabric and the ledger, and nothing else. -/
namespace Sys2Proof.Machine

/-- Two states that differ in the fabric and the ledger alone. -/
def FabOnly (s t : State) : Prop := t = { s with core.fab := t.core.fab, core.ldg := t.core.ldg }

theorem FabOnly.rfl' (s : State) : FabOnly s s := rfl

theorem FabOnly.trans {s t u : State} (h : FabOnly s t) (k : FabOnly t u) : FabOnly s u := by
  unfold FabOnly at *; rw [k, h]

/-- Steps that each change the fabric and the ledger only do so together. -/
theorem FabOnly.foldl {α : Type} (f : State → α → State) (h : ∀ s a, FabOnly s (f s a)) (l : List α) (s : State) : FabOnly s (l.foldl f s) := by
  induction l generalizing s with
  | nil => exact .rfl' s
  | cons a l ih => exact (h s a).trans (ih _)

/-- `freeRx` changes the fabric and the ledger only. -/
theorem State.freeRx_fab (s : State) (i id n : Nat) (b : Bool) : FabOnly s (s.freeRx i id n b) := by
  unfold State.freeRx State.freeUnits
  split
  · rfl
  · cases b <;> simp only <;> split <;> rfl

/-- `d2dFreed` changes the fabric and the ledger only. -/
theorem State.d2dFreed_fab (s : State) (l die v n : Nat) : FabOnly s (s.d2dFreed l die v n) := by
  unfold State.d2dFreed; split <;> rfl

/-- `unitsMoved` changes the fabric and the ledger only. -/
theorem State.unitsMoved_fab (s : State) (x : PartPkt) (n : Nat) : FabOnly s (s.unitsMoved x n) := by
  unfold State.unitsMoved
  split
  · split
    · rfl
    · exact s.freeRx_fab ..
  · exact s.d2dFreed_fab ..
  · rfl

/-- `fillXbar` changes the fabric and the ledger only. -/
theorem State.fillXbar_fab (s : State) (o v : Nat) : FabOnly s (s.fillXbar o v) := by
  unfold State.fillXbar
  simp only
  split
  · rfl
  · exact FabOnly.trans (t := s.updPort o _) rfl (FabOnly.foldl _ (fun s e => s.unitsMoved_fab ..) _ _)

/-- `queueTx` changes the fabric and the ledger only. -/
theorem State.queueTx_fab (s : State) (o v : Nat) (x : PartPkt) : FabOnly s (s.queueTx o v x) :=
  FabOnly.trans (t := s.updPort o _) rfl (State.fillXbar_fab ..)

/-- `cross` changes the fabric and the ledger only. -/
theorem State.cross_fab (s : State) (l d : Nat) (x : PartPkt) (o : Option Nat) (p : Option (Nat × Nat)) : FabOnly s (s.cross l d x o p) := by
  unfold State.cross
  cases o with
  | none => rfl
  | some o => exact FabOnly.trans (t := { s with core.fab.crossNext := _, core.fab.crossing := _ }) rfl (State.queueTx_fab ..)

/-- `toPort` changes the fabric and the ledger only. -/
theorem State.toPort_fab (s : State) (d o : Nat) (x : PartPkt) : FabOnly s (s.toPort d o x) := by
  unfold State.toPort; split
  · exact s.queueTx_fab ..
  · exact s.cross_fab ..

/-- `deliver` changes the fabric and the ledger only. -/
theorem State.deliver_fab (s : State) (d : Nat) (p : Packet) : FabOnly s (s.deliver d p) := by
  unfold State.deliver; split
  · rfl
  · exact s.cross_fab ..

/-- What a change of the fabric and the ledger leaves alone. -/
theorem FabOnly.frame {s t : State} (h : FabOnly s t) :
    t.fuse = s.fuse ∧ t.ft = s.ft ∧ t.pending = s.pending ∧ t.core.regs = s.core.regs ∧ t.core.irq = s.core.irq ∧ t.core.unsync = s.core.unsync ∧
    t.core.qm = s.core.qm ∧ t.core.cmds = s.core.cmds ∧ t.core.mmu = s.core.mmu ∧ t.core.mem = s.core.mem ∧ t.core.host = s.core.host ∧
    t.core.boot = s.core.boot ∧ t.core.sec = s.core.sec ∧ t.core.ras = s.core.ras ∧ t.core.pmc = s.core.pmc ∧ t.core.pwr = s.core.pwr ∧
    t.core.opes = s.core.opes ∧ t.core.mvus = s.core.mvus ∧ t.core.vus = s.core.vus ∧ t.core.ses = s.core.ses ∧ t.core.streams = s.core.streams ∧
    t.core.armNext = s.core.armNext ∧ t.core.seds = s.core.seds ∧ t.core.saved = s.core.saved ∧ t.core.rce = s.core.rce ∧
    t.core.free = s.core.free := by
  rw [h]
  exact ⟨rfl, rfl, rfl, rfl, rfl, rfl, rfl, rfl, rfl, rfl, rfl, rfl, rfl, rfl, rfl, rfl, rfl, rfl, rfl, rfl, rfl, rfl, rfl, rfl, rfl, rfl⟩

/-- `cross` leaves everything but the fabric and the ledger alone. -/
@[simp] theorem State.cross_frame (s : State) (l d : Nat) (x : PartPkt) (o : Option Nat) (p : Option (Nat × Nat)) :
    (s.cross l d x o p).fuse = s.fuse ∧ (s.cross l d x o p).ft = s.ft ∧ (s.cross l d x o p).pending = s.pending ∧
    (s.cross l d x o p).core.regs = s.core.regs ∧ (s.cross l d x o p).core.irq = s.core.irq ∧ (s.cross l d x o p).core.unsync = s.core.unsync ∧
    (s.cross l d x o p).core.qm = s.core.qm ∧ (s.cross l d x o p).core.cmds = s.core.cmds ∧ (s.cross l d x o p).core.mmu = s.core.mmu ∧
    (s.cross l d x o p).core.mem = s.core.mem ∧ (s.cross l d x o p).core.host = s.core.host ∧ (s.cross l d x o p).core.boot = s.core.boot ∧
    (s.cross l d x o p).core.sec = s.core.sec ∧ (s.cross l d x o p).core.ras = s.core.ras ∧ (s.cross l d x o p).core.pmc = s.core.pmc ∧
    (s.cross l d x o p).core.pwr = s.core.pwr ∧ (s.cross l d x o p).core.opes = s.core.opes ∧ (s.cross l d x o p).core.mvus = s.core.mvus ∧
    (s.cross l d x o p).core.vus = s.core.vus ∧ (s.cross l d x o p).core.ses = s.core.ses ∧ (s.cross l d x o p).core.streams = s.core.streams ∧
    (s.cross l d x o p).core.armNext = s.core.armNext ∧ (s.cross l d x o p).core.seds = s.core.seds ∧ (s.cross l d x o p).core.saved = s.core.saved ∧
    (s.cross l d x o p).core.rce = s.core.rce ∧ (s.cross l d x o p).core.free = s.core.free := by
  exact (s.cross_fab l d x o p).frame

/-- `deliver` leaves everything but the fabric and the ledger alone. -/
@[simp] theorem State.deliver_frame (s : State) (d : Nat) (p : Packet) :
    (s.deliver d p).fuse = s.fuse ∧ (s.deliver d p).ft = s.ft ∧ (s.deliver d p).pending = s.pending ∧ (s.deliver d p).core.regs = s.core.regs ∧
    (s.deliver d p).core.irq = s.core.irq ∧ (s.deliver d p).core.unsync = s.core.unsync ∧ (s.deliver d p).core.qm = s.core.qm ∧
    (s.deliver d p).core.cmds = s.core.cmds ∧ (s.deliver d p).core.mmu = s.core.mmu ∧ (s.deliver d p).core.mem = s.core.mem ∧
    (s.deliver d p).core.host = s.core.host ∧ (s.deliver d p).core.boot = s.core.boot ∧ (s.deliver d p).core.sec = s.core.sec ∧
    (s.deliver d p).core.ras = s.core.ras ∧ (s.deliver d p).core.pmc = s.core.pmc ∧ (s.deliver d p).core.pwr = s.core.pwr ∧
    (s.deliver d p).core.opes = s.core.opes ∧ (s.deliver d p).core.mvus = s.core.mvus ∧ (s.deliver d p).core.vus = s.core.vus ∧
    (s.deliver d p).core.ses = s.core.ses ∧ (s.deliver d p).core.streams = s.core.streams ∧ (s.deliver d p).core.armNext = s.core.armNext ∧
    (s.deliver d p).core.seds = s.core.seds ∧ (s.deliver d p).core.saved = s.core.saved ∧ (s.deliver d p).core.rce = s.core.rce ∧
    (s.deliver d p).core.free = s.core.free := by
  exact (s.deliver_fab d p).frame

/-- `queueOut` leaves everything but the fabric and the ledger alone. -/
@[simp] theorem State.queueOut_frame (s : State) (d o : Nat) (p : Packet) :
    (s.queueOut d o p).fuse = s.fuse ∧ (s.queueOut d o p).ft = s.ft ∧ (s.queueOut d o p).pending = s.pending ∧
    (s.queueOut d o p).core.regs = s.core.regs ∧ (s.queueOut d o p).core.irq = s.core.irq ∧ (s.queueOut d o p).core.unsync = s.core.unsync ∧
    (s.queueOut d o p).core.qm = s.core.qm ∧ (s.queueOut d o p).core.cmds = s.core.cmds ∧ (s.queueOut d o p).core.mmu = s.core.mmu ∧
    (s.queueOut d o p).core.mem = s.core.mem ∧ (s.queueOut d o p).core.host = s.core.host ∧ (s.queueOut d o p).core.boot = s.core.boot ∧
    (s.queueOut d o p).core.sec = s.core.sec ∧ (s.queueOut d o p).core.ras = s.core.ras ∧ (s.queueOut d o p).core.pmc = s.core.pmc ∧
    (s.queueOut d o p).core.pwr = s.core.pwr ∧ (s.queueOut d o p).core.opes = s.core.opes ∧ (s.queueOut d o p).core.mvus = s.core.mvus ∧
    (s.queueOut d o p).core.vus = s.core.vus ∧ (s.queueOut d o p).core.ses = s.core.ses ∧ (s.queueOut d o p).core.streams = s.core.streams ∧
    (s.queueOut d o p).core.armNext = s.core.armNext ∧ (s.queueOut d o p).core.seds = s.core.seds ∧ (s.queueOut d o p).core.saved = s.core.saved ∧
    (s.queueOut d o p).core.rce = s.core.rce ∧ (s.queueOut d o p).core.free = s.core.free := by
  exact (s.toPort_fab d o { pkt := p, here := p.len }).frame

end Sys2Proof.Machine
end

