-- ==== Sys2Proof/Laws/Maps.lean ====
section
/-! SUPPORT. Laws of finite maps: what a read gives after each change. -/
namespace Sys2Proof.Machine

@[simp] theorem mget_nil {α : Type} (k : Nat) : mget ([] : Map α) k = none := rfl

@[simp] theorem mgetD_nil {α : Type} (k : Nat) (d : α) : mgetD ([] : Map α) k d = d := rfl

theorem mget_cons {α : Type} (j k : Nat) (a : α) (m : Map α) : mget ((j, a) :: m) k = if j = k then some a else mget m k := rfl

/-- A key that has been put reads as what was put. -/
@[simp] theorem mget_mput_same {α : Type} (m : Map α) (k : Nat) (a : α) : mget (mput m k a) k = some a := by
  induction m with
  | nil => simp [mput, mget]
  | cons e m ih =>
    obtain ⟨j, b⟩ := e
    unfold mput
    split
    · simp [mget]
    · split
      · simp [mget]
      · rename_i h; simp [mget, ih, Ne.symm h]

/-- Putting a key leaves every other one alone. -/
theorem mget_mput_ne {α : Type} (m : Map α) {k j : Nat} (a : α) (h : j ≠ k) : mget (mput m k a) j = mget m j := by
  induction m with
  | nil => simp [mput, mget, Ne.symm h]
  | cons e m ih =>
    obtain ⟨i, b⟩ := e
    unfold mput
    split
    · simp [mget, Ne.symm h]
    · split
      · subst_vars; simp [mget, Ne.symm h]
      · simp [mget, ih]

theorem mget_mput {α : Type} (m : Map α) (k j : Nat) (a : α) : mget (mput m k a) j = if j = k then some a else mget m j := by
  split
  · subst_vars; simp
  · exact mget_mput_ne m a ‹_›

@[simp] theorem mgetD_mput_same {α : Type} (m : Map α) (k : Nat) (a d : α) : mgetD (mput m k a) k d = a := by simp [mgetD]

theorem mgetD_mput_ne {α : Type} (m : Map α) {k j : Nat} (a d : α) (h : j ≠ k) : mgetD (mput m k a) j d = mgetD m j d := by
  simp [mgetD, mget_mput_ne m a h]

theorem mgetD_mput {α : Type} (m : Map α) (k j : Nat) (a d : α) : mgetD (mput m k a) j d = if j = k then a else mgetD m j d := by
  split
  · subst_vars; simp
  · exact mgetD_mput_ne m a d ‹_›

@[simp] theorem mgetD_mupd_same {α : Type} (m : Map α) (k : Nat) (d : α) (f : α → α) : mgetD (mupd m k d f) k d = f (mgetD m k d) := by
  simp [mupd]

theorem mgetD_mupd_ne {α : Type} (m : Map α) {k j : Nat} (d d' : α) (f : α → α) (h : j ≠ k) : mgetD (mupd m k d f) j d' = mgetD m j d' := by
  simp [mupd, mgetD_mput_ne, h]

@[simp] theorem mget_mupd_same {α : Type} (m : Map α) (k : Nat) (d : α) (f : α → α) : mget (mupd m k d f) k = some (f (mgetD m k d)) := by
  simp [mupd]

theorem mget_mupd_ne {α : Type} (m : Map α) {k j : Nat} (d : α) (f : α → α) (h : j ≠ k) : mget (mupd m k d f) j = mget m j := by
  simp [mupd, mget_mput_ne, h]

/-- A deleted key is absent. -/
@[simp] theorem mget_mdel_same {α : Type} (m : Map α) (k : Nat) : mget (mdel m k) k = none := by
  induction m with
  | nil => rfl
  | cons e m ih =>
    obtain ⟨j, b⟩ := e
    unfold mdel at *
    simp only [List.filter_cons, bne_iff_ne]
    by_cases hj : j = k <;> simp [hj, mget, ih]

/-- Deleting a key leaves every other one alone. -/
theorem mget_mdel_ne {α : Type} (m : Map α) {k j : Nat} (h : j ≠ k) : mget (mdel m k) j = mget m j := by
  induction m with
  | nil => rfl
  | cons e m ih =>
    obtain ⟨i, b⟩ := e
    unfold mdel at *
    simp only [List.filter_cons, bne_iff_ne]
    by_cases hi : i = k
    · simp [hi, mget, ih, Ne.symm h]
    · simp [hi, mget, ih]

@[simp] theorem mhas_mput_same {α : Type} (m : Map α) (k : Nat) (a : α) : mhas (mput m k a) k = true := by simp [mhas]

/-- A number put into a list is in it. -/
@[simp] theorem mem_sins_self (x : Nat) (l : List Nat) : x ∈ sins x l := by
  induction l with
  | nil => simp [sins]
  | cons y ys ih =>
    unfold sins
    split
    · simp
    · split
      · subst_vars; simp
      · simp [ih]

theorem mem_sins (x y : Nat) (l : List Nat) : y ∈ sins x l ↔ y = x ∨ y ∈ l := by
  induction l with
  | nil => simp [sins]
  | cons z zs ih =>
    unfold sins
    split
    · simp
    · split
      · subst_vars; simp
      · simp [ih]; tauto

end Sys2Proof.Machine
end

