-- ==== Sys2Proof/Laws/State.lean ====
section
/-! SUPPORT. Frames of the named updates of the state: each changes one part and leaves every other one alone. Said once for an update, by
definition, so that no proof unfolds a record update. -/
namespace Sys2Proof.Machine

/-- `setReg` changes core.regs only. -/
@[simp] theorem State.setReg_frame (s : State) (f : Fld) (v : Nat) :
    (s.setReg f v).fuse = s.fuse ∧ (s.setReg f v).ft = s.ft ∧ (s.setReg f v).pending = s.pending ∧ (s.setReg f v).core.irq = s.core.irq ∧
    (s.setReg f v).core.unsync = s.core.unsync ∧ (s.setReg f v).core.qm = s.core.qm ∧ (s.setReg f v).core.cmds = s.core.cmds ∧
    (s.setReg f v).core.mmu = s.core.mmu ∧ (s.setReg f v).core.mem = s.core.mem ∧ (s.setReg f v).core.fab = s.core.fab ∧
    (s.setReg f v).core.host = s.core.host ∧ (s.setReg f v).core.boot = s.core.boot ∧ (s.setReg f v).core.sec = s.core.sec ∧
    (s.setReg f v).core.ras = s.core.ras ∧ (s.setReg f v).core.pmc = s.core.pmc ∧ (s.setReg f v).core.pwr = s.core.pwr ∧
    (s.setReg f v).core.opes = s.core.opes ∧ (s.setReg f v).core.mvus = s.core.mvus ∧ (s.setReg f v).core.vus = s.core.vus ∧
    (s.setReg f v).core.ses = s.core.ses ∧ (s.setReg f v).core.streams = s.core.streams ∧ (s.setReg f v).core.armNext = s.core.armNext ∧
    (s.setReg f v).core.seds = s.core.seds ∧ (s.setReg f v).core.saved = s.core.saved ∧ (s.setReg f v).core.rce = s.core.rce ∧
    (s.setReg f v).core.ldg = s.core.ldg ∧ (s.setReg f v).core.free = s.core.free := by
  refine ⟨rfl, rfl, rfl, rfl, rfl, rfl, rfl, rfl, rfl, rfl, rfl, rfl, rfl, rfl, rfl, rfl, rfl, rfl, rfl, rfl, rfl, rfl, rfl, rfl, rfl, rfl, rfl⟩

/-- `bump` changes core.regs only. -/
@[simp] theorem State.bump_frame (s : State) (o n : Nat) :
    (s.bump o n).fuse = s.fuse ∧ (s.bump o n).ft = s.ft ∧ (s.bump o n).pending = s.pending ∧ (s.bump o n).core.irq = s.core.irq ∧
    (s.bump o n).core.unsync = s.core.unsync ∧ (s.bump o n).core.qm = s.core.qm ∧ (s.bump o n).core.cmds = s.core.cmds ∧
    (s.bump o n).core.mmu = s.core.mmu ∧ (s.bump o n).core.mem = s.core.mem ∧ (s.bump o n).core.fab = s.core.fab ∧
    (s.bump o n).core.host = s.core.host ∧ (s.bump o n).core.boot = s.core.boot ∧ (s.bump o n).core.sec = s.core.sec ∧
    (s.bump o n).core.ras = s.core.ras ∧ (s.bump o n).core.pmc = s.core.pmc ∧ (s.bump o n).core.pwr = s.core.pwr ∧
    (s.bump o n).core.opes = s.core.opes ∧ (s.bump o n).core.mvus = s.core.mvus ∧ (s.bump o n).core.vus = s.core.vus ∧
    (s.bump o n).core.ses = s.core.ses ∧ (s.bump o n).core.streams = s.core.streams ∧ (s.bump o n).core.armNext = s.core.armNext ∧
    (s.bump o n).core.seds = s.core.seds ∧ (s.bump o n).core.saved = s.core.saved ∧ (s.bump o n).core.rce = s.core.rce ∧
    (s.bump o n).core.ldg = s.core.ldg ∧ (s.bump o n).core.free = s.core.free := by
  refine ⟨rfl, rfl, rfl, rfl, rfl, rfl, rfl, rfl, rfl, rfl, rfl, rfl, rfl, rfl, rfl, rfl, rfl, rfl, rfl, rfl, rfl, rfl, rfl, rfl, rfl, rfl, rfl⟩

/-- `setCounter` changes core.regs only. -/
@[simp] theorem State.setCounter_frame (s : State) (o n : Nat) :
    (s.setCounter o n).fuse = s.fuse ∧ (s.setCounter o n).ft = s.ft ∧ (s.setCounter o n).pending = s.pending ∧
    (s.setCounter o n).core.irq = s.core.irq ∧ (s.setCounter o n).core.unsync = s.core.unsync ∧ (s.setCounter o n).core.qm = s.core.qm ∧
    (s.setCounter o n).core.cmds = s.core.cmds ∧ (s.setCounter o n).core.mmu = s.core.mmu ∧ (s.setCounter o n).core.mem = s.core.mem ∧
    (s.setCounter o n).core.fab = s.core.fab ∧ (s.setCounter o n).core.host = s.core.host ∧ (s.setCounter o n).core.boot = s.core.boot ∧
    (s.setCounter o n).core.sec = s.core.sec ∧ (s.setCounter o n).core.ras = s.core.ras ∧ (s.setCounter o n).core.pmc = s.core.pmc ∧
    (s.setCounter o n).core.pwr = s.core.pwr ∧ (s.setCounter o n).core.opes = s.core.opes ∧ (s.setCounter o n).core.mvus = s.core.mvus ∧
    (s.setCounter o n).core.vus = s.core.vus ∧ (s.setCounter o n).core.ses = s.core.ses ∧ (s.setCounter o n).core.streams = s.core.streams ∧
    (s.setCounter o n).core.armNext = s.core.armNext ∧ (s.setCounter o n).core.seds = s.core.seds ∧ (s.setCounter o n).core.saved = s.core.saved ∧
    (s.setCounter o n).core.rce = s.core.rce ∧ (s.setCounter o n).core.ldg = s.core.ldg ∧ (s.setCounter o n).core.free = s.core.free := by
  refine ⟨rfl, rfl, rfl, rfl, rfl, rfl, rfl, rfl, rfl, rfl, rfl, rfl, rfl, rfl, rfl, rfl, rfl, rfl, rfl, rfl, rfl, rfl, rfl, rfl, rfl, rfl, rfl⟩

/-- `take` changes core.ldg only. -/
@[simp] theorem State.take_frame (s : State) (c i n : Nat) :
    (s.take c i n).fuse = s.fuse ∧ (s.take c i n).ft = s.ft ∧ (s.take c i n).pending = s.pending ∧ (s.take c i n).core.regs = s.core.regs ∧
    (s.take c i n).core.irq = s.core.irq ∧ (s.take c i n).core.unsync = s.core.unsync ∧ (s.take c i n).core.qm = s.core.qm ∧
    (s.take c i n).core.cmds = s.core.cmds ∧ (s.take c i n).core.mmu = s.core.mmu ∧ (s.take c i n).core.mem = s.core.mem ∧
    (s.take c i n).core.fab = s.core.fab ∧ (s.take c i n).core.host = s.core.host ∧ (s.take c i n).core.boot = s.core.boot ∧
    (s.take c i n).core.sec = s.core.sec ∧ (s.take c i n).core.ras = s.core.ras ∧ (s.take c i n).core.pmc = s.core.pmc ∧
    (s.take c i n).core.pwr = s.core.pwr ∧ (s.take c i n).core.opes = s.core.opes ∧ (s.take c i n).core.mvus = s.core.mvus ∧
    (s.take c i n).core.vus = s.core.vus ∧ (s.take c i n).core.ses = s.core.ses ∧ (s.take c i n).core.streams = s.core.streams ∧
    (s.take c i n).core.armNext = s.core.armNext ∧ (s.take c i n).core.seds = s.core.seds ∧ (s.take c i n).core.saved = s.core.saved ∧
    (s.take c i n).core.rce = s.core.rce ∧ (s.take c i n).core.free = s.core.free := by
  refine ⟨rfl, rfl, rfl, rfl, rfl, rfl, rfl, rfl, rfl, rfl, rfl, rfl, rfl, rfl, rfl, rfl, rfl, rfl, rfl, rfl, rfl, rfl, rfl, rfl, rfl, rfl, rfl⟩

/-- `give` changes core.ldg only. -/
@[simp] theorem State.give_frame (s : State) (c i n : Nat) :
    (s.give c i n).fuse = s.fuse ∧ (s.give c i n).ft = s.ft ∧ (s.give c i n).pending = s.pending ∧ (s.give c i n).core.regs = s.core.regs ∧
    (s.give c i n).core.irq = s.core.irq ∧ (s.give c i n).core.unsync = s.core.unsync ∧ (s.give c i n).core.qm = s.core.qm ∧
    (s.give c i n).core.cmds = s.core.cmds ∧ (s.give c i n).core.mmu = s.core.mmu ∧ (s.give c i n).core.mem = s.core.mem ∧
    (s.give c i n).core.fab = s.core.fab ∧ (s.give c i n).core.host = s.core.host ∧ (s.give c i n).core.boot = s.core.boot ∧
    (s.give c i n).core.sec = s.core.sec ∧ (s.give c i n).core.ras = s.core.ras ∧ (s.give c i n).core.pmc = s.core.pmc ∧
    (s.give c i n).core.pwr = s.core.pwr ∧ (s.give c i n).core.opes = s.core.opes ∧ (s.give c i n).core.mvus = s.core.mvus ∧
    (s.give c i n).core.vus = s.core.vus ∧ (s.give c i n).core.ses = s.core.ses ∧ (s.give c i n).core.streams = s.core.streams ∧
    (s.give c i n).core.armNext = s.core.armNext ∧ (s.give c i n).core.seds = s.core.seds ∧ (s.give c i n).core.saved = s.core.saved ∧
    (s.give c i n).core.rce = s.core.rce ∧ (s.give c i n).core.free = s.core.free := by
  refine ⟨rfl, rfl, rfl, rfl, rfl, rfl, rfl, rfl, rfl, rfl, rfl, rfl, rfl, rfl, rfl, rfl, rfl, rfl, rfl, rfl, rfl, rfl, rfl, rfl, rfl, rfl, rfl⟩

/-- `reclaim` changes core.ldg only. -/
@[simp] theorem State.reclaim_frame (s : State) (c i n : Nat) :
    (s.reclaim c i n).fuse = s.fuse ∧ (s.reclaim c i n).ft = s.ft ∧ (s.reclaim c i n).pending = s.pending ∧
    (s.reclaim c i n).core.regs = s.core.regs ∧ (s.reclaim c i n).core.irq = s.core.irq ∧ (s.reclaim c i n).core.unsync = s.core.unsync ∧
    (s.reclaim c i n).core.qm = s.core.qm ∧ (s.reclaim c i n).core.cmds = s.core.cmds ∧ (s.reclaim c i n).core.mmu = s.core.mmu ∧
    (s.reclaim c i n).core.mem = s.core.mem ∧ (s.reclaim c i n).core.fab = s.core.fab ∧ (s.reclaim c i n).core.host = s.core.host ∧
    (s.reclaim c i n).core.boot = s.core.boot ∧ (s.reclaim c i n).core.sec = s.core.sec ∧ (s.reclaim c i n).core.ras = s.core.ras ∧
    (s.reclaim c i n).core.pmc = s.core.pmc ∧ (s.reclaim c i n).core.pwr = s.core.pwr ∧ (s.reclaim c i n).core.opes = s.core.opes ∧
    (s.reclaim c i n).core.mvus = s.core.mvus ∧ (s.reclaim c i n).core.vus = s.core.vus ∧ (s.reclaim c i n).core.ses = s.core.ses ∧
    (s.reclaim c i n).core.streams = s.core.streams ∧ (s.reclaim c i n).core.armNext = s.core.armNext ∧ (s.reclaim c i n).core.seds = s.core.seds ∧
    (s.reclaim c i n).core.saved = s.core.saved ∧ (s.reclaim c i n).core.rce = s.core.rce ∧ (s.reclaim c i n).core.free = s.core.free := by
  refine ⟨rfl, rfl, rfl, rfl, rfl, rfl, rfl, rfl, rfl, rfl, rfl, rfl, rfl, rfl, rfl, rfl, rfl, rfl, rfl, rfl, rfl, rfl, rfl, rfl, rfl, rfl, rfl⟩

/-- `worked` changes core.pmc only. -/
@[simp] theorem State.worked_frame (s : State) (r : SlotRef) (n : Nat) :
    (s.worked r n).fuse = s.fuse ∧ (s.worked r n).ft = s.ft ∧ (s.worked r n).pending = s.pending ∧ (s.worked r n).core.regs = s.core.regs ∧
    (s.worked r n).core.irq = s.core.irq ∧ (s.worked r n).core.unsync = s.core.unsync ∧ (s.worked r n).core.qm = s.core.qm ∧
    (s.worked r n).core.cmds = s.core.cmds ∧ (s.worked r n).core.mmu = s.core.mmu ∧ (s.worked r n).core.mem = s.core.mem ∧
    (s.worked r n).core.fab = s.core.fab ∧ (s.worked r n).core.host = s.core.host ∧ (s.worked r n).core.boot = s.core.boot ∧
    (s.worked r n).core.sec = s.core.sec ∧ (s.worked r n).core.ras = s.core.ras ∧ (s.worked r n).core.pwr = s.core.pwr ∧
    (s.worked r n).core.opes = s.core.opes ∧ (s.worked r n).core.mvus = s.core.mvus ∧ (s.worked r n).core.vus = s.core.vus ∧
    (s.worked r n).core.ses = s.core.ses ∧ (s.worked r n).core.streams = s.core.streams ∧ (s.worked r n).core.armNext = s.core.armNext ∧
    (s.worked r n).core.seds = s.core.seds ∧ (s.worked r n).core.saved = s.core.saved ∧ (s.worked r n).core.rce = s.core.rce ∧
    (s.worked r n).core.ldg = s.core.ldg ∧ (s.worked r n).core.free = s.core.free := by
  refine ⟨rfl, rfl, rfl, rfl, rfl, rfl, rfl, rfl, rfl, rfl, rfl, rfl, rfl, rfl, rfl, rfl, rfl, rfl, rfl, rfl, rfl, rfl, rfl, rfl, rfl, rfl, rfl⟩

/-- `setQueue` changes core.qm only. -/
@[simp] theorem State.setQueue_frame (s : State) (q : Nat) (x : Queue) :
    (s.setQueue q x).fuse = s.fuse ∧ (s.setQueue q x).ft = s.ft ∧ (s.setQueue q x).pending = s.pending ∧ (s.setQueue q x).core.regs = s.core.regs ∧
    (s.setQueue q x).core.irq = s.core.irq ∧ (s.setQueue q x).core.unsync = s.core.unsync ∧ (s.setQueue q x).core.cmds = s.core.cmds ∧
    (s.setQueue q x).core.mmu = s.core.mmu ∧ (s.setQueue q x).core.mem = s.core.mem ∧ (s.setQueue q x).core.fab = s.core.fab ∧
    (s.setQueue q x).core.host = s.core.host ∧ (s.setQueue q x).core.boot = s.core.boot ∧ (s.setQueue q x).core.sec = s.core.sec ∧
    (s.setQueue q x).core.ras = s.core.ras ∧ (s.setQueue q x).core.pmc = s.core.pmc ∧ (s.setQueue q x).core.pwr = s.core.pwr ∧
    (s.setQueue q x).core.opes = s.core.opes ∧ (s.setQueue q x).core.mvus = s.core.mvus ∧ (s.setQueue q x).core.vus = s.core.vus ∧
    (s.setQueue q x).core.ses = s.core.ses ∧ (s.setQueue q x).core.streams = s.core.streams ∧ (s.setQueue q x).core.armNext = s.core.armNext ∧
    (s.setQueue q x).core.seds = s.core.seds ∧ (s.setQueue q x).core.saved = s.core.saved ∧ (s.setQueue q x).core.rce = s.core.rce ∧
    (s.setQueue q x).core.ldg = s.core.ldg ∧ (s.setQueue q x).core.free = s.core.free := by
  refine ⟨rfl, rfl, rfl, rfl, rfl, rfl, rfl, rfl, rfl, rfl, rfl, rfl, rfl, rfl, rfl, rfl, rfl, rfl, rfl, rfl, rfl, rfl, rfl, rfl, rfl, rfl, rfl⟩

/-- `updQueue` changes core.qm only. -/
@[simp] theorem State.updQueue_frame (s : State) (q : Nat) (f : Queue → Queue) :
    (s.updQueue q f).fuse = s.fuse ∧ (s.updQueue q f).ft = s.ft ∧ (s.updQueue q f).pending = s.pending ∧ (s.updQueue q f).core.regs = s.core.regs ∧
    (s.updQueue q f).core.irq = s.core.irq ∧ (s.updQueue q f).core.unsync = s.core.unsync ∧ (s.updQueue q f).core.cmds = s.core.cmds ∧
    (s.updQueue q f).core.mmu = s.core.mmu ∧ (s.updQueue q f).core.mem = s.core.mem ∧ (s.updQueue q f).core.fab = s.core.fab ∧
    (s.updQueue q f).core.host = s.core.host ∧ (s.updQueue q f).core.boot = s.core.boot ∧ (s.updQueue q f).core.sec = s.core.sec ∧
    (s.updQueue q f).core.ras = s.core.ras ∧ (s.updQueue q f).core.pmc = s.core.pmc ∧ (s.updQueue q f).core.pwr = s.core.pwr ∧
    (s.updQueue q f).core.opes = s.core.opes ∧ (s.updQueue q f).core.mvus = s.core.mvus ∧ (s.updQueue q f).core.vus = s.core.vus ∧
    (s.updQueue q f).core.ses = s.core.ses ∧ (s.updQueue q f).core.streams = s.core.streams ∧ (s.updQueue q f).core.armNext = s.core.armNext ∧
    (s.updQueue q f).core.seds = s.core.seds ∧ (s.updQueue q f).core.saved = s.core.saved ∧ (s.updQueue q f).core.rce = s.core.rce ∧
    (s.updQueue q f).core.ldg = s.core.ldg ∧ (s.updQueue q f).core.free = s.core.free := by
  refine ⟨rfl, rfl, rfl, rfl, rfl, rfl, rfl, rfl, rfl, rfl, rfl, rfl, rfl, rfl, rfl, rfl, rfl, rfl, rfl, rfl, rfl, rfl, rfl, rfl, rfl, rfl, rfl⟩

/-- `updInst` changes core.qm only. -/
@[simp] theorem State.updInst_frame (s : State) (q n : Nat) (f : InFlight → InFlight) :
    (s.updInst q n f).fuse = s.fuse ∧ (s.updInst q n f).ft = s.ft ∧ (s.updInst q n f).pending = s.pending ∧
    (s.updInst q n f).core.regs = s.core.regs ∧ (s.updInst q n f).core.irq = s.core.irq ∧ (s.updInst q n f).core.unsync = s.core.unsync ∧
    (s.updInst q n f).core.cmds = s.core.cmds ∧ (s.updInst q n f).core.mmu = s.core.mmu ∧ (s.updInst q n f).core.mem = s.core.mem ∧
    (s.updInst q n f).core.fab = s.core.fab ∧ (s.updInst q n f).core.host = s.core.host ∧ (s.updInst q n f).core.boot = s.core.boot ∧
    (s.updInst q n f).core.sec = s.core.sec ∧ (s.updInst q n f).core.ras = s.core.ras ∧ (s.updInst q n f).core.pmc = s.core.pmc ∧
    (s.updInst q n f).core.pwr = s.core.pwr ∧ (s.updInst q n f).core.opes = s.core.opes ∧ (s.updInst q n f).core.mvus = s.core.mvus ∧
    (s.updInst q n f).core.vus = s.core.vus ∧ (s.updInst q n f).core.ses = s.core.ses ∧ (s.updInst q n f).core.streams = s.core.streams ∧
    (s.updInst q n f).core.armNext = s.core.armNext ∧ (s.updInst q n f).core.seds = s.core.seds ∧ (s.updInst q n f).core.saved = s.core.saved ∧
    (s.updInst q n f).core.rce = s.core.rce ∧ (s.updInst q n f).core.ldg = s.core.ldg ∧ (s.updInst q n f).core.free = s.core.free := by
  refine ⟨rfl, rfl, rfl, rfl, rfl, rfl, rfl, rfl, rfl, rfl, rfl, rfl, rfl, rfl, rfl, rfl, rfl, rfl, rfl, rfl, rfl, rfl, rfl, rfl, rfl, rfl, rfl⟩

/-- `note` changes core.qm only. -/
@[simp] theorem State.note_frame (s : State) (q n code d : Nat) (b : Bool) :
    (s.note q n code d b).fuse = s.fuse ∧ (s.note q n code d b).ft = s.ft ∧ (s.note q n code d b).pending = s.pending ∧
    (s.note q n code d b).core.regs = s.core.regs ∧ (s.note q n code d b).core.irq = s.core.irq ∧ (s.note q n code d b).core.unsync = s.core.unsync ∧
    (s.note q n code d b).core.cmds = s.core.cmds ∧ (s.note q n code d b).core.mmu = s.core.mmu ∧ (s.note q n code d b).core.mem = s.core.mem ∧
    (s.note q n code d b).core.fab = s.core.fab ∧ (s.note q n code d b).core.host = s.core.host ∧ (s.note q n code d b).core.boot = s.core.boot ∧
    (s.note q n code d b).core.sec = s.core.sec ∧ (s.note q n code d b).core.ras = s.core.ras ∧ (s.note q n code d b).core.pmc = s.core.pmc ∧
    (s.note q n code d b).core.pwr = s.core.pwr ∧ (s.note q n code d b).core.opes = s.core.opes ∧ (s.note q n code d b).core.mvus = s.core.mvus ∧
    (s.note q n code d b).core.vus = s.core.vus ∧ (s.note q n code d b).core.ses = s.core.ses ∧ (s.note q n code d b).core.streams = s.core.streams ∧
    (s.note q n code d b).core.armNext = s.core.armNext ∧ (s.note q n code d b).core.seds = s.core.seds ∧
    (s.note q n code d b).core.saved = s.core.saved ∧ (s.note q n code d b).core.rce = s.core.rce ∧ (s.note q n code d b).core.ldg = s.core.ldg ∧
    (s.note q n code d b).core.free = s.core.free := by
  refine ⟨rfl, rfl, rfl, rfl, rfl, rfl, rfl, rfl, rfl, rfl, rfl, rfl, rfl, rfl, rfl, rfl, rfl, rfl, rfl, rfl, rfl, rfl, rfl, rfl, rfl, rfl, rfl⟩

/-- `finish` changes core.qm only. -/
@[simp] theorem State.finish_frame (s : State) (q n : Nat) :
    (s.finish q n).fuse = s.fuse ∧ (s.finish q n).ft = s.ft ∧ (s.finish q n).pending = s.pending ∧ (s.finish q n).core.regs = s.core.regs ∧
    (s.finish q n).core.irq = s.core.irq ∧ (s.finish q n).core.unsync = s.core.unsync ∧ (s.finish q n).core.cmds = s.core.cmds ∧
    (s.finish q n).core.mmu = s.core.mmu ∧ (s.finish q n).core.mem = s.core.mem ∧ (s.finish q n).core.fab = s.core.fab ∧
    (s.finish q n).core.host = s.core.host ∧ (s.finish q n).core.boot = s.core.boot ∧ (s.finish q n).core.sec = s.core.sec ∧
    (s.finish q n).core.ras = s.core.ras ∧ (s.finish q n).core.pmc = s.core.pmc ∧ (s.finish q n).core.pwr = s.core.pwr ∧
    (s.finish q n).core.opes = s.core.opes ∧ (s.finish q n).core.mvus = s.core.mvus ∧ (s.finish q n).core.vus = s.core.vus ∧
    (s.finish q n).core.ses = s.core.ses ∧ (s.finish q n).core.streams = s.core.streams ∧ (s.finish q n).core.armNext = s.core.armNext ∧
    (s.finish q n).core.seds = s.core.seds ∧ (s.finish q n).core.saved = s.core.saved ∧ (s.finish q n).core.rce = s.core.rce ∧
    (s.finish q n).core.ldg = s.core.ldg ∧ (s.finish q n).core.free = s.core.free := by
  refine ⟨rfl, rfl, rfl, rfl, rfl, rfl, rfl, rfl, rfl, rfl, rfl, rfl, rfl, rfl, rfl, rfl, rfl, rfl, rfl, rfl, rfl, rfl, rfl, rfl, rfl, rfl, rfl⟩

/-- `finishWith` changes core.qm only. -/
@[simp] theorem State.finishWith_frame (s : State) (q n code d : Nat) :
    (s.finishWith q n code d).fuse = s.fuse ∧ (s.finishWith q n code d).ft = s.ft ∧ (s.finishWith q n code d).pending = s.pending ∧
    (s.finishWith q n code d).core.regs = s.core.regs ∧ (s.finishWith q n code d).core.irq = s.core.irq ∧
    (s.finishWith q n code d).core.unsync = s.core.unsync ∧ (s.finishWith q n code d).core.cmds = s.core.cmds ∧
    (s.finishWith q n code d).core.mmu = s.core.mmu ∧ (s.finishWith q n code d).core.mem = s.core.mem ∧
    (s.finishWith q n code d).core.fab = s.core.fab ∧ (s.finishWith q n code d).core.host = s.core.host ∧
    (s.finishWith q n code d).core.boot = s.core.boot ∧ (s.finishWith q n code d).core.sec = s.core.sec ∧
    (s.finishWith q n code d).core.ras = s.core.ras ∧ (s.finishWith q n code d).core.pmc = s.core.pmc ∧
    (s.finishWith q n code d).core.pwr = s.core.pwr ∧ (s.finishWith q n code d).core.opes = s.core.opes ∧
    (s.finishWith q n code d).core.mvus = s.core.mvus ∧ (s.finishWith q n code d).core.vus = s.core.vus ∧
    (s.finishWith q n code d).core.ses = s.core.ses ∧ (s.finishWith q n code d).core.streams = s.core.streams ∧
    (s.finishWith q n code d).core.armNext = s.core.armNext ∧ (s.finishWith q n code d).core.seds = s.core.seds ∧
    (s.finishWith q n code d).core.saved = s.core.saved ∧ (s.finishWith q n code d).core.rce = s.core.rce ∧
    (s.finishWith q n code d).core.ldg = s.core.ldg ∧ (s.finishWith q n code d).core.free = s.core.free := by
  refine ⟨rfl, rfl, rfl, rfl, rfl, rfl, rfl, rfl, rfl, rfl, rfl, rfl, rfl, rfl, rfl, rfl, rfl, rfl, rfl, rfl, rfl, rfl, rfl, rfl, rfl, rfl, rfl⟩

/-- `effect` changes core.qm only. -/
@[simp] theorem State.effect_frame (s : State) (q n : Nat) :
    (s.effect q n).fuse = s.fuse ∧ (s.effect q n).ft = s.ft ∧ (s.effect q n).pending = s.pending ∧ (s.effect q n).core.regs = s.core.regs ∧
    (s.effect q n).core.irq = s.core.irq ∧ (s.effect q n).core.unsync = s.core.unsync ∧ (s.effect q n).core.cmds = s.core.cmds ∧
    (s.effect q n).core.mmu = s.core.mmu ∧ (s.effect q n).core.mem = s.core.mem ∧ (s.effect q n).core.fab = s.core.fab ∧
    (s.effect q n).core.host = s.core.host ∧ (s.effect q n).core.boot = s.core.boot ∧ (s.effect q n).core.sec = s.core.sec ∧
    (s.effect q n).core.ras = s.core.ras ∧ (s.effect q n).core.pmc = s.core.pmc ∧ (s.effect q n).core.pwr = s.core.pwr ∧
    (s.effect q n).core.opes = s.core.opes ∧ (s.effect q n).core.mvus = s.core.mvus ∧ (s.effect q n).core.vus = s.core.vus ∧
    (s.effect q n).core.ses = s.core.ses ∧ (s.effect q n).core.streams = s.core.streams ∧ (s.effect q n).core.armNext = s.core.armNext ∧
    (s.effect q n).core.seds = s.core.seds ∧ (s.effect q n).core.saved = s.core.saved ∧ (s.effect q n).core.rce = s.core.rce ∧
    (s.effect q n).core.ldg = s.core.ldg ∧ (s.effect q n).core.free = s.core.free := by
  refine ⟨rfl, rfl, rfl, rfl, rfl, rfl, rfl, rfl, rfl, rfl, rfl, rfl, rfl, rfl, rfl, rfl, rfl, rfl, rfl, rfl, rfl, rfl, rfl, rfl, rfl, rfl, rfl⟩

/-- `moved` changes core.qm only. -/
@[simp] theorem State.moved_frame (s : State) (q n k : Nat) :
    (s.moved q n k).fuse = s.fuse ∧ (s.moved q n k).ft = s.ft ∧ (s.moved q n k).pending = s.pending ∧ (s.moved q n k).core.regs = s.core.regs ∧
    (s.moved q n k).core.irq = s.core.irq ∧ (s.moved q n k).core.unsync = s.core.unsync ∧ (s.moved q n k).core.cmds = s.core.cmds ∧
    (s.moved q n k).core.mmu = s.core.mmu ∧ (s.moved q n k).core.mem = s.core.mem ∧ (s.moved q n k).core.fab = s.core.fab ∧
    (s.moved q n k).core.host = s.core.host ∧ (s.moved q n k).core.boot = s.core.boot ∧ (s.moved q n k).core.sec = s.core.sec ∧
    (s.moved q n k).core.ras = s.core.ras ∧ (s.moved q n k).core.pmc = s.core.pmc ∧ (s.moved q n k).core.pwr = s.core.pwr ∧
    (s.moved q n k).core.opes = s.core.opes ∧ (s.moved q n k).core.mvus = s.core.mvus ∧ (s.moved q n k).core.vus = s.core.vus ∧
    (s.moved q n k).core.ses = s.core.ses ∧ (s.moved q n k).core.streams = s.core.streams ∧ (s.moved q n k).core.armNext = s.core.armNext ∧
    (s.moved q n k).core.seds = s.core.seds ∧ (s.moved q n k).core.saved = s.core.saved ∧ (s.moved q n k).core.rce = s.core.rce ∧
    (s.moved q n k).core.ldg = s.core.ldg ∧ (s.moved q n k).core.free = s.core.free := by
  refine ⟨rfl, rfl, rfl, rfl, rfl, rfl, rfl, rfl, rfl, rfl, rfl, rfl, rfl, rfl, rfl, rfl, rfl, rfl, rfl, rfl, rfl, rfl, rfl, rfl, rfl, rfl, rfl⟩

/-- `heldBy` changes core.qm only. -/
@[simp] theorem State.heldBy_frame (s : State) (q n k : Nat) :
    (s.heldBy q n k).fuse = s.fuse ∧ (s.heldBy q n k).ft = s.ft ∧ (s.heldBy q n k).pending = s.pending ∧ (s.heldBy q n k).core.regs = s.core.regs ∧
    (s.heldBy q n k).core.irq = s.core.irq ∧ (s.heldBy q n k).core.unsync = s.core.unsync ∧ (s.heldBy q n k).core.cmds = s.core.cmds ∧
    (s.heldBy q n k).core.mmu = s.core.mmu ∧ (s.heldBy q n k).core.mem = s.core.mem ∧ (s.heldBy q n k).core.fab = s.core.fab ∧
    (s.heldBy q n k).core.host = s.core.host ∧ (s.heldBy q n k).core.boot = s.core.boot ∧ (s.heldBy q n k).core.sec = s.core.sec ∧
    (s.heldBy q n k).core.ras = s.core.ras ∧ (s.heldBy q n k).core.pmc = s.core.pmc ∧ (s.heldBy q n k).core.pwr = s.core.pwr ∧
    (s.heldBy q n k).core.opes = s.core.opes ∧ (s.heldBy q n k).core.mvus = s.core.mvus ∧ (s.heldBy q n k).core.vus = s.core.vus ∧
    (s.heldBy q n k).core.ses = s.core.ses ∧ (s.heldBy q n k).core.streams = s.core.streams ∧ (s.heldBy q n k).core.armNext = s.core.armNext ∧
    (s.heldBy q n k).core.seds = s.core.seds ∧ (s.heldBy q n k).core.saved = s.core.saved ∧ (s.heldBy q n k).core.rce = s.core.rce ∧
    (s.heldBy q n k).core.ldg = s.core.ldg ∧ (s.heldBy q n k).core.free = s.core.free := by
  refine ⟨rfl, rfl, rfl, rfl, rfl, rfl, rfl, rfl, rfl, rfl, rfl, rfl, rfl, rfl, rfl, rfl, rfl, rfl, rfl, rfl, rfl, rfl, rfl, rfl, rfl, rfl, rfl⟩

/-- `updCtx` changes core.mmu only. -/
@[simp] theorem State.updCtx_frame (s : State) (c : Nat) (f : Ctx → Ctx) :
    (s.updCtx c f).fuse = s.fuse ∧ (s.updCtx c f).ft = s.ft ∧ (s.updCtx c f).pending = s.pending ∧ (s.updCtx c f).core.regs = s.core.regs ∧
    (s.updCtx c f).core.irq = s.core.irq ∧ (s.updCtx c f).core.unsync = s.core.unsync ∧ (s.updCtx c f).core.qm = s.core.qm ∧
    (s.updCtx c f).core.cmds = s.core.cmds ∧ (s.updCtx c f).core.mem = s.core.mem ∧ (s.updCtx c f).core.fab = s.core.fab ∧
    (s.updCtx c f).core.host = s.core.host ∧ (s.updCtx c f).core.boot = s.core.boot ∧ (s.updCtx c f).core.sec = s.core.sec ∧
    (s.updCtx c f).core.ras = s.core.ras ∧ (s.updCtx c f).core.pmc = s.core.pmc ∧ (s.updCtx c f).core.pwr = s.core.pwr ∧
    (s.updCtx c f).core.opes = s.core.opes ∧ (s.updCtx c f).core.mvus = s.core.mvus ∧ (s.updCtx c f).core.vus = s.core.vus ∧
    (s.updCtx c f).core.ses = s.core.ses ∧ (s.updCtx c f).core.streams = s.core.streams ∧ (s.updCtx c f).core.armNext = s.core.armNext ∧
    (s.updCtx c f).core.seds = s.core.seds ∧ (s.updCtx c f).core.saved = s.core.saved ∧ (s.updCtx c f).core.rce = s.core.rce ∧
    (s.updCtx c f).core.ldg = s.core.ldg ∧ (s.updCtx c f).core.free = s.core.free := by
  refine ⟨rfl, rfl, rfl, rfl, rfl, rfl, rfl, rfl, rfl, rfl, rfl, rfl, rfl, rfl, rfl, rfl, rfl, rfl, rfl, rfl, rfl, rfl, rfl, rfl, rfl, rfl, rfl⟩

/-- `updPort` changes core.fab only. -/
@[simp] theorem State.updPort_frame (s : State) (i : Nat) (f : Port → Port) :
    (s.updPort i f).fuse = s.fuse ∧ (s.updPort i f).ft = s.ft ∧ (s.updPort i f).pending = s.pending ∧ (s.updPort i f).core.regs = s.core.regs ∧
    (s.updPort i f).core.irq = s.core.irq ∧ (s.updPort i f).core.unsync = s.core.unsync ∧ (s.updPort i f).core.qm = s.core.qm ∧
    (s.updPort i f).core.cmds = s.core.cmds ∧ (s.updPort i f).core.mmu = s.core.mmu ∧ (s.updPort i f).core.mem = s.core.mem ∧
    (s.updPort i f).core.host = s.core.host ∧ (s.updPort i f).core.boot = s.core.boot ∧ (s.updPort i f).core.sec = s.core.sec ∧
    (s.updPort i f).core.ras = s.core.ras ∧ (s.updPort i f).core.pmc = s.core.pmc ∧ (s.updPort i f).core.pwr = s.core.pwr ∧
    (s.updPort i f).core.opes = s.core.opes ∧ (s.updPort i f).core.mvus = s.core.mvus ∧ (s.updPort i f).core.vus = s.core.vus ∧
    (s.updPort i f).core.ses = s.core.ses ∧ (s.updPort i f).core.streams = s.core.streams ∧ (s.updPort i f).core.armNext = s.core.armNext ∧
    (s.updPort i f).core.seds = s.core.seds ∧ (s.updPort i f).core.saved = s.core.saved ∧ (s.updPort i f).core.rce = s.core.rce ∧
    (s.updPort i f).core.ldg = s.core.ldg ∧ (s.updPort i f).core.free = s.core.free := by
  refine ⟨rfl, rfl, rfl, rfl, rfl, rfl, rfl, rfl, rfl, rfl, rfl, rfl, rfl, rfl, rfl, rfl, rfl, rfl, rfl, rfl, rfl, rfl, rfl, rfl, rfl, rfl, rfl⟩

/-- `setOpe` changes core.opes only. -/
@[simp] theorem State.setOpe_frame (s : State) (n : Nat) (x : Ope) :
    (s.setOpe n x).fuse = s.fuse ∧ (s.setOpe n x).ft = s.ft ∧ (s.setOpe n x).pending = s.pending ∧ (s.setOpe n x).core.regs = s.core.regs ∧
    (s.setOpe n x).core.irq = s.core.irq ∧ (s.setOpe n x).core.unsync = s.core.unsync ∧ (s.setOpe n x).core.qm = s.core.qm ∧
    (s.setOpe n x).core.cmds = s.core.cmds ∧ (s.setOpe n x).core.mmu = s.core.mmu ∧ (s.setOpe n x).core.mem = s.core.mem ∧
    (s.setOpe n x).core.fab = s.core.fab ∧ (s.setOpe n x).core.host = s.core.host ∧ (s.setOpe n x).core.boot = s.core.boot ∧
    (s.setOpe n x).core.sec = s.core.sec ∧ (s.setOpe n x).core.ras = s.core.ras ∧ (s.setOpe n x).core.pmc = s.core.pmc ∧
    (s.setOpe n x).core.pwr = s.core.pwr ∧ (s.setOpe n x).core.mvus = s.core.mvus ∧ (s.setOpe n x).core.vus = s.core.vus ∧
    (s.setOpe n x).core.ses = s.core.ses ∧ (s.setOpe n x).core.streams = s.core.streams ∧ (s.setOpe n x).core.armNext = s.core.armNext ∧
    (s.setOpe n x).core.seds = s.core.seds ∧ (s.setOpe n x).core.saved = s.core.saved ∧ (s.setOpe n x).core.rce = s.core.rce ∧
    (s.setOpe n x).core.ldg = s.core.ldg ∧ (s.setOpe n x).core.free = s.core.free := by
  refine ⟨rfl, rfl, rfl, rfl, rfl, rfl, rfl, rfl, rfl, rfl, rfl, rfl, rfl, rfl, rfl, rfl, rfl, rfl, rfl, rfl, rfl, rfl, rfl, rfl, rfl, rfl, rfl⟩

/-- `setMvu` changes core.mvus only. -/
@[simp] theorem State.setMvu_frame (s : State) (n : Nat) (x : Mvu) :
    (s.setMvu n x).fuse = s.fuse ∧ (s.setMvu n x).ft = s.ft ∧ (s.setMvu n x).pending = s.pending ∧ (s.setMvu n x).core.regs = s.core.regs ∧
    (s.setMvu n x).core.irq = s.core.irq ∧ (s.setMvu n x).core.unsync = s.core.unsync ∧ (s.setMvu n x).core.qm = s.core.qm ∧
    (s.setMvu n x).core.cmds = s.core.cmds ∧ (s.setMvu n x).core.mmu = s.core.mmu ∧ (s.setMvu n x).core.mem = s.core.mem ∧
    (s.setMvu n x).core.fab = s.core.fab ∧ (s.setMvu n x).core.host = s.core.host ∧ (s.setMvu n x).core.boot = s.core.boot ∧
    (s.setMvu n x).core.sec = s.core.sec ∧ (s.setMvu n x).core.ras = s.core.ras ∧ (s.setMvu n x).core.pmc = s.core.pmc ∧
    (s.setMvu n x).core.pwr = s.core.pwr ∧ (s.setMvu n x).core.opes = s.core.opes ∧ (s.setMvu n x).core.vus = s.core.vus ∧
    (s.setMvu n x).core.ses = s.core.ses ∧ (s.setMvu n x).core.streams = s.core.streams ∧ (s.setMvu n x).core.armNext = s.core.armNext ∧
    (s.setMvu n x).core.seds = s.core.seds ∧ (s.setMvu n x).core.saved = s.core.saved ∧ (s.setMvu n x).core.rce = s.core.rce ∧
    (s.setMvu n x).core.ldg = s.core.ldg ∧ (s.setMvu n x).core.free = s.core.free := by
  refine ⟨rfl, rfl, rfl, rfl, rfl, rfl, rfl, rfl, rfl, rfl, rfl, rfl, rfl, rfl, rfl, rfl, rfl, rfl, rfl, rfl, rfl, rfl, rfl, rfl, rfl, rfl, rfl⟩

/-- `setVu` changes core.vus only. -/
@[simp] theorem State.setVu_frame (s : State) (n : Nat) (x : Vu) :
    (s.setVu n x).fuse = s.fuse ∧ (s.setVu n x).ft = s.ft ∧ (s.setVu n x).pending = s.pending ∧ (s.setVu n x).core.regs = s.core.regs ∧
    (s.setVu n x).core.irq = s.core.irq ∧ (s.setVu n x).core.unsync = s.core.unsync ∧ (s.setVu n x).core.qm = s.core.qm ∧
    (s.setVu n x).core.cmds = s.core.cmds ∧ (s.setVu n x).core.mmu = s.core.mmu ∧ (s.setVu n x).core.mem = s.core.mem ∧
    (s.setVu n x).core.fab = s.core.fab ∧ (s.setVu n x).core.host = s.core.host ∧ (s.setVu n x).core.boot = s.core.boot ∧
    (s.setVu n x).core.sec = s.core.sec ∧ (s.setVu n x).core.ras = s.core.ras ∧ (s.setVu n x).core.pmc = s.core.pmc ∧
    (s.setVu n x).core.pwr = s.core.pwr ∧ (s.setVu n x).core.opes = s.core.opes ∧ (s.setVu n x).core.mvus = s.core.mvus ∧
    (s.setVu n x).core.ses = s.core.ses ∧ (s.setVu n x).core.streams = s.core.streams ∧ (s.setVu n x).core.armNext = s.core.armNext ∧
    (s.setVu n x).core.seds = s.core.seds ∧ (s.setVu n x).core.saved = s.core.saved ∧ (s.setVu n x).core.rce = s.core.rce ∧
    (s.setVu n x).core.ldg = s.core.ldg ∧ (s.setVu n x).core.free = s.core.free := by
  refine ⟨rfl, rfl, rfl, rfl, rfl, rfl, rfl, rfl, rfl, rfl, rfl, rfl, rfl, rfl, rfl, rfl, rfl, rfl, rfl, rfl, rfl, rfl, rfl, rfl, rfl, rfl, rfl⟩

/-- `setSe` changes core.ses only. -/
@[simp] theorem State.setSe_frame (s : State) (n : Nat) (x : Se) :
    (s.setSe n x).fuse = s.fuse ∧ (s.setSe n x).ft = s.ft ∧ (s.setSe n x).pending = s.pending ∧ (s.setSe n x).core.regs = s.core.regs ∧
    (s.setSe n x).core.irq = s.core.irq ∧ (s.setSe n x).core.unsync = s.core.unsync ∧ (s.setSe n x).core.qm = s.core.qm ∧
    (s.setSe n x).core.cmds = s.core.cmds ∧ (s.setSe n x).core.mmu = s.core.mmu ∧ (s.setSe n x).core.mem = s.core.mem ∧
    (s.setSe n x).core.fab = s.core.fab ∧ (s.setSe n x).core.host = s.core.host ∧ (s.setSe n x).core.boot = s.core.boot ∧
    (s.setSe n x).core.sec = s.core.sec ∧ (s.setSe n x).core.ras = s.core.ras ∧ (s.setSe n x).core.pmc = s.core.pmc ∧
    (s.setSe n x).core.pwr = s.core.pwr ∧ (s.setSe n x).core.opes = s.core.opes ∧ (s.setSe n x).core.mvus = s.core.mvus ∧
    (s.setSe n x).core.vus = s.core.vus ∧ (s.setSe n x).core.streams = s.core.streams ∧ (s.setSe n x).core.armNext = s.core.armNext ∧
    (s.setSe n x).core.seds = s.core.seds ∧ (s.setSe n x).core.saved = s.core.saved ∧ (s.setSe n x).core.rce = s.core.rce ∧
    (s.setSe n x).core.ldg = s.core.ldg ∧ (s.setSe n x).core.free = s.core.free := by
  refine ⟨rfl, rfl, rfl, rfl, rfl, rfl, rfl, rfl, rfl, rfl, rfl, rfl, rfl, rfl, rfl, rfl, rfl, rfl, rfl, rfl, rfl, rfl, rfl, rfl, rfl, rfl, rfl⟩

/-- `setStream` changes core.streams only. -/
@[simp] theorem State.setStream_frame (s : State) (n : Nat) (x : Stream) :
    (s.setStream n x).fuse = s.fuse ∧ (s.setStream n x).ft = s.ft ∧ (s.setStream n x).pending = s.pending ∧
    (s.setStream n x).core.regs = s.core.regs ∧ (s.setStream n x).core.irq = s.core.irq ∧ (s.setStream n x).core.unsync = s.core.unsync ∧
    (s.setStream n x).core.qm = s.core.qm ∧ (s.setStream n x).core.cmds = s.core.cmds ∧ (s.setStream n x).core.mmu = s.core.mmu ∧
    (s.setStream n x).core.mem = s.core.mem ∧ (s.setStream n x).core.fab = s.core.fab ∧ (s.setStream n x).core.host = s.core.host ∧
    (s.setStream n x).core.boot = s.core.boot ∧ (s.setStream n x).core.sec = s.core.sec ∧ (s.setStream n x).core.ras = s.core.ras ∧
    (s.setStream n x).core.pmc = s.core.pmc ∧ (s.setStream n x).core.pwr = s.core.pwr ∧ (s.setStream n x).core.opes = s.core.opes ∧
    (s.setStream n x).core.mvus = s.core.mvus ∧ (s.setStream n x).core.vus = s.core.vus ∧ (s.setStream n x).core.ses = s.core.ses ∧
    (s.setStream n x).core.armNext = s.core.armNext ∧ (s.setStream n x).core.seds = s.core.seds ∧ (s.setStream n x).core.saved = s.core.saved ∧
    (s.setStream n x).core.rce = s.core.rce ∧ (s.setStream n x).core.ldg = s.core.ldg ∧ (s.setStream n x).core.free = s.core.free := by
  refine ⟨rfl, rfl, rfl, rfl, rfl, rfl, rfl, rfl, rfl, rfl, rfl, rfl, rfl, rfl, rfl, rfl, rfl, rfl, rfl, rfl, rfl, rfl, rfl, rfl, rfl, rfl, rfl⟩

/-- `setSed` changes core.seds only. -/
@[simp] theorem State.setSed_frame (s : State) (c : Nat) (x : Sed) :
    (s.setSed c x).fuse = s.fuse ∧ (s.setSed c x).ft = s.ft ∧ (s.setSed c x).pending = s.pending ∧ (s.setSed c x).core.regs = s.core.regs ∧
    (s.setSed c x).core.irq = s.core.irq ∧ (s.setSed c x).core.unsync = s.core.unsync ∧ (s.setSed c x).core.qm = s.core.qm ∧
    (s.setSed c x).core.cmds = s.core.cmds ∧ (s.setSed c x).core.mmu = s.core.mmu ∧ (s.setSed c x).core.mem = s.core.mem ∧
    (s.setSed c x).core.fab = s.core.fab ∧ (s.setSed c x).core.host = s.core.host ∧ (s.setSed c x).core.boot = s.core.boot ∧
    (s.setSed c x).core.sec = s.core.sec ∧ (s.setSed c x).core.ras = s.core.ras ∧ (s.setSed c x).core.pmc = s.core.pmc ∧
    (s.setSed c x).core.pwr = s.core.pwr ∧ (s.setSed c x).core.opes = s.core.opes ∧ (s.setSed c x).core.mvus = s.core.mvus ∧
    (s.setSed c x).core.vus = s.core.vus ∧ (s.setSed c x).core.ses = s.core.ses ∧ (s.setSed c x).core.streams = s.core.streams ∧
    (s.setSed c x).core.armNext = s.core.armNext ∧ (s.setSed c x).core.saved = s.core.saved ∧ (s.setSed c x).core.rce = s.core.rce ∧
    (s.setSed c x).core.ldg = s.core.ldg ∧ (s.setSed c x).core.free = s.core.free := by
  refine ⟨rfl, rfl, rfl, rfl, rfl, rfl, rfl, rfl, rfl, rfl, rfl, rfl, rfl, rfl, rfl, rfl, rfl, rfl, rfl, rfl, rfl, rfl, rfl, rfl, rfl, rfl, rfl⟩

/-- `setBkt` changes core.rce only. -/
@[simp] theorem State.setBkt_frame (s : State) (b : Bucket) :
    (s.setBkt b).fuse = s.fuse ∧ (s.setBkt b).ft = s.ft ∧ (s.setBkt b).pending = s.pending ∧ (s.setBkt b).core.regs = s.core.regs ∧
    (s.setBkt b).core.irq = s.core.irq ∧ (s.setBkt b).core.unsync = s.core.unsync ∧ (s.setBkt b).core.qm = s.core.qm ∧
    (s.setBkt b).core.cmds = s.core.cmds ∧ (s.setBkt b).core.mmu = s.core.mmu ∧ (s.setBkt b).core.mem = s.core.mem ∧
    (s.setBkt b).core.fab = s.core.fab ∧ (s.setBkt b).core.host = s.core.host ∧ (s.setBkt b).core.boot = s.core.boot ∧
    (s.setBkt b).core.sec = s.core.sec ∧ (s.setBkt b).core.ras = s.core.ras ∧ (s.setBkt b).core.pmc = s.core.pmc ∧
    (s.setBkt b).core.pwr = s.core.pwr ∧ (s.setBkt b).core.opes = s.core.opes ∧ (s.setBkt b).core.mvus = s.core.mvus ∧
    (s.setBkt b).core.vus = s.core.vus ∧ (s.setBkt b).core.ses = s.core.ses ∧ (s.setBkt b).core.streams = s.core.streams ∧
    (s.setBkt b).core.armNext = s.core.armNext ∧ (s.setBkt b).core.seds = s.core.seds ∧ (s.setBkt b).core.saved = s.core.saved ∧
    (s.setBkt b).core.ldg = s.core.ldg ∧ (s.setBkt b).core.free = s.core.free := by
  refine ⟨rfl, rfl, rfl, rfl, rfl, rfl, rfl, rfl, rfl, rfl, rfl, rfl, rfl, rfl, rfl, rfl, rfl, rfl, rfl, rfl, rfl, rfl, rfl, rfl, rfl, rfl, rfl⟩

/-- `startCmd` changes core.cmds only. -/
@[simp] theorem State.startCmd_frame (s : State) (k op a : Nat) :
    (s.startCmd k op a).fuse = s.fuse ∧ (s.startCmd k op a).ft = s.ft ∧ (s.startCmd k op a).pending = s.pending ∧
    (s.startCmd k op a).core.regs = s.core.regs ∧ (s.startCmd k op a).core.irq = s.core.irq ∧ (s.startCmd k op a).core.unsync = s.core.unsync ∧
    (s.startCmd k op a).core.qm = s.core.qm ∧ (s.startCmd k op a).core.mmu = s.core.mmu ∧ (s.startCmd k op a).core.mem = s.core.mem ∧
    (s.startCmd k op a).core.fab = s.core.fab ∧ (s.startCmd k op a).core.host = s.core.host ∧ (s.startCmd k op a).core.boot = s.core.boot ∧
    (s.startCmd k op a).core.sec = s.core.sec ∧ (s.startCmd k op a).core.ras = s.core.ras ∧ (s.startCmd k op a).core.pmc = s.core.pmc ∧
    (s.startCmd k op a).core.pwr = s.core.pwr ∧ (s.startCmd k op a).core.opes = s.core.opes ∧ (s.startCmd k op a).core.mvus = s.core.mvus ∧
    (s.startCmd k op a).core.vus = s.core.vus ∧ (s.startCmd k op a).core.ses = s.core.ses ∧ (s.startCmd k op a).core.streams = s.core.streams ∧
    (s.startCmd k op a).core.armNext = s.core.armNext ∧ (s.startCmd k op a).core.seds = s.core.seds ∧ (s.startCmd k op a).core.saved = s.core.saved ∧
    (s.startCmd k op a).core.rce = s.core.rce ∧ (s.startCmd k op a).core.ldg = s.core.ldg ∧ (s.startCmd k op a).core.free = s.core.free := by
  refine ⟨rfl, rfl, rfl, rfl, rfl, rfl, rfl, rfl, rfl, rfl, rfl, rfl, rfl, rfl, rfl, rfl, rfl, rfl, rfl, rfl, rfl, rfl, rfl, rfl, rfl, rfl, rfl⟩

/-- `mboxSay` changes core.host only. -/
@[simp] theorem State.mboxSay_frame (s : State) (a : Answer) :
    (s.mboxSay a).fuse = s.fuse ∧ (s.mboxSay a).ft = s.ft ∧ (s.mboxSay a).pending = s.pending ∧ (s.mboxSay a).core.regs = s.core.regs ∧
    (s.mboxSay a).core.irq = s.core.irq ∧ (s.mboxSay a).core.unsync = s.core.unsync ∧ (s.mboxSay a).core.qm = s.core.qm ∧
    (s.mboxSay a).core.cmds = s.core.cmds ∧ (s.mboxSay a).core.mmu = s.core.mmu ∧ (s.mboxSay a).core.mem = s.core.mem ∧
    (s.mboxSay a).core.fab = s.core.fab ∧ (s.mboxSay a).core.boot = s.core.boot ∧ (s.mboxSay a).core.sec = s.core.sec ∧
    (s.mboxSay a).core.ras = s.core.ras ∧ (s.mboxSay a).core.pmc = s.core.pmc ∧ (s.mboxSay a).core.pwr = s.core.pwr ∧
    (s.mboxSay a).core.opes = s.core.opes ∧ (s.mboxSay a).core.mvus = s.core.mvus ∧ (s.mboxSay a).core.vus = s.core.vus ∧
    (s.mboxSay a).core.ses = s.core.ses ∧ (s.mboxSay a).core.streams = s.core.streams ∧ (s.mboxSay a).core.armNext = s.core.armNext ∧
    (s.mboxSay a).core.seds = s.core.seds ∧ (s.mboxSay a).core.saved = s.core.saved ∧ (s.mboxSay a).core.rce = s.core.rce ∧
    (s.mboxSay a).core.ldg = s.core.ldg ∧ (s.mboxSay a).core.free = s.core.free := by
  refine ⟨rfl, rfl, rfl, rfl, rfl, rfl, rfl, rfl, rfl, rfl, rfl, rfl, rfl, rfl, rfl, rfl, rfl, rfl, rfl, rfl, rfl, rfl, rfl, rfl, rfl, rfl, rfl⟩

/-- `say` changes core.pwr only. -/
@[simp] theorem State.say_frame (s : State) (a : Answer) :
    (s.say a).fuse = s.fuse ∧ (s.say a).ft = s.ft ∧ (s.say a).pending = s.pending ∧ (s.say a).core.regs = s.core.regs ∧
    (s.say a).core.irq = s.core.irq ∧ (s.say a).core.unsync = s.core.unsync ∧ (s.say a).core.qm = s.core.qm ∧ (s.say a).core.cmds = s.core.cmds ∧
    (s.say a).core.mmu = s.core.mmu ∧ (s.say a).core.mem = s.core.mem ∧ (s.say a).core.fab = s.core.fab ∧ (s.say a).core.host = s.core.host ∧
    (s.say a).core.boot = s.core.boot ∧ (s.say a).core.sec = s.core.sec ∧ (s.say a).core.ras = s.core.ras ∧ (s.say a).core.pmc = s.core.pmc ∧
    (s.say a).core.opes = s.core.opes ∧ (s.say a).core.mvus = s.core.mvus ∧ (s.say a).core.vus = s.core.vus ∧ (s.say a).core.ses = s.core.ses ∧
    (s.say a).core.streams = s.core.streams ∧ (s.say a).core.armNext = s.core.armNext ∧ (s.say a).core.seds = s.core.seds ∧
    (s.say a).core.saved = s.core.saved ∧ (s.say a).core.rce = s.core.rce ∧ (s.say a).core.ldg = s.core.ldg ∧ (s.say a).core.free = s.core.free := by
  refine ⟨rfl, rfl, rfl, rfl, rfl, rfl, rfl, rfl, rfl, rfl, rfl, rfl, rfl, rfl, rfl, rfl, rfl, rfl, rfl, rfl, rfl, rfl, rfl, rfl, rfl, rfl, rfl⟩

/-- `tap` changes core.ras only. -/
@[simp] theorem State.tap_frame (s : State) (ir : Nat) (l : List Nat) :
    (s.tap ir l).fuse = s.fuse ∧ (s.tap ir l).ft = s.ft ∧ (s.tap ir l).pending = s.pending ∧ (s.tap ir l).core.regs = s.core.regs ∧
    (s.tap ir l).core.irq = s.core.irq ∧ (s.tap ir l).core.unsync = s.core.unsync ∧ (s.tap ir l).core.qm = s.core.qm ∧
    (s.tap ir l).core.cmds = s.core.cmds ∧ (s.tap ir l).core.mmu = s.core.mmu ∧ (s.tap ir l).core.mem = s.core.mem ∧
    (s.tap ir l).core.fab = s.core.fab ∧ (s.tap ir l).core.host = s.core.host ∧ (s.tap ir l).core.boot = s.core.boot ∧
    (s.tap ir l).core.sec = s.core.sec ∧ (s.tap ir l).core.pmc = s.core.pmc ∧ (s.tap ir l).core.pwr = s.core.pwr ∧
    (s.tap ir l).core.opes = s.core.opes ∧ (s.tap ir l).core.mvus = s.core.mvus ∧ (s.tap ir l).core.vus = s.core.vus ∧
    (s.tap ir l).core.ses = s.core.ses ∧ (s.tap ir l).core.streams = s.core.streams ∧ (s.tap ir l).core.armNext = s.core.armNext ∧
    (s.tap ir l).core.seds = s.core.seds ∧ (s.tap ir l).core.saved = s.core.saved ∧ (s.tap ir l).core.rce = s.core.rce ∧
    (s.tap ir l).core.ldg = s.core.ldg ∧ (s.tap ir l).core.free = s.core.free := by
  refine ⟨rfl, rfl, rfl, rfl, rfl, rfl, rfl, rfl, rfl, rfl, rfl, rfl, rfl, rfl, rfl, rfl, rfl, rfl, rfl, rfl, rfl, rfl, rfl, rfl, rfl, rfl, rfl⟩

/-- `updKc` changes core.pmc only. -/
@[simp] theorem State.updKc_frame (s : State) (k : Nat) (f : KcSample → KcSample) :
    (s.updKc k f).fuse = s.fuse ∧ (s.updKc k f).ft = s.ft ∧ (s.updKc k f).pending = s.pending ∧ (s.updKc k f).core.regs = s.core.regs ∧
    (s.updKc k f).core.irq = s.core.irq ∧ (s.updKc k f).core.unsync = s.core.unsync ∧ (s.updKc k f).core.qm = s.core.qm ∧
    (s.updKc k f).core.cmds = s.core.cmds ∧ (s.updKc k f).core.mmu = s.core.mmu ∧ (s.updKc k f).core.mem = s.core.mem ∧
    (s.updKc k f).core.fab = s.core.fab ∧ (s.updKc k f).core.host = s.core.host ∧ (s.updKc k f).core.boot = s.core.boot ∧
    (s.updKc k f).core.sec = s.core.sec ∧ (s.updKc k f).core.ras = s.core.ras ∧ (s.updKc k f).core.pwr = s.core.pwr ∧
    (s.updKc k f).core.opes = s.core.opes ∧ (s.updKc k f).core.mvus = s.core.mvus ∧ (s.updKc k f).core.vus = s.core.vus ∧
    (s.updKc k f).core.ses = s.core.ses ∧ (s.updKc k f).core.streams = s.core.streams ∧ (s.updKc k f).core.armNext = s.core.armNext ∧
    (s.updKc k f).core.seds = s.core.seds ∧ (s.updKc k f).core.saved = s.core.saved ∧ (s.updKc k f).core.rce = s.core.rce ∧
    (s.updKc k f).core.ldg = s.core.ldg ∧ (s.updKc k f).core.free = s.core.free := by
  refine ⟨rfl, rfl, rfl, rfl, rfl, rfl, rfl, rfl, rfl, rfl, rfl, rfl, rfl, rfl, rfl, rfl, rfl, rfl, rfl, rfl, rfl, rfl, rfl, rfl, rfl, rfl, rfl⟩

/-- `extend` changes core.sec only. -/
@[simp] theorem State.extend_frame (s : State) (r : Nat) (d : List Byte) :
    (s.extend r d).fuse = s.fuse ∧ (s.extend r d).ft = s.ft ∧ (s.extend r d).pending = s.pending ∧ (s.extend r d).core.regs = s.core.regs ∧
    (s.extend r d).core.irq = s.core.irq ∧ (s.extend r d).core.unsync = s.core.unsync ∧ (s.extend r d).core.qm = s.core.qm ∧
    (s.extend r d).core.cmds = s.core.cmds ∧ (s.extend r d).core.mmu = s.core.mmu ∧ (s.extend r d).core.mem = s.core.mem ∧
    (s.extend r d).core.fab = s.core.fab ∧ (s.extend r d).core.host = s.core.host ∧ (s.extend r d).core.boot = s.core.boot ∧
    (s.extend r d).core.ras = s.core.ras ∧ (s.extend r d).core.pmc = s.core.pmc ∧ (s.extend r d).core.pwr = s.core.pwr ∧
    (s.extend r d).core.opes = s.core.opes ∧ (s.extend r d).core.mvus = s.core.mvus ∧ (s.extend r d).core.vus = s.core.vus ∧
    (s.extend r d).core.ses = s.core.ses ∧ (s.extend r d).core.streams = s.core.streams ∧ (s.extend r d).core.armNext = s.core.armNext ∧
    (s.extend r d).core.seds = s.core.seds ∧ (s.extend r d).core.saved = s.core.saved ∧ (s.extend r d).core.rce = s.core.rce ∧
    (s.extend r d).core.ldg = s.core.ldg ∧ (s.extend r d).core.free = s.core.free := by
  refine ⟨rfl, rfl, rfl, rfl, rfl, rfl, rfl, rfl, rfl, rfl, rfl, rfl, rfl, rfl, rfl, rfl, rfl, rfl, rfl, rfl, rfl, rfl, rfl, rfl, rfl, rfl, rfl⟩

end Sys2Proof.Machine
end

