-- ==== Sys2Proof/Laws/Ops.lean ====
section
/-! SUPPORT. Laws of the shared operations: the lifts that make a command's outcome, guarded effects, register fields, counters, W1C bits and
interrupts, the ledger. -/
namespace Sys2Proof.Machine

/-! Lifts: what a command's outcome can be -/

/-- An effect on the core answers a next state that differs in the core alone. -/
theorem liftCore_next (f : State → State) (s t : State) (h : liftCore f s = .next t) :
    t.fuse = s.fuse ∧ t.ft = s.ft ∧ t.pending = s.pending ∧ t.core = (f s).core := by
  cases h; exact ⟨rfl, rfl, rfl, rfl⟩

/-- An effect on the discipline of FT never changes FT. -/
theorem liftLock_next (f : State → State) (s t : State) (h : liftLock f s = .next t) :
    t.fuse = s.fuse ∧ t.ft.ns = s.ft.ns ∧ t.ft.frac = s.ft.frac ∧ t.pending = s.pending ∧ t.core = (f s).core := by
  cases h; exact ⟨rfl, rfl, rfl, rfl, rfl⟩

/-- An effect on time and core leaves the fuses and the queue alone. -/
theorem liftTime_next (f : State → State) (s t : State) (h : liftTime f s = .next t) :
    t.fuse = s.fuse ∧ t.ft = (f s).ft ∧ t.pending = s.pending ∧ t.core = (f s).core := by
  cases h; exact ⟨rfl, rfl, rfl, rfl⟩

theorem liftCore_goes (f : State → State) (s : State) : liftCore f s = .next { s with core := (f s).core } := rfl
theorem liftTime_goes (f : State → State) (s : State) : liftTime f s = .next { s with ft := (f s).ft, core := (f s).core } := rfl

theorem guardBy_pos {p : State → Bool} {s : State} (f : State → State) (h : p s = true) : guardBy p f s = f s := by simp [guardBy, h]
theorem guardBy_neg {p : State → Bool} {s : State} (f : State → State) (h : p s = false) : guardBy p f s = s := by simp [guardBy, h]

@[simp] theorem whenLive_pos {s : State} (f : State → State) (h : s.live = true) : whenLive f s = f s := guardBy_pos f h
@[simp] theorem whenDispatching_pos {s : State} (f : State → State) (h : s.dispatching = true) : whenDispatching f s = f s := guardBy_pos f h
@[simp] theorem whenTiming_pos {s : State} (f : State → State) (h : s.timing = true) : whenTiming f s = f s := guardBy_pos f h

/-- A dispatching module is live. -/
theorem State.live_of_dispatching {s : State} (h : s.dispatching = true) : s.live = true := by
  unfold State.dispatching at h; exact (Bool.and_eq_true_iff.1 h).1

/-- A live module's timekeeper runs. -/
theorem State.timing_of_live {s : State} (h : s.live = true) : s.timing = true := by
  simp only [State.live, Bool.and_eq_true, decide_eq_true_eq] at h
  simp [State.timing, h.1, h.2]

/-- Nothing that needs a running module happens while it is frozen. -/
theorem State.frozen_stops {s : State} (h : s.core.ras.frozen = true) : s.live = false ∧ s.dispatching = false ∧ s.timing = false := by
  simp [State.live, State.dispatching, State.timing, h]

/-! Register fields -/

/-- A field reads as it was written, cut to its width. -/
@[simp] theorem State.reg_setReg_same (s : State) (f : Fld) (v : Nat) : (s.setReg f v).reg f = v % 2 ^ f.w := by
  simp [State.reg, State.setReg]

/-- A write of one field leaves the others alone. -/
theorem State.reg_setReg_ne (s : State) (f g : Fld) (v : Nat) (h : g.key ≠ f.key) : (s.setReg f v).reg g = s.reg g := by
  simp [State.reg, State.setReg, mgetD_mput_ne, h]

@[simp] theorem State.reg_bump (s : State) (o n : Nat) (f : Fld) : (s.bump o n).reg f = s.reg f := rfl
@[simp] theorem State.reg_take (s : State) (c i n : Nat) (f : Fld) : (s.take c i n).reg f = s.reg f := rfl
@[simp] theorem State.reg_give (s : State) (c i n : Nat) (f : Fld) : (s.give c i n).reg f = s.reg f := rfl
@[simp] theorem State.reg_updQueue (s : State) (q : Nat) (g : Queue → Queue) (f : Fld) : (s.updQueue q g).reg f = s.reg f := rfl

/-! Counters -/

/-- A counter rises by what is added, modulo 2^64. -/
@[simp] theorem State.counter_bump_same (s : State) (o n : Nat) : (s.bump o n).counter o = (s.counter o + n) % 2 ^ 64 := by
  simp [State.counter, State.bump]

/-- Counting at one offset leaves the other counters alone. -/
theorem State.counter_bump_ne (s : State) {o p : Nat} (n : Nat) (h : p ≠ o) : (s.bump o n).counter p = s.counter p := by
  simp [State.counter, State.bump, mgetD_mput_ne, h]

@[simp] theorem State.counter_setReg (s : State) (f : Fld) (v o : Nat) : (s.setReg f v).counter o = s.counter o := rfl

/-! W1C bits and their vectors -/

/-- Raising a bit changes the registers and the interrupts alone. -/
theorem State.raise_core (s : State) (o i : Nat) :
    ∃ r q, s.raise o i = { s with core.regs := r, core.irq := q } := by
  unfold State.raise
  cases vectorOf o with
  | none => exact ⟨_, _, rfl⟩
  | some v =>
    simp only
    split
    · exact ⟨_, _, rfl⟩
    · unfold State.sendVector
      split
      · exact ⟨_, _, rfl⟩
      · split
        · exact ⟨_, _, rfl⟩
        · unfold State.sendNow
          simp only
          split <;> exact ⟨_, _, rfl⟩

@[simp] theorem State.raise_fuse (s : State) (o i : Nat) : (s.raise o i).fuse = s.fuse := by obtain ⟨_, _, h⟩ := s.raise_core o i; rw [h]
@[simp] theorem State.raise_ft (s : State) (o i : Nat) : (s.raise o i).ft = s.ft := by obtain ⟨_, _, h⟩ := s.raise_core o i; rw [h]
@[simp] theorem State.raise_pending (s : State) (o i : Nat) : (s.raise o i).pending = s.pending := by
  obtain ⟨_, _, h⟩ := s.raise_core o i; rw [h]
@[simp] theorem State.raise_qm (s : State) (o i : Nat) : (s.raise o i).core.qm = s.core.qm := by obtain ⟨_, _, h⟩ := s.raise_core o i; rw [h]
@[simp] theorem State.raise_mem (s : State) (o i : Nat) : (s.raise o i).core.mem = s.core.mem := by obtain ⟨_, _, h⟩ := s.raise_core o i; rw [h]
@[simp] theorem State.raise_mmu (s : State) (o i : Nat) : (s.raise o i).core.mmu = s.core.mmu := by obtain ⟨_, _, h⟩ := s.raise_core o i; rw [h]
@[simp] theorem State.raise_fab (s : State) (o i : Nat) : (s.raise o i).core.fab = s.core.fab := by obtain ⟨_, _, h⟩ := s.raise_core o i; rw [h]
@[simp] theorem State.raise_host (s : State) (o i : Nat) : (s.raise o i).core.host = s.core.host := by obtain ⟨_, _, h⟩ := s.raise_core o i; rw [h]
@[simp] theorem State.raise_boot (s : State) (o i : Nat) : (s.raise o i).core.boot = s.core.boot := by obtain ⟨_, _, h⟩ := s.raise_core o i; rw [h]
@[simp] theorem State.raise_ras (s : State) (o i : Nat) : (s.raise o i).core.ras = s.core.ras := by obtain ⟨_, _, h⟩ := s.raise_core o i; rw [h]
@[simp] theorem State.raise_cmds (s : State) (o i : Nat) : (s.raise o i).core.cmds = s.core.cmds := by obtain ⟨_, _, h⟩ := s.raise_core o i; rw [h]
@[simp] theorem State.raise_ldg (s : State) (o i : Nat) : (s.raise o i).core.ldg = s.core.ldg := by obtain ⟨_, _, h⟩ := s.raise_core o i; rw [h]

/-- Sending a vector leaves the W1C bits alone. -/
theorem State.sendVector_csr (s : State) (v : Nat) : (s.sendVector v).core.regs.csr = s.core.regs.csr := by
  unfold State.sendVector
  split
  · rfl
  · split
    · rfl
    · unfold State.sendNow
      simp only
      split <;> rfl

/-- The bit that is raised is set (set-dominant, R155). -/
@[simp] theorem State.flagBit_raise (s : State) (o i : Nat) : (s.raise o i).flagBit o i = true := by
  have key : (s.raise o i).core.regs.csr = mput s.core.regs.csr (8 * o + i) 1 := by
    unfold State.raise
    cases vectorOf o with
    | none => rfl
    | some v =>
      simp only
      split
      · rfl
      · rw [State.sendVector_csr]
  simp [State.flagBit, key]

/-! Ledger -/

/-- What is taken and not returned is held. -/
theorem State.heldUnits_take (s : State) (c i n : Nat)
    (h : (mgetD s.core.ldg.live (ldgKey c i) {}).taken + n < 2 ^ 48)
    (hr : (mgetD s.core.ldg.live (ldgKey c i) {}).returned ≤ (mgetD s.core.ldg.live (ldgKey c i) {}).taken) :
    (s.take c i n).heldUnits c i = s.heldUnits c i + n := by
  simp only [State.heldUnits, State.take, mgetD_mupd_same, Ldg.heldOf]
  omega

end Sys2Proof.Machine
end

