-- ==== Sys2Proof/Laws/Heads.lean ====
section
/-! SUPPORT. What a command at the head of a slot comes to: its effect where every check passes, ILLEGAL_INSTRUCTION where one fails. -/
namespace Sys2Proof.Machine

/-- At a head that passes its checks the effect is what happens. -/
theorem atHead_ok {s : State} {r : SlotRef} {op : Nat} {bad : Entry → List Bad} {e : Entry} (f : Entry → State → State)
    (h : HeadOk s r op bad e) : s.atHead r op bad f = f e s := by
  obtain ⟨h1, h2, h3, h4, h5⟩ := h
  simp only [State.atHead, h1, h2, h3, h4, h5]; simp

/-- At a head that fails a check the entry leaves the share and its instruction has the outcome 0xC with the detail of that check. -/
theorem atHead_bad {s : State} {r : SlotRef} {op : Nat} {bad : Entry → List Bad} {e : Entry} {b : Bad} (f : Entry → State → State)
    (h : HeadBad s r op bad e b) : s.atHead r op bad f = (s.popHead r).finishWith e.q e.seq 0xC (badDetail b) := by
  obtain ⟨h1, h2, h3, h4⟩ := h
  simp only [State.atHead, h1, h2, h3, h4]; simp

/-- An empty share: nothing happens. -/
theorem atHead_none {s : State} {r : SlotRef} {op : Nat} {bad : Entry → List Bad} (f : Entry → State → State) (h : s.head r = none) :
    s.atHead r op bad f = s := by
  simp [State.atHead, h]

end Sys2Proof.Machine
end

