-- ==== Sys2Proof/Laws/Mem.lean ====
section
/-! SUPPORT. Laws of byte memory: a read after a write, and the canonical form, which every write keeps. -/
namespace Sys2Proof.Machine

theorem memRead_memInsert_same (m : Mem) (a : Nat) (x : Byte) : memRead (memInsert m a x) a = x := by
  induction m with
  | nil => simp [memInsert, memRead]
  | cons e m ih =>
    obtain ⟨b, y⟩ := e
    unfold memInsert
    split
    · simp [memRead]
    · split
      · simp [memRead]
      · rename_i h; simp [memRead, ih, Ne.symm h]

theorem memRead_memInsert_ne (m : Mem) {a b : Nat} (x : Byte) (h : b ≠ a) : memRead (memInsert m a x) b = memRead m b := by
  induction m with
  | nil => simp [memInsert, memRead, Ne.symm h]
  | cons e m ih =>
    obtain ⟨c, y⟩ := e
    unfold memInsert
    split
    · simp [memRead, Ne.symm h]
    · split
      · subst_vars; simp [memRead, Ne.symm h]
      · simp [memRead, ih]

theorem memRead_memErase_ne (m : Mem) {a b : Nat} (h : b ≠ a) : memRead (memErase m a) b = memRead m b := by
  induction m with
  | nil => rfl
  | cons e m ih =>
    obtain ⟨c, y⟩ := e
    unfold memErase
    split
    · subst_vars; simp [memRead, Ne.symm h]
    · simp [memRead, ih]

/-- Addresses of a canonical list lie above a bound. -/
def above (a : Nat) : Mem → Prop
  | [] => True
  | (b, _) :: _ => a < b

theorem memWf_cons (a : Nat) (x : Byte) (m : Mem) : memWf ((a, x) :: m) = true ↔ x ≠ memDefault ∧ above a m ∧ memWf m = true := by
  cases m with
  | nil => simp [memWf, above]
  | cons e m => obtain ⟨b, y⟩ := e; simp [memWf, above, and_assoc]

theorem above_mono {a b : Nat} (h : a < b) (m : Mem) (hb : above b m) : above a m := by
  cases m with
  | nil => trivial
  | cons e m => obtain ⟨c, y⟩ := e; exact Nat.lt_trans h hb

theorem memRead_above (m : Mem) : ∀ a, memWf m = true → above a m → memRead m a = memDefault := by
  induction m with
  | nil => intros; rfl
  | cons e m ih =>
    obtain ⟨b, y⟩ := e
    intro a hw ha
    obtain ⟨-, hb, hm⟩ := (memWf_cons b y m).1 hw
    have hab : a < b := ha
    simp only [memRead, Nat.ne_of_gt hab, if_false]
    exact ih a hm (above_mono hab m hb)

theorem memRead_memErase_same (m : Mem) (a : Nat) (hw : memWf m = true) : memRead (memErase m a) a = memDefault := by
  induction m with
  | nil => rfl
  | cons e m ih =>
    obtain ⟨b, y⟩ := e
    obtain ⟨-, hb, hm⟩ := (memWf_cons b y m).1 hw
    unfold memErase
    split
    · rename_i h; exact h ▸ memRead_above m b hm hb
    · rename_i h; simp [memRead, h, ih hm]

/-- A byte read after it has been written is what was written. -/
theorem memRead_memWrite_same (m : Mem) (a : Nat) (x : Byte) (hw : memWf m = true) : memRead (memWrite m a x) a = x := by
  unfold memWrite
  split
  · rename_i h; rw [h]; exact memRead_memErase_same m a hw
  · exact memRead_memInsert_same m a x

/-- A write leaves every other byte alone. -/
theorem memRead_memWrite_ne (m : Mem) {a b : Nat} (x : Byte) (h : b ≠ a) : memRead (memWrite m a x) b = memRead m b := by
  unfold memWrite
  split
  · exact memRead_memErase_ne m h
  · exact memRead_memInsert_ne m x h

theorem above_memErase (m : Mem) (a c : Nat) (hw : memWf m = true) (h : above c m) : above c (memErase m a) := by
  cases m with
  | nil => trivial
  | cons e m =>
    obtain ⟨b, y⟩ := e
    obtain ⟨-, hb, -⟩ := (memWf_cons b y m).1 hw
    unfold memErase
    split
    · exact above_mono h m hb
    · exact h

theorem memWf_memErase (m : Mem) (a : Nat) (hw : memWf m = true) : memWf (memErase m a) = true := by
  induction m with
  | nil => rfl
  | cons e m ih =>
    obtain ⟨b, y⟩ := e
    obtain ⟨hy, hb, hm⟩ := (memWf_cons b y m).1 hw
    unfold memErase
    split
    · exact hm
    · exact (memWf_cons b y _).2 ⟨hy, above_memErase m a b hm hb, ih hm⟩

theorem above_memInsert (m : Mem) (a c : Nat) (x : Byte) (h : above c m) (hc : c < a) : above c (memInsert m a x) := by
  cases m with
  | nil => exact hc
  | cons e m =>
    obtain ⟨b, y⟩ := e
    unfold memInsert
    split
    · exact hc
    · split
      · exact hc
      · exact h

theorem memWf_memInsert (m : Mem) (a : Nat) (x : Byte) (hx : x ≠ memDefault) (hw : memWf m = true) : memWf (memInsert m a x) = true := by
  induction m with
  | nil => simp [memInsert, memWf, hx]
  | cons e m ih =>
    obtain ⟨b, y⟩ := e
    obtain ⟨hy, hb, hm⟩ := (memWf_cons b y m).1 hw
    unfold memInsert
    split
    · exact (memWf_cons a x _).2 ⟨hx, ‹_›, hw⟩
    · split
      · subst_vars; exact (memWf_cons _ x m).2 ⟨hx, hb, hm⟩
      · exact (memWf_cons b y _).2 ⟨hy, above_memInsert m a b x hb (by omega), ih hm⟩

/-- A write of one byte keeps the canonical form. -/
theorem memWf_memWrite (m : Mem) (a : Nat) (x : Byte) (hw : memWf m = true) : memWf (memWrite m a x) = true := by
  unfold memWrite
  split
  · exact memWf_memErase m a hw
  · exact memWf_memInsert m a x ‹_› hw

/-- A write of many bytes keeps the canonical form. -/
theorem memWf_memWrites (bs : List Byte) : ∀ (m : Mem) (a : Nat), memWf m = true → memWf (memWrites m a bs) = true := by
  induction bs with
  | nil => intro m a h; exact h
  | cons x bs ih => intro m a h; exact ih _ _ (memWf_memWrite m a x h)

theorem memWf_memPutNat (m : Mem) (a n x : Nat) (hw : memWf m = true) : memWf (memPutNat m a n x) = true :=
  memWf_memWrites _ m a hw

/-- A write of many bytes leaves the bytes outside them alone. -/
theorem memRead_memWrites_out (bs : List Byte) : ∀ (m : Mem) (a b : Nat), b < a ∨ a + bs.length ≤ b → memRead (memWrites m a bs) b = memRead m b := by
  induction bs with
  | nil => intros; rfl
  | cons x bs ih =>
    intro m a b h
    simp only [List.length_cons] at h
    simp only [memWrites]
    rw [ih (memWrite m a x) (a + 1) b (by omega), memRead_memWrite_ne m x (by omega)]

/-- A byte that has been written among many reads as it was written. -/
theorem memRead_memWrites_in (bs : List Byte) : ∀ (m : Mem) (a i : Nat), memWf m = true → (h : i < bs.length) →
    memRead (memWrites m a bs) (a + i) = bs[i] := by
  induction bs with
  | nil => intro m a i _ h; exact absurd h (Nat.not_lt_zero i)
  | cons x bs ih =>
    intro m a i hw h
    cases i with
    | zero =>
      simp only [memWrites, Nat.add_zero, List.getElem_cons_zero]
      rw [memRead_memWrites_out bs _ _ _ (Or.inl (Nat.lt_succ_self a)), memRead_memWrite_same m a x hw]
    | succ i =>
      simp only [memWrites, List.getElem_cons_succ]
      have := ih (memWrite m a x) (a + 1) i (memWf_memWrite m a x hw) (by simpa using h)
      rwa [Nat.add_assoc, Nat.add_comm 1 i] at this

@[simp] theorem memReads_length (m : Mem) : ∀ (n a : Nat), (memReads m a n).length = n
  | 0, _ => rfl
  | n + 1, a => by simp [memReads, memReads_length m n (a + 1)]

end Sys2Proof.Machine
end

