-- ==== Sys2Proof/Laws/Time.lean ====
section
/-! SUPPORT. Laws of fabric time: the two words of FT, what the lock states leave alone, and the records of the RAS log. -/
namespace Sys2Proof.Machine

/-! The value of FT -/

/-- FT is cut to 64 bits of nanoseconds and 16 of fraction. -/
theorem FabTime.setUnits_ok (f : FabTime) (u : Int) : (f.setUnits u).ns < 2 ^ 64 ∧ (f.setUnits u).frac < 65536 := by
  constructor
  · have h := Int.emod_lt_of_pos (u / 65536) (show (0 : Int) < 2 ^ 64 by norm_num)
    have h0 := Int.emod_nonneg (u / 65536) (show (2 ^ 64 : Int) ≠ 0 by norm_num)
    simp only [FabTime.setUnits]; omega
  · have h := Int.emod_lt_of_pos u (show (0 : Int) < 65536 by norm_num)
    have h0 := Int.emod_nonneg u (show (65536 : Int) ≠ 0 by norm_num)
    simp only [FabTime.setUnits]; omega

/-- A value that fits reads back as it was set. -/
theorem FabTime.units_setUnits (f : FabTime) (u : Int) (h0 : 0 ≤ u) (h : u < 2 ^ 80) : ((f.setUnits u).units : Int) = u := by
  have h1 : 0 ≤ u / 65536 := Int.ediv_nonneg h0 (by norm_num)
  have h2 : u / 65536 < 2 ^ 64 := by omega
  have h3 := Int.emod_nonneg u (show (65536 : Int) ≠ 0 by norm_num)
  simp only [FabTime.units, FabTime.setUnits, Int.emod_eq_of_lt h1 h2]
  push_cast
  omega

@[simp] theorem FabTime.setUnits_lock (f : FabTime) (u : Int) : (f.setUnits u).lock = f.lock := rfl
@[simp] theorem FabTime.setUnits_nextSec (f : FabTime) (u : Int) : (f.setUnits u).nextSec = f.nextSec := rfl
@[simp] theorem FabTime.setUnits_slew (f : FabTime) (u : Int) : (f.setUnits u).slew = f.slew := rfl

/-! The RAS log touches the core alone -/

@[simp] theorem State.hostWrite_frame (s : State) (a : Nat) (bs : List Byte) :
    (s.hostWrite a bs).fuse = s.fuse ∧ (s.hostWrite a bs).ft = s.ft ∧ (s.hostWrite a bs).pending = s.pending := by
  unfold State.hostWrite
  split <;> simp

@[simp] theorem State.raiseIf_frame (s : State) (p : Bool) (o i : Nat) :
    (s.raiseIf p o i).fuse = s.fuse ∧ (s.raiseIf p o i).ft = s.ft ∧ (s.raiseIf p o i).pending = s.pending := by
  unfold State.raiseIf
  split <;> simp

@[simp] theorem State.rasLog_frame (s : State) (t c src die unit ctx a d n : Nat) :
    (s.rasLog t c src die unit ctx a d n).fuse = s.fuse ∧ (s.rasLog t c src die unit ctx a d n).ft = s.ft
    ∧ (s.rasLog t c src die unit ctx a d n).pending = s.pending := by
  unfold State.rasLog
  extract_lets
  split_ifs <;> simp +zetaDelta

/-! Lock states leave the value of FT alone -/

@[simp] theorem State.setLock_ft (s : State) (l : Lock) :
    (s.setLock l).ft.ns = s.ft.ns ∧ (s.setLock l).ft.frac = s.ft.frac ∧ (s.setLock l).ft.nextSec = s.ft.nextSec
    ∧ (s.setLock l).ft.everReady = s.ft.everReady ∧ (s.setLock l).ft.src = s.ft.src := by
  unfold State.setLock
  split
  · simp
  · simp only [State.raise_ft, (State.rasLog_frame _ _ _ _ _ _ _ _ _ _).2.1]
    split_ifs <;> exact ⟨rfl, rfl, rfl, rfl, rfl⟩

/-- Only FREE ends a slew (R35). -/
@[simp] theorem State.setLock_slew (s : State) (l : Lock) (h : l ≠ .free) : (s.setLock l).ft.slew = s.ft.slew := by
  unfold State.setLock
  split
  · rfl
  · simp only [State.raise_ft, (State.rasLog_frame _ _ _ _ _ _ _ _ _ _).2.1]
    split_ifs <;> rfl

@[simp] theorem State.countLoss_ft (s : State) :
    s.countLoss.ft.ns = s.ft.ns ∧ s.countLoss.ft.frac = s.ft.frac ∧ s.countLoss.ft.nextSec = s.ft.nextSec
    ∧ s.countLoss.ft.everReady = s.ft.everReady ∧ s.countLoss.ft.slew = s.ft.slew ∧ s.countLoss.ft.src = s.ft.src := by
  simp [State.countLoss]

@[simp] theorem State.beginAcquire_ft (s : State) :
    s.beginAcquire.ft.ns = s.ft.ns ∧ s.beginAcquire.ft.frac = s.ft.frac ∧ s.beginAcquire.ft.nextSec = s.ft.nextSec
    ∧ s.beginAcquire.ft.everReady = s.ft.everReady ∧ s.beginAcquire.ft.slew = s.ft.slew ∧ s.beginAcquire.ft.src = s.ft.src := by
  unfold State.beginAcquire
  split <;> simp

@[simp] theorem State.loseLock_ft (s : State) :
    s.loseLock.ft.ns = s.ft.ns ∧ s.loseLock.ft.frac = s.ft.frac ∧ s.loseLock.ft.nextSec = s.ft.nextSec
    ∧ s.loseLock.ft.everReady = s.ft.everReady ∧ s.loseLock.ft.src = s.ft.src := by
  unfold State.loseLock
  split <;> simp

/-- The lock rule leaves the value of FT alone. -/
@[simp] theorem State.lockRule_ft (s : State) (d : Int) (n m : Nat) :
    (s.lockRule d n m).ft.ns = s.ft.ns ∧ (s.lockRule d n m).ft.frac = s.ft.frac := by
  unfold State.lockRule
  split
  · simp
  · dsimp only
    repeat' split
    all_goals simp

/-- Choosing a parent leaves the value of FT alone. -/
@[simp] theorem State.chooseParent_ft (s : State) : s.chooseParent.ft.ns = s.ft.ns ∧ s.chooseParent.ft.frac = s.ft.frac := by
  unfold State.chooseParent
  split
  · split
    · simp
    · dsimp only
      repeat' split
      all_goals simp
  · simp

end Sys2Proof.Machine
end

