-- ==== Sys2Proof/Tests/Slice0.lean ====
section
/-! SUPPORT. Tests: commands that are not well-formed; for each statement with hypotheses a state and operands that meet them, with what the
command then does; and the spec's own numbers. -/
set_option Elab.async false
namespace Sys2Proof.Tests
open Sys2Proof Sys2Proof.Machine

/-- A ready module with its link up and context 1 ACTIVE. -/
def tLive : State :=
  { core := {
      boot := { phase := .ready, outs := true, perst := false, locked := true }
      host := { linkUp := true, cxl := true }
      mmu := { ctxs := [(1, { st := .active, tagFirst := 0, tagCount := 16 })] } } }

/-- A bound queue of context 1 and of a class, with rings of 64 entries at 0 and ten entries to dispatch. -/
def tq (cls : Nat) : Queue :=
  { st := .bound, desc := put 128 12 1 + put 144 8 6 + put 152 8 7 + put 160 8 cls, tail := 10, seen := 10, slot := some ⟨cls, 0, 0⟩ }

/-- The ready module with queue 5 bound to engine 0, flags of block 0 allocated to context 1 and flag 3 set seven times. -/
def tQ : State :=
  { tLive with core.qm := { queues := [(5, tq 0)], owner := [(0, 1)], flags := [(3, { state := true, count := 7 })], slots := [(slotKey ⟨0, 0, 0⟩, 5)] } }

/-- The outcome is a next state in which p holds. -/
def Meets (o : Out) (p : State → Bool) : Bool := match o with | .next t => p t | _ => false

/-- The outcome is the state as it was. -/
def Stays (o : Out) (s : State) : Bool := Meets o (fun t => decide (t = s))

/-! Well-formedness -/

/-- A packet and a frame that fit their fields. -/
def pk : Packet := { type := 0x20, vc := 3 }
def fr : Frame := { ctype := 1 }

theorem test_ill_formed_1 : ([.regWrite 0 4 (2 ^ 64), .regWrite 0x1000000 4 0, .regWrite 0 2 0, .regWrite 2 4 0, .regWrite 4 8 0, .nextsecWrite (2 ^
    64), .timeRequest 40 0 0 0 0, .timeRequest 0 (2 ^ 64) 0 0 0, .timeRequest 0 0 65536 0 0, .timeRequest 0 0 0 256 0, .timeRequest 0 0 0 0 256,
    .timeReply 40 0 0 0 0 0, .timeReply 0 (2 ^ 80) 0 0 0 0, .timeReply 0 0 (2 ^ 80) 0 0 0, .timeReply 0 0 0 (2 ^ 80) 0 0, .timeReply 0 0 0 0 256 0,
    .timeReply 0 0 0 0 0 256, .doorbellForward 32768, .dbTail 32768 8 0, .dbTail 0 8 (2 ^ 64), .dbTail 0 0 0, .dbCrhead 32768 ⟨4, 0⟩, .dbCrhead 0 ⟨4, 2 ^ 64⟩,
    .dbCrhead 0 ⟨0, 0⟩, .dbCtlResume 32768 ⟨4, 0⟩] : List Instr).all (fun i => !WellFormed i) = true := by decide

theorem test_ill_formed_2 : ([.dbCtlResume 0 ⟨4, 2 ^ 64⟩, .dbCtlAbort 32768 ⟨4, 0⟩, .dbCtlAbort 0 ⟨4, 2 ^ 64⟩, .flagHostWrite (2 ^ 20) 0, .flagHostWrite 0 (2 ^
    64), .instructionDispatch 32768, .setAside 32768, .setAsideWrite 32768, .queueBind 32768 ⟨0, 0, 0⟩, .queueBind 0 ⟨0, 64, 0⟩, .queueBind 0 ⟨0, 0,
    1⟩, .queueBind 0 ⟨1, 64, 0⟩, .queueBind 0 ⟨1, 0, 2⟩, .queueBind 0 ⟨2, 64, 0⟩, .queueBind 0 ⟨2, 0, 2⟩, .queueBind 0 ⟨3, 64, 0⟩, .queueBind 0 ⟨3, 0,
    4⟩, .queueBind 0 ⟨4, 8, 0⟩, .queueBind 0 ⟨4, 0, 1⟩, .queueBind 0 ⟨5, 16, 0⟩, .queueBind 0 ⟨5, 0, 4⟩, .queueBind 0 ⟨6, 32, 0⟩, .queueBind 0 ⟨6, 0,
    8⟩, .queueBind 0 ⟨7, 16, 0⟩] : List Instr).all (fun i => !WellFormed i) = true := by decide

theorem test_ill_formed_3 : ([.queueBind 0 ⟨7, 0, 4⟩, .queueBind 0 ⟨8, 0, 0⟩, .queueIdleUnbind 32768, .nop 32768 {}, .nop 0 { tag := 65536 }, .wait
    32768 {} 0, .wait 0 {} (2 ^ 32), .wait 0 { tag := 65536 } 0, .sig 32768 {}, .sig 0 { tag := 65536 }, .clr 32768 {}, .clr 0 { tag := 65536 }, .gate
    32768 {} 0, .gate 0 {} (2 ^ 64), .gate 0 { tag := 65536 } 0, .gateExpiry 32768, .dep ⟨8, 0, 0⟩, .lbar ⟨8, 0, 0⟩, .fence 32768 {}, .fence 0 { tag
    := 65536 }, .halt 32768 {}, .halt 0 { tag := 65536 }, .cset 32768 {} 0 0 0, .cset 0 {} 256 0 0] : List Instr).all (fun i => !WellFormed i) = true
    := by decide

theorem test_ill_formed_4 : ([.cset 0 {} 0 256 0, .cset 0 {} 0 0 (2 ^ 32), .cset 0 { tag := 65536 } 0 0 0, .cadd 32768 {} 0 0, .cadd 0 {} 256 0, .cadd
    0 {} 0 (2 ^ 32), .cadd 0 { tag := 65536 } 0 0, .cmpb 32768 {} 0 0 0 0 0, .cmpb 0 {} 256 0 0 0 0, .cmpb 0 {} 0 256 0 0 0, .cmpb 0 {} 0 0 256 0 0,
    .cmpb 0 {} 0 0 0 (2 ^ 32) 0, .cmpb 0 {} 0 0 0 0 (2 ^ 32), .cmpb 0 { tag := 65536 } 0 0 0 0 0, .end_ 32768 {}, .end_ 0 { tag := 65536 },
    .flagUpdateCycle (2 ^ 20), .waitTimeout 32768 none, .instructionComplete 32768 0, .deadlineAbort 32768 0, .opa ⟨0, 64, 0⟩, .opa ⟨0, 0, 1⟩, .opa
    ⟨1, 64, 0⟩, .opa ⟨1, 0, 2⟩] : List Instr).all (fun i => !WellFormed i) = true := by decide

theorem test_ill_formed_5 : ([.opa ⟨2, 64, 0⟩, .opa ⟨2, 0, 2⟩, .opa ⟨3, 64, 0⟩, .opa ⟨3, 0, 4⟩, .opa ⟨8, 0, 0⟩, .accld ⟨8, 0, 0⟩, .accz ⟨8, 0, 0⟩,
    .accdr ⟨8, 0, 0⟩, .accpk ⟨8, 0, 0⟩, .accup ⟨8, 0, 0⟩, .gacc ⟨8, 0, 0⟩, .opeIssueCycle 64 false [], .opeCellWrite 64 [], .rowPortOpStart 64 [], .opeStop 64
    0, .opeStop 0 4, .partModeChange 64 0 0 false, .partModeChange 0 4 0 false, .partModeChange 0 0 16 false, .fenceRelease 64 0, .fenceRelease 0 4,
    .mvx ⟨4, 8, 0⟩ 0 [], .mvx ⟨4, 0, 1⟩ 0 [], .mvx ⟨8, 0, 0⟩ 0 []] : List Instr).all (fun i => !WellFormed i) = true := by decide

theorem test_ill_formed_6 : ([.mvuStop 8, .vectorSlotWrite 8 0, .vectorSlotWrite 0 8, .vop ⟨5, 16, 0⟩ [], .vop ⟨5, 0, 4⟩ [], .vop ⟨8, 0, 0⟩ [], .qnt ⟨8, 0, 0⟩ [],
    .vred ⟨8, 0, 0⟩ [], .vuDrainGrant ⟨8, 0, 0⟩, .vuSeedWrite 16 0 0, .vuSeedWrite 0 4 0, .vuSeedWrite 0 0 (2 ^ 64), .vuCntClr 16 0, .vuCntClr 0 16,
    .sarm ⟨6, 32, 0⟩, .sarm ⟨6, 0, 8⟩, .sarm ⟨8, 0, 0⟩, .scan ⟨8, 0, 0⟩, .tcopy ⟨8, 0, 0⟩, .push ⟨8, 0, 0⟩, .pop ⟨8, 0, 0⟩, .pin ⟨8, 0, 0⟩, .unpin ⟨8,
    0, 0⟩, .upd ⟨8, 0, 0⟩] : List Instr).all (fun i => !WellFormed i) = true := by decide

theorem test_ill_formed_7 : ([.streamActivate 32, .seFetchIssue 32 false, .tuLand 32 0 [], .tuLand 0 256 [], .streamWritebackAck 32 0, .streamDeadline
    262144, .bopen ⟨7, 16, 0⟩, .bopen ⟨7, 0, 4⟩, .bopen ⟨8, 0, 0⟩, .bput ⟨8, 0, 0⟩, .bclose ⟨8, 0, 0⟩, .gather ⟨8, 0, 0⟩, .epoch ⟨8, 0, 0⟩,
    .roundClose 65536 0, .roundClose 0 256, .finalGraceExpiry 65536 0, .finalGraceExpiry 0 256, .grant { pk with type := 256 }, .rdata { pk with type
    := 256 }, .mdata { pk with type := 256 }, .ggrant { pk with type := 256 }, .gdata { pk with type := 256 }, .revoke { pk with type := 256 }, .rdReq
    { pk with type := 256 }] : List Instr).all (fun i => !WellFormed i) = true := by decide

theorem test_ill_formed_8 : ([.wrReq { pk with type := 256 }, .flagUpd (2 ^ 20) 0 0 0, .flagUpd 0 4096 0 0, .flagUpd 0 0 6 0, .flagUpd 0 0 0 32768,
    .rdRsp { pk with type := 256 }, .wrAck { pk with type := 256 }, .notify 32768, .drop { pk with type := 256 }, .mgmt { pk with type := 256 },
    .gateNotice { pk with type := 256 }, .freezeStatusNotice { pk with type := 256 }, .packetTransit 40 0, .frameTransmit 40 [], .markerFrame 40,
    .frameReceived 40 fr 0 0 ⟨[]⟩, .frameReceived 0 { fr with ctype := 256 } 0 0 ⟨[]⟩, .frameReceived 0 fr 0 0 ⟨[76]⟩, .replayTimeout 40, .retryLimit 40, .trainComplete 40 0 0 false,
    .trainComplete 0 256 0 false, .trainComplete 0 0 256 false, .lossOfSignal 40 0, .lossOfSignal 0 8] : List Instr).all (fun i => !WellFormed i) =
    true := by decide

theorem test_ill_formed_9 : ([.resync 40 fr, .resync 0 { fr with ctype := 256 }, .survivorDrained 40, .resyncDone 40 fr, .resyncDone 0 { fr with ctype
    := 256 }, .linkTmo 40, .fabCtlEn 40 false, .fabCtlReset 40, .fabCtlHalf 20 false, .fabModidWrite 8192, .d2dUnitReceived 10 ⟨false, false⟩, .d2dLinkFailed 10,
    .poolMiss 4096 0 false, .poolMiss 0 (2 ^ 56) false, .evictorRun 8, .flashReadDone 1953125000 false, .flashWriteDone 1953125000, .tableWalk ⟨4096, 0⟩ 0,
    .tableWalk ⟨0, 0⟩ (2 ^ 56), .tableWalk ⟨0, 2560⟩ 0, .faultTimeout 1024, .atsCompletion 4096 0 0 false false, .atsCompletion 0 (2 ^ 64) 0 false false, .atsCompletion 0 0 (2 ^
    64) false false, .prgResponse 512 0 0] : List Instr).all (fun i => !WellFormed i) = true := by decide

theorem test_ill_formed_10 : ([.prgResponse 0 (2 ^ 20) 0, .prgResponse 0 0 16, .atsInvalidation (2 ^ 20) 0 0, .sedConfigWrite 8 (2 ^ 64),
    .sedConfigWrite 0 0, .fifoDupMismatch 6 0, .msixModExpiry 2048, .hostMemRead 32 false false, .hostMemWrite 32 (List.replicate 64 0) false,
    .hostMemWrite 0 [] false, .doeObject 5 0 0 [], .getIdentity 3, .quote 3 [], .getLog 3 [], .pldmFirmwareUpdate 5 0 [], .mctpControl 256,
    .pldmSensorRead 65536, .pldmSetEffecter 65536, .ready (List.replicate 8 (0, 0, 0)) (List.replicate 8 (0, 0)) (2 ^ 56) 0 0, .ready (List.replicate
    8 (0, 0, 0)) (List.replicate 8 (0, 0)) 0 (2 ^ 56) 0, .ready (List.replicate 8 (0, 0, 0)) (List.replicate 8 (0, 0)) 0 0 65536, .ready []
    (List.replicate 8 (0, 0)) 0 0 0, .ready (List.replicate 8 (0, 0, 0)) [] 0 0 0, .startupFailure 256 0] : List Instr).all (fun i => !WellFormed i) =
    true := by decide

theorem test_ill_formed_11 : ([.startupFailure 0 256, .paceStep 65536, .paceEntryTrigger 16, .thermalSample (List.replicate 16 0) 65536 0 [],
    .thermalSample (List.replicate 16 0) 0 65536 [], .thermalSample [] 0 0 [], .hbmScrub (2 ^ 41) false ⟨false, false⟩, .moduleFatalError 256 0 0,
    .moduleFatalError 0 8 0, .moduleFatalError 0 0 65536, .frzSel (2 ^ 32), .sampleCountdown 32768, .priTimeout 512] : List Instr).all (fun i =>
    !WellFormed i) = true := by decide

theorem test_well_formed_1 : ([.regWrite 0 4 0, .nextsecWrite 0, .timeRequest 0 0 0 0 0, .timeReply 0 0 0 0 0 0, .doorbellForward 0, .dbTail 0 8 0,
    .dbCrhead 0 ⟨4, 0⟩, .dbCtlResume 0 ⟨4, 0⟩, .dbCtlAbort 0 ⟨8, 0⟩, .flagHostWrite 0 0, .instructionDispatch 0, .setAside 0, .setAsideWrite 0, .queueBind 0 ⟨0, 0,
    0⟩, .queueIdleUnbind 0, .nop 0 {}, .wait 0 {} 0, .sig 0 {}, .clr 0 {}, .gate 0 {} 0, .gateExpiry 0, .dep ⟨0, 0, 0⟩, .lbar ⟨0, 0, 0⟩, .fence 0 {},
    .halt 0 {}, .cset 0 {} 0 0 0, .cadd 0 {} 0 0, .cmpb 0 {} 0 0 0 0 0, .end_ 0 {}, .flagUpdateCycle 0, .waitTimeout 0 none, .instructionComplete 0 0,
    .deadlineAbort 0 0, .opa ⟨0, 0, 0⟩, .accld ⟨0, 0, 0⟩, .accz ⟨0, 0, 0⟩, .accdr ⟨0, 0, 0⟩, .accpk ⟨0, 0, 0⟩, .accup ⟨0, 0, 0⟩, .gacc ⟨0, 0, 0⟩] :
    List Instr).all WellFormed = true := by decide

theorem test_well_formed_2 : ([.opeIssueCycle 0 false [], .opeCellWrite 0 [], .rowPortOpStart 0 [], .opeStop 0 0, .partModeChange 0 0 0 false, .fenceRelease 0
    0, .mvx ⟨4, 0, 0⟩ 0 [], .mvuStop 0, .vectorSlotWrite 0 0, .vop ⟨5, 0, 0⟩ [], .qnt ⟨5, 0, 0⟩ [], .vred ⟨5, 0, 0⟩ [], .vuDrainGrant ⟨5, 0, 0⟩, .vuSeedWrite 0 0
    0, .vuCntClr 0 0, .sarm ⟨6, 0, 0⟩, .scan ⟨6, 0, 0⟩, .tcopy ⟨6, 0, 0⟩, .push ⟨6, 0, 0⟩, .pop ⟨6, 0, 0⟩, .pin ⟨6, 0, 0⟩, .unpin ⟨6, 0, 0⟩, .upd ⟨6,
    0, 0⟩, .streamActivate 0, .seFetchIssue 0 false, .tuLand 0 0 [], .streamWritebackAck 0 0, .streamDeadline 0, .bopen ⟨7, 0, 0⟩, .bput ⟨7, 0, 0⟩,
    .bclose ⟨7, 0, 0⟩, .gather ⟨7, 0, 0⟩, .epoch ⟨7, 0, 0⟩, .roundClose 0 0, .finalGraceExpiry 0 0, .grant pk, .rdata pk, .mdata pk, .ggrant pk,
    .gdata pk] : List Instr).all WellFormed = true := by decide

theorem test_well_formed_3 : ([.revoke pk, .rdReq pk, .wrReq pk, .flagUpd 0 0 0 0, .rdRsp pk, .wrAck pk, .notify 0, .drop pk, .mgmt pk, .gateNotice
    pk, .freezeStatusNotice pk, .packetTransit 0 0, .frameTransmit 0 [], .markerFrame 0, .frameReceived 0 fr 0 0 ⟨[]⟩, .frameReceived 0 { fr with ctype := 4 } 0 0 ⟨[75]⟩, .replayTimeout 0, .retryLimit 0,
    .trainComplete 0 0 0 false, .lossOfSignal 0 0, .resync 0 fr, .survivorDrained 0, .resyncDone 0 fr, .linkTmo 0, .fabCtlEn 0 false, .fabCtlReset 0,
    .fabCtlHalf 0 false, .fabModidWrite 0, .d2dUnitReceived 0 ⟨false, false⟩, .d2dLinkFailed 0, .poolMiss 0 0 false, .evictorRun 0, .flashReadDone 0 false,
    .flashWriteDone 0, .tableWalk ⟨0, 0⟩ 0, .faultTimeout 0, .atsCompletion 0 0 0 false false, .prgResponse 0 0 0, .atsInvalidation 0 0 0, .sedConfigWrite
    8 0, .fifoDupMismatch 0 0] : List Instr).all WellFormed = true := by decide

theorem test_well_formed_4 : ([.msixModExpiry 0, .hostMemRead 0 false false, .hostMemWrite 0 (List.replicate 64 0) false, .doeObject 0 0 0 [],
    .getIdentity 0, .quote 0 [], .getLog 0 [], .pldmFirmwareUpdate 0 0 [], .mctpControl 0, .pldmSensorRead 0, .pldmSetEffecter 0, .ready
    (List.replicate 8 (0, 0, 0)) (List.replicate 8 (0, 0)) 0 0 0, .startupFailure 0 0, .paceStep 0, .paceEntryTrigger 0, .thermalSample
    (List.replicate 16 0) 0 0 [], .hbmScrub 0 false ⟨false, false⟩, .moduleFatalError 0 0 0, .frzSel 0, .sampleCountdown 0, .priTimeout 0] : List Instr).all
    WellFormed = true := by decide

theorem test_ill_headers : ([{ mod := 256 }, { tag := 65536 }, { wait := 2 ^ 32 }, { sig := 2 ^ 32 }, { dl := 2 ^ 32 }, { ixc := 2 ^ 64 }] : List
    Hdr).all (fun h => !hdrOk h) = true := by decide

theorem test_ill_packets : ([{ pk with type := 256 }, { pk with vc := 16 }, { pk with dest := 65536 }, { pk with src := 65536 }, { pk with hops := 256
    }, { pk with len := 2 }, { pk with hdr := 2 ^ 384 }] : List Packet).all (fun p => !Sys2Proof.packetOk p) = true := by decide

theorem test_ill_frames : ([{ fr with ctype := 256 }, { fr with nakcnt := 256 }, { fr with crc := 2 ^ 32 }, { fr with seq := 2 ^ 32 }, { fr with ack := 2 ^ 32 }, { fr with units := List.replicate 77 ⟨pk, 0,
    false⟩ }, { fr with units := [⟨{ pk with vc := 16 }, 0, false⟩] }] : List Frame).all (fun f => !frameOk f) = true := by decide

/-! Steps and time -/

theorem test_front_runs : Meets (step { tLive with pending := [.refLoss, .restep] }) (fun t => decide (t.pending = [.restep])) = true := by decide +kernel

theorem test_idle_step : tLive.pending = [] ∧ tLive.timing = true ∧ tLive.ft.units + 65543 < 2 ^ 80 ∧ Meets (step tLive) (fun t => t.ft.ns == 1) = true := by
  decide +kernel

theorem test_ft_width : (tLive.ft.ns < 2 ^ 64 ∧ tLive.ft.frac < 65536) ∧ Meets (step { tLive with ft := { ns := 2 ^ 64 - 1 } }) (fun t => t.ft.ns == 0) = true := by
  decide +kernel

/-- A ready module at 10 ns, behind no source. -/
def tFt : State := { tLive with ft := { ns := 10, everReady := true, src := some 65536 } }

theorem test_ft_kept : tFt.ft.everReady = true ∧ tFt.ft.ns < 2 ^ 62 ∧ tFt.ft.frac < 65536 ∧ tFt.ft.nextSec < 2 ^ 32
    ∧ (∀ d ∈ tFt.ft.src, -(2 ^ 78 : Int) ≤ d) ∧ tFt.userActive = true ∧ Stays (exec .restep tFt) tFt = true
    ∧ Meets (exec (.nextsecWrite 7) tFt) (fun t => t.ft.nextSec == 7 && t.ft.ns == 10) = true := by
  decide +kernel

theorem test_frozen_holds : ({ tLive with core.ras := { frozen := true } } : State).core.ras.frozen = true
    ∧ Stays (exec (.dbTail 5 4 1) { tLive with core.ras := { frozen := true } }) { tLive with core.ras := { frozen := true } } = true := by decide +kernel

theorem test_not_ready : State.reset.core.boot.phase ≠ .ready ∧ Stays (exec (.dbTail 5 4 1) State.reset) State.reset = true
    ∧ Stays (exec (.regWrite 0xB00000 4 1) State.reset) State.reset = true := by decide +kernel

theorem test_fatal_stops : ({ tQ with core.ras := { stop := true } } : State).core.ras.stop = true
    ∧ Stays (exec (.instructionDispatch 5) { tQ with core.ras := { stop := true } }) { tQ with core.ras := { stop := true } } = true := by decide +kernel

theorem test_ft_read : tFt.timing = true
    ∧ Meets (exec (.glbFtLowRead 2) { tFt with ft.ns := 2 ^ 33 + 5 }) (fun t => t.core.ras.readVal == 5 && mget t.ft.latch 2 == some 2) = true := by decide +kernel

/-- A module locked to its reference. -/
def tRef : State := { tLive with core.regs := { csr := [(8 * 0x108, 1)] }, ft := { ns := 5, lock := .locked, hop := 0, refOk := true, tsyncOk := true, everReady := true } }

theorem test_ref_loss : tRef.timing = true ∧ tRef.source = 1 ∧ tRef.ft.lock = .locked ∧ tRef.reg fldHoldLimit = 100
    ∧ Meets (exec .refLoss tRef) (fun t => decide (t.ft.lock = .holdover) && t.ft.hop == 0xF && t.ft.losses == 1 && t.flagBit hifInt 0) = true
    ∧ Meets (exec .tsyncTimeout tRef) (fun t => decide (t.ft.lock = .holdover)) = true
    ∧ Meets (exec .holdoverLimit { tRef with ft.lock := .holdover }) (fun t => decide (t.ft.lock = .free) && t.ft.ns == 5) = true
    ∧ Meets (exec .timerefPresent { tRef with ft.lock := .free }) (fun t => decide (t.ft.lock = .acquiring)) = true := by decide +kernel

/-- A ready module without user contexts. -/
def tAlone : State := { tLive with core.mmu := {}, ft := { ns := 10, everReady := true, src := some 65536 } }

theorem test_restep : tAlone.timing = true ∧ tAlone.userActive = false ∧ tAlone.srcKnown = some 65536
    ∧ Meets (exec .restep tAlone) (fun t => t.ft.ns == 9 && t.ft.steps == 1 && t.core.pmc.step) = true
    ∧ tAlone.ft.nextSec < 2 ^ 64 ∧ Stays (exec (.nextsecWrite 0) tAlone) tAlone = true ∧ tAlone.source ≠ 1 := by decide +kernel

/-- One nanosecond behind its reference. -/
def tAhead : State := { tAlone with core.regs := { csr := [(8 * 0x108, 1)] }, ft := { ns := 20, refOk := true, everReady := true, src := some (-65536), nextSec := 1 } }

theorem test_restep_forward : tAhead.timing = true ∧ tAhead.userActive = false ∧ tAhead.srcKnown = some (-65536) ∧ tAhead.ft.units < 2 ^ 79
    ∧ Meets (exec .restep tAhead) (fun t => t.ft.ns == 21 && t.ft.steps == 1) = true ∧ tAhead.source = 1 ∧ tAhead.nextsecOffset 1 = 0
    ∧ Meets (exec (.nextsecWrite 1) tAhead) (fun t => t.ft.src == some tAhead.ft.phase) = true
    ∧ 10000000 * 65536 ≤ ({ tAhead with ft.ns := 2000000000 } : State).nextsecOffset 1
    ∧ Meets (exec (.nextsecWrite 1) { tAhead with ft.ns := 2000000000 }) (fun t => t.ft.disjoint && t.ft.ns == 2000000000) = true := by decide +kernel

/-- The reference in use, ACQUIRING after two good edges, at the expected second. -/
def tSync : State :=
  { tLive with core.regs := { csr := [(8 * 0x108, 1)] }, ft := { ns := 3000000000, frac := 40000, nextSec := 3, lock := .acquiring, good := 2, refOk := true, everReady := true } }

theorem test_tsync_locks : tSync.timing = true ∧ tSync.reg fldSrc = 1 ∧ tSync.ft.lock = .acquiring ∧ tSync.ft.disjoint = false ∧ 2 ≤ tSync.ft.good
    ∧ (tSync.ft.units : Int) - (tSync.ft.nextSec * 1000000000 * 65536 : Nat) = 40000
    ∧ Meets (exec .tsyncEdge tSync) (fun t => decide (t.ft.lock = .locked) && t.ft.hop == 0 && t.ft.parent == 0x3F && t.ft.nextSec == 4) = true := by decide +kernel

theorem test_tsync_lost : ({ tSync with ft.ns := 3000000003, ft.lock := .locked } : State).reg fldHoldLimit ≠ 0
    ∧ Meets (exec .tsyncEdge { tSync with ft.ns := 3000000003, ft.lock := .locked }) (fun t => decide (t.ft.lock = .holdover) && t.ft.losses == 1) = true := by
  decide +kernel

/-- Port 0 ACTIVE, and time taken from it. -/
def tFab : State :=
  { tLive with
    core.regs := { csr := [(8 * 0x108, 2)] }
    core.fab := { modidSet := true, ports := [(0, { st := .active, partner := some { modid := 7 } })] }
    ft := { ns := 1000, lock := .acquiring, parent := 0, good := 15, everReady := true } }

theorem test_time_messages : tFab.live = true ∧ (tFab.port 0).st = .active
    ∧ Meets (exec .timeExchangeStart tFab) (fun t => (mgetD (t.port 0).tx 1 []).any (fun p => p.pkt.type == 0x10 && p.pkt.vc == 1 && p.pkt.len == 1)) = true
    ∧ Meets (exec (.timeRequest 0 900 0 1 2) tFab) (fun t => (mgetD (t.port 0).tx 1 []).length == 1 && mgetD t.ft.partners 0 {} == ⟨1, 2⟩) = true := by
  decide +kernel

theorem test_time_reply : let u := tFab.notePartner 0 1 2
    u.source = 2 ∧ u.ft.parent = 0 ∧ u.ft.lock = .acquiring ∧ u.ft.disjoint = false ∧ 15 ≤ u.ft.good
    ∧ Meets (exec (.timeReply 0 (800 * 65536) (900 * 65536) (900 * 65536) 1 2) tFab) (fun t => decide (t.ft.lock = .locked) && t.ft.hop == 2) = true := by
  decide +kernel

/-! Registers -/

theorem test_bar_discards : Stays (exec (.regWrite 0x104 2 1) tLive) tLive = true ∧ Stays (exec (.regWrite 0x106 4 1) tLive) tLive = true
    ∧ Stays (exec (.regWrite 0x33FFF8 8 1) tLive) tLive = true ∧ Stays (exec (.regWrite 0x3C0000 4 1) tLive) tLive = true
    ∧ ({ tLive with fuse.grade := 3 } : State).stackPresent 7 = false ∧ ({ tLive with fuse.grade := 3 } : State).portPresent 4 = false
    ∧ Stays (exec (.regWrite (memBase 7 + 0x10) 4 1) { tLive with fuse.grade := 3 }) { tLive with fuse.grade := 3 } = true
    ∧ Stays (exec (.regWrite (fabBase 4) 4 1) { tLive with fuse.grade := 3 }) { tLive with fuse.grade := 3 } = true := by decide +kernel

theorem test_reg_fields : tLive.glbOn = true ∧ tLive.live = true ∧ tLive.reg fldSrc < 4
    ∧ Meets (exec (.regWrite (hifBase + 0x30) 4 0x1FFFF) tLive) (fun t => t.reg fldModUsec == 0xFFFF && t.reg fldEvtMask == 0) = true
    ∧ Meets (exec (.regWrite (rasBase + 0x14) 4 7) tLive) (fun t => t.reg fldCeThresh == 7) = true
    ∧ Meets (exec (.regWrite 0x108 4 0x50203) tLive) (fun t => t.reg fldHoldLimit == 5 && t.reg fldExch == 2 && t.reg fldSrc == 3) = true := by decide +kernel

theorem test_w1c : (tLive.raise qmgInt 3).live = true ∧ tLive.core.ras.stop = false
    ∧ Meets (exec (.regWrite qmgInt 4 8) (tLive.raise qmgInt 3)) (fun t => !t.flagBit qmgInt 3) = true
    ∧ Meets (exec (.regWrite qmgInt 4 7) (tLive.raise qmgInt 3)) (fun t => t.flagBit qmgInt 3 && mgetD t.core.regs.evc (8 * qmgInt + 3) 0 == 1) = true := by
  decide +kernel

theorem test_rwl : Meets (exec (.regWrite fldStallMax.off 4 7) tLive) (fun t => t.reg fldStallMax == 512) = true
    ∧ Meets (exec (.regWrite fldStallMax.off 4 7) { tLive with core.boot.locked := false }) (fun t => t.reg fldStallMax == 7) = true := by decide +kernel

/-! Control instructions -/

def h0 : Hdr := {}

theorem test_nop : Launches tQ 5 (ctlWord 0 h0 0) ∧ refMode (iSig (ctlWord 0 h0 0)) = 0
    ∧ Meets (exec (.nop 5 h0) tQ) (fun t => (t.queue 5).fetch == 1 && (t.queue 5).fl.isEmpty && decide (t.core.mem = tQ.core.mem)) = true := by
  unfold Launches; decide +kernel

theorem test_wait_passes : let h : Hdr := { wait := 3 + 2 ^ 28 }
    Launches tQ 5 (ctlWord 1 h (bodyPut 16 4 7)) ∧ refMode (iSig (ctlWord 1 h (bodyPut 16 4 7))) = 0
    ∧ Meets (exec (.wait 5 h 7) tQ) (fun t => (t.queue 5).fetch == 1 && (t.flag 3).state) = true := by unfold Launches; decide +kernel

theorem test_fence_halt : Launches tQ 5 (ctlWord 7 h0 0) ∧ Launches tQ 5 (ctlWord 8 h0 0) ∧ refMode (iSig (ctlWord 7 h0 0)) = 0
    ∧ refMode (iSig (ctlWord 8 h0 0)) = 0 ∧ Meets (exec (.fence 5 h0) tQ) (fun t => (t.queue 5).fetch == 1 && decide ((t.queue 5).hold = .none)) = true
    ∧ Meets (exec (.halt 5 h0) tQ) (fun t => decide ((t.queue 5).st = .halted)) = true := by unfold Launches; decide +kernel

theorem test_wait_registers : let h : Hdr := { wait := 5 + 2 ^ 28 }
    let raw := ctlWord 1 h (bodyPut 16 4 7)
    tQ.dispatching = true ∧ tQ.mayDispatch 5 = true ∧ (tQ.queue 5).cur = none ∧ firstBad (tQ.headerBad (tQ.queue 5) raw) = none
    ∧ waitHolds (tQ.flag (refFlag (iWait raw))) (refMode (iWait raw)) ((tQ.queue 5).c (refCtr (iWait raw))) = false
    ∧ Meets (exec (.wait 5 h 7) tQ) (fun t => decide ((t.queue 5).st = .waiting) && (t.queue 5).fetch == 0 && t.core.qm.waiters == [⟨5, 1, 0, 5, none, 0⟩]) = true := by
  decide +kernel

theorem test_sig : let h : Hdr := { sig := 255 + 2 ^ 28 }
    Launches tQ 5 (ctlWord 2 h 0) ∧ refMode (iSig (ctlWord 2 h 0)) = 1 ∧ mgetD tQ.core.qm.upd 255 [] = [] ∧ (∀ w ∈ tQ.core.qm.waiters, w.flag ≠ 255)
    ∧ Meets (exec (.sig 5 h) tQ) (fun t => t.flag 255 == ⟨true, true, 5, 1⟩ && t.flag 3 == tQ.flag 3) = true := by unfold Launches; decide +kernel

theorem test_clr : let h : Hdr := { sig := 3 + 2 ^ 28 + 2 * 2 ^ 24, mod := 1 }
    Launches tQ 5 (ctlWord 3 h 0) ∧ refFlag (iSig (ctlWord 3 h 0)) = 3
    ∧ Meets (exec (.clr 5 h) tQ) (fun t => !(t.flag 3).state && (t.flag 3).count == 7 && (t.queue 5).c 2 == 7) = true := by unfold Launches; decide +kernel

theorem test_clr_keeps : let h : Hdr := { sig := 3 + 2 ^ 28 + 2 * 2 ^ 24 }
    Launches tQ 5 (ctlWord 3 h 0) ∧ (iMod (ctlWord 3 h 0)).testBit 0 = false ∧ Meets (exec (.clr 5 h) tQ) (fun t => (t.queue 5).c 2 == 0) = true := by
  unfold Launches; decide +kernel

theorem test_cset : Launches tQ 5 (ctlWord 9 h0 (bodyPut 16 1 15 + bodyPut 17 1 0 + bodyPut 20 4 (2 ^ 32 - 1)))
    ∧ Launches tQ 5 (ctlWord 9 h0 (bodyPut 16 1 19 + bodyPut 17 1 0x13 + bodyPut 20 4 77))
    ∧ Meets (exec (.cset 5 h0 15 0 (2 ^ 32 - 1)) tQ) (fun t => (t.queue 5).c 15 == 2 ^ 32 - 1 && (t.queue 5).c 14 == 0) = true
    ∧ Meets (exec (.cset 5 h0 19 0x13 77) tQ) (fun t => mget (t.queue 5).comps 3 == some ⟨true, 1, 3, 77, 0⟩) = true
    ∧ relHolds 3 0 77 = false := by unfold Launches; decide +kernel

/-- Counter 2 of queue 5 holds 5. -/
def tCtr : State := tQ.updQueue 5 (fun x => { x with ctrs := [(2, 5)] })

theorem test_cadd_wraps : Launches tCtr 5 (ctlWord 10 h0 (bodyPut 16 1 2 + bodyPut 20 4 (2 ^ 32 - 6)))
    ∧ Meets (exec (.cadd 5 h0 2 (2 ^ 32 - 6)) tCtr) (fun t => (t.queue 5).c 2 == 2 ^ 32 - 1 && (t.queue 5).fetch == 1) = true
    ∧ Meets (exec (.cadd 5 h0 2 (2 ^ 32 - 5)) tCtr) (fun t => (t.queue 5).c 2 == 0) = true := by unfold Launches; decide +kernel

/-- Queue 5 with its fetch pointer at entry 2. -/
def tLoop : State := tCtr.updQueue 5 (fun x => { x with fetch := 2 })

theorem test_cmpb : Launches tLoop 5 (ctlWord 11 h0 (bodyPut 16 1 2 + bodyPut 17 1 2 + bodyPut 18 1 0 + bodyPut 20 4 6 + bodyPut 24 4 (2 ^ 32 - 2)))
    ∧ tLoop.targetBad (tLoop.queue 5) 2 (-2) = false
    ∧ Meets (exec (.cmpb 5 h0 2 2 0 6 (2 ^ 32 - 2)) tLoop) (fun t => (t.queue 5).fetch == 0) = true
    ∧ Meets (exec (.cmpb 5 h0 2 2 0 5 (2 ^ 32 - 2)) tLoop) (fun t => (t.queue 5).fetch == 3) = true := by unfold Launches; decide +kernel

theorem test_gate : let g := tQ.updQueue 5 (fun x => { x with hold := .gate 9 })
    Launches tQ 5 (ctlWord 4 h0 (bodyPut 16 8 9)) ∧ Meets (exec (.gate 5 h0 0) tQ) (fun t => (t.queue 5).fetch == 1) = true
    ∧ Meets (exec (.gate 5 h0 9) tQ) (fun t => decide ((t.queue 5).hold = .gate 9) && decide ((t.queue 5).st = .waiting)) = true
    ∧ Stays (exec (.gateExpiry 5) g) g = true ∧ Meets (exec (.gateExpiry 5) { g with ft.ns := 9 }) (fun t => decide ((t.queue 5).hold = .none)) = true := by
  unfold Launches; decide +kernel

theorem test_end : Launches tQ 5 (ctlWord 15 h0 0)
    ∧ Meets (exec (.end_ 5 h0) tQ) (fun t => (t.queue 5).head == 1 && (t.queue 5).prog == 1 && (t.queue 5).crTail == 1) = true := by unfold Launches; decide +kernel

/-! Slots -/

/-- The ready module with an entry at the head of a slot of a class, from queue 5 of context 1, in flight. -/
def tHead (cls op body : Nat) : State :=
  let raw := put 0 8 op + put 16 16 0 + body
  { tLive with core.qm := {
      queues := [(5, { tq cls with fetch := 1, nextSeq := 1, reserved := 1, fl := [{ seq := 0, tag := 0, op := op, sig := 0, mode := 0, deadline := 0, prog := 0 }] })]
      owner := [(0, 1)], slots := [(slotKey ⟨cls, 0, 0⟩, 5)], eiq := [(slotKey ⟨cls, 0, 0⟩, [⟨5, 0, raw, 1, []⟩])] } }

/-- Its entry. -/
def tEnt (op body : Nat) : Entry := ⟨5, 0, put 0 8 op + put 16 16 0 + body, 1, []⟩

theorem test_markers : HeadOk (tHead 6 5 0) ⟨6, 0, 0⟩ 5 (fun _ => []) (tEnt 5 0) ∧ refMode (iWait (tEnt 5 0).raw) = 0 ∧ (tHead 6 5 0).seIssuing ⟨6, 0, 0⟩ = false
    ∧ Meets (exec (.dep ⟨6, 0, 0⟩) (tHead 6 5 0)) (fun t => (t.queue 5).dep == 1 && (mgetD t.core.qm.eiq (slotKey ⟨6, 0, 0⟩) []).isEmpty) = true := by
  unfold HeadOk; decide +kernel

theorem test_lbar : HeadOk (tHead 6 6 0) ⟨6, 0, 0⟩ 6 (fun _ => []) (tEnt 6 0) ∧ (tHead 6 6 0).slotBusy ⟨6, 0, 0⟩ (tEnt 6 0) = false
    ∧ Meets (exec (.lbar ⟨6, 0, 0⟩) (tHead 6 6 0)) (fun t => (t.queue 5).dep == 0 && (mgetD t.core.qm.eiq (slotKey ⟨6, 0, 0⟩) []).isEmpty) = true := by
  unfold HeadOk; decide +kernel

/-! Queues -/

theorem test_doorbells : BellOk tQ 5 ∧ (tQ.queue 5).rmod = 128 ∧ (tQ.queue 5).ahead 0 64 ≤ 2 ^ (tQ.queue 5).rsz
    ∧ Meets (exec (.dbTail 5 4 64) tQ) (fun t => (t.queue 5).tail == 64 && t.core.qm.doorbells == [{ q := 5, home := 0, tail := some 64 }] && t.counter (hifBase + 0x100) == 1) = true
    ∧ Meets (exec (.dbTail 5 4 65) tQ) (fun t => (t.queue 5).tail == 10 && t.flagBit qmgInt 0) = true
    ∧ Meets (exec (.dbCrhead 5 ⟨4, 3⟩) tQ) (fun t => t.core.qm.doorbells == [{ q := 5, home := 0, crHead := some 3 }]) = true
    ∧ Stays (exec (.dbCrhead 5 ⟨8, 3⟩) tQ) tQ = true ∧ Stays (exec (.dbTail 5 2 64) tQ) tQ = true := by unfold BellOk; decide +kernel

theorem test_tail_of_8 : Meets (exec (.dbTail 5 8 (64 + 3 * 2 ^ 32)) tQ) (fun t => (t.queue 5).tail == 64
    && t.core.qm.doorbells == [{ q := 5, home := 0, tail := some 64 }, { q := 5, home := 0, crHead := some 3 }]) = true := by decide +kernel

theorem test_bell_forwards : let d : Bell := { q := 5, home := 0, tail := some 10 }
    let h : Bell := { q := 5, home := 0, crHead := some 3 }
    let w := ({ tQ with core.qm.doorbells := [d] } : State).updQueue 5 (fun x => { x with st := .waiting, seen := 0 })
    let i := ({ tQ with core.qm.doorbells := [d] } : State).updQueue 5 (fun x => { x with st := .idle, slot := none, seen := 0 })
    BellOk w 5 ∧ BellOk i 5 ∧ (w.queue 5).ahead 0 10 ≤ (w.queue 5).ahead 0 10 ∧ ((w.queue 5).see 10).avail = true
    ∧ Meets (exec (.doorbellForward 5) { tQ with core.qm.doorbells := [h] }) (fun t => (t.queue 5).crHead == 3 && t.core.qm.doorbells.isEmpty) = true
    ∧ Meets (exec (.doorbellForward 5) w) (fun t => decide ((t.queue 5).st = .bound) && t.core.qm.doorbells.isEmpty) = true
    ∧ Meets (exec (.doorbellForward 5) i) (fun t => decide ((t.queue 5).st = .ready)) = true := by unfold BellOk; decide +kernel

theorem test_db_ctl : let h := tQ.updQueue 5 (fun x => { x with st := .halted })
    BellOk h 5 ∧ h.fenceOf 5 ≠ 1 ∧ Meets (exec (.dbCtlResume 5 ⟨4, 1⟩) h) (fun t => decide ((t.queue 5).st = .bound)) = true
    ∧ Meets (exec (.dbCtlAbort 5 ⟨8, 2⟩) h) (fun t => decide ((t.queue 5).st = .idle) && (t.queue 5).head == 10 && (t.queue 5).fetch == 10) = true := by
  unfold BellOk; decide +kernel

/-- Queue 5, of class 6, whose ring's first entry is a PIN of one tile unit. -/
def tRing : State :=
  let s : State := { tLive with core.qm := { queues := [(5, tq 6)], owner := [(0, 1)], slots := [(slotKey ⟨6, 0, 0⟩, 5)] } }
  { s with core.mmu.ctxs := [(0, { st := .active, tagFirst := 0, tagCount := 16 })], core.qm.queues := [(5, { tq 6 with desc := (tq 6).desc - put 128 12 1 })],
           core.mem.hbm := [(0, 0x36), (2, 0xFF), (3, 0xFF), (16, 1)] }

theorem test_dispatch : let x := tRing.queue 5
    let raw := leNat (tRing.vget x.ctx 0 64 false).1
    tRing.dispatching = true ∧ tRing.mayDispatch 5 = true ∧ x.cur = none ∧ x.avail = true ∧ x.slot = some ⟨6, 0, 0⟩
    ∧ tRing.vcheck x.ctx 0 64 false false = .none ∧ (tRing.vget x.ctx 0 64 false).2 = false ∧ firstBad (tRing.headerBad x raw) = none
    ∧ opControl (iOp raw) = false ∧ refMode (iWait raw) = 0 ∧ iTag raw = 0xFFFF ∧ (tRing.autoTag x.ctx).isSome = true ∧ x.crFree ≠ 0
    ∧ 1 < (mgetD tRing.core.pmc.kc (kcOf x 5) {}).count
    ∧ Meets (exec (.instructionDispatch 5) tRing) (fun t => (t.queue 5).fetch == 1 && (mgetD t.core.qm.eiq (slotKey ⟨6, 0, 0⟩) []).length == 1) = true := by
  decide +kernel

theorem test_dispatch_stalls : let e : Entry := ⟨5, 0, 0x36, 0, []⟩
    let s := { tRing with core.qm.eiq := [(slotKey ⟨6, 0, 0⟩, List.replicate (shareOf 6) e)] }
    Meets (exec (.instructionDispatch 5) s) (fun t => (t.queue 5).fetch == 1 && (t.queue 5).stalled.isSome) = true := by decide +kernel

theorem test_set_aside : let e : Entry := ⟨5, 0, 0x36, 0, []⟩
    let c := tRing.updQueue 5 (fun x => { x with stalled := some e })
    let a := { c with core.qm.eiq := [(slotKey ⟨6, 0, 0⟩, List.replicate (shareOf 6) e)] }
    let b := tRing.updQueue 5 (fun x => { x with aside := some e })
    a.dispatching = true ∧ (a.queue 5).stalled = some e ∧ a.shareFull 5 = true ∧ c.shareFull 5 = false ∧ Stays (exec (.setAside 5) c) c = true
    ∧ (b.queue 5).aside = some e ∧ (b.queue 5).slot = some ⟨6, 0, 0⟩
    ∧ Meets (exec (.setAside 5) a) (fun t => (t.queue 5).aside == some e && t.counter (qmgBase + 0x110) == 1) = true
    ∧ Meets (exec (.setAsideWrite 5) b) (fun t => (mgetD t.core.qm.eiq (slotKey ⟨6, 0, 0⟩) []) == [e]) = true := by decide +kernel

theorem test_bind : let r : SlotRef := ⟨0, 63, 0⟩
    let s := tQ.updQueue 5 (fun x => { x with st := .ready, slot := none })
    s.live = true ∧ s.mayBind 5 r = true ∧ mget s.core.saved 5 = none
    ∧ Meets (exec (.queueBind 5 r) s) (fun t => (t.queue 5).slot == some r && mget t.core.qm.slots (slotKey r) == some 5 && (t.queue 5).home == 3) = true := by
  decide +kernel

theorem test_idle_unbind : let s := tQ.updQueue 5 (fun x => { x with st := .idle, idleFt := 1 })
    (s.queue 5).slot = some ⟨0, 0, 0⟩ ∧ Meets (exec (.queueIdleUnbind 5) { s with ft.ns := 10001 }) (fun t => (t.queue 5).slot == none) = true
    ∧ Stays (exec (.queueIdleUnbind 5) { s with ft.ns := 10000 }) { s with ft.ns := 10000 } = true := by decide +kernel

/-! Flags, waits, QMG commands -/

theorem test_flag_write : mhas tQ.core.qm.owner (255 / 256) = true ∧ mhas tQ.core.qm.owner (256 / 256) = false
    ∧ Meets (exec (.flagHostWrite 255 (2 ^ 62 + 2 ^ 63)) tQ) (fun t => mgetD t.core.qm.upd 255 [] == [⟨true, none⟩, ⟨false, none⟩]) = true
    ∧ Stays (exec (.flagHostWrite 256 (2 ^ 62)) tQ) tQ = true := by decide +kernel

/-- The spec's own case (R155): a host clear that loses to queue 96's set at COUNT 41. -/
def tRace : State := { tQ with core.qm.flags := [(9, { state := true, count := 41 })], core.qm.upd := [(9, [⟨false, none⟩, ⟨true, some 96⟩])] }

theorem test_set_beats_clear : (∀ w ∈ tRace.core.qm.waiters, w.flag ≠ 9) ∧ (mget tRace.core.qm.upd 9).isSome = true
    ∧ Meets (exec (.flagUpdateCycle 9) tRace) (fun t => t.flag 9 == ⟨true, true, 96, 42⟩ && mget t.core.qm.upd 9 == none) = true := by decide +kernel

theorem test_take : let w : Waiter := ⟨9, 2, 0, 5, none, 0⟩
    let s := { tQ with core.qm.waiters := [w], core.qm.upd := [(9, [⟨true, none⟩])] }
    s.core.qm.waiters = [w] ∧ Meets (exec (.flagUpdateCycle 9) s) (fun t => !(t.flag 9).state && (t.flag 9).count == 1 && t.core.qm.notes.contains 5) = true := by
  decide +kernel

theorem test_notify_complete : let s := { tQ.updQueue 5 (fun x => { x with st := .waiting }) with core.qm.notes := [5] }
    let d := tQ.updQueue 5 (fun x => { x with fl := [{ seq := 0, tag := 0, op := 0x36, sig := 0, mode := 0, deadline := 0, prog := 0, done := true }] })
    5 ∈ s.core.qm.notes ∧ Meets (exec (.notify 5) s) (fun t => decide ((t.queue 5).st = .bound) && t.core.qm.notes.isEmpty) = true
    ∧ ((d.queue 5).inst 0).isSome = true ∧ Meets (exec (.instructionComplete 5 0) d) (fun t => ((t.queue 5).inst 0).isNone) = true := by decide +kernel

theorem test_wait_timeout : let h : Hdr := { wait := 5 + 2 ^ 28 }
    let w : Waiter := ⟨5, 1, 0, 5, none, 0⟩
    let s := { tQ.updQueue 5 (fun x => { x with st := .waiting, cur := some { raw := ctlWord 1 h (bodyPut 16 4 7), ft := 0, waitFt := some 0 } }) with core.qm.waiters := [w] }
    s.timeoutOf w = 7 ∧ (s.queue 5).crFree ≠ 0 ∧ (s.queue 5).cont = false ∧ Stays (exec (.waitTimeout 5 none) { s with ft.ns := 447 }) { s with ft.ns := 447 } = true
    ∧ Meets (exec (.waitTimeout 5 none) { s with ft.ns := 448 }) (fun t => decide ((t.queue 5).st = .error) && (t.queue 5).fetch == 1
        && t.counter (qmgBase + 0x128) == 1) = true := by decide +kernel

/-- A state with the arguments and data words of a command block. -/
def args (s : State) (base a0 a1 : Nat) (data : List Nat) : State :=
  (data.zipIdx).foldl (fun s p => s.setReg (fldData base p.2) p.1) ((s.setReg (fldArg base 0) a0).setReg (fldArg base 1) a1)

theorem test_qmg_busy : let s := { tQ with core.cmds := [(0, { busy := true })] }
    s.cmdBusy 0 = true ∧ Stays (exec .cqCreate s) s = true ∧ Stays (exec .errRing s) s = true := by decide +kernel

/-- CQ_CREATE of queue 32767 with a valid descriptor of class 4 in context 1. -/
def tCreate : State := args tQ qmgBase 32767 0 [0, 0, 0, 0, 1 + 6 * 2 ^ 16 + 7 * 2 ^ 24, 4]

theorem test_cq_create : tCreate.dispatching = true ∧ tCreate.cmdBusy 0 = false ∧ bits (tCreate.arg qmgBase 0) 0 15 = 32767
    ∧ (tCreate.queue 32767).st = .disabled ∧ tCreate.descBad (tCreate.cmdData qmgBase 16) = false ∧ tCreate.descAbsent (tCreate.cmdData qmgBase 16) = false
    ∧ Meets (exec .cqCreate tCreate) (fun t => decide ((t.queue 32767).st = .idle) && (mgetD t.core.cmds 0 {}).result == 0 && t.flagBit qmgInt 3) = true := by
  decide +kernel

theorem test_cq_bad : (args tCreate qmgBase 32767 0 [1]).descBad ((args tCreate qmgBase 32767 0 [1]).cmdData qmgBase 16) = true
    ∧ Meets (exec .cqCreate (args tCreate qmgBase 32767 0 [1])) (fun t => decide ((t.queue 32767).st = .disabled) && (mgetD t.core.cmds 0 {}).result == 0x8C) = true
    ∧ Meets (exec .cqModify (args tCreate qmgBase 32767 0 [1])) (fun t => (mgetD t.core.cmds 0 {}).result == 0x8C) = true := by decide +kernel

theorem test_cq_modify : let s := (args tCreate qmgBase 5 0 []).updQueue 5 (fun x => { x with st := .idle, slot := none })
    (s.queue 5).st = .idle ∧ (s.queue 5).slot = none ∧ s.descBad (s.cmdData qmgBase 16) = false
    ∧ Meets (exec .cqModify s) (fun t => (t.queue 5).cls == 4 && (t.queue 5).tail == 10) = true := by decide +kernel

theorem test_cq_destroy_read : let s := args tQ qmgBase 5 0 []
    (s.queue 5).st ≠ .disabled ∧ (s.queue 5).fl = [] ∧ s.fenceOf 5 ≠ 1 ∧ Meets (exec .cqDestroy s) (fun t => decide ((t.queue 5).st = .disabled)) = true
    ∧ Meets (exec .cqRead s) (fun t => t.reg (fldData qmgBase 4) == 1 + 6 * 2 ^ 16 + 7 * 2 ^ 24 && (mgetD t.core.cmds 0 {}).op == 4) = true := by decide +kernel

theorem test_flag_blocks : let s := args tQ qmgBase 1 0 []
    let f := args tQ qmgBase 0 0 []
    s.ctxUsable 1 = true ∧ firstFree 4096 (s.core.qm.owner.map (·.1)) = some 1
    ∧ Meets (exec .flagAlloc s) (fun t => mget t.core.qm.owner 1 == some 1 && t.reg (fldArg qmgBase 1) == 1) = true
    ∧ mhas f.core.qm.owner 0 = true ∧ Meets (exec .flagFree f) (fun t => mget t.core.qm.owner 0 == none) = true := by decide +kernel

theorem test_tag_err : let s := args tQ qmgBase (1 + 100 * 2 ^ 16) (65536 - 100) []
    let r := args tQ qmgBase 1 (16 + 5 * 4096) []
    s.ctxUsable 1 = true ∧ (∀ e ∈ s.core.mmu.ctxs, e.1 ≠ 1 → e.2.tagCount = 0) ∧ s.tagsOf 1 = []
    ∧ Meets (exec .tagRange s) (fun t => (t.ctx 1).tagFirst == 100 && (t.ctx 1).tagCount == 65436) = true
    ∧ Meets (exec .errRing r) (fun t => (t.ctx 1).errSet && (t.ctx 1).errN == 16 && (t.ctx 1).errBase == 5) = true := by decide +kernel

/-! Contexts, translation, faults -/

theorem test_ctx_create : let s := args tQ mmuBase 4095 0 [256, 7]
    s.cmdCtx = 4095 ∧ (s.ctx 4095).st = .free ∧ s.entryBad 4095 s.cmdEntry = false
    ∧ Meets (exec .ctxCreate s) (fun t => decide ((t.ctx 4095).st = .active) && (mgetD t.core.cmds 1 {}).result == 0) = true
    ∧ Meets (exec .ctxCreate (args tQ mmuBase 0 0 [])) (fun t => (mgetD t.core.cmds 1 {}).result == 0x8C) = true := by decide +kernel

theorem test_ctx_modify : let s := args tQ mmuBase 1 0 [256, 7]
    s.ctxUsable 1 = true ∧ s.entryBad 1 s.cmdEntry = false ∧ bits (entryKept s.cmdEntry) 32 20 ≠ bits (s.ctx 1).entry 32 20
    ∧ Meets (exec .ctxModify s) (fun t => (mgetD t.core.cmds 1 {}).result == 0x8C && decide (t.ctx 1 = s.ctx 1)) = true
    ∧ Meets (exec .ctxModify (s.updCtx 1 (fun x => { x with st := .suspended }))) (fun t => (t.ctx 1).pasid == 7) = true
    ∧ Meets (exec .ctxRead s) (fun t => t.reg (fldData mmuBase 0) == 1 && t.reg (fldData mmuBase 17) == 16) = true := by decide +kernel

theorem test_ctx_kill : let s := args tQ mmuBase 1 0 []
    let k := args (tLive.updCtx 1 (fun x => { x with st := .killed })) mmuBase 1 0 []
    s.ctxUsable 1 = true ∧ s.queuesOf 1 = [5] ∧ Meets (exec .ctxKill s) (fun t => decide ((t.ctx 1).st = .killed) && decide ((t.queue 5).st = .disabled)
        && t.core.qm.owner.isEmpty && t.flagBit mmuInt 1) = true
    ∧ (k.ctx 1).infl = 0 ∧ k.recordsLeft 1 = 0 ∧ Meets (exec .ctxDestroy k) (fun t => decide ((t.ctx 1).st = .free)) = true
    ∧ Meets (exec .ctxDestroy s) (fun t => (mgetD t.core.cmds 1 {}).result == 0x8C) = true := by decide +kernel

theorem test_preempt : let e := args tLive mmuBase (1 + 2 ^ 16) 0 []
    let m := args { tHead 4 0x18 0 with core.mvus := [(0, { vecs := [(0, ⟨1, 32, [], false⟩)] })] } mmuBase (1 + 2 ^ 16) 0 []
    e.boundOf 1 = [] ∧ Meets (exec .preempt e) (fun t => decide ((t.ctx 1).st = .suspended) && t.flagBit mmuInt 2) = true
    ∧ m.boundOf 1 = [(5, ⟨4, 0, 0⟩)] ∧ (m.queue 5).slot = some ⟨4, 0, 0⟩
    ∧ Meets (exec .preempt m) (fun t => decide ((t.queue 5).st = .preempted) && (t.queue 5).saved.length == 1 && decide (t.mvu 0 = {})) = true := by
  decide +kernel

theorem test_resume : let s := (args tQ mmuBase 1 0 []).updCtx 1 (fun x => { x with st := .suspended })
    let p := s.updQueue 5 (fun x => { x with st := .preempted, slot := none })
    (p.queue 5).ctx = 1 ∧ Meets (exec .resume p) (fun t => decide ((t.ctx 1).st = .active) && decide ((t.queue 5).st = .ready)) = true
    ∧ Meets (exec .resume (args tQ mmuBase 1 0 [])) (fun t => (mgetD t.core.cmds 1 {}).result == 0x8C) = true := by decide +kernel

theorem test_tlb_inv : let s := args { tLive with core.mmu.tlb := [⟨1, 0, 16384, 1, 0⟩, ⟨1, 1, 16384, 1, 0⟩] } mmuBase (1 + 2 ^ 32) (4 * 4096) []
    s.cmdBusy 1 = false ∧ Meets (exec .tlbInv s) (fun t => t.core.mmu.tlb == [⟨1, 0, 16384, 1, 0⟩]) = true := by decide +kernel

theorem test_walk_misses : ((1 : Nat) ≠ 0) ∧ (tLive.ctx 1).st ≠ .free ∧ (match tLive.walk 1 0 with | .error _ => true | _ => false) = true
    ∧ Meets (exec (.tableWalk ⟨1, 256⟩ 0) tLive) (fun t => t.core.mmu == tLive.core.mmu) = true := by decide +kernel

/-- Instruction 0 of queue 5 stopped at fault 1023 since 0 ns, in a context with a fault timeout of 2 units. -/
def tFault : State :=
  { (tHead 4 0x18 0).updQueue 5 (fun x => { x with fl := x.fl.map (fun i => { i with fid := some 1023 }) }) with
    core.mmu := { ctxs := [(1, { st := .active, entry := put 288 32 2 })],
                  faults := [(1023, { ctx := 1, addr := 0, cause := 1, write := false, ft := 0, stopped := [(5, 0)] })] } }

theorem test_fault_resolve : let s := args tFault mmuBase 1023 0 []
    (mget s.core.mmu.faults 1023).isSome = true ∧ s.cmdBusy 1 = false ∧ bits (s.arg mmuBase 0) 0 10 = 1023 ∧ (s.arg mmuBase 0).testBit 16 = false
    ∧ Meets (exec .faultResolve s) (fun t => t.core.mmu.faults.isEmpty && ((t.queue 5).inst 0).map (·.fid) == some none) = true := by decide +kernel

theorem test_fault_timeout : (tFault.ctx 1).faultTmo = 2 ∧ tFault.stoppedAt 1023 5 0 = true
    ∧ tFault.core.rce.buckets = [] ∧ tFault.core.rce.slots = [] ∧ tFault.core.rce.gathers = [] ∧ tFault.jobOf 5 0 = none ∧ tFault.closingOf 5 0 = []
    ∧ Stays (exec (.faultTimeout 1023) { tFault with ft.ns := 127 }) { tFault with ft.ns := 127 } = true
    ∧ Meets (exec (.faultTimeout 1023) { tFault with ft.ns := 128 }) (fun t => t.core.mmu.faults.isEmpty
        && ((t.queue 5).inst 0).any (fun i => i.done && mhas i.outs 7)) = true := by decide +kernel

/-- A context whose table maps 1 GiB at 0 to HBM, or by the pool to flash, on stack 0. -/
def tMap (pool : Bool) : State :=
  { tLive with
    core.mmu.ctxs := [(1, { st := .active, entry := put 76 44 1 + put 160 32 8, tagFirst := 0, tagCount := 16 })]
    core.mem.hbm := [(0x1000, 1), (0x1001, 0x20), (0x2000, 1), (0x2001, 0x30), (0x3000, 7)] ++ (if pool then [(0x3001, 6)] else [])
    core.mem.frames := [(0, 1, 1, 1)] }

theorem test_walk_caches : (match (tMap false).walk 1 0 with | .ok (l, e) => decide (l = 2 ∧ e = 7) | _ => false) = true
    ∧ Meets (exec (.tableWalk ⟨1, 256⟩ (2 ^ 30 - 1)) (tMap false)) (fun t => t.core.mmu.tlb.length == 2 && t.core.mmu.tlb.contains ⟨1, 0, 2 ^ 30, 7, unitTlb 256⟩ && t.counter (mmuBase + 0x100) == 1) = true := by
  decide +kernel

theorem test_walk_hits : let e : TlbEntry := ⟨1, 0, 16384, 1, tLive.tlbQuarter 256⟩
    let s := { tLive with core.mmu.tlb := [e] }
    s.tlbHit (s.tlbQuarter 256) 1 5 = some e
    ∧ Meets (exec (.tableWalk ⟨1, 256⟩ 5) s) (fun t => t.core.mmu.tlb.contains { e with tlb := unitTlb 256 } && t.core.mmu.tlb.length == 2) = true := by decide +kernel

theorem test_ats : let s : State := { tLive with core.mmu := { ctxs := [(1, { st := .active, entry := put 9 1 1 })], ats := [⟨1, 5, 0⟩], priAlloc := 1 } }
    s.live = true ∧ (s.ctx 1).flag 1 = true ∧ (s.core.mmu.ats.find? (fun r => r.ctx = 1 && r.page = 5)).isSome = true
    ∧ Meets (exec (.atsCompletion 1 (5 * 4096) (9 * 4096) true true) s) (fun t => t.core.mmu.atc == [⟨0, 5, 9, true⟩] && t.core.mmu.ats.isEmpty) = true
    ∧ Meets (exec (.atsCompletion 1 (5 * 4096) 0 true false) s) (fun t => t.core.mmu.prg == [⟨1, 5, true, 0, 0, 0⟩]) = true := by decide +kernel

/-- One page request outstanding since 0 ns, with a fault timeout of 2 units. -/
def tPri : State := { tLive with core.mmu := { ctxs := [(1, { st := .active, entry := put 288 32 2 })], prg := [⟨1, 5, true, 511, 0, 0⟩], atc := [⟨0, 9, 9, true⟩] } }

theorem test_pri : (tPri.ctx 1).faultTmo = 2 ∧ tPri.core.mmu.killRecs = [] ∧ Meets (exec (.prgResponse 511 0 0) tPri) (fun t => t.core.mmu.prg.isEmpty && t.core.mmu.refused.isEmpty) = true
    ∧ Meets (exec (.prgResponse 511 0 1) tPri) (fun t => t.core.mmu.refused == [(1, 5, 6)]) = true
    ∧ Meets (exec (.priTimeout 511) { tPri with ft.ns := 128 }) (fun t => t.core.mmu.refused == [(1, 5, 6)]) = true
    ∧ Meets (exec .priDisable tPri) (fun t => !t.core.mmu.priOn && t.core.mmu.refused == [(1, 5, 6)]) = true
    ∧ Meets (exec (.atsInvalidation 0 9 1) tPri) (fun t => t.core.mmu.atc.isEmpty && t.core.mmu.invDone == 1) = true := by decide +kernel

theorem test_deadline : let i : InFlight := { seq := 0, tag := 0, op := 0x36, sig := 0, mode := 0, deadline := 64, prog := 0 }
    let s := { tQ.updQueue 5 (fun x => { x with fl := [i], desc := x.desc + put 202 1 1 }) with ft.ns := 64 }
    (s.queue 5).lateAbort = true ∧ (s.queue 5).inst 0 = some i ∧ s.jobOf 5 0 = none ∧ s.closingOf 5 0 = [] ∧ s.core.rce.gathers = []
    ∧ Stays (exec (.deadlineAbort 5 0) { s with ft.ns := 63 }) { s with ft.ns := 63 } = true
    ∧ Meets (exec (.deadlineAbort 5 0) s) (fun t => (t.queue 5).inst 0 |>.any (fun k => k.done && mhas k.outs 3)) = true := by decide +kernel

theorem test_fence_dump : Meets (exec .fenceDump (args tQ mmuBase 0 0 [])) (fun t => (mgetD t.core.cmds 1 {}).result == 0x8C) = true
    ∧ Meets (exec .fenceDump (args { tQ with fuse.grade := 3, fuse.opePresent := 2 ^ 48 - 1 } mmuBase 48 0 [])) (fun t => (mgetD t.core.cmds 1 {}).result == 0x86) = true
    ∧ Meets (exec .fenceDump (args (tQ.setOpe 0 { parts := [(0, { fence := 1, fenceCtx := 1 })] }) mmuBase 0 0 [])) (fun t => (mgetD t.core.cmds 1 {}).result == 0) = true := by
  decide +kernel

/-! Memory, pool, flash -/

theorem test_memory : memWf (tMap false).core.mem.hbm = true
    ∧ memWf ((tMap false).hbmWrite 0x2000 [0, 5]).core.mem.hbm = true ∧ memRead ((tMap false).hbmWrite 0x2000 [0, 5]).core.mem.hbm 0x2001 = 5
    ∧ (({ tLive with core.mem.badLines := [1, 2] } : State).hbmWrite 64 (List.replicate 64 0)).core.mem.badLines = [2] := by decide +kernel

theorem test_pool_miss : (tMap true).dispatching = true ∧ (match (tMap true).xlate 1 20000 false false with | .ok l => decide (poolKey l = some (2, 0)) | _ => false) = true
    ∧ mget (tMap true).core.mem.pool 2 = none ∧ (tMap true).flashRoom = true ∧ (tMap true).residentOf 1 < (tMap true).resQuota 1
    ∧ firstFree ((tMap true).poolTus 0) ((tMap true).poolUsed 0) = some 0
    ∧ Meets (exec (.poolMiss 1 20000 false) (tMap true)) (fun t => (mget t.core.mem.pool 2).any (fun x => x.filling && x.index == 0 && x.owner == 1)
        && t.counter (memBase 0 + 0x118) == 1) = true := by decide +kernel

/-- A pool TU of stack 0, home TU 1. -/
def tTu : PoolTu := { t1 := true, home := 1, stack := 0, owner := 1, index := 3, resident := true }

theorem test_pool_fill : let s := { tMap true with core.mem.pool := [(2, { tTu with resident := false, filling := true })] }
    s.live = true ∧ (mget s.core.mem.pool 2).isSome = true ∧ 1 ∉ s.core.mem.readQ ∧ s.flashMarked (1 * tuBytes) = false ∧ memWf s.core.mem.hbm = true := by
  decide +kernel

theorem test_evictor : let s := { tMap true with core.mem.pool := [(2, tTu)], core.mem.wm := [(0, 128, 128)] }
    s.dispatching = true ∧ tTu.candidate = true ∧ s.stackPresent 0 = true ∧ s.poolFree 0 < (s.wm 0).1 ∧ s.poolFree 0 + s.evicting 0 < (s.wm 0).2
    ∧ Meets (exec (.evictorRun 0) s) (fun t => (mget t.core.mem.pool 2).isNone) = true
    ∧ s.core.mem.flashRo = false ∧ ({ tTu with dirty := true } : PoolTu).candidate = true
    ∧ Stays (exec (.evictorRun 0) { s with core.mem.wm := [(0, 127, 127)] }) { s with core.mem.wm := [(0, 127, 127)] } = true := by decide +kernel

/-- At work above LOW: the eviction that was abandoned is tried again until HIGH (R220). -/
theorem test_evictor_goes_on : let s := { tMap true with core.mem.pool := [(2, tTu)], core.mem.wm := [(0, 127, 128)], core.mem.evOn := [0] }
    (s.wm 0).1 ≤ s.poolFree 0 ∧ s.poolFree 0 + s.evicting 0 < (s.wm 0).2 ∧ Meets (exec (.evictorRun 0) s) (fun t => (mget t.core.mem.pool 2).isNone) = true := by
  decide +kernel

/-- A write that waits for a fill. -/
theorem test_fill_write : let p : PoolTu := { tTu with resident := false, filling := true, writes := [(16383, [9])] }
    let s := { tMap true with core.mem.pool := [(2, p)] }
    mget s.core.mem.pool 2 = some p ∧ p.writes = [(16383, [9])] ∧ 16383 + 1 ≤ tuBytes := by decide +kernel

theorem test_writeback : let s (p : PoolTu) := { tMap true with core.mem.pool := [(2, p)] }
    Meets (exec (.writebackAck 2) (s { tTu with wb := true, evict := true })) (fun t => (mget t.core.mem.pool 2).isNone) = true
    ∧ Meets (exec (.writebackAck 2) (s { tTu with wb := true, evict := true, again := true })) (fun t => mget t.core.mem.pool 2 == some tTu) = true
    ∧ Meets (exec (.writebackRefused 2) (s { tTu with wb := true, evict := true, refused := true })) (fun t =>
        t.flagBit (memInt 0) 2 && (mget t.core.mem.pool 2).any (·.imagePin)) = true
    ∧ Meets (exec (.writebackRefused 2) (s { tTu with t1 := false, wb := true, evict := true, old := [7] })) (fun t =>
        t.core.mem.host == [(1, 7)] && (mget t.core.mem.pool 2).any (·.imagePin)) = true := by decide +kernel

theorem test_flash_read : let s := { tLive with core.mem.readQ := [1953124999] }
    s.live = true ∧ 1953124999 < s.flashTus
    ∧ Meets (exec (.flashReadDone 1953124999 true) s) (fun t => smem 1953124999 t.core.mem.marked && t.flagBit ftlInt 0 && t.core.mem.readQ.isEmpty) = true
    ∧ Meets (exec (.flashReadDone 1953124999 false) s) (fun t => t.core.mem.marked.isEmpty && t.core.mem.readQ.isEmpty) = true := by decide +kernel

theorem test_flash_recovered : let s := { tLive with core.mem.progQ := [(4, [7])], core.mem.recovering := [4], core.mem.marked := [4] }
    s.live = true ∧ smem 4 s.core.mem.recovering = true
    ∧ s.core.mem.progQ = [(4, [7])]
    ∧ Meets (exec .ftlReadOnly tLive) (fun t => t.core.mem.flashRo && t.flagBit ftlInt 3) = true := by decide +kernel

theorem test_discard : let s := (({ tLive with core.mem.flash := [(16383, 1), (16384, 2), (32768, 3)], core.mem.marked := [1] } : State).setReg (fldFtlArg 0) 1).setReg (fldFtlArg 1) 1
    s.dispatching = true ∧ s.cmdBusy 4 = false ∧ s.reg (fldFtlArg 0) + s.reg (fldFtlArg 1) ≤ s.flashTus
    ∧ Meets (exec .discard s) (fun t => t.core.mem.flash == [(16383, 1), (32768, 3)] && t.core.mem.marked.isEmpty) = true
    ∧ Meets (exec .discard (s.setReg (fldFtlArg 1) 1953125000)) (fun t => (mgetD t.core.cmds 4 {}).result == 0x8C) = true
    ∧ Meets (exec .recover tLive) (fun t => (mgetD t.core.cmds 4 {}).result == 0 && !(mgetD t.core.cmds 4 {}).busy) = true := by decide +kernel

/-! Host attachment -/

theorem test_link : let d := { tLive with core.host := {} }
    tLive.timing = true ∧ d.core.boot.outs = true
    ∧ Meets (exec .hostLinkDown { tLive with core.host.cacheOut := [⟨none, 0, [], 0⟩] }) (fun t => !t.core.host.linkUp && t.core.host.cacheOut.isEmpty && t.flagBit hifInt 3) = true
    ∧ Stays (exec .hostLinkDown d) d = true
    ∧ Meets (exec (.hostLinkUp 4 16 true false true true true) d) (fun t => t.core.host.linkUp && t.core.host.rate == 4 && t.core.host.cxl && t.flagBit hifInt 2) = true
    ∧ Meets (exec (.hostLinkUp 1 1 false true true true true) d) (fun t => t.core.host.linkUp && !t.core.host.cxl) = true
    ∧ Meets (exec .ideIntegrityFailure tLive) (fun t => t.flagBit hifInt 4) = true ∧ Meets (exec .hostSnoop tLive) (fun t => t.core.host.snoops == 1) = true := by
  decide +kernel

theorem test_record_ack : let s := { tLive with core.host.cacheOut := [⟨some 2047, 0, [], 0⟩], core.mmu.invs := [{ lines := 1 }, { lines := 1 }, { lines := 2 }] }
    s.live = true ∧ s.core.irq.fmask = false ∧ smem 2047 s.core.irq.masked = false ∧ mhas s.core.irq.busy 2047 = false
    ∧ Meets (exec (.cxlCacheCompletion 1) s) (fun t => t.core.host.cacheOut.isEmpty && mgetD t.core.irq.sent 2047 0 == 1 && t.core.mmu.invDone == 2 && t.core.mmu.invs == [{ lines := 1 }]) = true := by
  decide +kernel

theorem test_msix : let m := { tLive with core.irq.masked := [2047] }
    let b := { tLive with core.irq := { busy := [(2047, 9)], again := [2047] } }
    (m.sendVector 2047).core.irq.pba = [2047] ∧ Meets (exec (.msixUnmask [] false) { tLive with core.irq := { masked := [2047], pba := [2047] } }) (fun t =>
        t.core.irq.pba.isEmpty && mgetD t.core.irq.sent 2047 0 == 1) = true
    ∧ Stays (exec (.msixModExpiry 2047) { b with ft.ns := 8 }) { b with ft.ns := 8 } = true
    ∧ Meets (exec (.msixModExpiry 2047) { b with ft.ns := 9 }) (fun t => mgetD t.core.irq.sent 2047 0 == 1 && t.core.irq.again.isEmpty) = true
    ∧ Meets (exec .flr (m.setReg fldModUsec 5)) (fun t => t.core.irq.masked.isEmpty && t.reg fldModUsec == 0 && decide (t.core.mmu.ctxs = tLive.core.mmu.ctxs)) = true := by
  decide +kernel

/-- Stack 0 with a window of one unit from its direct region, committed. -/
def tWin : State :=
  { tLive with
    core.mem.frames := [(0, 1, 128, 1)]
    core.host := { linkUp := true, memOn := true, committed := true, winSize := 1, win := (List.range 128).map (fun i => 2097152 * (i + 1)) } }

theorem test_window : tWin.live = true ∧ tWin.winDpa (64 / 64 * 64) = some 2097216 ∧ memWf tWin.core.mem.hbm = true
    ∧ Meets (exec (.hostMemWrite 64 (List.replicate 63 0 ++ [9]) false) tWin) (fun t => t.core.mem.hbm == [(2097279, 9)]
        && Meets (exec (.hostMemRead 64 false false) t) (fun u => u.core.host.rdData == List.replicate 63 0 ++ [9] && !u.core.host.rdBad)) = true
    ∧ Meets (exec (.hostMemWrite 64 (List.replicate 64 0) true) tWin) (fun t => t.hbmPoison 2097216 64) = true
    ∧ Meets (exec (.hostMemRead 64 true true) tWin) (fun t => mget t.core.host.filter 32769 == some true) = true := by decide +kernel

theorem test_hdm_commit : let s := ({ tWin with core.host := { linkUp := true, memOn := true } } : State).setReg fldWinReq 2
    let fs := (List.range 129).map (fun i => 2097152 * i)
    s.core.host.committed = false ∧ Meets (exec (.hdmCommit fs) s) (fun t => t.core.host.winSize == 1 && t.core.host.win.length == 128 && t.core.host.win.head? == some 2097152) = true
    ∧ Stays (exec (.hdmCommit fs) tWin) tWin = true := by decide +kernel

theorem test_birsp : let s (b : Bool) : State := { tWin with core.host.filter := [(7, true)], core.host.bisnp := [(7, b)] }
    (∀ e ∈ (s true).core.qm.queues, e.2.held = [])
    ∧ Meets (exec (.birsp 7 false) (s true)) (fun t => t.core.host.filter.isEmpty && t.core.host.bisnp.isEmpty) = true
    ∧ Meets (exec (.birsp 7 true) (s false)) (fun t => mget t.core.host.filter 7 == some false) = true := by decide +kernel

theorem test_birsp_waiting : let s : State := { tWin with core.host := { tWin.core.host with filter := [(7, true)], bisnp := [(7, true)], rdWait := [(2097216, true)] } }
    mget s.core.host.bisnp 7 = some true ∧ (∀ e ∈ s.core.mmu.ctxs, e.2.errWait = []) ∧ mhas s.core.host.filter 7 = true ∧ 7 / 2 ^ 31 = 2097216 / 2 ^ 37
    ∧ (s.filterOf (2097216 / 2 ^ 37)).length ≤ filterCap
    ∧ Meets (exec (.birsp 7 false) s) (fun t => t.core.host.rdWait.isEmpty && mget t.core.host.filter 32769 == some true) = true := by decide +kernel

theorem test_mailbox : let r := { tLive with core.boot.phase := .recovery }
    Meets (exec .getTimestamp tLive) (fun t => t.core.host.mbox == some .success) = true
    ∧ Meets (exec .getTimestamp r) (fun t => t.core.host.mbox == some .unsupported) = true
    ∧ Meets (exec (.transferFw 0 [1, 2]) tLive) (fun t => t.core.sec.staged == [1, 2] && t.core.sec.path == 1) = true
    ∧ Meets (exec .activateFw tLive) (fun t => t.core.host.mbox == some .invalidInput) = true
    ∧ Meets (exec .activateFw { tLive with core.sec.path := 2 }) (fun t => t.core.host.mbox == some .busy) = true := by decide +kernel

theorem test_pldm_update : let u (v : Bool) : State := { tLive with core.sec.path := 2, core.sec.staged := [1, 2], core.sec.verified := v }
    Meets (exec (.pldmFirmwareUpdate 0 0 []) tLive) (fun t => t.core.sec.path == 2 && t.core.pwr.mctp == some .success) = true
    ∧ Meets (exec (.pldmFirmwareUpdate 0 0 []) (u false)) (fun t => t.core.pwr.mctp == some .alreadyInUpdateMode) = true
    ∧ Meets (exec (.pldmFirmwareUpdate 2 0 []) (u true)) (fun t => !t.core.sec.verified && t.core.pwr.mctp == some (.verify 2)) = true
    ∧ Meets (exec (.pldmFirmwareUpdate 3 0 []) (u true)) (fun t => t.core.sec.bootArea == [1, 2] && t.core.sec.path == 0) = true
    ∧ Stays (exec (.pldmFirmwareUpdate 3 0 []) (u false)) (u false) = true
    ∧ Meets (exec (.activateFirmware true) tLive) (fun t => t.core.pwr.mctp == some .activationNotSupported) = true
    ∧ Meets (exec (.activateFirmware false) tLive) (fun t => t.core.pwr.mctp == some .success) = true := by decide +kernel

/-- A module with a reserved block of indices and an empty measurement log. -/
def tSec : State := { tLive with core.sec := { next := 255, blkEnd := 256, idxRec := 256 } }

theorem test_identity : tSec.bedrockOn = true ∧ isPath 1 = true ∧ numAt (List.replicate 36 (0 : Byte)) 33 3 = 0 ∧ tSec.exhausted = false ∧ tSec.core.sec.queue = []
    ∧ tSec.core.sec.next < tSec.core.sec.blkEnd ∧ tSec.logNamed (numAt [0, 0, 0, 0] 0 2) (numAt [0, 0, 0, 0] 2 2) 512 = true
    ∧ ({ tSec with core.sec.next := 2 ^ 40 - 256 } : State).exhausted = true
    ∧ Meets (exec (.cmaSpdmRequest []) { tSec with core.sec.next := 2 ^ 40 - 256 }) (fun t => t.core.sec.next == 2 ^ 40 - 256 && t.flagBit secInt 3) = true := by
  decide +kernel

theorem test_index_block : let w := { tSec with core.sec.writing := true }
    tSec.core.sec.blkEnd ≤ tSec.core.sec.next + 64 ∧ tSec.core.sec.idxRec + 256 ≤ 2 ^ 40
    ∧ Meets (exec .indexReserve tSec) (fun t => t.core.sec.writing) = true
    ∧ Meets (exec .indexRecordWritten w) (fun t => t.core.sec.blkEnd == 512 && t.core.sec.idxRec == 512 && !t.core.sec.writing) = true := by decide +kernel

theorem test_sec_commands : let e (a : Nat) : State := tSec.setReg ⟨secBase + 0x28, 0, 64, 0⟩ a
    tSec.cmdBusy 3 = false ∧ tSec.logNamed 0 0 64 = true ∧ tSec.logNamed 1 0 64 = false
    ∧ Meets (exec .secGetLog (e 1)) (fun t => (mgetD t.core.cmds 3 {}).result == 0x8C) = true
    ∧ Meets (exec .extend (e 3)) (fun t => (mgetD t.core.cmds 3 {}).result == 0x8C) = true
    ∧ Meets (exec .secReset (e 0x52535400)) (fun t => t.core.boot.cause == 5 && decide (t.core.qm = {})) = true
    ∧ Meets (exec .secReset tSec) (fun t => (mgetD t.core.cmds 3 {}).result == 0x8C) = true := by decide +kernel

theorem test_extend_logs : let s := tSec.setReg ⟨secBase + 0x28, 0, 64, 0⟩ 7
    s.core.sec.log.length < logHost ∧ Meets (exec .extend s) (fun t => t.core.sec.log.length == 1 && (mgetD t.core.cmds 3 {}).result == 0) = true
    ∧ Meets (exec .extend { s with core.sec.log := List.replicate 992 ⟨4, 0, []⟩ }) (fun t => (mgetD t.core.cmds 3 {}).result == 0x8E && t.flagBit secInt 4) = true := by
  decide +kernel

theorem test_security_state : tSec.live = true ∧ tSec.core.sec.m3closed = false ∧ tSec.core.sec.log.length + 1 < logCap
    ∧ Meets (exec (.securityStateChange true false) tSec) (fun t => t.core.host.ideIo && t.core.sec.log.length == 1) = true
    ∧ Stays (exec (.securityStateChange false false) tSec) tSec = true
    ∧ Meets (exec .roEn tSec) (fun t => t.core.sec.roEn && t.core.sec.log.length == 1) = true
    ∧ Stays (exec .roEn { tSec with core.sec.roEn := true }) { tSec with core.sec.roEn := true } = true
    ∧ Meets (exec .ideKm tSec) (fun t => t.core.host.ideEpoch == 1) = true
    ∧ Meets (exec (.doeObject 3 0 65537 []) tSec) (fun t => t.core.host.doeError) = true
    ∧ Meets (exec (.doeObject 3 0 65536 []) tSec) (fun t => t.core.host.doe == some 3) = true := by decide +kernel

/-! Start-up, power, errors -/

theorem test_pins : let off := { State.reset with core.boot.perst := false }
    let d := { off with core.boot.pwrEn := true, core.boot.deferred := true }
    Meets (exec (.sbPwrEnAssert false) off) (fun t => decide (t.core.boot.phase = .rails) && t.core.boot.cause == 1) = true
    ∧ Meets (exec (.sbPwrEnAssert true) off) (fun t => decide (t.core.boot.phase = .off) && t.core.boot.deferred) = true
    ∧ Meets (exec .pwrEnDeferredStart d) (fun t => decide (t.core.boot.phase = .rails)) = true
    ∧ Meets (exec .sbPwrEnDeassert tLive) (fun t => decide (t.core.boot.phase = .off)) = true
    ∧ tLive.powered = true ∧ Meets (exec .hostPerstNAssert tLive) (fun t => decide (t.core.boot.phase = .rails) && t.core.boot.cause == 2) = true
    ∧ Meets (exec .hostPerstNDeassert { off with core.boot.phase := .rails }) (fun t => decide (t.core.boot.phase = .rom)) = true
    ∧ Meets (exec (.railFault false) { off with core.boot.phase := .rails }) (fun t => decide (t.core.boot.phase = .failed) && t.core.boot.faultN) = true := by
  decide +kernel

/-- The module at a stage of its start-up. -/
def tStage (p : Phase) : State := { State.reset with core.boot := { phase := p, perst := false, outs := true } }

theorem test_stages : Meets (exec .romStageEnd (tStage .rom)) (fun t => decide (t.core.boot.phase = .verify) && t.core.sec.log.length == 1) = true
    ∧ Meets (exec .imageVerified (tStage .verify)) (fun t => decide (t.core.boot.phase = .recovery) && t.core.boot.fail == 2) = true
    ∧ Meets (exec .hbmTrained (tStage .stage1)) (fun t => decide (t.core.boot.phase = .hbmDone)) = true
    ∧ Meets (exec .d2dTrained (tStage .hbmDone)) (fun t => decide (t.core.boot.phase = .stage2) && (mgetD t.core.fab.d2d 9 {}).trained) = true
    ∧ Meets (exec (.startupFailure 5 0) (tStage .stage1)) (fun t => decide (t.core.boot.phase = .failed) && t.core.boot.fail == 5) = true
    ∧ Meets (exec (.startupFailure 6 9) (tStage .hbmDone)) (fun t => t.core.boot.link == 9) = true
    ∧ Meets (exec (.startupFailure 8 0) (tStage .stage2)) (fun t => t.core.boot.fail == 8 && t.core.boot.link == 0xFF) = true := by decide +kernel

theorem test_ready : let s := { tStage .stage2 with core.host.cxl := true }
    let fs := List.replicate 8 (35, 60000, 1000)
    s.framesOk fs (List.replicate 8 (5, 9)) = true ∧ s.ft.src = none ∧ s.framesOk [] [] = false
    ∧ Meets (exec (.ready fs (List.replicate 8 (5, 9)) 4096 8192 9) s) (fun t => decide (t.core.boot.phase = .ready) && t.core.boot.locked && t.reg fldStallMax == 9) = true
    ∧ Stays (exec (.ready [] [] 0 0 0) s) s = true := by decide +kernel

theorem test_input : let l := { tStage .off with core.boot.pwrEn := true, core.boot.inputLost := true }
    Meets (exec .vinLow tLive) (fun t => t.core.pwr.vinLow && t.flagBit pwrInt 0) = true
    ∧ Meets (exec (.vinOutOfRange false) { tLive with core.boot.pwrEn := true }) (fun t => decide (t.core.boot.phase = .off) && t.core.boot.inputLost) = true
    ∧ Meets (exec .inputRestart l) (fun t => decide (t.core.boot.phase = .rails) && t.core.boot.cause == 7) = true
    ∧ tLive.core.boot.trip = false ∧ Meets (exec .cxlReset tLive) (fun t => decide (t.core.boot.phase = .rom) && t.core.boot.cause == 3) = true := by decide +kernel

theorem test_duty : let d (n : Nat) : State := { tLive with core.pwr.duty := n }
    tLive.marlOn = true ∧ tLive.effCap.1 = 2400 ∧ Meets (exec (.paceStep 2401) (d 2)) (fun t => t.core.pwr.duty == 1) = true
    ∧ Meets (exec (.paceStep 2401) (d 1)) (fun t => t.core.pwr.duty == 1) = true ∧ Meets (exec (.paceStep 2352) (d 5)) (fun t => t.core.pwr.duty == 5) = true
    ∧ Meets (exec (.paceStep 2351) (d 5)) (fun t => t.core.pwr.duty == 6) = true ∧ Meets (exec (.paceStep 0) (d 64)) (fun t => t.core.pwr.duty == 64) = true
    ∧ Meets (exec .dutyFloorTimeout (d 1)) (fun t => t.alert) = true := by decide +kernel

theorem test_caps : let e : Pace := { ft := 0, armed := true, w := 700 }
    let s := { tLive with core.pwr.entries := [(63, e)] }
    firstDue s.now s.core.pwr.entries = some (63, e) ∧ tLive.managed = true ∧ tLive.pwrLimit = 2400
    ∧ Meets (exec (.paceEntryTrigger 63) s) (fun t => t.core.pwr.pace == 700 && t.effCap.1 == 700 && t.counter (pwrBase + 0x118) == 1) = true
    ∧ Meets (exec (.pldmSetEffecter 600) tLive) (fun t => t.core.pwr.oob == 600) = true
    ∧ Meets (exec (.pldmSetEffecter 599) tLive) (fun t => t.core.pwr.oob == 0 && t.core.pwr.mctp == some .invalidInput) = true
    ∧ Meets (exec (.pldmSetEffecter 2401) tLive) (fun t => t.core.pwr.mctp == some .invalidInput) = true
    ∧ tLive.sensorValue 0 = some 0 ∧ Meets (exec (.pldmSensorRead 0) tLive) (fun t => t.core.pwr.mctp == some (.value 0)) = true
    ∧ Meets (exec (.mctpControl 257) tLive) (fun t => t.core.pwr.eid == 1) = true := by decide +kernel

theorem test_heat : let h : State := { tLive with core.pwr := { sensors := [(0, { level := 2 })], therm := some (1000, 1) } }
    let t : State := { tStage .rails with core.boot.trip := true, core.boot.tripN := true }
    Meets (exec (.thermalSample [800] 48000 900 []) tLive) (fun t => (mgetD t.core.pwr.sensors 0 {}).level == 2 && t.core.pwr.therm == some (900, 0) && t.alert) = true
    ∧ Meets (exec (.thermalSample [799] 48000 900 []) tLive) (fun t => (mgetD t.core.pwr.sensors 0 {}).level == 1) = true
    ∧ h.throttled = true ∧ Meets (exec .thermalCapStep h) (fun t => t.core.pwr.therm == some (1000, 2)) = true
    ∧ Meets (exec .hardThermal tLive) (fun t => decide (t.core.boot.phase = .off) && t.core.boot.hard) = true
    ∧ Meets (exec .tripRestart t) (fun u => decide (u.core.boot.phase = .rom) && !u.core.boot.trip) = true := by decide +kernel

theorem test_fatal : let s := { tLive with core.ras := { stop := true, v := true } }
    tLive.reg fldFrzOnFatal = 0 ∧ Meets (exec (.moduleFatalError 9 4 255) tLive) (fun t => t.core.ras.stop && t.core.ras.src == 9 && t.core.ras.die == 4 && !t.dispatching) = true
    ∧ Meets (exec (.moduleFatalError 2 0 0) tLive) (fun t => t.core.ras.src == 2) = true ∧ Meets (exec (.moduleFatalError 9 0 0) s) (fun t => t.core.ras.more) = true
    ∧ Meets (exec .fatalHoldExpiry s) (fun t => t.core.boot.cause == 4 && t.core.ras.fatal && !t.core.ras.stop) = true
    ∧ Stays (exec .fatalHoldExpiry tLive) tLive = true := by decide +kernel

theorem test_scrub : let a := 2 ^ 37 - 64 - (2 ^ 37 - framesPerStack * frameBytes)
    let s := { tLive with core.mem.frames := [(0, 1, 1, 1)] }
    s.dpaOk a = true ∧ s.inFirmware a = false ∧ s.inFirmware 2097151 = true ∧ Meets (exec (.hbmScrub a true ⟨false, false⟩) s) (fun t => t.counter (rasBase + 0x128) == 1) = true
    ∧ Meets (exec (.hbmScrub a false ⟨true, false⟩) s) (fun t => t.hbmPoison a 64 && t.flagBit rasInt 2 && !t.core.ras.stop) = true
    ∧ Meets (exec (.hbmScrub 2097151 false ⟨true, false⟩) s) (fun t => t.core.ras.stop) = true := by decide +kernel

theorem test_scrub_parity : let s := { tLive with core.mem.frames := [(0, 1, 1, 1)] }
    s.dpaOk 2097216 = true ∧ Meets (exec (.hbmScrub 2097216 true ⟨false, true⟩) s) (fun t => t.hbmPoison 2097216 64 && t.flagBit rasInt 2) = true := by decide +kernel

theorem test_freeze : let s := tLive.setReg fldFrzEn 1
    s.core.ras.frozen = false ∧ s.timing = true ∧ s.reg fldFrzEn = 1 ∧ s.live = true
    ∧ Meets (exec .freezeRequest s) (fun t => t.core.ras.frozen && t.core.ras.froze && !t.core.host.linkUp) = true
    ∧ Meets (exec .swfreeze s) (fun t => t.core.ras.frozen && Stays (step t) t) = true ∧ Stays (exec .freezeRequest (tLive.setReg fldFrzEn 0)) (tLive.setReg fldFrzEn 0) = true
    ∧ Meets (exec .glbFrzRead { tLive with core.ras.froze := true }) (fun t => t.core.ras.readVal == 2 && !t.core.ras.froze) = true := by decide +kernel

theorem test_tap : tLive.tapOn = true ∧ tLive.itemWords (2 ^ 16) = 0 ∧ tLive.core.sec.roEn = false
    ∧ Meets (exec .idcode tLive) (fun t => t.core.ras.tapOut.length == 1) = true
    ∧ Meets (exec .frzStat { tLive with core.ras := { frozen := true, frozenFt := 77 } }) (fun t => t.core.ras.tapOut.map (fun x => x / 2 ^ 64) == [77]) = true
    ∧ Meets (exec (.frzSel (2 ^ 32 + 5)) tLive) (fun t => t.core.ras.tapSel == 5) = true
    ∧ Meets (exec (.frzRead 3) tLive) (fun t => t.core.ras.tapOut == [0, 0, 0]) = true ∧ Meets (exec .bypass tLive) (fun t => t.core.ras.tapOut == [0]) = true := by
  decide +kernel

/-! Counters and the ledger -/

/-- Context 1 owns the counters, and the list is empty. -/
def tPmc : State := (tLive.setReg fldOwnerV 1).setReg fldOwnerCtx 1

theorem test_cview : tLive.dispatching = true ∧ tLive.idOk (qmgBase / 8) = false ∧ tLive.idOk (hifBase / 8 + 0x20) = true
    ∧ Meets (exec .pmcCviewRead ((tLive.bump (hifBase + 0x100) 9).setReg fldCsel (hifBase / 8 + 0x20))) (fun t => t.core.ras.readVal == 9) = true := by decide +kernel

theorem test_gather_begins : tPmc.pmcOwner = some 1 ∧ tPmc.core.pmc.gather = none ∧ tPmc.reg fldListN = 0 ∧ tLive.pmcOwner = none
    ∧ Meets (exec .pmcGather tPmc) (fun t => t.core.pmc.gather.any (fun g => g.demand && g.ids == some [])) = true
    ∧ Stays (exec .pmcGather tLive) tLive = true := by decide +kernel

theorem test_dump_missed : let g : Gather := { demand := true, instant := 0, list := 0, n := 0, dump := 0, k := 7, ctx := 0, ids := some [] }
    let s := { (tPmc.setReg fldInterval 10).setReg fldOwnerCtx 0 with core.pmc.gather := some g, ft.ns := 10000 }
    s.pmcOwner = some 0 ∧ s.reg fldInterval = 10 ∧ s.vcheck 0 (g.dump + 64 * (s.core.pmc.idx % 2 ^ g.k)) 64 true false = .none
    ∧ Meets (exec .dumpInstant s) (fun t => t.core.pmc.gather == some g && t.flagBit pmcInt 2 && t.counter (pmcBase + 0x108) == 1) = true
    ∧ Meets (exec .pmcGatherDone s) (fun t => t.core.pmc.gather.isNone && t.core.pmc.seq == 1 && t.flagBit pmcInt 0) = true := by decide +kernel

theorem test_dump_begins : let s : State := { (tPmc.setReg fldInterval 10) with ft.ns := 25000, core.pmc.lastInstant := 10000 }
    s.dispatching = true ∧ s.pmcOwner = some 1 ∧ s.reg fldListN = 0
    ∧ Meets (exec .dumpInstant s) (fun t => t.core.pmc.lastInstant == 20000 && t.core.pmc.gather.any (fun g => !g.demand && g.instant == 20000)) = true := by decide +kernel

theorem test_sample_dispatch : let s : State := { tRing with core.pmc.kc := [(kcOf (tRing.queue 5) 5, { count := 1 })] }
    s.mayDispatch 5 = true
    ∧ Meets (exec (.sampleCountdown 5) s) (fun t => (t.queue 5).fetch == 1 && (mgetD t.core.qm.eiq (slotKey ⟨6, 0, 0⟩) []).length == 1) = true := by decide +kernel

theorem test_countdown : let s := { tQ with core.pmc.kc := [(kcOf (tQ.queue 5) 5, { count := 1 })] }
    4 ≤ s.reg fldSampP ∧ s.reg fldSampP ≤ 24 ∧ 1 < (mgetD tQ.core.pmc.kc (kcOf (tQ.queue 5) 5) {}).count ∧ Stays (exec (.sampleCountdown 5) tQ) tQ = true
    ∧ 32768 ≤ (mgetD (s.countDispatch (kcOf (tQ.queue 5) 5) 5 0 1).core.pmc.kc (kcOf (tQ.queue 5) 5) {}).count := by decide +kernel

theorem test_ledger : let b : State := { tLive with core.ldg := { busy := true } }
    (tLive.take 3 1 5).heldUnits 3 1 = 5 ∧ ((tLive.take 3 1 5).give 3 1 2).heldUnits 3 1 = 3
    ∧ Meets (exec .snap (tLive.take 3 1 5)) (fun t => t.core.ldg.snap == t.core.ldg.live && !t.core.ldg.busy) = true
    ∧ Meets (exec .check tLive) (fun t => t.core.ldg.busy) = true ∧ Stays (exec .snap b) b = true
    ∧ Meets (exec .ledgerCheckDone b) (fun t => !t.core.ldg.busy && t.flagBit ldgInt 0 && !t.flagBit ldgInt 1) = true
    ∧ (let x : Ldg := { taken := 1, returned := 2 }
       let f : State := { tLive with core.ldg := { busy := true, snap := [(196609, x)] } }
       f.core.ldg.failure 196609 x ≠ 0 ∧ Meets (exec .ledgerCheckDone f) (fun t => t.core.ldg.cls == 3 && t.core.ldg.inst_ == 1 && t.flagBit ldgInt 1) = true) := by
  decide +kernel

/-! Engines, matrix-vector and vector units -/

/-- An instruction's bytes: opcode, automatic tag and body fields (offset, size, value). -/
def word (op : Nat) (fs : List (Nat × Nat × Nat)) : Nat := put 0 8 op + put 16 16 0xFFFF + fs.foldl (fun a f => a + put (8 * f.1) (8 * f.2.1) f.2.2) 0

/-- The entry of an instruction of queue 5 in context 0. -/
def ent (op : Nat) (fs : List (Nat × Nat × Nat)) : Entry := ⟨5, 0, word op fs, 0, []⟩

/-- The ready module with an instruction of context 0, whose addresses are device physical ones, at the head of slot 0 of unit 0 of a class. -/
def tAt (cls op : Nat) (fs : List (Nat × Nat × Nat)) : State :=
  { tLive with
    core.mmu.ctxs := [(0, { st := .active, entry := put 128 32 8 + put 160 32 8 + put 224 19 1024 + put 272 16 1024 + put 336 13 64, tagFirst := 0, tagCount := 16 })]
    core.qm := {
      queues := [(5, { tq cls with desc := (tq cls).desc - put 128 12 1, fetch := 1, nextSeq := 1, reserved := 1,
                                   fl := [{ seq := 0, tag := 0, op := op, sig := 0, mode := 0, deadline := 0, prog := 0 }] })]
      slots := [(slotKey ⟨cls, 0, 0⟩, 5)], eiq := [(slotKey ⟨cls, 0, 0⟩, [ent op fs])] } }

/-- Slot 0 of unit 0 of a class. -/
def at0 (cls : Nat) : SlotRef := ⟨cls, 0, 0⟩

def opaF : List (Nat × Nat × Nat) := [(16, 1, 0), (17, 1, 1), (18, 1, 1), (20, 4, 17 * 4096), (24, 4, 17 * 4096 + 17), (28, 4, 4)]

theorem test_opa_head : let s := tAt 0 0x10 opaF
    HeadOk s (at0 0) 0x10 (s.opaBad (at0 0)) (ent 0x10 opaF) ∧ ((s.ope 0).part 0).run = none
    ∧ Meets (exec (.opa (at0 0)) s) (fun t => (((t.ope 0).part 0).run).any (fun x => decide (x.e = ent 0x10 opaF) && x.kb == 0)
        && (mgetD t.core.qm.eiq (slotKey (at0 0)) []).isEmpty) = true := by unfold HeadOk; decide +kernel

theorem test_row_heads : let z := tAt 0 0x13 [(16, 1, 14)]
    let l := tAt 0 0x12 [(16, 1, 0), (24, 8, 0x6000000)]
    let d := tAt 0 0x14 [(16, 1, 0), (24, 8, 0x6000000)]
    HeadOk z (at0 0) 0x13 (fun e => z.tileBad (at0 0) e ++ []) (ent 0x13 [(16, 1, 14)])
    ∧ HeadOk l (at0 0) 0x12 (fun e => l.tileBad (at0 0) e ++ alignBad 24 (e.eff 1 24 56) 16384) (ent 0x12 [(16, 1, 0), (24, 8, 0x6000000)])
    ∧ HeadOk d (at0 0) 0x14 (fun e => d.tileBad (at0 0) e ++ (e.destAlign 24 16384 ++ vuQuarterBad (d.opeQuarter 0) 24 e)) (ent 0x14 [(16, 1, 0), (24, 8, 0x6000000)])
    ∧ Meets (exec (.accz (at0 0)) z) (fun t => (t.ope 0).pend == [(0, ent 0x13 [(16, 1, 14)])]) = true
    ∧ Meets (exec (.accld (at0 0)) l) (fun t => (t.ope 0).pend.length == 1) = true
    ∧ Meets (exec (.accdr (at0 0)) d) (fun t => (t.ope 0).pend.length == 1) = true := by unfold HeadOk; decide +kernel

theorem test_park_heads : let p := tAt 0 0x15 [(20, 2, 5)]
    let u := tAt 0 0x16 [(20, 2, 5)]
    let g := tAt 0 0x41 [(1, 1, 2), (24, 8, 0x6000000)]
    HeadOk p (at0 0) 0x15 (fun e => p.tileBad (at0 0) e ++ (p.placeBad (at0 0) e ++ p.placeHeld (at0 0) e)) (ent 0x15 [(20, 2, 5)])
    ∧ HeadOk u (at0 0) 0x16 (fun e => u.tileBad (at0 0) e ++ u.placeBad (at0 0) e) (ent 0x16 [(20, 2, 5)])
    ∧ HeadOk g (at0 0) 0x41 (fun e => g.tileBad (at0 0) e ++ (check e.a32 (19, 7) ++ e.destAlign 24 16384)) (ent 0x41 [(1, 1, 2), (24, 8, 0x6000000)])
    ∧ Meets (exec (.accpk (at0 0)) p) (fun t => (t.ope 0).pend.length == 1) = true
    ∧ Meets (exec (.accup (at0 0)) u) (fun t => (t.ope 0).pend.length == 1) = true
    ∧ Meets (exec (.gacc (at0 0)) g) (fun t => (t.ope 0).pend.length == 1) = true := by unfold HeadOk; decide +kernel

theorem test_row_port : let z := (tAt 0 0x13 []).setOpe 0 { pend := [(0, ent 0x13 [])] }
    z.live = true ∧ (z.ope 0).drains = [] ∧ z.pickRow 0 [] (z.ope 0).pend = some (0, ent 0x13 [])
    ∧ Meets (exec (.rowPortOpStart 0 []) z) (fun t => (t.ope 0).pend.isEmpty && (mget ((t.ope 0).part 0).tiles 0).isSome) = true := by decide +kernel

theorem test_row_port_held : let z := (tAt 0 0x13 []).setOpe 0 { pend := [(0, ent 0x13 [])] }
    let h := (tAt 0 0x13 []).setOpe 0 { pend := [(0, ent 0x13 [])], parts := [(0, { tiles := [(1, Tile.zero false 0)] })] }
    (z.ope 0).back = [] ∧ (∀ x ∈ (z.ope 0).staged, x.part ≠ 4) ∧ (z.ope 0).clash 0 (ent 0x13 []) (fun _ => true) = false
    ∧ (h.ope 0).clash 0 (ent 0x13 []) (fun _ => true) = true ∧ h.pickRow 0 [] (h.ope 0).pend = some (0, ent 0x13 [])
    ∧ Meets (exec (.rowPortOpStart 0 []) h) (fun t => ((t.queue 5).inst 0).any (fun i => i.done && mhas i.outs 0xC) && (mget ((t.ope 0).part 0).tiles 0).isNone) = true := by
  decide +kernel

theorem test_row_port_tiles : let e := ent 0x15 [(20, 2, 5)]
    let p := (tAt 0 0x15 [(20, 2, 5)]).setOpe 0 { pend := [(0, e)], parts := [(0, { tiles := [(0, Tile.zero false 0)] })] }
    let d := (tAt 0 0x14 []).setOpe 0 { pend := [(0, ent 0x14 [])], parts := [(0, { tiles := [(0, Tile.zero false 0)] })] }
    p.pickRow 0 [] (p.ope 0).pend = some (0, e) ∧ p.parkHeld (p.opeQuarter 0) e.place e.spans = false
    ∧ ({ p with core.mem.parked := [(parkKey 0 5, (8, 0))] } : State).parkHeld (p.opeQuarter 0) e.place e.spans = true
    ∧ d.pickRow 0 [] (d.ope 0).pend = some (0, ent 0x14 []) ∧ destKind (ent 0x14 []).dest = 0 := by decide +kernel

/-- An OPA of one K-block of one cycle in progress. -/
def tRun (x : OpaRun) : State := (tAt 0 0x10 opaF).setOpe 0 { parts := [(0, { run := some x })] }

theorem test_issue_freezes : let s := tRun { e := ent 0x10 opaF }
    s.live = true ∧ (∀ t ∈ (s.ope 0).pipe, t.age < 23) ∧ (∃ x ∈ (s.ope 0).advance.ready, (meets (s.ope 0).advance x.1 x.2).any = true)
    ∧ Meets (exec (.opeIssueCycle 0 false []) s) (fun t => (t.ope 0).frz && t.counter (opeBase 0 + 0x108) == 1 && (t.ope 0).causeA) = true
    ∧ Meets (exec (.opeIssueCycle 0 true []) { s with core.pwr.duty := 63 }) (fun t => t.counter (opeBase 0 + 0x100) == 0) = true := by decide +kernel

theorem test_engine_events : let x : OpaRun := { e := ent 0x10 opaF, kb := 7 }
    let f := (tLive.setOpe 63 { parts := [(1, { fence := 3, fenceCtx := 9 })] })
    Meets (exec (.opeStop 0 0) (tRun x)) (fun t => ((t.ope 0).part 0).stopAsk && ((t.ope 0).part 0).stopAt == some 7) = true
    ∧ 63 < tLive.opeCount ∧ (tLive.ope 63).obuf = [] ∧ Meets (exec (.partModeChange 63 3 0xF false) tLive) (fun t => (t.ope 63).mode == 3) = true
    ∧ Meets (exec (.partModeChange 0 0 7 true) tLive) (fun t => (t.ope 0).gang == 7 && (t.ope 0).gside) = true
    ∧ (f.ctx 9).st = .free ∧ Meets (exec (.fenceRelease 63 1) f) (fun t => ((t.ope 63).part 1).fence == 0) = true := by decide +kernel

theorem test_cell_write : let tl := Tile.zero false 4
    let x : OpeStep := { part := 0, tile := 0, age := 23, kb := some ([], []), q := 5, seq := 0 }
    let s := tLive.setOpe 0 { mode := 3, parts := [(0, { tiles := [(0, tl)] })], pipe := [x] }
    (s.ope 0).pipe.filter (fun t => decide (t.age ≥ 23)) = [x] ∧ ((s.ope 0).part 0).fence = 0 ∧ mget ((s.ope 0).part 0).tiles 0 = some tl := by decide +kernel

def mvxF : List (Nat × Nat × Nat) := [(16, 1, 1), (18, 1, 8), (20, 2, 4), (22, 2, 2), (24, 8, 0x3100000), (32, 8, 0x3200000), (40, 4, 64), (44, 2, 16), (48, 8, 0x3400000)]

/-- The matrix-vector unit with the vectors that the MVX names. -/
def tMvx : State := { tAt 4 0x18 mvxF with core.mvus := [(0, { vecs := [(2, ⟨0, 64, List.replicate 100 0, false⟩), (3, ⟨0, 64, List.replicate 100 0, false⟩)] })] }

theorem test_mvu : let v : MvuVec := ⟨0, 64, [1], true⟩
    let h := { tLive with core.mvus := [(0, { held := [(7, v, 5, 0)] })] }
    let s := { tLive with core.mvus := [(0, { run := some { e := ent 0x18 mvxF } })] }
    HeadOk tMvx (at0 4) 0x18 (tMvx.mvxBad (at0 4)) (ent 0x18 mvxF) ∧ (tMvx.mvu 0).run = none ∧ (tMvx.mvu 0).result = none ∧ (tMvx.mvu 0).stopped = false ∧ (tMvx.mvu 0).held = [] ∧ tMvx.mvxWaits (at0 4) = false
    ∧ Meets (exec (.mvx (at0 4) 0 []) tMvx) (fun t => (t.mvu 0).run.isSome) = true ∧ Meets (exec (.mvuStop 0) s) (fun t => (t.mvu 0).stopped && (t.mvu 0).stopAt == some (0, 0)) = true
    ∧ (h.mvu 0).reads 7 = false ∧ Meets (exec (.vectorSlotWrite 0 7) h) (fun t => mget (t.mvu 0).vecs 7 == some v && (t.mvu 0).held.isEmpty) = true := by
  unfold HeadOk; decide +kernel

def ldF : List (Nat × Nat × Nat) := [(16, 1, 13), (24, 8, 0x2007000)]
def redF : List (Nat × Nat × Nat) := [(16, 1, 5), (17, 1, 5), (24, 8, 0x2001000), (32, 4, 32), (36, 4, 2), (48, 8, 0x200B000)]
def qntF : List (Nat × Nat × Nat) := [(16, 1, 3), (17, 1, 5), (20, 4, 2), (24, 8, 0x2000000), (32, 4, 64), (48, 8, 0x200C000)]

theorem test_vop_ldtbl : let s := tAt 5 0x20 ldF
    HeadOk s (at0 5) 0x20 vopBad (ent 0x20 ldF) ∧ s.headStopped (at0 5) = false ∧ (ent 0x20 ldF).func = 0x0D
    ∧ (∀ i ∈ (s.queue 5).fl, ¬ (i.op = 0x20 ∧ i.fn = 0x0B ∧ i.unit = slotCode (at0 5) ∧ i.seq < 0)) ∧ ((s.vu 0).slot 0).scr = []
    ∧ s.vcheck 0 0x2007000 1040 false false = .none ∧ Meets (exec (.vop (at0 5) []) s) (fun t => (((t.vu 0).slot 0).table).length == 1040) = true := by
  unfold HeadOk; decide +kernel

def addF : List (Nat × Nat × Nat) := [(16, 1, 1), (17, 1, 5), (18, 1, 5), (20, 4, 5), (24, 8, 0x2000000), (32, 8, 0x2001000), (40, 3, 32), (48, 8, 0x200C000)]

theorem test_vop_add : let s := tAt 5 0x20 addF
    let e := ent 0x20 addF
    let v := (s.take 0x0E 0 0).give 0x0E 0 0
    HeadOk s (at0 5) 0x20 vopBad e ∧ e.func = 1 ∧ (s.vuPos (at0 5) e).outs = [] ∧ 0 ≤ s.scratchFree 0 ∧ destKind e.dest = 0
    ∧ v.piecesStop 0 (vopAll e) false false = .none
    ∧ (v.vuTouch e (vopAll e)).vcheck 0 0x200C000 (blockArray 5 (State.vopRun (at0 5) e [] (v.vuTouch e (vopAll e)) 0 1).2).length true false = .none
    ∧ Meets (exec (.vop (at0 5) []) s) (fun t => ((t.queue 5).inst 0).any (·.done)) = true := by unfold HeadOk; decide +kernel

theorem test_vop_values : ([⟨5, 1⟩] : List Dy)[0]? = some ⟨5, 1⟩ ∧ (ent 0x20 addF).func = 1
    ∧ (tLive.vopValues 0 0 (ent 0x20 addF) [⟨5, 1⟩] [⟨3, 0⟩])[0]? = some (Dy.add ⟨5, 1⟩ ⟨3, 0⟩) := by decide +kernel

theorem test_vred_qnt_heads : let v := tAt 5 0x22 redF
    let q := tAt 5 0x21 qntF
    HeadOk v (at0 5) 0x22 vredBad (ent 0x22 redF) ∧ (ent 0x22 redF).func = 5 ∧ destKind (ent 0x22 redF).dest = 0 ∧ (ent 0x22 redF).redRows = 2
    ∧ v.vcheck 0 0x2001000 (pad64 (arrayBytes 5 32) + arrayBytes 5 32) false false = .none ∧ v.vcheck 0 0x200B000 8 true false = .none
    ∧ HeadOk q (at0 5) 0x21 qntBad (ent 0x21 qntF) ∧ (ent 0x21 qntF).f 16 1 = 3 ∧ q.vcheck 0 0x2000000 (arrayBytes 5 64) false false = .none := by
  unfold HeadOk; decide +kernel

theorem test_vred_argmax : Meets (exec (.vred (at0 5) []) { tAt 5 0x22 redF with core.mem.hbm := [(0x2001006, 5), (0x2001042, 1)] }) (fun t =>
    ((t.queue 5).inst 0).any (·.done)) = true := by decide +kernel

theorem test_vred_max : let f := [(16, 1, 1), (17, 1, 5), (20, 4, 5), (24, 8, 0x2001000), (32, 4, 32), (36, 4, 2), (48, 8, 0x200B000)]
    let s := tAt 5 0x22 f
    let u := s.vuTouch (ent 0x22 f) (vredAll (ent 0x22 f))
    HeadOk s (at0 5) 0x22 vredBad (ent 0x22 f) ∧ (ent 0x22 f).func ≠ 5 ∧ s.piecesStop 0 (vredAll (ent 0x22 f)) false false = .none
    ∧ u.vcheck 0 0x200B000 (blockArray 5 (State.vredRun (at0 5) (ent 0x22 f) [] u 0 1).2).length true false = .none
    ∧ Meets (exec (.vred (at0 5) []) s) (fun t => ((t.queue 5).inst 0).any (·.done)) = true := by unfold HeadOk; decide +kernel

theorem test_qnt_array : let s := tAt 5 0x21 qntF
    s.headStopped (at0 5) = false ∧ (s.vuPos (at0 5) (ent 0x21 qntF)).outs = [] ∧ 1 ≤ s.scratchFree 0 ∧ destKind (ent 0x21 qntF).dest = 0
    ∧ Meets (exec (.qnt (at0 5) []) s) (fun t => ((t.queue 5).inst 0).any (·.done)) = true := by decide +kernel

theorem test_qnt_mvu : let f := [(16, 1, 1), (20, 4, 2), (24, 8, 3), (48, 8, 0x200C000)]
    let m : Entry := { ent 0x18 [(16, 1, 1), (18, 1, 4), (44, 2, 1), (40, 4, 32), (48, 8, 2 ^ 60)] with q := 9 }
    let s := { tAt 5 0x21 f with core.mvus := [(3, { result := some { e := m } })] }
    HeadOk s (at0 5) 0x21 qntBad (ent 0x21 f) ∧ 5 ≤ s.scratchFree 0 ∧ ((s.mvu 3).result).map (·.e) = some m ∧ bits m.dest 0 4 = 0 ∧ bits m.dest 4 2 = 0
    ∧ Meets (exec (.qnt (at0 5) []) s) (fun t => ((t.queue 5).inst 0).any (·.done) && (t.mvu 3).result.isNone) = true := by unfold HeadOk; decide +kernel

theorem test_seed_waits : let s := { tAt 5 0x21 qntF with core.vus := [(0, { slots := [(0, { qnt := some (5, 0) })] })] }
    s.qntOn 0 0 = true ∧ Meets (exec (.vuSeedWrite 0 0 7) s) (fun t => ((t.vu 0).slot 0).seedNext == some 7 && ((t.vu 0).slot 0).rng == 0) = true := by decide +kernel

theorem test_vu_events : Meets (exec (.vuSeedWrite 15 3 (2 ^ 64 + 9)) tLive) (fun t => ((t.vu 15).slot 3).rng == 9 && ((t.vu 15).slot 3).seedNext == none) = true
    ∧ tLive.qntOn 15 3 = false
    ∧ Meets (exec (.vuCntClr 15 8) ((tLive.bump (vuCnt 15 3 0) 5).bump (vuCnt 15 2 0xF8) 6)) (fun t =>
        t.counter (vuCnt 15 3 0) == 0 && t.counter (vuCnt 15 2 0xF8) == 6) = true := by decide +kernel

/-- A QNT that waits for the drain of partition 0 of engine 0, whose image of a quadrant stands in the drain buffer. -/
def tGrant : State :=
  let e : Entry := { ent 0x14 [(24, 8, 2 ^ 60)] with q := 9 }
  (tAt 5 0x21 [(16, 1, 0), (20, 4, 5)]).setOpe 0 { drains := [{ part := 0, e := e, tile := Tile.zero false 4, bytes := [], units := 1 }] }

theorem test_vu_grant : tGrant.head (at0 5) = some (ent 0x21 [(16, 1, 0), (20, 4, 5)]) ∧ (ent 0x21 [(16, 1, 0), (20, 4, 5)]).f 16 1 = 0
    ∧ (match tGrant.engineOf 0 with | .ok n => decide (n = 0) | _ => false) = true ∧ ((tGrant.ope 0).part 0).fence = 0 ∧ 9 ≤ tGrant.scratchFree 0
    ∧ Meets (exec (.vuDrainGrant (at0 5)) tGrant) (fun t => (t.ope 0).drains.isEmpty && ((t.vu 0).slot 0).landed.length == 1) = true := by decide +kernel

/-- That OPA in its second cycle, with both its operand tiles landed. -/
def tMid : Ope :=
  { parts := [(0, { run := some { e := ent 0x10 opaF, cyc := 1, started := true }, tiles := [(0, Tile.zero false 0)] })]
    obuf := [(0, { lines := 17, begun := true }), (17, { lines := 17, begun := true })] }

theorem test_issue_steps : let s := (tAt 0 0x10 opaF).setOpe 0 tMid
    ((s.ope 0).advance.ready).map (·.1) = [0] ∧ (∀ x ∈ (s.ope 0).advance.ready, (meets (s.ope 0).advance x.1 x.2).any = false)
    ∧ Meets (exec (.opeIssueCycle 0 false []) s) (fun t => t.counter (opeBase 0 + 0x100) == 1 && (((t.ope 0).part 0).run).any (fun x => x.cyc == 2)) = true := by
  decide +kernel

/-! Errors in memories (04_ope R83, R90, R103; 14_progress R346; 17_errors R405) -/

theorem test_cell_error : let s := tLive.setOpe 0 { parts := [(0, { tiles := [(0, Tile.zero false 3), (1, Tile.zero true 3)] })] }
    Meets (exec (.opeCellWrite 0 [.cell 0 0 5]) s) (fun t => (mget ((t.ope 0).part 0).tiles 0).any (fun x => x.poisonAt 5 && !x.poisonAt 4)) = true
    ∧ Meets (exec (.opeCellWrite 0 [.cell 0 1 64]) s) (fun t => (mget ((t.ope 0).part 0).tiles 1).any (fun x => x.poisonAt 127 && !x.poisonAt 63)
        && t.counter (rasBase + 0x118) == 1 && t.flagBit rasInt 2) = true := by decide +kernel

theorem test_control_error : let s := (tRun { e := ent 0x10 opaF }).setOpe 1 { parts := [(0, { run := some { e := ent 0x10 opaF } })] }
    s.slotUser ⟨0, 1, 0⟩ = none ∧ Meets (exec (.opeCellWrite 1 [.control 0]) s) (fun t => ((t.ope 1).part 0).fence == 2 && ((t.ope 1).part 0).run.isNone) = true
    ∧ s.slotUser ⟨0, 0, 0⟩ = some (0, 5) ∧ Meets (exec (.opeCellWrite 0 [.control 0]) s) (fun t => ((t.ope 0).part 0).fence == 2 && t.flagBit rasInt 3) = true := by
  decide +kernel

theorem test_line_error : let s := (tAt 0 0x10 opaF).setOpe 0 tMid
    let u := { s with core.pwr.duty := 63 }
    0 / (s.ope 0).per = 0 ∧ Meets (exec (.opeIssueCycle 0 true [.line 33]) u) (fun t => ((t.ope 0).part 0).run.any (fun x => x.struck == [2])) = true
    ∧ Meets (exec (.opeIssueCycle 0 true [.line 34]) u) (fun t => ((t.ope 0).part 0).run.any (fun x => x.struck == [])
        && t.counter (rasBase + 0x118) == 1) = true := by decide +kernel

theorem test_struck_operand : let s := (tAt 0 0x10 opaF).setOpe 0 { tMid with
      parts := [(0, { run := some { e := ent 0x10 opaF, cyc := 7, started := true, struck := [2] }, tiles := [(0, Tile.zero false 0)] })] }
    (ent 0x10 opaF).cycles = 8 ∧ Meets (exec (.opeIssueCycle 0 false []) s) (fun t => (t.ope 0).pipe.any (fun y => y.kb.any (fun ab =>
      (ab.2.getD 127 {}).poison && !(ab.1.getD 127 {}).poison))) = true := by decide +kernel

theorem test_staged_error : stagedBad [.staging 1] (8 * 64 / 64) = true ∧ stagedBad [.staging 1] (8 * 63 / 64) = false
    ∧ parkBad [.park 15] 1 = true ∧ parkBad [.park 16] 1 = false := by decide

theorem test_stream_parity : let f : Fetch := { q := 5, ctx := 0, tus := [[0, 0], [0, 0]], staged := true }
    (f.struck [1]).tus.map tuPoison = [false, true] ∧ (f.struck [1]).bad = 1 := by decide

theorem test_mvu_error : let s := { tAt 4 0x18 mvxF with core.mvus := [(0, { run := some { e := ent 0x18 mvxF } })] }
    ((s.queue 5).inst 0).any (fun i => !i.done && i.fid.isNone) = true ∧ 1 < (ent 0x18 mvxF).outs * (ent 0x18 mvxF).vsel.length
    ∧ Meets (exec (.mvx (at0 4) 0 [1]) s) (fun t => (t.mvu 0).run.any (fun x => (mgetD x.acc 1 {}).st == 4)) = true := by decide +kernel

theorem test_unit_parity : let u : FabUnit := ⟨{ type := 0x21, vc := 3 }, 0, false⟩
    let f : Frame := { ctype := 1, seq := 8, units := [u, u] }
    let s : State := { tLive with core.fab := { modidSet := true, ports := [(0, { st := .active, seq := 9, next := 4, resend := [f] })] } }
    Meets (exec (.frameTransmit 0 [1]) s) (fun t => (t.port 0).out.any (fun g => g.units.map (·.p) == [false, true])
      && t.counter (rasBase + 0x120) == 1) = true := by decide +kernel

theorem test_ill_formed_errors : ([.opeCellWrite 0 [.corrected 5], .opeCellWrite 0 [.line 4096], .opeIssueCycle 0 true [.cell 4 0 0], .rowPortOpStart 0 [.control 4],
    .rowPortOpStart 0 [.staging 273], .rowPortOpStart 0 [.park 17424], .rowPortOpStart 0 [.drain 0 273], .mvx ⟨4, 0, 0⟩ 0 [16384], .vop ⟨5, 0, 0⟩ [2 ^ 24],
    .vred ⟨5, 0, 0⟩ [2 ^ 24], .qnt ⟨5, 0, 0⟩ [2 ^ 24], .tuLand 0 0 [2], .frameTransmit 0 [76]] : List Instr).all (fun i => !WellFormed i) = true := by decide

/-! Stream engines -/

/-- A descriptor at 0x3000000: one entry, a window of 2, a ring of 2 places in memory at 0x5000000, its list at 0x3000040. -/
def descCells : Mem := [(0x3000001, 2), (0x3000002, 1), (0x3000004, 2), (0x3000008, 0x40), (0x300000B, 3), (0x300001B, 5)]

/-- A SARM of stream 1023 at the head of its slot. -/
def tSarm : State := { tAt 6 0x30 [(16, 4, 1023), (24, 8, 0x3000000)] with core.mem.hbm := descCells }

theorem test_sarm : let e := ent 0x30 [(16, 4, 1023), (24, 8, 0x3000000)]
    HeadOk tSarm (at0 6) 0x30 (sarmBad tSarm (at0 6)) e ∧ tSarm.seIssuing (at0 6) = false ∧ tSarm.headHeld (at0 6) = false
    ∧ tSarm.vcheck 0 e.descAt 48 false true = .none ∧ e.stream = 1023 ∧ (tSarm.stream 1023).st = 0
    ∧ firstBad (tSarm.streamBad 0 (tSarm.vnat 0 e.descAt 48 true)) = none ∧ tSarm.destAbsent (bits (tSarm.vnat 0 e.descAt 48 true) 192 64) = none
    ∧ Meets (exec (.sarm (at0 6)) tSarm) (fun t => (t.stream 1023).st == 1 && (t.stream 1023).cur.at_ == 0x3000000) = true := by unfold HeadOk; decide +kernel

theorem test_scan_idle : let s := tAt 6 0x31 [(16, 4, 1023)]
    HeadOk s (at0 6) 0x31 (fun e => s.streamIdBad (at0 6) e) (ent 0x31 [(16, 4, 1023)]) ∧ (s.stream 1023).st = 0 ∧ (s.se 0).wbs = []
    ∧ Meets (exec (.scan (at0 6)) s) (fun t => ((t.queue 5).inst 0).any (fun i => i.done && mhas i.outs 5)) = true := by unfold HeadOk; decide +kernel

/-- Stream 7 armed with that descriptor by queue 5, in a state. -/
def tStream (x : Stream) : State := { tSarm with core.streams := [(7, x)] }

/-- The arming as SARM leaves it. -/
def tArm : Arming := { gen := 4, at_ := 0x3000000, desc := tSarm.vnat 0 0x3000000 48 true, q := 5 }

theorem test_stream_activates : let s := tStream { st := 1, cur := tArm }
    (firstStream (s.armedOf 0)).map (·.1) = some 7 ∧ (s.stream 7).redo = [] ∧ (s.stream 7).cur.ended = false ∧ s.vcheck 0 0x3000000 48 false true = .none
    ∧ (s.core.streams.filter (fun e => [2, 5, 7].contains e.2.st && decide (e.2.slot.unit = 0))).length < 512
    ∧ Meets (exec (.streamActivate 0) s) (fun t => (t.stream 7).st == 2 && (t.stream 7).cur.gen == 4) = true := by decide +kernel

theorem test_stream_deadline : let d := tArm.desc + 3 + put 128 64 9
    let s := { tStream { st := 2, cur := { tArm with desc := d } } with
               core.ses := [(0, { tracker := [(255, { tag := some ⟨7, 4, 0, 0, 0⟩, q := 5, ctx := 0, tus := [[]] })] })] }
    (s.stream 7).cur.rt = true ∧ (s.stream 7).cur.abort = true ∧ (s.stream 7).cur.deadline = 9 ∧ (s.se 0).fetchesOf 7 (fun _ => true) ≠ []
    ∧ Stays (exec (.streamDeadline 7) { s with ft.ns := 8 }) { s with ft.ns := 8 } = true
    ∧ Meets (exec (.streamDeadline 7) { s with ft.ns := 9 }) (fun t => (t.stream 7).st == 5 && (t.stream 7).endCode == 3) = true := by decide +kernel

theorem test_fetch_ready : let s := tStream { st := 2, cur := tArm, ent := some (put 0 56 0x4000000 + put 64 32 1) }
    let w := s.streamWant (s.stream 7) (put 0 56 0x4000000 + put 64 32 1) false
    (s.candidates 0).map Cand.key = [7] ∧ (s.stream 7).cur.nent = 1 ∧ s.lbarPending (s.stream 7).slot = false ∧ (s.wantStop w).1 = .none
    ∧ (s.stream 7).cur.window = 2 ∧ s.busyLines w.engines w.plines = [] ∧ w.addrs = [0x5000000]
    ∧ firstFree 256 ((s.se 0).tracker.map (·.1)) = some 0 := by decide +kernel

theorem test_tu_silt : let f : Fetch := { tag := some ⟨7, 3, 0, 0, 0⟩, q := 5, ctx := 0, tus := [], silt := true }
    let s := { tStream { st := 2, cur := tArm } with core.ses := [(0, { tracker := [(255, f)] })] }
    mget (s.se 0).tracker 255 = some f ∧ (s.ctx 0).st = .active ∧ (s.stream 7).slot.unit = 0
    ∧ Meets (exec (.tuLand 0 255 []) s) (fun t => (t.se 0).tracker.isEmpty && t.core.opes.isEmpty) = true := by decide +kernel

theorem test_tu_lands : let f : Fetch := { tag := some ⟨7, 4, 0, 0, 0⟩, q := 5, ctx := 0, tus := [], engines := [(63, 1087)], plines := 33 }
    let s := { tStream { st := 2, cur := tArm } with core.ses := [(0, { tracker := [(0, f)] })] }
    landLines (f.tus.map (fun x => withGen x 4)) ≤ f.plines
    ∧ Meets (exec (.tuLand 0 0 []) s) (fun t => (t.se 0).tracker.isEmpty && (mget (t.ope 63).obuf 1087).isSome) = true := by decide +kernel

theorem test_writeback_ack : let w : WriteBack := { stream := 7, ctx := 0, q := 5, endref := 0, code := 0, wrote := true }
    let s := { tLive with core.ses := [(7, { wbs := [w] })] }
    (s.se 7).wbs[0]? = some w ∧ Meets (exec (.streamWritebackAck 7 0) s) (fun t => (t.se 7).wbs.isEmpty) = true := by decide +kernel

theorem test_writeback_waits : let w : WriteBack := { stream := 7, ctx := 0, q := 5, endref := 0, code := 0 }
    let s := { tLive with core.ses := [(7, { wbs := [w] })] }
    Stays (exec (.streamWritebackAck 7 0) s) s = true := by decide +kernel

theorem test_tcopy : let f := [(16, 4, 2), (20, 4, 16384), (24, 8, 0x4000000), (32, 4, 16384), (40, 8, 0x5000000)]
    let z := [(24, 8, 0x4000000), (40, 8, 0x5000000)]
    HeadOk (tAt 6 0x32 f) (at0 6) 0x32 (tAt 6 0x32 f).tcopyBad (ent 0x32 f) ∧ vecDest (ent 0x32 f).dest = false ∧ (ent 0x32 f).eff 0 16 24 = 2
    ∧ HeadOk (tAt 6 0x32 z) (at0 6) 0x32 (tAt 6 0x32 z).tcopyBad (ent 0x32 z)
    ∧ Meets (exec (.tcopy (at0 6)) (tAt 6 0x32 f)) (fun t => ((t.se 0).jobs).map (·.total) == [2]) = true
    ∧ Meets (exec (.tcopy (at0 6)) (tAt 6 0x32 z)) (fun t => (t.se 0).jobs.isEmpty && ((t.queue 5).inst 0).any (·.done)) = true := by unfold HeadOk; decide +kernel

theorem test_tcopy_vector : let f := [(16, 4, 32), (24, 8, 0x4000000), (36, 1, 5), (40, 8, 2 ^ 61 + 17)]
    let s := tAt 6 0x32 f
    let e := ent 0x32 f
    HeadOk s (at0 6) 0x32 s.tcopyBad e ∧ vecDest e.dest = true ∧ s.roomFor (at0 6) 5 0 0x4000000 (arrayBytes 5 32) = true
    ∧ s.vcheck 0 0x4000000 (arrayBytes 5 32) false true = .none ∧ s.vecHeld 5 0 = false ∧ (vecTargets e.dest).length = 1
    ∧ Meets (exec (.tcopy (at0 6)) s) (fun t => ((t.queue 5).inst 0).any (·.done) && (vecTargets e.dest).all (fun p => mhas (t.mvu p.1).vecs p.2)) = true := by
  unfold HeadOk; decide +kernel

/-- A stack of four places whose micro-batch 9 has reserved two, with one entry of one place. -/
def sedOf (op n : Nat) : State :=
  { tAt 6 op [(16, 2, 9), (18, 2, 3), (20, 4, n), (24, 8, 0x2000000)] with
    core.seds := [(0, { base := 0x8000000, size := 4, mbs := [(9, { resv := 2, entries := [{ layer := 3, places := [0] }] })] })] }

theorem test_push : let e := ent 0x34 [(16, 2, 9), (18, 2, 3), (20, 4, 1), (24, 8, 0x2000000)]
    HeadOk (sedOf 0x34 1) (at0 6) 0x34 (fun e => alignBad 24 (e.eff 1 24 56) tuBytes) e ∧ (((sedOf 0x34 1).sed 0).mb 9).free = 1 ∧ e.count24 = 1
    ∧ Meets (exec (.push (at0 6)) (sedOf 0x34 1)) (fun t => (t.se 0).jobs.map (·.places) == [[2]]) = true
    ∧ ((sedOf 0x34 2).ctx 0).flag 3 = false
    ∧ Meets (exec (.push (at0 6)) (sedOf 0x34 2)) (fun t => t.flagBit sedInt 2 && ((t.queue 5).inst 0).any (fun i => mhas i.outs 0xD)) = true := by
  unfold HeadOk; decide +kernel

theorem test_pop : let e := ent 0x35 [(16, 2, 9), (18, 2, 3), (20, 4, 1), (24, 8, 0x2000000)]
    HeadOk (sedOf 0x35 1) (at0 6) 0x35 (fun e => e.destAlign 24 tuBytes ++ (sedOf 0x35 1).obufBad 24 e.dest ++ (sedOf 0x35 1).popStackBad e) e
    ∧ Meets (exec (.pop (at0 6)) (sedOf 0x35 1)) (fun t => (t.se 0).jobs.map (·.places) == [[0]] && ((t.sed 0).mb 9).entries.isEmpty) = true := by
  unfold HeadOk; decide +kernel

/-- A PIN or UNPIN of pooled tile unit 1 by queue 5 of context 1. -/
def tPin (op n quota : Nat) : State :=
  let raw := word op [(16, 4, n), (24, 8, 16384)]
  { tMap true with
    core.mmu.ctxs := [(1, { st := .active, entry := put 76 44 1 + put 128 32 quota + put 160 32 8, tagFirst := 0, tagCount := 16 })]
    core.qm := {
      queues := [(5, { tq 6 with fetch := 1, nextSeq := 1, fl := [{ seq := 0, tag := 0, op := op, sig := 0, mode := 0, deadline := 0, prog := 0 }] })]
      slots := [(slotKey (at0 6), 5)], eiq := [(slotKey (at0 6), [⟨5, 0, raw, 1, []⟩])] }
    core.mem.pool := [(2, { tTu with pin := 1 })] }

theorem test_pin : let e : Entry := ⟨5, 0, word 0x36 [(16, 4, 1), (24, 8, 16384)], 1, []⟩
    let s := tPin 0x36 1 1
    HeadOk s (at0 6) 0x36 pinBad e ∧ s.pinStop e = .none ∧ s.hadEffect e = false ∧ s.pinRange e = [(2, 0)] ∧ s.pinLimit e (s.pinRange e) = none
    ∧ Meets (exec (.pin (at0 6)) s) (fun t => (mget t.core.mem.pool 2).any (fun p => p.pin == 2)) = true := by unfold HeadOk; decide +kernel

theorem test_pin_limit : let e : Entry := ⟨5, 0, word 0x36 [(16, 4, 2), (24, 8, 16384)], 1, []⟩
    let s := tPin 0x36 2 1
    HeadOk s (at0 6) 0x36 pinBad e ∧ s.pinStop e = .none ∧ (s.pinLimit e (s.pinRange e)).isSome = true
    ∧ Meets (exec (.pin (at0 6)) s) (fun t => ((t.queue 5).inst 0).any (fun i => mhas i.outs 0xE)) = true := by unfold HeadOk; decide +kernel

theorem test_unpin : let e : Entry := ⟨5, 0, word 0x37 [(16, 4, 1), (24, 8, 16384)], 1, []⟩
    HeadOk (tPin 0x37 1 1) (at0 6) 0x37 pinBad e ∧ (tPin 0x37 1 1).pinRange e = [(2, 0)]
    ∧ Meets (exec (.unpin (at0 6)) (tPin 0x37 1 1)) (fun t => (mget t.core.mem.pool 2).any (fun p => p.pin == 0)) = true := by unfold HeadOk; decide +kernel

theorem test_upd_head : let f := [(17, 1, 0), (20, 4, 1), (24, 8, 0x3100000), (32, 8, 0x3101000), (40, 8, 0x3103000)]
    let s := { tAt 6 0x40 f with core.mem.hbm := [(0x3103001, 5)] }
    let d := s.vnat 0 (ent 0x40 f).orec 64 false
    HeadOk s (at0 6) 0x40 s.updBad (ent 0x40 f) ∧ (s.se 0).upds = [] ∧ (ent 0x40 f).updBlks = 1 ∧ s.vcheck 0 (ent 0x40 f).orec 64 false false = .none
    ∧ firstBad (recBad (ent 0x40 f).opt d) = none ∧ (s.updStop (ent 0x40 f) d 0).1 = .none := by unfold HeadOk; decide +kernel

theorem test_sed_config : let s := tLive.setReg fldSedSel 1
    (s.sed 1).mbs = [] ∧ Meets (exec (.sedConfigWrite 0x10 (2 ^ 32 + 7)) s) (fun t => (t.sed 1).size == 7) = true
    ∧ Meets (exec (.sedConfigWrite 0x08 16384) s) (fun t => (t.sed 1).base == 16384) = true := by decide +kernel

/-- An OPA that names a K-block count of 0, and a UNPIN of no tile unit: both fail a check at their head. -/
theorem test_rejects : let s := tAt 0 0x10 [(17, 1, 1), (18, 1, 1)]
    let u := tAt 6 0x37 []
    ((s.ope 0).part 0).run = none ∧ (firstBad (s.opaBad (at0 0) (ent 0x10 [(17, 1, 1), (18, 1, 1)]))).isSome = true ∧ s.slotRuns (at0 0) (ent 0x10 [(17, 1, 1), (18, 1, 1)]) = true
    ∧ Meets (exec (.opa (at0 0)) s) (fun t => ((t.queue 5).inst 0).any (fun i => i.done && mhas i.outs 0xC)) = true
    ∧ u.seIssuing (at0 6) = false ∧ u.headHeld (at0 6) = false ∧ firstBad (pinBad (ent 0x37 [])) = some (16, 8)
    ∧ Meets (exec (.unpin (at0 6)) u) (fun t => ((t.queue 5).inst 0).any (fun i => i.done && (mget i.outs 0xC).isSome)) = true := by decide +kernel

/-! Collectives -/

/-- A member table of context 1 at 0x4000: two members, rank 1, route salt left at 0, endpoints of this module and of module 7. -/
def tGrp : State :=
  args { tMap false with core.mem.hbm := (tMap false).core.mem.hbm ++ [(0x4000, 2), (0x4002, 1), (0x4041, 1)] } rceGBase (2 ^ 16 + 11) (0x4000 * 1) []

theorem test_grp_set : let h := tGrp.vnat 1 0x4000 64 false
    tGrp.dispatching = true ∧ tGrp.cmdBusy 2 = false ∧ bits (tGrp.arg rceGBase 0) 0 4 = 11 ∧ tGrp.vcheck 1 0x4000 64 false false = .none ∧ bits h 0 16 = 2 ∧ bits h 16 16 = 1
    ∧ tGrp.vcheck 1 0x4040 4 false false = .none := by decide +kernel

theorem test_grp_refused_and_clear : let b := args tLive rceGBase 12 0 []
    let c := args { tLive with core.rce.groups := [(11, ⟨1, 2, 0, 0, 0, 3⟩)] } rceGBase 11 0 []
    Meets (exec .grpSet b) (fun t => (mgetD t.core.cmds 2 {}).result == 0x8C) = true
    ∧ c.core.rce.buckets = [] ∧ c.core.rce.gathers = [] ∧ Meets (exec .grpClr c) (fun t => (t.group 0 11).isNone && (mgetD t.core.cmds 2 {}).result == 0) = true := by
  decide +kernel

/-- An RCE instruction at its head, with a group of two members of context 0 on channel 0. -/
def tRce (op : Nat) (fs : List (Nat × Nat × Nat)) : State := { tAt 7 op fs with core.rce := { groups := [(0, ⟨0, 2, 0, 0, 0, 0⟩)] } }

/-- An open reduce-scatter of four blocks. -/
def tBkt : Bucket :=
  { rce := 0, slot := 0, q := 5, ctx := 0, id := 9, epoch := 0, gc := 0, op := 0, late := 0, ncontrib := 1, stage := 0x3500000, nblk := 4, thin := 0, close := 0 }

theorem test_bopen : let f := [(16, 2, 9), (22, 2, 2), (24, 8, 0x3500000), (32, 4, 4)]
    let s := tRce 0x50 f
    HeadOk s (at0 7) 0x50 (s.bopenBad (at0 7)) (ent 0x50 f) ∧ s.headHeld (at0 7) = false ∧ mget s.core.rce.buckets (bktKey 9 0) = none
    ∧ s.core.rce.puts = [] ∧ (s.openRun { tBkt with ncontrib := 2 } 4 { e := ent 0x50 f }).2.2.1 = .none
    ∧ Meets (exec (.bopen (at0 7)) s) (fun t => (mget t.core.rce.buckets (bktKey 9 0)).any (fun b => b.nblk == 4 && b.ncontrib == 2)) = true := by
  unfold HeadOk; decide +kernel

theorem test_bopen_granted : let f := [(16, 2, 9), (22, 2, 2), (24, 8, 0x3500000), (32, 4, 4)]
    let s := { tRce 0x50 f with core.rce := { (tRce 0x50 f).core.rce with grants := [(bktKey 9 0, ⟨0, 0, 0, 4, 0, 1⟩)] } }
    s.bopenBad (at0 7) (ent 0x50 f) = [] ∧ Meets (exec (.bopen (at0 7)) s) (fun t => (mget t.core.rce.buckets (bktKey 9 0)).any (fun b => !b.cut)) = true := by
  decide +kernel

theorem test_bput_head : let f := [(16, 2, 9), (20, 1, 5), (24, 8, 0x3300000), (32, 4, 3), (36, 4, 1)]
    let s := { tRce 0x51 f with core.rce.buckets := [(bktKey 9 0, tBkt)] }
    let u := s.touchBlk 0 0x3300000 5 1 0 false
    HeadOk s (at0 7) 0x51 (s.bputBad (at0 7)) (ent 0x51 f) ∧ tBkt.key = bktKey 9 0 ∧ s.core.rce.puts = [] ∧ tBkt.ownLate (s.nowAt 0) = false
    ∧ doneBit (u.recWord tBkt 0 3) = false ∧ doneBit (s.recWord tBkt 0 3) = false
    ∧ (s.spansStop 0 (blkPieces 0x3300000 5 1 0) (tBkt.blkSpans 0 3)).1 = .none
    ∧ Meets (exec (.bput (at0 7)) s) (fun t => (mget t.core.rce.buckets (bktKey 9 0)).any (fun b => b.counted == [3] && t.wordsStop b == .none)
        && ownBit (t.recWord tBkt 0 3)) = true := by unfold HeadOk; decide +kernel

theorem test_bclose : let f := [(16, 2, 9), (20, 1, 5), (24, 8, 0x3600000)]
    let s := { tRce 0x52 f with core.rce.buckets := [(bktKey 9 0, { tBkt with thin := 1 })] }
    HeadOk s (at0 7) 0x52 (s.bcloseBad (at0 7)) (ent 0x52 f) ∧ ({ tBkt with thin := 1 } : Bucket).last = false
    ∧ s.bktOf (at0 7) (ent 0x52 f) = some { tBkt with thin := 1 } ∧ (∀ k, k < 4 → s.piecesStop 0 [tBkt.wordSpan 0 k] true false = .none)
    ∧ Meets (exec (.bclose (at0 7)) s) (fun t => (mget t.core.rce.buckets (bktKey 9 0)).any (fun b => b.round == 1)) = true := by unfold HeadOk; decide +kernel

theorem test_epoch : let f := [(18, 1, 255)]
    let s := { tRce 0x54 f with core.rce.groups := [(0, ⟨0, 2, 0, 0, 0, 8⟩)] }
    HeadOk s (at0 7) 0x54 s.epochBad (ent 0x54 f) ∧ s.core.rce.epochs = [] ∧ s.oldEpoch 0 255 = false
    ∧ Meets (exec (.epoch (at0 7)) s) (fun t => (t.ctx 0).epoch == 255 && (t.group 0 0).any (fun g => g.seq == 0)) = true := by unfold HeadOk; decide +kernel

theorem test_gather_head : let f := [(20, 1, 1), (24, 8, 0x4000000), (32, 4, 512), (40, 8, 0x5000000)]
    let s := tRce 0x53 f
    HeadOk s (at0 7) 0x53 (s.gatherBad (at0 7)) (ent 0x53 f) ∧ s.core.rce.gathers = [] ∧ (s.group 0 0).isSome = true := by unfold HeadOk; decide +kernel

theorem test_rounds : let b := { tBkt with late := 1, close := 500 }
    let f := { tBkt with late := 1, close := 500, op := 2 }
    let s (x : Bucket) (t : Nat) : State := { tRce 0x51 [] with core.rce.buckets := [(bktKey 9 0, x)], ft.ns := t }
    b.last = true ∧ b.key = bktKey 9 0 ∧ (s b 500).wordsStop b = .none ∧ Stays (exec (.roundClose 9 0) (s b 499)) (s b 499) = true
    ∧ Meets (exec (.roundClose 9 0) (s b 500)) (fun t => (mget t.core.rce.buckets b.key).any (·.passed)) = true
    ∧ (s f 0).reg fldGrace = 1000 ∧ Stays (exec (.finalGraceExpiry 9 0) (s f 1000499)) (s f 1000499) = true
    ∧ Meets (exec (.finalGraceExpiry 9 0) (s f 1000500)) (fun t => (mget t.core.rce.buckets f.key).any (·.gaveUp)) = true := by decide +kernel

theorem test_grp_table : let s := tGrp.startCmd 2 1 0
    let u := s.vtouch 1 0x4000 64 false false
    s.vcheck 1 0x4000 64 false false = .none ∧ u.vcheck 1 0x4040 4 false false = .none
    ∧ (u.vtouch 1 0x4040 4 false false).tableBad 0 11 1 2 1 (bits (s.vnat 1 0x4000 64 false) 32 480) ((List.range 2).map (fun i => u.vnat 1 (0x4040 + 2 * i) 2 false)) = false
    ∧ Meets (exec .grpSet tGrp) (fun t => t.group 0 11 == some ⟨1, 2, 1, 256, 256, 0⟩) = true := by decide +kernel

theorem test_grp_set_fault : let s := args tLive rceGBase (2 ^ 16 + 11) 0x4000 []
    (match (s.startCmd 2 1 0).vcheck 1 0x4000 64 false false with | .fault _ _ => true | _ => false) = true
    ∧ Meets (exec .grpSet s) (fun t => (mgetD t.core.cmds 2 {}).result == 0x87 && (t.group 0 11).isNone) = true := by decide +kernel

/-- A group packet of a type for bucket 9 on channel 0, with a close, first block, number of blocks, origin, format and flags. -/
def gPkt (type close first k origin fmt flags : Nat) (data : List Byte) : Packet :=
  { type := type, vc := 4, len := 1 + data.length / 64, hdr := groupHdr 9 0 0 0 close first k origin fmt flags, data := data }

/-- The group's packet has arrived; the bucket, where one is given, is open. -/
def tGot (p : Packet) (bs : Map Bucket) : State :=
  { tRce 0x51 [] with core.fab.inbox := [p], core.rce := { groups := [(0, ⟨0, 2, 0, 0, 0, 0⟩)], buckets := bs } }

theorem test_grants : let g := gPkt 0x40 500 4 0 0 0 2 []
    let r := gPkt 0x45 500 4 0 0 0 2 []
    let d := gPkt 0x41 500 0 1 0 6 0 []
    (tGot g []).live = true ∧ (tGot g []).rceOf (epDie g.dest) (gGc g) = some 0 ∧ gBkt g = bktKey 9 0
    ∧ Meets (exec (.grant g) (tGot g [])) (fun t => mget t.core.rce.grants (gBkt g) == some ⟨0, 0, 500, 4, 2, 1⟩ && t.core.fab.inbox.isEmpty) = true
    ∧ Meets (exec (.revoke r) { tGot r [] with core.rce.grants := [(bktKey 9 0, ⟨0, 0, 500, 4, 2, 1⟩)] }) (fun t => t.core.rce.grants.isEmpty) = true
    ∧ Meets (exec (.rdata d) (tGot d [])) (fun t => t.flagBit (rceInt 0) 2 && t.core.fab.inbox.isEmpty) = true := by decide +kernel

theorem test_first_in : let g := gPkt 0x40 500 4 0 0 0 2 []
    (tGot g []).firstIn g = true ∧ tBkt.cut = false ∧ Stays (exec (.grant g) { tGot g [] with core.fab.inbox := [{ g with txid := 1 }, g] })
      { tGot g [] with core.fab.inbox := [{ g with txid := 1 }, g] } = true := by decide +kernel

theorem test_partial : let d := gPkt 0x41 0 3 1 0 6 0 (List.replicate 66 0 ++ [1, 0])
    let s := tGot d [(bktKey 9 0, tBkt)]
    mget s.core.rce.buckets (gBkt d) = some tBkt ∧ gClose d = tBkt.close ∧ (s.spansStop tBkt.ctx [tBkt.wordSpan 0 (gFirst d)] (tBkt.blkSpans 0 (gFirst d))).1 = .none ∧ gK d = 1 ∧ gFirst d < tBkt.nblk
    ∧ (hdrField d 41 1).testBit 0 = false ∧ doneBit (s.recWord tBkt 0 (gFirst d)) = false ∧ s.rceSlots 0 < rceShare ∧ s.core.rce.slots = []
    ∧ (s.mergeAt tBkt 0 (gFirst d) (gRblk d 0) (ownBit (s.recWord tBkt 0 (gFirst d))) true false).wordsStop tBkt = .none := by decide +kernel

theorem test_moved_lands : let d := gPkt 0x42 0 3 1 1 5 0 (List.replicate 64 0)
    let b := { tBkt with op := 1 }
    gFirst d = 3 ∧ ((tGot d [(bktKey 9 0, b)]).spansStop b.ctx [] (blkPieces b.stage (gFmt d % 16) b.nblk 3 ++ [b.wordSpan 0 3])).1 = .none
    ∧ Meets (exec (.mdata d) (tGot d [(bktKey 9 0, b)])) (fun t => (mget t.core.rce.buckets (bktKey 9 0)).any (fun x => x.landed == [(3, (1, false))])) = true := by
  decide +kernel

theorem test_gather_data : let p : Packet := gPkt 0x43 0 0 0 0 0 0 []
    let d : Packet := gPkt 0x44 0 511 1 1 1 0 (List.replicate 64 0)
    let j : GatherJob := { e := ent 0x53 [], rce := 0, gc := 0, seq := 0, epoch := 0, nfmt := 1, wfmt := 1, nblk := 512, dest := 0x5000000 }
    let s := { tGot d [] with core.rce := { groups := [(0, ⟨0, 2, 0, 0, 0, 1⟩)], gathers := [j] } }
    (tGot p []).gatherOf p 0 = none ∧ Meets (exec (.ggrant p) (tGot p [])) (fun t => t.core.rce.ggrants == [⟨0, 0, 0, 0, 0, 0⟩]) = true
    ∧ s.gatherOf d 0 = some j ∧ gOrigin d < (s.gGroup j).m ∧ j.unfit d = false := by decide +kernel

theorem test_shard_bounds : shardLen 5 2 = 3 ∧ ({ tBkt with nblk := 5 } : Bucket).owner 2 2 = 0 ∧ ({ tBkt with nblk := 5 } : Bucket).owner 2 4 = 1 := by decide +kernel

/-! Fabric -/

/-- The CRC of IEEE 802.3 of "123456789", as its tables give it (R288). -/
theorem test_crc : crc32 [0x31, 0x32, 0x33, 0x34, 0x35, 0x36, 0x37, 0x38, 0x39] = 0xCBF43926 := by decide +kernel

/-- A request of 64 bytes at an address, in a context, for an endpoint. -/
def req (type src ctx : Nat) (data : List Byte) : Packet :=
  { type := type, vc := 3, len := 1 + data.length / 64, src := src, txid := 77, data := data, hdr := hdrPut 16 8 0x4000 + hdrPut 24 2 ctx + hdrPut 26 2 64 }

theorem test_requests : let r := req 0x20 0 0 []
    let w := req 0x21 0 0 (List.replicate 64 1)
    let s (p : Packet) : State := { tMap false with core.fab.inbox := [p] }
    (s r).dispatching = true ∧ (s r).denied r = false ∧ reqT1 r = false ∧ epModule r.src = (s r).modid ∧ (s r).vcheck 0 0x4000 64 false false = .none
    ∧ (s r).firstIn r = true ∧ (s r).cut 0 0x4000 64 false false = [(0x4000, 64)] ∧ w.data.length = reqBytes w ∧ (s w).vcheck 0 0x4000 64 true false = .none
    ∧ Meets (exec (.rdReq r) (s r)) (fun t => t.core.fab.inbox.map (fun x => (x.type, x.txid, x.data.length)) == [(0x30, 77, 64)]) = true
    ∧ Meets (exec (.wrReq w) (s w)) (fun t => t.core.fab.inbox.map (fun x => (x.type, x.txid)) == [(0x31, 77)] && memRead t.core.mem.hbm 0x403F == 1) = true := by
  decide +kernel

theorem test_response_crosses : let r := req 0x20 0x2000 0 []
    let s : State := { tMap false with core.fab.inbox := [r] }
    linkOf (epDie r.dest) (epDie r.src) = some 0 ∧ epModule r.src = s.modid
    ∧ Meets (exec (.rdReq r) s) (fun t => t.core.fab.inbox.isEmpty && t.core.fab.crossing.map (fun c => (c.link, c.pkt.type)) == [(0, 0x30)]) = true := by decide +kernel

/-- Module 0 with port 0 ACTIVE and module 7 routed there. -/
def tRoute : State :=
  ({ tLive with core.fab := { modidSet := true, ports := [(0, { st := .active }), (2, { st := .active })] } } : State).setReg (fldRoute 7) (2 ^ 31 + 2)

theorem test_route (src vc : Nat) : tRoute.routeOf src 7 vc = some 2 := by
  have h : bits (tRoute.reg (fldRoute (epModule 7))) 24 2 + 1 = 1 := by decide +kernel
  have g : Config.routeHash src 7 vc % (bits (tRoute.reg (fldRoute (epModule 7))) 24 2 + 1) = 0 := by rw [h, Nat.mod_one]
  simp only [State.routeOf, g]
  decide +kernel

theorem test_denied : epModule (req 0x20 7 1 []).src ≠ tRoute.modid ∧ reqCtx (req 0x20 7 1 []) ≠ 0 ∧ tRoute.dispatching = true ∧ (req 0x21 7 4095 []).mc = false := by
  decide +kernel

theorem test_transit : let p : Packet := { type := 0x30, vc := 2, dest := 7, src := 3, hops := 1 }
    let x : RxPkt := { id := 4, pkt := p }
    let z : RxPkt := { id := 4, pkt := { p with hops := 0 } }
    let s (x : RxPkt) : State := tRoute.updPort 0 (fun q => { q with rx := [x] })
    (s x).rxPkt 0 4 = some x ∧ (s x).nextRx 0 x = true ∧ (s x).fillXbar 2 2 = s x ∧ min 4 x.pkt.len ≤ x.here ∧ epModule x.pkt.dest ≠ (s x).modid ∧ Machine.packetOk x.pkt = true
    ∧ (s z).rxPkt 0 4 = some z := by decide +kernel

theorem test_transit_crosses : linkOf (dieOfPort 0) (dieOfPort 2) = none ∧ linkOf (dieOfPort 0) (dieOfPort 39) = some 3 := by decide

theorem test_response : let p : Packet := { type := 0x30, vc := 2, len := 2, txid := 77, data := List.replicate 64 0 }
    let a : Packet := { type := 0x31, vc := 2, txid := 77, hdr := hdrPut 16 1 1 }
    let s (p : Packet) : State :=
      { (tHead 6 0x32 0) with core.fab := { inbox := [p], outst := [(77, { type := p.type - 0x10, queue := 5, seq := 0 })] } }
    mget (s p).core.fab.outst 77 = some { type := 0x20, queue := 5, seq := 0 }
    ∧ Meets (exec (.rdRsp p) (s p)) (fun t => t.core.fab.outst.isEmpty && ((t.queue 5).inst 0).any (fun i => i.done && !mhas i.outs 1)) = true
    ∧ Meets (exec (.wrAck a) (s a)) (fun t => t.core.fab.outst.isEmpty && ((t.queue 5).inst 0).any (fun i => i.done && mhas i.outs 1)) = true := by decide +kernel

theorem test_notices : let d : Packet := { type := 0x50, vc := 0, hdr := hdrPut 16 1 0x41 + hdrPut 20 4 (15 * 65536 + 9) }
    let m : Packet := { type := 0x51, vc := 0 }
    let c (sub : Nat) : Packet := { type := 0x11, vc := 1, hdr := hdrPut 16 1 sub }
    let s (p : Packet) : State := { tQ with core.fab.inbox := [p] }
    Meets (exec (.drop d) (s d)) (fun t => t.flagBit (rceInt 15) 4 && t.counter (rceBase 15 + 0x138) == 9) = true
    ∧ Meets (exec (.mgmt m) (s m)) (fun t => t.core.fab.inbox.isEmpty) = true
    ∧ ctrlSub (c 2) = 2 ∧ Meets (exec (.gateNotice (c 2)) (s (c 2))) (fun t => t.core.fab.inbox.isEmpty) = true
    ∧ ctrlSub (c 3) = 3 ∧ Meets (exec (.freezeStatusNotice (c 3)) (s (c 3))) (fun t => t.core.fab.inbox.isEmpty) = true
    ∧ tQ.ownsFlag 1 255 = true ∧ tQ.ownsFlag 1 256 = false ∧ Meets (exec (.flagUpd 255 1 1 5) tQ) (fun t => mgetD t.core.qm.upd 255 [] == [⟨true, some 5⟩]) = true
    ∧ Stays (exec (.flagUpd 256 1 2 5) tQ) tQ = true := by decide +kernel

/-- Port 0 ACTIVE, at SEQ 9 and expecting 4. -/
def tPort (f : Port → Port) : State := { tLive with core.fab := { modidSet := true, ports := [(0, f { st := .active, seq := 9, next := 4 })] } }

theorem test_frames : let f : Frame := { ctype := 1, seq := 8 }
    (tPort id).portActive 0 = true
    ∧ Meets (exec (.frameTransmit 0 []) (tPort id)) (fun t => (t.port 0).seq == 10 && (t.port 0).replay.length == 1) = true
    ∧ Meets (exec (.frameTransmit 0 []) (tPort (fun p => { p with resend := [f] }))) (fun t => (t.port 0).seq == 9 && (t.port 0).resend.isEmpty
        && (t.port 0).out.any (fun g => g.seq == 8 && g.ack == 4)) = true
    ∧ Meets (exec (.markerFrame 0) (tPort (fun p => { p with framesSinceMarker := 1024 }))) (fun t => (t.port 0).framesSinceMarker == 0) = true
    ∧ Meets (exec (.frameReceived 0 (frameSealed { ctype := 1, seq := 4, ack := 9 } 76) 0 0 ⟨[3]⟩) (tPort (fun p => { p with replay := [f] }))) (fun t =>
        (t.port 0).next == 5 && (t.port 0).replay.isEmpty) = true
    ∧ Meets (exec (.frameReceived 0 { ctype := 1, seq := 4 } 0 1 ⟨[]⟩) (tPort id)) (fun t => (t.port 0).next == 4 && (t.port 0).nakOn && (t.port 0).nakcnt == 1) = true
    ∧ Meets (exec (.frameReceived 0 (frameSealed { ctype := 4, seq := 4 } 76) 0 0 ⟨[]⟩) (tPort id)) (fun t => (t.port 0).nakOn) = true
    ∧ frameCrcOk { ctype := 1, seq := 4 } 76 = false
    ∧ Meets (exec (.replayTimeout 0) { tPort (fun p => { p with replay := [f] }) with ft.ns := 4000 }) (fun t => (t.port 0).resend == [f] && (t.port 0).ackFt == 4000) = true
    ∧ Stays (exec (.replayTimeout 0) { tPort (fun p => { p with replay := [f] }) with ft.ns := 3999 }) { tPort (fun p => { p with replay := [f] }) with ft.ns := 3999 } = true
    ∧ Stays (exec (.retryLimit 0) (tPort (fun p => { p with episodes := 15 }))) (tPort (fun p => { p with episodes := 15 })) = true
    ∧ Meets (exec (.retryLimit 0) (tPort (fun p => { p with episodes := 16 }))) (fun t => decide ((t.port 0).st = .train) && t.flagBit (fabInt 0) 2) = true := by
  decide +kernel

/-- A handshake of module 7 that fits. -/
def tHs : Handshake := { modid := 7, fresh := false, incarn := 3, limits := List.replicate 16 5 }

theorem test_bring_up : let r (f : Port → Port) : State := tPort (fun p => f { p with st := .resync, partnerInc := 3 })
    (r id).hsBad 0 tHs = false ∧ (r id).hsBad 0 { tHs with modid := 0 } = true
    ∧ Meets (exec (.trainComplete 0 0 0 false) (tPort (fun p => { p with st := .train }))) (fun t => decide ((t.port 0).st = .resync) && (t.port 0).width == 8) = true
    ∧ Meets (exec (.lossOfSignal 0 7) (tPort id)) (fun t => decide ((t.port 0).st = .train) && (t.port 0).fail.testBit 7) = true
    ∧ Meets (exec (.resync 0 (frameSealed { ctype := 2, hs := some { tHs with modid := 0 } } 76)) (r id)) (fun t => decide ((t.port 0).st = .failed)) = true
    ∧ Meets (exec (.resync 0 (frameSealed { ctype := 2, hs := some tHs } 76)) (r (fun p => { p with fresh := false }))) (fun t => (t.port 0).rsGot && (t.port 0).doneSent && mgetD (t.port 0).limit 15 0 == 5) = true
    ∧ Meets (exec (.survivorDrained 0) (r (fun p => { p with rsFt := some 0 }))) (fun t => (t.port 0).doneSent && (t.port 0).rsFt == none) = true
    ∧ Meets (exec (.resyncDone 0 (frameSealed { ctype := 3, hs := some tHs } 76)) (r (fun p => { p with rsGot := true, doneSent := true }))) (fun t => decide ((t.port 0).st = .active)) = true
    ∧ tLive.reg fldLinkTmo ≠ 0 ∧ Meets (exec (.linkTmo 0) { tPort (fun p => { p with st := .train, left := true, fresh := false }) with ft.ns := 1000000000 }) (fun t => (t.port 0).fresh && !(t.port 0).left) = true := by
  decide +kernel

theorem test_port_control : let d := tPort (fun _ => {})
    d.dispatching = true ∧ d.portPresent 0 = true ∧ Meets (exec (.fabCtlEn 0 true) d) (fun t => decide ((t.port 0).st = .train) && t.reg (fldEn 0) == 1) = true
    ∧ Meets (exec (.fabCtlEn 0 false) (tPort id)) (fun t => decide ((t.port 0).st = .down)) = true
    ∧ Meets (exec (.fabCtlReset 0) (tPort id)) (fun t => decide ((t.port 0).st = .train) && (t.port 0).seq == 9) = true
    ∧ Meets (exec (.fabCtlHalf 0 true) d) (fun t => t.reg (fldHalf 0) == 1) = true ∧ Stays (exec (.fabCtlHalf 0 true) (tPort id)) (tPort id) = true
    ∧ (∀ j ∈ List.range 40, d.reg (fldEn j) = 0) ∧ Meets (exec (.fabModidWrite 8191) d) (fun t => t.modid == 8191) = true
    ∧ Stays (exec (.fabModidWrite 8191) (tPort id)) (tPort id) = true := by decide +kernel

theorem test_d2d : let s := { tLive with core.fab.d2d := [(9, { fails := 16, retry := true })] }
    let c : Crossing := ⟨1, 9, 3, { type := 0x51, vc := 0, len := 2, dest := 0x8000, data := List.replicate 64 0 }, 2, 1, [], none, none, none⟩
    let x := { s with core.fab.crossing := [c] }
    Meets (exec (.d2dUnitReceived 9 ⟨true, false⟩) s) (fun t => mget t.core.fab.d2d 9 == some { units := 1 }) = true
    ∧ Meets (exec (.d2dUnitReceived 9 ⟨false, false⟩) s) (fun t => mget t.core.fab.d2d 9 == some { fails := 17, retry := true }) = true
    ∧ s.nextCrossing 9 = none ∧ x.nextCrossing 9 = some c
    ∧ Meets (exec (.d2dUnitReceived 9 ⟨true, false⟩) x) (fun t => t.core.fab.inbox == [c.pkt] && t.core.fab.crossing.isEmpty
        && t.core.fab.held == [⟨c.pkt, none, some (9, 3)⟩]) = true
    ∧ Meets (exec (.d2dLinkFailed 9) s) (fun t => t.core.ras.stop) = true ∧ Stays (exec (.d2dLinkFailed 9) tLive) tLive = true
    ∧ Meets (exec (.fifoDupMismatch 5 0) tLive) (fun t => t.core.ras.stop) = true ∧ Meets (exec (.fifoDupMismatch 2 9) tLive) (fun t => t.core.ras.stop) = true := by
  decide +kernel

/-! Formats -/

theorem test_relations : relHolds 4 (2 ^ 32 - 1) 0 = true ∧ relHolds 2 (2 ^ 32 - 1) 0 = false ∧ (17, 8) ∈ ctlBad (ctlWord 11 h0 (bodyPut 17 1 6)) := by decide +kernel

/-- A zero sum with a large exponent leaves a cell as it was (R56), and a merged exponent never falls (R57). -/
theorem test_cell : (({ m := 5, x := -100 } : Cell).mergeBlock { e := 90 }).1 = { m := 5, x := -100 } ∧ (({ m := 5, x := -100 } : Cell).mergeBlock { s := 1 }).1.x = -24 := by
  decide +kernel

/-! Register reads -/

/-- A wrong size or alignment is an unsupported request (R7); absent windows, reserved space and WO fields read as 0 (R3, R8, R9); GLB_GRADE of a
NYL-340 is 0x14084001 (R1); FT reads as it stands, and the halves agree after the lower one is read (R29). -/
theorem test_reads : let s := { tLive with core.boot := { tLive.core.boot with fusesLoaded := true }, ft.ns := 2 ^ 33 + 5, ft.latch := [(0, 2)] }
    s.barRead 0x10 2 = none ∧ s.barRead 0x14 8 = none ∧ s.barRead 0x10 4 = some 0x14084001 ∧ s.barRead 0x13F0000 4 = some 0
    ∧ s.barRead 0x100 8 = some (2 ^ 33 + 5) ∧ s.barRead 0x100 4 = some 5 ∧ s.barRead 0x104 4 = some 2
    ∧ ({ s with fuse.grade := 3 }).barRead (memBase 7 + 0x08) 8 = some 0 ∧ ({ s with fuse.grade := 3 }).barRead (fabBase 9 + 0x08) 8 = some 0
    ∧ s.pageRead 5 0 4 = some 0 ∧ tQ.pageRead 5 0x10 4 = some 3 ∧ tQ.pageRead 5 0x12 4 = none ∧ s.identity.device = 0x0340
    ∧ (tQ.barRead (flgBase + 24) 8) = some (2 ^ 63 + 7) := by decide +kernel

end Sys2Proof.Tests
end

section
/-! Cells of accumulators: their words, their images and their exponents under a merge (03_integer_formats R55 to R58, R95). -/
namespace Sys2Proof.Machine

/-! Words -/

/-- The signed reading of a word is the library's balanced remainder. -/
theorem sext_eq_bmod {w : Nat} (hw : 0 < w) (n : Nat) : sext w n = Int.bmod n (2 ^ w) := by
  obtain ⟨k, rfl⟩ := Nat.exists_eq_succ_of_ne_zero hw.ne'
  have half : (((2 ^ (k + 1) : Nat) : Int) + 1) / 2 = ((2 ^ k : Nat) : Int) := by rw [pow_succ]; omega
  have low : ((n % 2 ^ (k + 1) : Nat) : Int) < ((2 ^ k : Nat) : Int) ↔ n % 2 ^ (k + 1) < 2 ^ k := Int.ofNat_lt
  simp only [sext, Int.bmod_def, half, Nat.succ_eq_add_one, Nat.add_sub_cancel, ← Int.natCast_emod, low]

/-- A signed number within w bits is what its word reads as. -/
theorem sext_toWord {w : Nat} (hw : 0 < w) {x : Int} (lo : -(2 ^ (w - 1)) ≤ x) (hi : x < 2 ^ (w - 1)) :
    sext w (toWord w x) = x := by
  obtain ⟨k, rfl⟩ := Nat.exists_eq_succ_of_ne_zero hw.ne'
  have nonneg : 0 ≤ x % ((2 ^ (k + 1) : Nat) : Int) := Int.emod_nonneg _ (by positivity)
  rw [sext_eq_bmod hw, toWord, Int.toNat_of_nonneg nonneg, Int.emod_bmod]
  simp only [Nat.succ_eq_add_one, Nat.add_sub_cancel] at lo hi
  apply Int.bmod_eq_of_le <;> push_cast [pow_succ] <;> omega

/-- The word of a w-bit signed number is below 2^w. -/
theorem toWord_lt (w : Nat) (x : Int) : toWord w x < 2 ^ w := by
  have := Int.emod_lt_of_pos x (b := ((2 ^ w : Nat) : Int)) (by positivity)
  unfold toWord; omega

/-- Bits above the w lowest do not count in a w-bit reading. -/
theorem sext_add_mul (w a b : Nat) : sext w (a + b * 2 ^ w) = sext w a := by simp [sext]

/-- The low byte of a cell's word reads as its exponent (R55). -/
theorem Cell.sext_word {c : Cell} (lo : -128 ≤ c.x) (hi : c.x < 128) : sext 8 c.word = c.x :=
  (sext_add_mul 8 ..).trans (sext_toWord (by decide) lo hi)

/-- Above its low byte a cell's word is the word of its mantissa (R55). -/
theorem Cell.word_div (c : Cell) : c.word / 256 = toWord 56 c.m := by
  have := toWord_lt 8 c.x
  unfold Cell.word; omega

/-- A cell within its widths is what its word and status nibble say (R55). -/
theorem Cell.ofWord_word {c : Cell} (mlo : -(2 ^ 55) ≤ c.m) (mhi : c.m < 2 ^ 55) (xlo : -128 ≤ c.x) (xhi : c.x < 128) (hst : c.st < 16) :
    Cell.ofWord c.word c.st = c := by
  rw [Cell.ofWord, c.word_div, sext_toWord (by decide) mlo mhi, Cell.sext_word xlo xhi, Nat.mod_eq_of_lt hst]

/-! Tiles -/

/-- A map made from a list of keys gives each of them its value. -/
theorem mget_map_key {α : Type} (f : Nat → α) {l : List Nat} {n : Nat} (h : n ∈ l) :
    mget (l.map (fun i => (i, f i))) n = some (f n) := by
  induction l with
  | nil => cases h
  | cons i l ih =>
    rw [List.map_cons, mget_cons]
    split
    case isTrue e => rw [e]
    case isFalse e => exact ih ((List.mem_cons.mp h).resolve_left (Ne.symm e))

/-- ACCZ leaves every cell with the exponent -128 (R57). -/
@[simp] theorem Tile.zero_cell_x (sh n : Nat) : ((Tile.zero false sh).cell n).x = -128 := rfl

/-- A cell of an image has the exponent of its word there (R57, R95). -/
theorem tileOfImage_cell_x {sh n : Nat} (m : List Byte) (p : Nat → Bool) (h : n < shapeCells sh) :
    ((tileOfImage false sh m p).cell n).x = sext 8 (bytesAt m (8 * n) 8) := by
  simp [tileOfImage, Tile.cell, mgetD, mget_map_key _ (List.mem_range.mpr h), Cell.ofWord]

/-! Merges -/

/-- A merge at a floor exponent ends at that exponent or above, and at 127 where it would pass 127 (R56). -/
theorem Cell.place_x (c : Cell) (v : Dy) (x : Int) : min x 127 ≤ (c.place v x).1.x ∧ (c.place v x).1.x ≤ 127 := by
  unfold Cell.place
  extract_lets fits m wide x' c'
  have raised : x ≤ x' := by
    unfold x'
    split <;> omega
  split
  case isTrue => exact ⟨min_le_right .., le_rfl⟩
  case isFalse within => exact ⟨(min_le_left ..).trans raised, not_lt.mp within⟩

/-- A merge at a floor exponent no lower than a cell's keeps the cell's exponent from falling. -/
theorem Cell.le_place_x (c : Cell) (v : Dy) {y x : Int} (hx : y ≤ x) (hy : y ≤ 127) : y ≤ (c.place v x).1.x ∧ (c.place v x).1.x ≤ 127 := by
  obtain ⟨lo, hi⟩ := c.place_x v x
  exact ⟨(le_min hx hy).trans lo, hi⟩

/-- A block sum merged into a cell lowers no exponent and passes no 127 (R57). -/
theorem Cell.mergeBlock_x {c : Cell} (h : c.x ≤ 127) (b : BlkSum) : c.x ≤ (c.mergeBlock b).1.x ∧ (c.mergeBlock b).1.x ≤ 127 := by
  unfold Cell.mergeBlock
  extract_lets c'
  split
  case isTrue => exact ⟨le_rfl, h⟩
  case isFalse => exact c'.le_place_x _ (le_max_left ..) h

/-- Another cell merged into a cell lowers no exponent and passes no 127 (R57, R58). -/
theorem Cell.mergeCell_x {c : Cell} (h : c.x ≤ 127) (d : Cell) : c.x ≤ (c.mergeCell d).1.x ∧ (c.mergeCell d).1.x ≤ 127 := by
  unfold Cell.mergeCell
  extract_lets c'
  split
  case isTrue => exact ⟨le_rfl, h⟩
  case isFalse => exact c'.le_place_x _ (le_max_left ..) h

/-- Settles O22: a merge starts at a floor exponent no lower than the cell's and renormalises upwards alone, and an image's cell is its word read back. -/
theorem cellExponentKept : Obligations.CellExponentKept :=
  ⟨fun _ h => ⟨Cell.mergeBlock_x h, fun d _ => Cell.mergeCell_x h d⟩, Tile.zero_cell_x, fun _ m p _ => tileOfImage_cell_x m p,
    fun _ => Cell.ofWord_word⟩

end Sys2Proof.Machine
end

section
/-! Relations and the codes that fail (07_tile_instruction_reference R173, R174). -/
namespace Sys2Proof.Machine

/-! Relations on 32-bit words -/

/-- A word's signed reading is the library's (R6). -/
theorem sext_toNat {w : Nat} (hw : 0 < w) (a : BitVec w) : sext w a.toNat = a.toInt := by
  rw [sext_eq_bmod hw, BitVec.toInt_eq_toNat_bmod]

/-! Failed checks -/

/-- A check reports its own byte and reason, and only where it fails. -/
@[simp] theorem mem_check {p : Bool} {b c : Bad} : c ∈ check p b ↔ p = true ∧ c = b := by
  cases p <;> simp [check]

/-- Nothing is reported only where nothing failed (R174). -/
@[simp] theorem firstBad_eq_none {l : List Bad} : firstBad l = none ↔ l = [] := by
  cases l with
  | nil => simp [firstBad]
  | cons b l =>
    cases hl : firstBad l with
    | none => simp [firstBad, hl]
    | some c => simp only [firstBad, hl]; split <;> simp

/-- What is reported failed, and nothing failed at a byte before it (R174). -/
theorem firstBad_eq_some {l : List Bad} {c : Bad} (h : firstBad l = some c) : c ∈ l ∧ ∀ b ∈ l, c.1 ≤ b.1 := by
  induction l generalizing c with
  | nil => cases h
  | cons d l ih =>
    cases hl : firstBad l with
    | none =>
      obtain rfl := firstBad_eq_none.mp hl
      obtain rfl : d = c := by simpa [firstBad] using h
      simp
    | some e =>
      obtain ⟨mem, le⟩ := ih hl
      simp only [firstBad, hl] at h
      split at h <;> obtain rfl := Option.some.inj h
      case isTrue first =>
        have de : d.1 ≤ e.1 := by omega
        exact ⟨List.mem_cons_self, List.forall_mem_cons.mpr ⟨le_rfl, fun b hb => de.trans (le b hb)⟩⟩
      case isFalse later => exact ⟨List.mem_cons_of_mem d mem, List.forall_mem_cons.mpr ⟨by omega, le⟩⟩

/-- Where a check failed, one that failed is reported, at that check's byte or before it (R174). -/
theorem firstBad_of_mem {l : List Bad} {b : Bad} (h : b ∈ l) : ∃ c ∈ l, firstBad l = some c ∧ c.1 ≤ b.1 := by
  cases hl : firstBad l with
  | none => exact absurd h (firstBad_eq_none.mp hl ▸ List.not_mem_nil)
  | some c =>
    obtain ⟨mem, le⟩ := firstBad_eq_some hl
    exact ⟨c, mem, rfl, le b h⟩

/-! The relation's field of CSET and CMPB -/

/-- Does a control instruction carry a relation: CMPB, and CSET that arms a comparator (R173, R178)? -/
def HasRelation (raw : Nat) : Prop := iOp raw = 0x0B ∨ (iOp raw = 0x09 ∧ bits (iField raw 16 1) 4 1 = 1)

/-- A relation's code of 6 to 15 is reported at the relation's byte with reason 0x08 (R173). -/
theorem ctlBad_of_relation {raw : Nat} (code : 6 ≤ iField raw 17 1 % 16) (rel : HasRelation raw) : (17, 8) ∈ ctlBad raw := by
  have high : 5 < iField raw 17 1 % 16 := code
  obtain op | ⟨op, armed⟩ := rel
  · simp [ctlBad, op, high]
  · simp [ctlBad, op, armed, high]

/-- Up to the relation's byte, reason 0x08 is the only one of an instruction that carries a relation (R149, R150). -/
theorem reason_of_mem_ctlBad {raw : Nat} {b : Bad} (rel : HasRelation raw) (h : b ∈ ctlBad raw) (le : b.1 ≤ 17) : b.2 = 8 := by
  obtain op | ⟨op, armed⟩ := rel
  · simp only [ctlBad, op, List.mem_append, mem_check] at h
    obtain ⟨-, rfl⟩ | ⟨-, rfl⟩ := h
    · rfl
    · exact absurd le (by decide)
  · obtain ⟨-, rfl⟩ | ⟨-, rfl⟩ := by simpa [ctlBad, op, armed] using h
    · rfl
    · rfl

/-- Settles O28: a signed relation is the library's order of the words' signed readings; an invalid code fails its check, and no check of an
instruction with a relation fails with another reason up to that byte. -/
theorem relationCodes : Obligations.RelationCodes := by
  refine ⟨fun a b => ?_, fun raw code rel => ?_⟩
  · simp [relHolds, sext_toNat, BitVec.toNat_inj]
  · have failed : (17, 8) ∈ ctlBad raw := ctlBad_of_relation code rel
    obtain ⟨c, mem, first, le⟩ := firstBad_of_mem failed
    exact ⟨failed, c, first, le, reason_of_mem_ctlBad rel mem le⟩

end Sys2Proof.Machine
end

section
/-! Shards of a bucket: their length and the rank that owns a block (13_collectives_and_sharding R315). -/
namespace Sys2Proof.Machine

/-- The blocks per shard are the library's quotient rounded up (R315). -/
theorem shardLen_eq_ceilDiv (nblk : Nat) {m : Nat} (hm : 0 < m) : shardLen nblk m = nblk ⌈/⌉ m := by
  rw [shardLen, max_eq_right hm, ceilDiv, Nat.ceilDiv_eq_add_pred_div]

/-- The shards of a group together hold every block. -/
theorem le_mul_shardLen (nblk : Nat) {m : Nat} (hm : 0 < m) : nblk ≤ m * shardLen nblk m := by
  rw [shardLen_eq_ceilDiv nblk hm, ← smul_eq_mul]
  exact le_smul_ceilDiv hm

/-- A bucket with a block has no shards of length 0. -/
theorem shardLen_pos {nblk m : Nat} (hm : 0 < m) (hn : 0 < nblk) : 0 < shardLen nblk m :=
  Nat.pos_of_mul_pos_left (hn.trans_le (le_mul_shardLen nblk hm))

/-- In a bucket with a block, the owner of block k is the quotient of k by the blocks per shard. -/
theorem Bucket.owner_eq_div {b : Bucket} {m : Nat} (hm : 0 < m) (hn : 0 < b.nblk) (k : Nat) : b.owner m k = k / shardLen b.nblk m := by
  rw [Bucket.owner, max_eq_right (shardLen_pos hm hn)]

/-- A rank owns the blocks from its rank times the blocks per shard up to the next rank's first (R315). -/
theorem Bucket.owner_eq_iff {b : Bucket} {m : Nat} (hm : 0 < m) (hn : 0 < b.nblk) (k r : Nat) :
    b.owner m k = r ↔ r * shardLen b.nblk m ≤ k ∧ k < (r + 1) * shardLen b.nblk m := by
  have pos : 0 < shardLen b.nblk m := shardLen_pos hm hn
  rw [Bucket.owner_eq_div hm hn, le_antisymm_iff, ← Nat.lt_succ_iff, Nat.div_lt_iff_lt_mul pos, Nat.le_div_iff_mul_le pos, and_comm]

/-- The owner of a block of the bucket is a rank of the group. -/
theorem Bucket.owner_lt {b : Bucket} {m k : Nat} (hm : 0 < m) (hk : k < b.nblk) : b.owner m k < m := by
  have hn : 0 < b.nblk := Nat.zero_lt_of_lt hk
  rw [Bucket.owner_eq_div hm hn, Nat.div_lt_iff_lt_mul (shardLen_pos hm hn)]
  exact hk.trans_le (le_mul_shardLen b.nblk hm)

/-- Settles O27: a block's owner is its quotient by the blocks per shard, and the shards of M ranks reach past the last block. -/
theorem shardsOwned : Obligations.ShardsOwned := by
  intro b m k r hm hk
  have hn : 0 < b.nblk := Nat.zero_lt_of_lt hk
  refine ⟨shardLen_eq_ceilDiv b.nblk hm, ?_, b.owner_lt hm hk⟩
  rw [Bucket.owner_eq_iff hm hn, lt_min_iff, and_iff_left hk]

end Sys2Proof.Machine
end

section
/-! What every command's outcome keeps: the fuses and the commands that wait; FT, but for the commands that may set it
(02_fabric_time R27-R40). -/
namespace Sys2Proof.Machine

/-! Which lift makes a command's outcome -/

/-- Commands whose meanings may set FT: corrections, and those by which a life ends or begins. -/
def setsFt (c : Instr) : Bool := lifeCommand c || timeCommand c

/-- Every command's outcome comes from a change of FT and the core. -/
theorem exec_eq_liftTime (c : Instr) (s : State) : ∃ f : State → State, exec c s = liftTime f s := by
  have lock (f : State → State) : ∃ g : State → State, liftLock f s = liftTime g s :=
    ⟨fun s => { s with ft := { (f s).ft with ns := s.ft.ns, frac := s.ft.frac }, core := (f s).core }, rfl⟩
  have core (f : State → State) : ∃ g : State → State, liftCore f s = liftTime g s := ⟨fun s => { s with core := (f s).core }, rfl⟩
  cases c <;> simp only [exec]
  case regWrite off size val =>
    cases time : timeReg off <;> simp only [execRegWrite, time, if_true, Bool.false_eq_true, if_false]
    · exact lock _
    · exact ⟨_, rfl⟩
  case restep | nextsecWrite | tsyncEdge | timeReply | ready | sbPwrEnAssert | pwrEnDeferredStart | sbPwrEnDeassert | hostPerstNAssert
      | hostPerstNDeassert | vinOutOfRange | inputRestart | cxlReset | thermalSample | tripRestart | hardThermal | fatalHoldExpiry | secReset
      | activateFw => exact ⟨_, rfl⟩
  case glbFtLowRead | tsyncTimeout | refLoss | holdoverLimit | timeExchangeStart | timeRequest | timerefPresent | frameReceived | retryLimit
      | lossOfSignal | resync | resyncDone | linkTmo | fabCtlEn | fabCtlReset | fifoDupMismatch => exact lock _
  all_goals exact core _

/-- A command that does not set FT leaves its value alone. -/
theorem exec_keeps_ft {c : Instr} {s t : State} (h : setsFt c = false) (e : exec c s = .next t) : t.ft.ns = s.ft.ns ∧ t.ft.frac = s.ft.frac := by
  have lock {f : State → State} (e : liftLock f s = .next t) : t.ft.ns = s.ft.ns ∧ t.ft.frac = s.ft.frac := by cases e; exact ⟨rfl, rfl⟩
  have core {f : State → State} (e : liftCore f s = .next t) : t.ft.ns = s.ft.ns ∧ t.ft.frac = s.ft.frac := by cases e; exact ⟨rfl, rfl⟩
  cases c <;> simp only [exec] at e
  case regWrite off size val =>
    have other : timeReg off = false := by simpa [setsFt, lifeCommand, timeCommand] using h
    simp only [execRegWrite, other, Bool.false_eq_true, if_false] at e
    exact lock e
  case restep | nextsecWrite | tsyncEdge | timeReply | ready | sbPwrEnAssert | pwrEnDeferredStart | sbPwrEnDeassert | hostPerstNAssert
      | hostPerstNDeassert | vinOutOfRange | inputRestart | cxlReset | thermalSample | tripRestart | hardThermal | fatalHoldExpiry | secReset
      | activateFw => cases h
  case glbFtLowRead | tsyncTimeout | refLoss | holdoverLimit | timeExchangeStart | timeRequest | timerefPresent | frameReceived | retryLimit
      | lossOfSignal | resync | resyncDone | linkTmo | fabCtlEn | fabCtlReset | fifoDupMismatch => exact lock e
  all_goals exact core e

end Sys2Proof.Machine
end

section
/-! FT along every command: its width, and that no command but the ends of a life takes it back (02_fabric_time R27, R29, R36, R37, R40). -/
namespace Sys2Proof.Machine

/-! Parts of the module that leave fabric time alone -/

/-- A fold of effects that leave fabric time alone leaves it alone. -/
theorem foldl_ft {α : Type} {f : State → α → State} (h : ∀ s a, (f s a).ft = s.ft) (l : List α) (s : State) : (l.foldl f s).ft = s.ft := by
  induction l generalizing s with
  | nil => rfl
  | cons a l ih => rw [List.foldl_cons, ih, h]

@[simp] theorem State.freeze_ft (s : State) : s.freeze.ft = s.ft := by
  have notice (s : State) (i : Nat) : (s.freezeNotice i).ft = s.ft := by
    unfold State.freezeNotice
    extract_lets
    split <;> rfl
  unfold State.freeze
  split
  · rfl
  · exact foldl_ft notice _ s

@[simp] theorem State.cmdDone_ft (s : State) (key code int bit : Nat) : (s.cmdDone key code int bit).ft = s.ft := by simp [State.cmdDone]

/-- A command that ends at once leaves fabric time alone where its effect does. -/
theorem State.runCmd_ft {f : State → State × Nat} (h : ∀ s, (f s).1.ft = s.ft) (s : State) (key op int bit : Nat) : (s.runCmd key op int bit f).ft = s.ft := by
  unfold State.runCmd
  split
  · rfl
  · simp [h]

@[simp] theorem State.refuse_ft (s : State) (path status : Nat) : (s.refuse path status).ft = s.ft := rfl
@[simp] theorem State.secDone_ft (s : State) (code : Nat) : (s.secDone code).ft = s.ft := s.cmdDone_ft ..
@[simp] theorem State.putSecData_ft (s : State) (l : List Byte) : (s.putSecData l).ft = s.ft := rfl

@[simp] theorem State.give_path_ft (s : State) (path : Nat) (x : Nat × List Byte) : (s.give_ path x).ft = s.ft := by
  unfold State.give_
  extract_lets
  split <;> simp +zetaDelta

@[simp] theorem State.exhaust_ft (s : State) (path : Nat) : (s.exhaust path).ft = s.ft := by
  unfold State.exhaust
  extract_lets
  split <;> simp +zetaDelta

@[simp] theorem State.signAll_ft (s : State) (n : Nat) : (s.signAll n).ft = s.ft := by
  induction n generalizing s with
  | zero => rfl
  | succ n ih =>
    unfold State.signAll
    split
    · rfl
    · split
      · simp [ih]
      · split <;> simp [ih]

@[simp] theorem State.requestSig_ft (s : State) (r : SigReq) : (s.requestSig r).ft = s.ft := by
  unfold State.requestSig
  split
  · simp
  · split
    · split <;> simp
    · simp

/-- A SEC command keeps fabric time, or begins a new life (R401). -/
theorem State.secReset_ft (s : State) : s.secReset.ft = s.ft ∨ s.secReset.ft = {} := by
  unfold State.secReset
  split
  · exact .inl rfl
  · split
    · exact .inr rfl
    · exact .inl (State.runCmd_ft (fun _ => rfl) ..)

theorem State.secGo_ft (s : State) (op : Nat) : (s.secGo op).ft = s.ft ∨ (s.secGo op).ft = {} := by
  unfold State.secGo
  split
  case h_1 => exact .inl (State.runCmd_ft (fun s => by simp) ..)
  case h_2 => left; unfold State.secQuote; split <;> simp [State.startCmd]
  case h_3 =>
    left
    unfold State.secGetLog
    extract_lets
    split
    · rfl
    · split
      · exact State.runCmd_ft (fun _ => rfl) ..
      · simp [State.startCmd]
  case h_4 =>
    refine .inl (State.runCmd_ft (fun s => ?_) ..)
    extract_lets
    split
    · rfl
    · split <;> simp
  case h_5 => exact s.secReset_ft
  case h_6 => exact .inl (State.runCmd_ft (fun _ => rfl) ..)

@[simp] theorem State.mboxSay_ft (s : State) (a : Answer) : (s.mboxSay a).ft = s.ft := rfl
@[simp] theorem State.writeBoot_ft (s : State) : s.writeBoot.ft = s.ft := by simp [State.writeBoot]
@[simp] theorem State.firstBlock_ft (s : State) : s.firstBlock.ft = s.ft := by
  unfold State.firstBlock
  extract_lets
  split <;> rfl

@[simp] theorem State.secChange_ft (s : State) : s.secChange.ft = s.ft := by
  unfold State.secChange
  split
  · rfl
  · split <;> rfl

@[simp] theorem State.pwrEvent_ft (s : State) (i : Nat) : (s.pwrEvent i).ft = s.ft := by unfold State.pwrEvent; split <;> simp

@[simp] theorem State.senseOne_ft (s : State) (k : Nat) (t : Int) : (s.senseOne k t).1.ft = s.ft := by
  unfold State.senseOne
  extract_lets
  simp +zetaDelta only
  split_ifs <;> simp

@[simp] theorem State.writeField_ft (s : State) (d m v : Nat) (x : Fld × Acc) : (s.writeField d m v x).ft = s.ft := by
  unfold State.writeField
  extract_lets
  split
  · rfl
  · split
    · split <;> rfl
    · rfl

/-- A TRIP keeps fabric time, or begins a new life (R412, R435). -/
theorem State.tripModule_ft (s : State) : s.tripModule.ft = s.ft ∨ s.tripModule.ft = {} := by
  unfold State.tripModule
  extract_lets
  split
  · exact .inl rfl
  · split <;> exact .inr rfl

@[simp] theorem State.afterStep_ft (s old : State) : (s.afterStep old).ft = s.ft := by unfold State.afterStep; split <;> rfl

@[simp] theorem State.takeTime_ft (s : State) (m : Option TimeMsg) : (s.takeTime m).ft = s.ft := by cases m <;> rfl

/-! What the lock states and the choice of a parent leave of fabric time -/

@[simp] theorem State.chooseParent_everReady (s : State) : s.chooseParent.ft.everReady = s.ft.everReady := by
  unfold State.chooseParent
  split
  · split
    · simp
    · extract_lets
      split_ifs <;> simp +zetaDelta <;> split_ifs <;> rfl
  · rfl

@[simp] theorem State.resource_value (s old : State) :
    (s.resource old).ft.ns = s.ft.ns ∧ (s.resource old).ft.frac = s.ft.frac ∧ (s.resource old).ft.everReady = s.ft.everReady := by
  unfold State.resource
  split <;> simp

@[simp] theorem State.notePartner_value (s : State) (i hop st : Nat) :
    (s.notePartner i hop st).ft.ns = s.ft.ns ∧ (s.notePartner i hop st).ft.frac = s.ft.frac
    ∧ (s.notePartner i hop st).ft.everReady = s.ft.everReady := by
  unfold State.notePartner
  extract_lets
  simp +zetaDelta only [State.chooseParent_ft, State.chooseParent_everReady]
  split_ifs <;> simp

@[simp] theorem State.sourceChange_value (s old : State) :
    (s.sourceChange old).ft.ns = s.ft.ns ∧ (s.sourceChange old).ft.frac = s.ft.frac := by
  unfold State.sourceChange
  split
  · exact ⟨rfl, rfl⟩
  · extract_lets
    split
    · simp +zetaDelta
    · split <;> simp +zetaDelta
    · split <;> simp +zetaDelta

/-! Corrections -/

/-- `t` has FT's value as it stood in `s`, or has it corrected by the offset d, which is to FT's front once the module has been ready (R36). -/
def Corrected (s t : State) (d : Int) : Prop :=
  (t.ft.ns = s.ft.ns ∧ t.ft.frac = s.ft.frac)
  ∨ ((s.ft.everReady = true → d < 0) ∧ t.ft.ns = (s.ft.setUnits (s.ft.units - d)).ns ∧ t.ft.frac = (s.ft.setUnits (s.ft.units - d)).frac)

theorem Corrected.ftOk {s t : State} {d : Int} (c : Corrected s t d) (h : s.ftOk) : t.ftOk := by
  obtain ⟨hns, hfr⟩ | ⟨-, hns, hfr⟩ := c
  · unfold State.ftOk; rw [hns, hfr]; exact h
  · unfold State.ftOk; rw [hns, hfr]; exact s.ft.setUnits_ok _

theorem units_congr {f g : FabTime} (hns : f.ns = g.ns) (hfr : f.frac = g.frac) : f.units = g.units := by simp [FabTime.units, hns, hfr]

/-- A correction of a module that has been ready takes FT forward, where FT does not wrap. -/
theorem Corrected.units_le {s t : State} {d : Int} (c : Corrected s t d) (h : s.ft.everReady = true) (hd : d < 0 → s.ft.units - d < 2 ^ 80) :
    s.ft.units ≤ t.ft.units := by
  obtain ⟨hns, hfr⟩ | ⟨ahead, hns, hfr⟩ := c
  · exact (units_congr hns hfr).ge
  · have neg := ahead h
    have value := FabTime.units_setUnits s.ft (s.ft.units - d) (by omega) (hd neg)
    rw [units_congr hns hfr]
    omega

/-- What ends with the value of FT that a corrected state has is corrected likewise. -/
theorem Corrected.congr {s t u : State} {d : Int} (c : Corrected s t d) (hns : u.ft.ns = t.ft.ns) (hfr : u.ft.frac = t.ft.frac) : Corrected s u d := by
  unfold Corrected; rw [hns, hfr]; exact c

/-- What begins with the value of FT that a state has is corrected as from there. -/
theorem Corrected.of_value {s s' t : State} {d : Int} (c : Corrected s t d) (hns : s.ft.ns = s'.ft.ns) (hfr : s.ft.frac = s'.ft.frac)
    (her : s.ft.everReady = s'.ft.everReady) : Corrected s' t d := by
  simpa [Corrected, FabTime.units, FabTime.setUnits, hns, hfr, her] using c

/-- The correction of an offset (R36). -/
theorem State.fix_corrected (s : State) (d : Int) : Corrected s (s.fix d) d := by
  unfold State.fix
  cases ready : s.ft.everReady with
  | false =>
    simp only [ready, Bool.not_false, if_true]
    split
    · exact .inl ⟨rfl, rfl⟩
    · split <;> exact .inr ⟨fun h => absurd (ready.symm.trans h) Bool.false_ne_true, rfl, rfl⟩
  | true =>
    simp only [ready, Bool.not_true, Bool.false_eq_true, if_false]
    split
    · left
      simp only [State.setLock_ft]
      split <;> exact ⟨rfl, rfl⟩
    · split
      · exact .inr ⟨fun _ => by omega, rfl, rfl⟩
      · exact .inl ⟨rfl, rfl⟩

theorem State.correct_corrected (s : State) (d : Int) : Corrected s (s.correct d) d := State.fix_corrected { s with ft.offsetPs := _ } d

/-- A write of GLB_FT_NEXTSEC corrects by the offset that it implies, if at all (R40). -/
theorem State.nextsecWrite_corrected (s : State) (sec : Nat) : Corrected s (s.nextsecWrite sec) (s.nextsecOffset (sec % 2 ^ 64)) := by
  unfold State.nextsecWrite
  extract_lets d k _ s'
  split
  · exact .inl ⟨rfl, rfl⟩
  · split
    · exact .inl ⟨rfl, rfl⟩
    · have c : Corrected s (s'.fix d) d := s'.fix_corrected d
      split
      · exact c.congr rfl rfl
      · exact c

/-- A TSYNC edge corrects by its phase, if at all (R31). -/
theorem State.tsyncEdge_corrected (s : State) : Corrected s s.tsyncEdge ((s.ft.units : Int) - (s.ft.nextSec * 1000000000 * 65536 : Nat)) := by
  unfold State.tsyncEdge
  extract_lets d _ u w
  have value : u.ft.ns = s.ft.ns ∧ u.ft.frac = s.ft.frac ∧ u.ft.everReady = s.ft.everReady := State.resource_value ..
  obtain ⟨hns, hfr, her⟩ := value
  split
  · have c : Corrected s w d := (u.correct_corrected d).of_value hns hfr her
    split
    · exact c.congr (State.lockRule_ft ..).1 (State.lockRule_ft ..).2
    · exact c.congr (State.loseLock_ft _).1 (State.loseLock_ft _).2.1
  · exact .inl ⟨hns, hfr⟩

/-- The offset of the reply on the parent (R33). -/
def replyOffset (t1 t2 t3 t4 : Nat) : Int := (((t2 : Int) - t1) - ((t4 : Int) - t3)) / 2

/-- A reply on the parent corrects by its offset. -/
theorem State.measured_corrected (s : State) (t1 t2 t3 t4 : Nat) : Corrected s (s.measured t1 t2 t3 t4) (-replyOffset t1 t2 t3 t4) := by
  unfold State.measured
  extract_lets off _ u
  have c : Corrected s (u.correct (-off)) (-off) := u.correct_corrected (-off)
  exact c.congr (State.lockRule_ft ..).1 (State.lockRule_ft ..).2

/-! FT's width -/

theorem State.ftOk_of_value {s t : State} (hns : t.ft.ns = s.ft.ns) (hfr : t.ft.frac = s.ft.frac) (h : s.ftOk) : t.ftOk := by
  unfold State.ftOk; rw [hns, hfr]; exact h

theorem State.ftOk_of_ft {s t : State} (e : t.ft = s.ft ∨ t.ft = {}) (h : s.ftOk) : t.ftOk := by
  unfold State.ftOk
  obtain e | e := e <;> rw [e]
  · exact h
  · decide

/-- RESTEP keeps FT's width (R37). -/
theorem State.restep_ftOk {s : State} (h : s.ftOk) : s.restep.ftOk := by
  unfold State.restep
  split
  · exact h
  · split
    · exact h
    · exact FabTime.setUnits_ok { s.ft with disjoint := false } _

/-- A register write keeps FT's width where it may change FT: GLB_FT_CTL, GLB_FT_NEXTSEC, and SEC_CMD. -/
theorem State.barWrite_ftOk {s : State} {off : Nat} (size val : Nat) (time : timeReg off = true) (h : s.ftOk) : (s.barWrite off size val).ftOk := by
  unfold State.barWrite
  split
  · exact h
  · extract_lets d v m
    generalize ht : (s.fieldsAt d).foldl (fun t x => t.writeField d m v x) s = t
    have same : t.ft = s.ft := ht ▸ foldl_ft (fun t x => t.writeField_ft d m v x) _ s
    have ok : t.ftOk := State.ftOk_of_ft (.inl same) h
    have place : d = 0x108 ∨ d = 0x110 ∨ d = secBase + 0x20 := by simpa [timeReg, or_assoc] using time
    obtain hd | hd | hd := place <;> rw [hd]
    · have lock : (t.sourceChange s).ftOk := State.ftOk_of_value (State.sourceChange_value ..).1 (State.sourceChange_value ..).2 ok
      simp only [State.wrote, if_true]
      split
      · exact State.ftOk_of_ft (.inl (State.afterStep_ft ..)) (State.restep_ftOk lock)
      · exact lock
    · exact State.ftOk_of_ft (.inl (State.afterStep_ft ..)) ((t.nextsecWrite_corrected _).ftOk ok)
    · have go : (t.wrote s (secBase + 0x20) m v) = t.cmdGo 3 m v State.secGo := by
        simp [State.wrote, secBase]
      rw [go, State.cmdGo]
      split
      · exact State.ftOk_of_ft (t.secGo_ft _) ok
      · exact ok

/-- READY keeps FT's width: the initial step is a correction (R36). -/
theorem State.ready_corrected {frames : List (Nat × Nat × Nat)} {wm : List (Nat × Nat)} {cqt ctxt stall : Nat} {s t : State}
    (e : execReady frames wm cqt ctxt stall s = .next t) : ∃ d, Corrected s t d ∧ (d = 0 ∨ s.ft.src = some d) := by
  unfold execReady at e
  obtain ⟨-, hft, -, -⟩ := liftTime_next _ _ _ e
  split at hft
  · exact ⟨0, .inl ⟨by rw [hft], by rw [hft]⟩, .inl rfl⟩
  · simp only [State.secChange_ft, State.firstBlock_ft, State.setReg_frame] at hft
    cases hk : s.ft.src with
    | none =>
      simp only [hk] at hft
      exact ⟨0, .inl ⟨by rw [hft], by rw [hft]⟩, .inl rfl⟩
    | some k =>
      simp only [hk] at hft
      exact ⟨k, (s.fix_corrected k).congr (by rw [hft]) (by rw [hft]), .inr rfl⟩

/-! The ends and beginnings of lives -/

@[simp] theorem State.newLife_ft (s : State) (cause : Nat) (rails : Bool) (phase : Phase) : (s.newLife cause rails phase).ft = {} := rfl
@[simp] theorem State.resetModule_ft (s : State) (cause : Nat) : (s.resetModule cause).ft = {} := rfl
@[simp] theorem State.powerOff_ft (s : State) : s.powerOff.ft = {} := rfl
@[simp] theorem State.startRails_ft (s : State) (cause : Nat) : (s.startRails cause).ft = {} := rfl

/-- A thermal sample keeps fabric time, or its TRIP ends the life (R434, R435). -/
theorem execThermalSample_ft {temps : List Int} {vin watts : Nat} {rails : List Nat} {s t : State}
    (e : execThermalSample temps vin watts rails s = .next t) : t.ft = s.ft ∨ t.ft = {} := by
  have sensed (l : List (Int × Nat)) (a : State × Bool) :
      (l.foldl (fun (a : State × Bool) x => let b := a.1.senseOne x.2 x.1; (b.1, a.2 || b.2)) a).1.ft = a.1.ft := by
    induction l generalizing a with
    | nil => rfl
    | cons x l ih => rw [List.foldl_cons, ih, State.senseOne_ft]
  obtain ⟨-, hft, -, -⟩ := liftTime_next _ _ _ e
  rw [hft, whenMarl, guardBy]
  split
  · extract_lets was _ _ u r v hot _ _ w x y
    have hv : v.ft = s.ft := sensed _ (u, false)
    have hw : w.ft = s.ft := by
      unfold w
      split_ifs <;> exact hv
    have hy : y.ft = s.ft := by
      unfold y
      split_ifs <;> exact hw
    split
    · exact hy ▸ y.tripModule_ft
    · exact .inl hy
  · exact .inl rfl

/-- A command by which a life ends or begins keeps fabric time, or FT begins anew (R28, R388). -/
theorem life_ft {c : Instr} {s t : State} (life : lifeCommand c = true) (reg : ∀ off size val, c ≠ .regWrite off size val)
    (e : exec c s = .next t) : t.ft = s.ft ∨ t.ft = {} := by
  cases c <;> simp only [exec] at e
  case regWrite off size val => exact absurd rfl (reg off size val)
  case thermalSample => exact execThermalSample_ft e
  case secReset =>
    obtain ⟨-, hft, -, -⟩ := liftTime_next _ _ _ e
    rw [hft, whenBedrock, guardBy]
    split
    · exact s.secReset_ft
    · exact .inl rfl
  case sbPwrEnDeassert | vinOutOfRange =>
    obtain ⟨-, hft, -, -⟩ := liftTime_next _ _ _ e
    exact .inr hft
  case sbPwrEnAssert | pwrEnDeferredStart | hostPerstNAssert | hostPerstNDeassert | inputRestart | cxlReset | tripRestart | hardThermal
      | fatalHoldExpiry | activateFw =>
    obtain ⟨-, hft, -, -⟩ := liftTime_next _ _ _ e
    simp only [hft, whenMarl, whenTiming, guardBy, State.mailbox]
    split_ifs <;> simp
  all_goals cases life

/-! FT along every command -/

/-- A reply corrects by the offset it measures, if at all (R33, R35). -/
theorem execTimeReply_corrected {port t1 t2 t3 hop st : Nat} {s t : State} (e : execTimeReply port t1 t2 t3 hop st s = .next t) :
    ∃ t4, Corrected s t (-replyOffset t1 t2 t3 t4) := by
  obtain ⟨-, hft, -, -⟩ := liftTime_next _ _ _ e
  refine ⟨s.stampOf (s.timeMsg port 2 (t1 / 65536)), ?_⟩
  simp only [whenLive, guardBy] at hft
  split at hft
  · split at hft
    · generalize hm : s.timeMsg port 2 (t1 / 65536) = m at hft ⊢
      have same : ((s.takeTime m).notePartner port hop st).ft.ns = s.ft.ns ∧ ((s.takeTime m).notePartner port hop st).ft.frac = s.ft.frac
          ∧ ((s.takeTime m).notePartner port hop st).ft.everReady = s.ft.everReady := by simp
      obtain ⟨hns, hfr, her⟩ := same
      split at hft
      · rw [State.afterStep_ft] at hft
        exact ((State.measured_corrected ..).of_value hns hfr her).congr (by rw [hft]) (by rw [hft])
      · exact .inl ⟨by rw [hft, hns], by rw [hft, hfr]⟩
    · exact .inl ⟨by rw [hft], by rw [hft]⟩
  · exact .inl ⟨by rw [hft], by rw [hft]⟩

/-- A write of GLB_FT_NEXTSEC by its own row. -/
theorem execNextsecWrite_corrected {sec : Nat} {s t : State} (e : execNextsecWrite sec s = .next t) :
    Corrected s t (s.nextsecOffset (sec % 2 ^ 64)) := by
  obtain ⟨-, hft, -, -⟩ := liftTime_next _ _ _ e
  simp only [whenTiming, guardBy] at hft
  split at hft
  · rw [State.afterStep_ft] at hft
    exact (s.nextsecWrite_corrected sec).congr (by rw [hft]) (by rw [hft])
  · exact .inl ⟨by rw [hft], by rw [hft]⟩

theorem execTsyncEdge_corrected {s t : State} (e : execTsyncEdge s = .next t) :
    Corrected s t ((s.ft.units : Int) - (s.ft.nextSec * 1000000000 * 65536 : Nat)) := by
  obtain ⟨-, hft, -, -⟩ := liftTime_next _ _ _ e
  simp only [whenTiming, guardBy] at hft
  split at hft
  · rw [State.afterStep_ft] at hft
    exact s.tsyncEdge_corrected.congr (by rw [hft]) (by rw [hft])
  · exact .inl ⟨by rw [hft], by rw [hft]⟩

theorem execRestep_ft {s t : State} (e : execRestep s = .next t) : t.ft = s.restep.ft ∨ t.ft = s.ft := by
  obtain ⟨-, hft, -, -⟩ := liftTime_next _ _ _ e
  simp only [whenTiming, guardBy] at hft
  split at hft
  · exact .inl (by rw [hft, State.afterStep_ft])
  · exact .inr hft

/-- Every command that sets FT keeps its width. -/
theorem exec_ftOk {c : Instr} {s t : State} (set : setsFt c = true) (h : s.ftOk) (e : exec c s = .next t) : t.ftOk := by
  rw [setsFt, Bool.or_eq_true] at set
  cases c with
  | regWrite off size val =>
    have time : timeReg off = true := by simpa [lifeCommand, timeCommand] using set
    simp only [exec, execRegWrite, time, if_true] at e
    obtain ⟨-, hft, -, -⟩ := liftTime_next _ _ _ e
    exact State.ftOk_of_ft (s := s.barWrite off size val) (.inl hft) (State.barWrite_ftOk size val time h)
  | restep =>
    obtain hft | hft := execRestep_ft e
    · exact State.ftOk_of_ft (.inl hft) (State.restep_ftOk h)
    · exact State.ftOk_of_ft (.inl hft) h
  | nextsecWrite sec => exact (execNextsecWrite_corrected e).ftOk h
  | tsyncEdge => exact (execTsyncEdge_corrected e).ftOk h
  | timeReply => obtain ⟨t4, c⟩ := execTimeReply_corrected e; exact c.ftOk h
  | ready => obtain ⟨d, c, -⟩ := State.ready_corrected e; exact c.ftOk h
  | _ =>
    have life : lifeCommand _ = true := set.resolve_right Bool.false_ne_true
    exact State.ftOk_of_ft (life_ft life (by simp) e) h

theorem FabTime.tick_ok (f : FabTime) : f.tick.ns < 2 ^ 64 ∧ f.tick.frac < 65536 := f.setUnits_ok _

/-- A nanosecond of the module by itself keeps FT's width (R27). -/
theorem State.tick_ftOk {s : State} (h : s.ftOk) : s.tick.ftOk := by
  unfold State.tick
  split
  · exact FabTime.tick_ok _
  · split <;> exact h

/-- Settles O3: a command that does not set FT leaves it, every one that does cuts it to its width, and so does a tick. -/
theorem ftWidthKept : Obligations.FtWidthKept := by
  intro s t h e
  unfold step at e
  cases hp : s.pending with
  | nil => simp only [hp] at e; cases e; exact State.tick_ftOk h
  | cons c rest =>
    simp only [hp] at e
    cases set : setsFt c with
    | false =>
      obtain ⟨hns, hfr⟩ := exec_keeps_ft set e
      exact State.ftOk_of_value (s := s) hns hfr h
    | true => exact exec_ftOk (s := { s with pending := rest }) set h e

/-- The phase of FT lies within half a second (R37). -/
theorem FabTime.phase_lt (f : FabTime) : -(2 ^ 46) < f.phase ∧ f.phase < 2 ^ 46 := by
  unfold FabTime.phase
  cases f.src with
  | none => decide
  | some d => simp only; omega

/-- Settles O4: what corrects FT once the module has been ready takes it forward; a restep is refused, and what is left leaves FT alone. -/
theorem ftNeverDecreases : Obligations.FtNeverDecreases := by
  intro s t c ready hns hfr hsec hsrc hc e
  have hu : (s.ft.units : Int) < 2 ^ 78 := by unfold FabTime.units; omega
  have same (hft : t.ft = s.ft) : s.ft.units ≤ t.ft.units := by rw [hft]
  cases c with
  | nextsecWrite sec =>
    refine (execNextsecWrite_corrected e).units_le ready fun _ => ?_
    have phase := s.ft.phase_lt
    have cut : sec % 2 ^ 64 < 2 ^ 32 := by omega
    unfold State.nextsecOffset
    extract_lets one n
    have hone : one = 65536000000000 := by decide
    have hn : n = (s.ft.units - s.ft.phase) / 65536000000000 + 1 - (sec % 2 ^ 64 : Nat) := rfl
    split <;> omega
  | timeReply port t1 t2 t3 hop st =>
    obtain ⟨t4, c⟩ := execTimeReply_corrected e
    refine c.units_le ready fun _ => ?_
    unfold replyOffset
    omega
  | restep =>
    have refused : s.restep = s := by rw [State.restep, if_pos hc]
    obtain hft | hft := execRestep_ft e
    · exact same (by rw [hft, refused])
    · exact same hft
  | tsyncEdge =>
    exact (execTsyncEdge_corrected e).units_le ready fun _ => by omega
  | ready =>
    obtain ⟨d, c, zero | known⟩ := State.ready_corrected e
    · exact c.units_le ready fun _ => by omega
    · exact c.units_le ready fun _ => by have := hsrc d known; omega
  | regWrite off size val =>
    have keeps : setsFt (.regWrite off size val) = false := by simpa [setsFt, timeCommand, lifeCommand] using hc
    obtain ⟨hns, hfr⟩ := exec_keeps_ft keeps e
    exact (units_congr hns hfr).ge
  | _ =>
    have keeps : setsFt _ = false := (Bool.or_false _).trans hc
    obtain ⟨hns, hfr⟩ := exec_keeps_ft keeps e
    exact (units_congr hns hfr).ge

end Sys2Proof.Machine
end

section
/-! Steps of the whole machine: what every command leaves alone, a module that is frozen, not ready or stopped, and the idle step
(00_scope R1, 02_fabric_time R27-R36, 16_bedrock R386, 17_errors_freeze_readout R410, R411). -/
namespace Sys2Proof.Machine

/-! Where an effect does not happen, the state stays (log 5) -/

theorem liftCore_still {f : State → State} {s : State} (h : f s = s) : liftCore f s = .next s := by rw [liftCore, h]
theorem liftLock_still {f : State → State} {s : State} (h : f s = s) : liftLock f s = .next s := by rw [liftLock, h]
theorem liftTime_still {f : State → State} {s : State} (h : f s = s) : liftTime f s = .next s := by rw [liftTime, h]

/-- A frozen module answers no mailbox command (R411). -/
theorem State.mailbox_frozen {s : State} (h : s.core.ras.frozen = true) (r : Bool) (f : State → State) : s.mailbox r f = s := by
  simp [State.mailbox, State.mboxOn, (State.frozen_stops h).1, h]

/-- No block of BAR0 responds while the module is frozen (R411). -/
theorem State.barWrite_frozen {s : State} (h : s.core.ras.frozen = true) (off size val : Nat) : s.barWrite off size val = s := by
  obtain ⟨live, -, timing⟩ := State.frozen_stops h
  have silent : s.responds off = false := by simp [State.responds, State.glbOn, live, timing]
  simp [State.barWrite, silent]

/-- Settles O5: every command but those of pins, marl, management and TAP is guarded by a condition that a frozen module does not meet. -/
theorem frozenHolds : Obligations.FrozenHolds := by
  intro s c frozen other
  obtain ⟨live, dispatching, timing⟩ := State.frozen_stops frozen
  have onLive {f : State → State} : whenLive f s = s := guardBy_neg f live
  have onDispatching {f : State → State} : whenDispatching f s = s := guardBy_neg f dispatching
  have onTiming {f : State → State} : whenTiming f s = s := guardBy_neg f timing
  have onBedrock {f : State → State} : whenBedrock f s = s := guardBy_neg f (by simp [State.bedrockOn, frozen])
  have onGlb {f : State → State} : guardBy State.glbOn f s = s := guardBy_neg f (by simp [State.glbOn, timing])
  cases c <;> simp only [exec]
  case regWrite off size val =>
    simp only [execRegWrite, liftTime_still (f := fun s => s.barWrite off size val) (State.barWrite_frozen frozen ..),
      liftLock_still (f := fun s => s.barWrite off size val) (State.barWrite_frozen frozen ..), ite_self]
  case glbFtLowRead | tsyncTimeout | refLoss | holdoverLimit | timerefPresent => exact liftLock_still onTiming
  case timeExchangeStart | timeRequest | frameReceived | retryLimit | lossOfSignal | resync | resyncDone | linkTmo | fifoDupMismatch =>
    exact liftLock_still onLive
  case fabCtlEn | fabCtlReset =>
    exact liftLock_still onDispatching
  case restep | nextsecWrite | tsyncEdge | fatalHoldExpiry => exact liftTime_still onTiming
  case timeReply => exact liftTime_still onLive
  case secReset => exact liftTime_still onBedrock
  case ready => exact liftTime_still (by simp [frozen])
  case activateFw => exact liftTime_still (State.mailbox_frozen frozen ..)
  case cxlReset => exact liftTime_still (by simp [timing])
  case doorbellForward | queueBind | queueIdleUnbind | flagUpdateCycle | instructionComplete | opeIssueCycle | opeCellWrite | rowPortOpStart
      | opeStop | partModeChange | fenceRelease | mvuStop | vectorSlotWrite | vuDrainGrant | tuLand | streamWritebackAck | grant | rdata |
      mdata | ggrant | gdata | revoke | flagUpd | rdRsp | wrAck | notify | drop | mgmt | gateNotice | freezeStatusNotice | frameTransmit |
      markerFrame | replayTimeout | trainComplete | survivorDrained | d2dUnitReceived | d2dLinkFailed | poolFillDone | writebackAck |
      writebackRefused | flashReadDone | flashWriteDone | ftlReadOnly | faultTimeout | atsCompletion | prgResponse | atsInvalidation |
      priDisable | hdmCommit | hostMemRead | hostMemWrite | birsp | hostSnoop | roEn | pldmFirmwareUpdate | activateFirmware | hbmScrub |
      swfreeze | pmcGatherDone | cxlCacheCompletion | priTimeout =>
    exact liftCore_still onLive
  case dbTail | dbCrhead | dbCtlResume | dbCtlAbort | cqCreate | cqModify | cqDestroy | cqRead | flagAlloc | flagFree | tagRange | errRing |
      flagHostWrite | instructionDispatch | setAside | setAsideWrite | nop | wait | sig | clr | gate | dep | lbar | fence | halt | cset |
      cadd | cmpb | end_ | waitTimeout | opa | accld | accz | accdr | accpk | accup | gacc | mvx | vop | qnt | vred | vuSeedWrite | vuCntClr
      | sarm | scan | tcopy | push | pop | pin | unpin | upd | streamActivate | seFetchIssue | bopen | bput | bclose | gather | epoch |
      grpSet | grpClr | rdReq | wrReq | packetTransit | fabCtlHalf | fabModidWrite | poolMiss | evictorRun | discard | recover | tableWalk |
      faultResolve | ctxCreate | ctxModify | ctxRead | ctxKill | ctxDestroy | preempt | resume | tlbInv | fenceDump | sedConfigWrite |
      pmcGather | pmcCviewRead | sampleCountdown =>
    exact liftCore_still onDispatching
  case ledgerCheckDone | freezeRequest | glbFrzRead | moduleFatalError => exact liftCore_still onTiming
  case snap | check => exact liftCore_still onGlb
  case ideKm | doeObject | getIdentity | quote | getLog | cmaSpdmRequest | secGetIdentity | secQuote | secGetLog | extend |
      securityStateChange =>
    exact liftCore_still onBedrock
  case identify | getSupportedLogs | mailboxGetLog | getFwInfo | transferFw | getHealthInfo | getTimestamp =>
    exact liftCore_still (State.mailbox_frozen frozen ..)
  case gateExpiry => exact liftCore_still onDispatching
  case deadlineAbort | streamDeadline | roundClose | finalGraceExpiry | dumpInstant => exact liftCore_still onLive
  case paceEntryTrigger => exact liftCore_still onTiming
  case hostLinkDown | hostLinkUp | flr | msixUnmask | ideIntegrityFailure => exact liftCore_still (by simp [timing])
  case msixModExpiry v => exact liftCore_still (by cases mget s.core.irq.busy v <;> simp [timing])
  case indexReserve | indexRecordWritten => exact liftCore_still (by simp [live])
  case romStageEnd | imageVerified | hbmTrained | d2dTrained | startupFailure => exact liftCore_still (by simp [frozen])
  all_goals cases other

/-! Steps -/

/-- Settles O1, by the definition of a step. -/
theorem stepRunsFront : Obligations.StepRunsFront := by
  intro s c rest front
  simp only [step, front]

/-- Settles O2: each value is read off the state after reset. -/
theorem resetState : Obligations.ResetState := by
  refine ⟨rfl, rfl, rfl, rfl, rfl, rfl, rfl, rfl, rfl, rfl, rfl, rfl, rfl, rfl, rfl, rfl, fun _ => rfl, fun _ => rfl, fun _ => rfl, fun _ => rfl,
    fun _ => rfl, fun _ => rfl, fun _ _ => rfl, rfl, rfl, ?_⟩
  unfold State.ftOk
  decide

/-- Every command answers a next state, with the fuses and the commands that wait as they were. -/
theorem everyCommandGoes : Says.EveryCommandGoes := by
  intro c s
  obtain ⟨f, e⟩ := exec_eq_liftTime c s
  exact ⟨_, e, rfl, rfl⟩

/-- What the module does by itself leaves the fuses and the commands that wait alone. -/
theorem State.tick_fuse_pending (s : State) : s.tick.fuse = s.fuse ∧ s.tick.pending = s.pending := by
  unfold State.tick
  split
  · exact ⟨rfl, rfl⟩
  · split <;> exact ⟨rfl, rfl⟩

/-- Settles O30: every outcome is made of a new value of FT and of the core alone. -/
theorem everyCommandCompletes : Obligations.EveryCommandCompletes := by
  refine ⟨everyCommandGoes, fun s => ?_⟩
  unfold step
  cases hp : s.pending with
  | nil => exact ⟨_, rfl, s.tick_fuse_pending.1, s.tick_fuse_pending.2.trans hp⟩
  | cons c rest => exact everyCommandGoes c _

/-! The idle step -/

/-- 100 ppm of a nanosecond are 6 or 7 parts of 2^-16 ns (R35, R36). -/
theorem slewStep_bounds (n : Nat) : 6 ≤ slewStep n ∧ slewStep n ≤ 7 := by unfold slewStep; omega

/-- What one tick slews out of a pending offset: no more than 100 ppm, and no more than is left (R36). -/
def FabTime.slewNow (f : FabTime) : Int :=
  if f.slew > 0 then min (slewStep f.ns) f.slew else if f.slew < 0 then max (-(slewStep f.ns : Int)) f.slew else 0

theorem FabTime.slewNow_bounds (f : FabTime) : -7 ≤ f.slewNow ∧ f.slewNow ≤ 7 := by
  have := slewStep_bounds f.ns
  unfold FabTime.slewNow
  split_ifs <;> omega

/-- A tick moves FT on by one nanosecond and by what it slews out. -/
theorem FabTime.tick_units {f : FabTime} (h : f.units + 65543 < 2 ^ 80) : (f.tick.units : Int) = f.units + 65536 + f.slewNow := by
  have := f.slewNow_bounds
  exact f.units_setUnits ((f.units : Int) + 65536 + f.slewNow) (by omega) (by omega)

theorem FabTime.tick_slew (f : FabTime) : f.tick.slew = f.slew - f.slewNow := rfl
theorem FabTime.tick_lock (f : FabTime) : f.tick.lock = f.lock := rfl

/-- FT after a nanosecond is a tick of FT as it stood, without the rest of a slew where the module falls to FREE (R35). -/
theorem State.tick_ft {s : State} (timing : s.timing = true) :
    ∃ f : FabTime, s.tick.ft = f.tick ∧ f.units = s.ft.units
      ∧ f.slew = if s.ft.lock ≠ Lock.free ∧ s.tick.ft.lock = Lock.free then 0 else s.ft.slew := by
  rw [State.tick, if_pos timing]
  exact ⟨_, rfl, rfl, rfl⟩

/-- Settles O29: a tick adds a nanosecond and what it slews out, of which a fall to FREE leaves nothing. -/
theorem idleStep : Obligations.IdleStep := by
  refine ⟨fun s empty => by simp only [step, empty], fun s empty timing fits => ⟨s.tick, by simp only [step, empty], ?_⟩⟩
  obtain ⟨f, ticked, value, slew⟩ := State.tick_ft timing
  have bounds := f.slewNow_bounds
  have moved := FabTime.tick_units (f := f) (by rw [value]; exact fits)
  rw [value, ← ticked] at moved
  have left : s.tick.ft.slew = f.slew - f.slewNow := by rw [ticked, FabTime.tick_slew]
  refine ⟨by omega, by omega, ?_⟩
  split
  case isTrue fallen =>
    rw [if_pos fallen] at slew
    have still : f.slewNow = 0 := by simp [FabTime.slewNow, slew]
    constructor <;> omega
  case isFalse held =>
    rw [if_neg held] at slew
    omega

/-! Before ready, and after a fatal error -/

/-- A module that is not ready is neither live nor dispatching. -/
theorem State.not_ready_stops {s : State} (h : s.core.boot.phase ≠ .ready) : s.live = false ∧ s.dispatching = false := by
  simp [State.live, State.dispatching, h]

/-- Blocks other than GLB, HIF and SEC respond to a live module alone (R386). -/
theorem State.barWrite_not_live {s : State} (h : s.live = false) {off : Nat} (size v : Nat) (low : 0x20000 ≤ off)
    (sec : off < 0xA00000 ∨ 0xB00000 ≤ off) : s.barWrite off size v = s := by
  have block : (decide (off < 0x20000) || decide (0xA00000 ≤ off) && decide (off < 0xB00000)) = false := by simp; omega
  have silent : s.responds off = false := by simp only [State.responds, block, h]; rfl
  simp [State.barWrite, silent]

/-- Settles O31: a doorbell and a register write of a module that is not ready meet no block that responds; after a fatal error nothing dispatches. -/
theorem beforeReadyAndAfterFatal : Obligations.BeforeReadyAndAfterFatal := by
  refine ⟨fun s notReady => ?_, fun s stop => ?_⟩
  · obtain ⟨live, dispatching⟩ := State.not_ready_stops notReady
    have still {f : State → State} : liftCore (whenDispatching f) s = .next s := liftCore_still (guardBy_neg f dispatching)
    refine ⟨fun _ _ _ => still, fun _ _ => still, fun _ _ => still, fun _ _ => still, fun off size v low sec => ?_⟩
    have silent := State.barWrite_not_live live size v low sec
    simp only [exec, execRegWrite, liftTime_still (f := fun s => s.barWrite off size v) silent,
      liftLock_still (f := fun s => s.barWrite off size v) silent, ite_self]
  · have dispatching : s.dispatching = false := by simp [State.dispatching, stop]
    have still {f : State → State} : liftCore (whenDispatching f) s = .next s := liftCore_still (guardBy_neg f dispatching)
    exact ⟨fun _ => still, fun _ => still, fun _ _ _ => still, still, still, fun _ => still, fun _ => still, fun _ _ _ => still, fun _ _ => still,
      fun _ => still, fun _ => still, fun _ _ => still, fun _ _ => still, fun _ _ _ => still, fun _ => still, fun _ => still, fun _ => still,
      fun _ _ => still⟩

end Sys2Proof.Machine
end

section
/-! What raising a bit, a record of the RAS log and a change of lock state do to the registers and to fabric time, said once
(00_scope R9, 02_fabric_time R35, 17_errors_freeze_readout R409). -/
namespace Sys2Proof.Machine

/-! Registers -/

/-- The registers of `t` are those of `s` with some of the bits `ks` set. -/
def BitsSet (ks : List Nat) (s t : State) : Prop :=
  ∀ k d, mgetD t.core.regs.csr k d = mgetD s.core.regs.csr k d ∨ (k ∈ ks ∧ mgetD t.core.regs.csr k d = 1)

theorem BitsSet.refl (ks : List Nat) (s : State) : BitsSet ks s s := fun _ _ => .inl rfl

theorem BitsSet.trans {ks : List Nat} {s t u : State} (h : BitsSet ks s t) (k : BitsSet ks t u) : BitsSet ks s u := fun i d => by
  obtain e | e := k i d
  · rw [e]; exact h i d
  · exact .inr e

/-- States with the same registers. -/
theorem BitsSet.of_csr {ks : List Nat} {s t : State} (h : t.core.regs.csr = s.core.regs.csr) : BitsSet ks s t := fun _ _ => by rw [h]; exact .inl rfl

theorem BitsSet.of_csr_mput {ks : List Nat} {s t : State} {i : Nat} (mem : i ∈ ks) (h : t.core.regs.csr = mput s.core.regs.csr i 1) :
    BitsSet ks s t := fun k d => by
  rw [h, mgetD_mput]
  split
  · subst_vars; exact .inr ⟨mem, rfl⟩
  · exact .inl rfl

/-- A field that is none of the bits reads as before. -/
theorem BitsSet.reg {ks : List Nat} {s t : State} (h : BitsSet ks s t) {f : Fld} (hf : f.key ∉ ks) : t.reg f = s.reg f :=
  (h f.key f.rst).resolve_right fun e => hf e.1

/-- A bit that stands still stands. -/
theorem BitsSet.flagBit {ks : List Nat} {s t : State} (h : BitsSet ks s t) {o i : Nat} (hb : s.flagBit o i = true) : t.flagBit o i = true := by
  simp only [State.flagBit, decide_eq_true_eq] at *
  obtain e | e := h (8 * o + i) 0
  · rw [e, hb]
  · exact e.2

/-- Raising a bit sets that bit. -/
theorem State.raise_csr (s : State) (o i : Nat) : (s.raise o i).core.regs.csr = mput s.core.regs.csr (8 * o + i) 1 := by
  unfold State.raise
  cases vectorOf o with
  | none => rfl
  | some v =>
    simp only
    split
    · rfl
    · rw [State.sendVector_csr]

theorem State.raise_bitsSet (s : State) {o i : Nat} {ks : List Nat} (mem : 8 * o + i ∈ ks) : BitsSet ks s (s.raise o i) :=
  .of_csr_mput mem (s.raise_csr o i)

/-- Raising a bit leaves every field but the bit itself alone. -/
theorem State.reg_raise (s : State) {o i : Nat} {f : Fld} (h : f.key ≠ 8 * o + i) : (s.raise o i).reg f = s.reg f :=
  (s.raise_bitsSet (List.mem_singleton_self _)).reg (by simpa using h)

/-- Sending a vector leaves the event counts alone. -/
theorem State.sendVector_evc (s : State) (v : Nat) : (s.sendVector v).core.regs.evc = s.core.regs.evc := by
  unfold State.sendVector
  split
  · rfl
  · split
    · rfl
    · unfold State.sendNow
      extract_lets
      split <;> rfl

/-- Raising a bit adds one to its event count (R155). -/
theorem State.raise_evc (s : State) (o i : Nat) :
    (s.raise o i).core.regs.evc = mput s.core.regs.evc (8 * o + i) ((mgetD s.core.regs.evc (8 * o + i) 0 + 1) % 65536) := by
  unfold State.raise
  cases vectorOf o with
  | none => rfl
  | some v =>
    simp only
    split
    · rfl
    · rw [State.sendVector_evc]

/-- Sending a vector counts at one place alone (R373). -/
theorem State.counter_sendVector (s : State) (v : Nat) {p : Nat} (h : p ≠ hifBase + 0x130) : (s.sendVector v).counter p = s.counter p := by
  unfold State.sendVector
  split
  · rfl
  · split
    · rfl
    · unfold State.sendNow
      extract_lets _ _ s1 s2
      have counted : s2.counter p = s.counter p := State.counter_bump_ne s1 1 h
      split <;> exact counted

/-- Raising a bit counts an interrupt sent at most. -/
theorem State.counter_raise (s : State) (o i : Nat) {p : Nat} (h : p ≠ hifBase + 0x130) : (s.raise o i).counter p = s.counter p := by
  unfold State.raise
  cases vectorOf o with
  | none => rfl
  | some v =>
    simp only
    split
    · rfl
    · exact State.counter_sendVector _ v h

/-! The parts of the core that raising a bit and a record of the RAS log leave alone -/

/-- Two states that differ in registers, interrupts, host memory and the RAS records alone. -/
def LogOnly (s t : State) : Prop :=
  ∃ r q h b k, t = { s with core.regs := r, core.irq := q, core.mem.host := h, core.mem.hostBad := b, core.ras := k }

theorem LogOnly.refl (s : State) : LogOnly s s := ⟨_, _, _, _, _, rfl⟩

theorem LogOnly.trans {s t u : State} (h : LogOnly s t) (k : LogOnly t u) : LogOnly s u := by
  obtain ⟨_, _, _, _, _, rfl⟩ := h
  obtain ⟨_, _, _, _, _, rfl⟩ := k
  exact ⟨_, _, _, _, _, rfl⟩

theorem State.raise_logOnly (s : State) (o i : Nat) : LogOnly s (s.raise o i) := by
  obtain ⟨r, q, h⟩ := s.raise_core o i
  exact ⟨r, q, _, _, _, h⟩

theorem State.hostWrite_logOnly (s : State) (a : Nat) (bs : List Byte) : LogOnly s (s.hostWrite a bs) := by
  unfold State.hostWrite
  split
  · exact ⟨_, _, _, _, _, rfl⟩
  · exact LogOnly.trans (t := s.bump _ _) ⟨_, _, _, _, _, rfl⟩ (State.raise_logOnly ..)

theorem State.raiseIf_logOnly (s : State) (p : Bool) (o i : Nat) : LogOnly s (s.raiseIf p o i) := by
  unfold State.raiseIf
  split
  · exact s.raise_logOnly o i
  · exact .refl s

/-- What happens after a record of the log is kept leaves the latch of the fatal error and the freeze alone. -/
theorem State.rasLog_logOnly (s : State) (t c src die unit ctx a d n : Nat) : LogOnly s (s.rasLog t c src die unit ctx a d n) := by
  unfold State.rasLog
  extract_lets m i phase rec_ ovf i' _ _ u at' _ _ v w
  have kept : LogOnly s u := ⟨_, _, _, _, _, rfl⟩
  split
  · exact kept
  · have raised : LogOnly s w := (kept.trans (t := u) (u := v) ⟨_, _, _, _, _, rfl⟩).trans (State.raiseIf_logOnly ..)
    split
    · exact raised.trans (State.hostWrite_logOnly ..)
    · exact (raised.trans (State.hostWrite_logOnly ..)).trans (u := (w.hostWrite at' rec_).bump _ _) ⟨_, _, _, _, _, rfl⟩

/-- The bits that a record of the RAS log may set: the log's overflow, and a host write that is discarded. -/
def logBits : List Nat := [8 * rasInt, 8 * (hifBase + 0x80) + 1]

theorem State.hostWrite_bitsSet (s : State) (a : Nat) (bs : List Byte) : BitsSet logBits s (s.hostWrite a bs) := by
  unfold State.hostWrite
  split
  · exact .of_csr rfl
  · exact .of_csr_mput (by decide) (State.raise_csr ..)

theorem State.raiseIf_bitsSet (s : State) (p : Bool) {o i : Nat} {ks : List Nat} (mem : 8 * o + i ∈ ks) : BitsSet ks s (s.raiseIf p o i) := by
  unfold State.raiseIf
  split
  · exact s.raise_bitsSet mem
  · exact .refl _ s

theorem State.rasLog_bitsSet (s : State) (t c src die unit ctx a d n : Nat) : BitsSet logBits s (s.rasLog t c src die unit ctx a d n) := by
  unfold State.rasLog
  extract_lets m i phase rec_ ovf i' _ _ u at' _ _ v w
  have kept : BitsSet logBits s u := .of_csr rfl
  split
  · exact kept
  · have raised : BitsSet logBits s w := kept.trans (State.raiseIf_bitsSet v ovf (by decide))
    split
    · exact raised.trans (w.hostWrite_bitsSet at' rec_)
    · exact (raised.trans (w.hostWrite_bitsSet at' rec_)).trans (.of_csr rfl)

/-! Lock states -/

/-- What a change of lock state makes of fabric time: the state itself, the runs of measurements, the slew, hop count and parent (R35). -/
theorem State.setLock_ft_eq {s : State} {l : Lock} (h : s.ft.lock ≠ l) :
    (s.setLock l).ft = { s.ft with
      lock := l, good := 0, bad := 0, slew := if l = Lock.free then 0 else s.ft.slew,
      hop := if l = .locked then (if s.source = 1 then 0 else (mgetD s.ft.partners s.ft.parent {}).hop + 1) else 0xF,
      parent := if l = .locked ∧ s.source = 1 then 0x3F else s.ft.parent } := by
  rw [State.setLock, if_neg h]
  simp only [State.raise_ft, State.rasLog_frame]
  by_cases hl : l = .locked
  · by_cases hs : s.source = 1
    · simp [hl, State.source, State.reg] at hs ⊢
      simp [hs]
    · simp [hl, State.source, State.reg] at hs ⊢
      simp [hs]
  · simp [hl]

/-- What a change of lock state leaves of fabric time besides its value. -/
@[simp] theorem State.setLock_rest (s : State) (l : Lock) :
    (s.setLock l).ft.lock = l ∧ (s.setLock l).ft.disjoint = s.ft.disjoint ∧ (s.setLock l).ft.depth = s.ft.depth
    ∧ (s.setLock l).ft.tsyncOk = s.ft.tsyncOk ∧ (s.setLock l).ft.refOk = s.ft.refOk ∧ (s.setLock l).ft.losses = s.ft.losses
    ∧ (s.setLock l).ft.steps = s.ft.steps ∧ (s.setLock l).ft.partners = s.ft.partners ∧ (s.setLock l).ft.latch = s.ft.latch := by
  by_cases h : s.ft.lock = l
  · rw [State.setLock, if_pos h]
    exact ⟨h, rfl, rfl, rfl, rfl, rfl, rfl, rfl, rfl⟩
  · rw [State.setLock_ft_eq h]
    exact ⟨rfl, rfl, rfl, rfl, rfl, rfl, rfl, rfl, rfl⟩

/-- A change of lock state sets the time event (R35). -/
theorem State.setLock_event {s : State} {l : Lock} (h : s.ft.lock ≠ l) : (s.setLock l).flagBit hifInt 0 = true := by
  rw [State.setLock, if_neg h]
  exact State.flagBit_raise ..

/-- The bits that a change of lock state may set. -/
def lockBits : List Nat := 8 * hifInt :: logBits

theorem BitsSet.mono {ks js : List Nat} {s t : State} (h : BitsSet ks s t) (sub : ks ⊆ js) : BitsSet js s t := fun k d =>
  (h k d).imp_right fun e => ⟨sub e.1, e.2⟩

theorem State.setLock_bitsSet (s : State) (l : Lock) : BitsSet lockBits s (s.setLock l) := by
  unfold State.setLock
  split
  · exact .refl _ s
  · extract_lets _ u _ v
    have same : BitsSet lockBits s v := by
      unfold v
      split_ifs <;> exact .of_csr rfl
    exact same.trans ((v.rasLog_bitsSet _ _ _ _ _ _ _ _ _ |>.mono (List.subset_cons_self ..)).trans (State.raise_bitsSet _ (List.mem_cons_self ..)))

/-- A change of lock state changes fabric time and what the log changes. -/
theorem State.setLock_logOnly (s : State) (l : Lock) : LogOnly { s with ft := (s.setLock l).ft } (s.setLock l) := by
  unfold State.setLock
  split
  · exact .refl _
  · extract_lets _ u _ v
    obtain ⟨r, q, m, b, k, e⟩ := (v.rasLog_logOnly 0x11 0 0 4 0xFFFF 0xFFFF 0 l.code 0).trans (State.raise_logOnly _ hifInt 0)
    rw [e]
    refine ⟨r, q, m, b, k, ?_⟩
    unfold v
    split_ifs <;> rfl

end Sys2Proof.Machine
end

section
/-! The discipline of fabric time: RESTEP and NEXTSEC, the loss and return of sources, the lock rule, and the exchange of time
(02_fabric_time R30-R40). -/
namespace Sys2Proof.Machine

/-! Reads, RESTEP and NEXTSEC -/

/-- Where no step has been counted, nothing is passed (R37). -/
theorem State.afterStep_of_steps {s old : State} (h : s.ft.steps = old.ft.steps) : s.afterStep old = s := by simp [State.afterStep, h]

/-- Where FT has not moved forward, nothing is passed (R37). -/
theorem State.afterStep_of_back {s old : State} (h : s.ft.units ≤ old.ft.units) : s.afterStep old = s := by
  simp [State.afterStep, Nat.not_lt.mpr h]

/-- FT set to a value is at most that value. -/
theorem FabTime.units_setUnits_le (f : FabTime) {u : Int} (h : 0 ≤ u) : ((f.setUnits u).units : Int) ≤ u := by
  simp only [FabTime.units, FabTime.setUnits]
  omega

theorem liftTime_timing {f : State → State} {s : State} (h : s.timing = true) : liftTime (whenTiming f) s = .next { s with ft := (f s).ft, core := (f s).core } := by
  rw [liftTime, whenTiming_pos f h]

/-- A read of FT's lower half (R29). -/
theorem ftReadLatches : Says.FtReadLatches := by
  intro s req timing
  refine ⟨_, rfl, ?_⟩
  rw [whenTiming_pos _ timing]
  exact ⟨rfl, mget_mput_same .., fun r other => mget_mput_ne _ _ other, rfl⟩

/-- RESTEP of a module that may take it (R37). -/
theorem State.restep_eq {s : State} {d : Int} (idle : s.userActive = false) (known : s.srcKnown = some d) :
    s.restep = { s with
      ft := { s.ft.setUnits ((s.ft.units : Int) - d) with slew := 0, steps := (s.ft.steps + 1) % 256, src := some 0, disjoint := false, copies := [] },
      core.pmc.step := true,
      core.pmc.lastInstant := if 0 < d then (s.ft.setUnits ((s.ft.units : Int) - d)).ns else s.core.pmc.lastInstant } := by
  have back : ((s.ft.units : Int) - d < s.ft.units) ↔ 0 < d := by omega
  rw [State.restep, if_neg (by simp [idle]), known]
  simp only [State.stepFt, FabTime.units, FabTime.setUnits] at back ⊢
  simp only [back]

/-- A correction that would take FT 10 ms or more back leaves it and marks the module DISJOINT (R36). -/
theorem State.fix_ahead {s : State} {d : Int} (ready : s.ft.everReady = true) (ahead : 10000000 * 65536 ≤ d) :
    (s.fix d).ft.disjoint = true ∧ (s.fix d).ft.nextSec = s.ft.nextSec ∧ (s.fix d).ft.ns = s.ft.ns ∧ (s.fix d).ft.frac = s.ft.frac := by
  unfold State.fix
  simp only [ready, Bool.not_true, Bool.false_eq_true, if_false, if_pos (show d ≥ 10000000 * 65536 from ahead), State.setLock_rest, State.setLock_ft,
    true_and]
  split <;> exact ⟨rfl, rfl, rfl⟩

theorem restepSetsTime : Says.RestepSetsTime := by
  intro s timing
  have exact_ {f : State → State} {t : State} (h : f s = t) (hp : t.fuse = s.fuse) (hq : t.pending = s.pending) :
      liftTime (whenTiming f) s = .next t := by
    rw [liftTime_timing timing, h, ← hp, ← hq]
  refine ⟨fun d idle known => ?_, fun refused => ?_, fun sec fits other => ?_, fun sec fits source agrees => ?_, fun sec fits source ready ahead => ?_⟩
  · extract_lets _ f _ _ u
    have stepped : s.restep = u := State.restep_eq idle known
    refine ⟨fun back low => exact_ ?_ rfl rfl, fun forward high low frac steps => exact_ ?_ rfl rfl⟩
    · rw [stepped]
      refine State.afterStep_of_back ?_
      have := s.ft.units_setUnits_le (u := (s.ft.units : Int) - d) (by omega)
      exact_mod_cast this.trans (by omega : (s.ft.units : Int) - d ≤ s.ft.units)
    · rw [stepped, State.afterStep]
      have value := FabTime.units_setUnits s.ft ((s.ft.units : Int) - d) (by omega) (by omega)
      have passed : s.ft.units < u.ft.units := by
        have : u.ft.units = (s.ft.setUnits ((s.ft.units : Int) - d)).units := rfl
        omega
      have counted : u.ft.steps ≠ s.ft.steps := by
        show (s.ft.steps + 1) % 256 ≠ s.ft.steps
        omega
      simp [counted, passed]
  · have still : s.restep = s := by
      unfold State.restep
      obtain active | unknown := refused
      · rw [if_pos active]
      · rw [unknown]; exact ite_self s
    exact exact_ (by rw [still]; exact State.afterStep_of_steps rfl) rfl rfl
  · refine exact_ ?_ rfl rfl
    have counted : s.nextsecWrite sec = { s with ft.nextSec := sec } := by
      rw [State.nextsecWrite, Nat.mod_eq_of_lt fits]
      exact if_pos other
    rw [counted]
    exact State.afterStep_of_steps rfl
  · refine exact_ ?_ rfl rfl
    have agreed : s.nextsecWrite sec = { s with ft.nextSec := sec, ft.src := s.ft.src.map (fun _ => s.ft.phase) } := by
      rw [State.nextsecWrite, Nat.mod_eq_of_lt fits]
      exact (if_neg (not_not.mpr source)).trans (if_pos agrees)
    rw [agreed]
    exact State.afterStep_of_steps rfl
  · refine ⟨_, liftTime_timing timing, ?_⟩
    rw [State.afterStep_ft]
    have jump : s.nextsecOffset sec ≠ 0 := by omega
    obtain ⟨hd, hn, hns, hfr⟩ := State.fix_ahead (s := { s with ft.nextSec := sec }) ready ahead
    have written : s.nextsecWrite sec = if s.ft.src.isNone then { ({ s with ft.nextSec := sec } : State).fix (s.nextsecOffset sec) with
        ft.src := none } else ({ s with ft.nextSec := sec } : State).fix (s.nextsecOffset sec) := by
      rw [State.nextsecWrite, Nat.mod_eq_of_lt fits]
      exact (if_neg (not_not.mpr source)).trans (if_neg jump)
    rw [written]
    split <;> exact ⟨hd, hn, hns, hfr⟩

/-- Settles O32: each clause is what the correction it makes comes to. -/
theorem hostTime : Obligations.HostTime := ⟨ftReadLatches, restepSetsTime⟩

/-! The sources -/

/-- A LOCKED module on the reference with GLB_FT_CTL holding SRC 7, a value that no write of the field leaves there, HOLD_LIMIT 0 and an eligible parent. -/
def wideSource : State :=
  { ft := { lock := .locked, refOk := true, tsyncOk := true, partners := [(0, { hop := 5, state := 2 })] },
    core := { boot := { phase := .ready }, regs := { csr := [(fldSrc.key, 7), (fldHoldLimit.key, 0)] }, fab := { ports := [(0, { st := .active })] } } }

/-- On losing its reference it follows the fabric, as with SRC 3, and begins to acquire. -/
theorem wideSource_refLoss (t : State) (e : exec .refLoss wideSource = .next t) : t.ft.lock = .acquiring := by
  have run : (match exec .refLoss wideSource with | .next u => u.ft.lock | _ => .free) = .acquiring := by decide +kernel
  simpa [e] using run

/-- Refutes O33: a field of the state may hold a value beyond its width; with SRC 7 the fabric takes over although SRC is not 3. -/
theorem not_timeDiscipline : ¬ Obligations.TimeDiscipline := by
  rintro ⟨lost, -, -⟩
  obtain ⟨t, e, lock, -⟩ := (lost wideSource (by decide)).1 (by decide) rfl .refLoss (by simp)
  rw [wideSource_refLoss t e] at lock
  exact absurd lock (by decide)

end Sys2Proof.Machine
end

section
/-! Register writes by the host driver: what one field takes of a write, which writes are discarded, and W1C bits (00_scope R7-R9, 15_host R367). -/
namespace Sys2Proof.Machine

/-! One field of a write -/

/-- With a whole mask the value that is written replaces the field. -/
theorem merge_full (x v w : Nat) : merge x (2 ^ w - 1) v % 2 ^ w = v % 2 ^ w := by
  have split := Nat.div_add_mod x (2 ^ w)
  have rest : x - x % 2 ^ w = 2 ^ w * (x / 2 ^ w) := by omega
  rw [merge, Nat.and_two_pow_sub_one_eq_mod, Nat.and_two_pow_sub_one_eq_mod, rest, Nat.mul_add_mod, Nat.mod_mod]

/-- A field of which the mask takes nothing stays (R7). -/
theorem State.writeField_out {s : State} {d m v : Nat} {x : Fld × Acc} (h : bits m (8 * (x.1.off - d) + x.1.lo) x.1.w = 0) :
    s.writeField d m v x = s := by
  simp [State.writeField, h]

/-- A field that is written whole and is not shut takes its bits of the write. -/
theorem State.writeField_whole {s : State} {d m v : Nat} {x : Fld × Acc} (open_ : s.fieldShut x = false) (acc : x.2 ≠ .w1c) (w : 0 < x.1.w)
    (whole : bits m (8 * (x.1.off - d) + x.1.lo) x.1.w = 2 ^ x.1.w - 1) :
    s.writeField d m v x = s.setReg x.1 (bits v (8 * (x.1.off - d) + x.1.lo) x.1.w) := by
  have full : 2 ^ x.1.w - 1 ≠ 0 := by have := Nat.one_lt_two_pow w.ne'; omega
  have value (u : Nat) : s.setReg x.1 (merge (s.reg x.1) (2 ^ x.1.w - 1) u) = s.setReg x.1 u := by
    simp only [State.setReg, merge_full]
  unfold State.writeField
  simp only [whole, open_, full, decide_false, Bool.or_self, Bool.false_eq_true, if_false, value]

/-- A W1C bit is cleared by writing 1 and kept by writing 0 (R9). -/
theorem State.writeField_w1c {s : State} {d m v o l r : Nat} (open_ : s.fieldShut (⟨o, l, 1, r⟩, .w1c) = false) (whole : bits m (8 * (o - d) + l) 1 = 1) :
    s.writeField d m v (⟨o, l, 1, r⟩, .w1c) = if v.testBit (8 * (o - d) + l) then s.setReg ⟨o, l, 1, r⟩ 0 else s := by
  have bit : (v.testBit (8 * (o - d) + l) = true) = ¬ bits v (8 * (o - d) + l) 1 = 0 := by
    simp [Nat.testBit_eq_decide_div_mod_eq, bits]
  have cut : (bits v (8 * (o - d) + l) 1 &&& 1 = 0) = (bits v (8 * (o - d) + l) 1 = 0) := by simp [bits, Nat.and_one_is_mod]
  simp only [State.writeField, whole, open_, one_ne_zero, decide_false, Bool.or_self, Bool.false_eq_true, if_false, bit, cut, ite_not]

/-- A write of four bytes to a block that responds: its fields, then what it sets off. -/
theorem State.barWrite_four {s : State} {off val : Nat} (aligned : off % 4 = 0) (on : s.responds off = true) :
    s.barWrite off 4 val =
      ((s.fieldsAt (off / 8 * 8)).foldl
        (fun t x => t.writeField (off / 8 * 8) ((2 ^ 32 - 1) * 2 ^ (8 * (off - off / 8 * 8)) &&& lawful (off / 8 * 8))
          (val % 2 ^ 32 * 2 ^ (8 * (off - off / 8 * 8))) x) s).wrote s (off / 8 * 8)
        ((2 ^ 32 - 1) * 2 ^ (8 * (off - off / 8 * 8)) &&& lawful (off / 8 * 8)) (val % 2 ^ 32 * 2 ^ (8 * (off - off / 8 * 8))) := by
  simp [State.barWrite, aligned, on]

/-- A write that leaves FT alone answers with the core that it makes. -/
theorem exec_regWrite {s u : State} {off size val : Nat} (h : s.barWrite off size val = u) (ft : u.ft = s.ft) :
    exec (.regWrite off size val) s = .next { s with core := u.core } := by
  cases time : timeReg off <;> simp [exec, execRegWrite, time, liftTime, liftLock, h, ft]

/-- A write that changes nothing. -/
theorem exec_regWrite_still {s : State} {off size val : Nat} (h : s.barWrite off size val = s) : exec (.regWrite off size val) s = .next s :=
  exec_regWrite h rfl

/-! Writes that are discarded -/

/-- A write where no field lies and nothing is set off changes nothing (R8). -/
theorem State.barWrite_nowhere {s : State} {off : Nat} (size val : Nat) (fields : s.fieldsAt (off / 8 * 8) = [])
    (quiet : ∀ m v, s.wrote s (off / 8 * 8) m v = s) : s.barWrite off size val = s := by
  unfold State.barWrite
  split
  · rfl
  · simp only [fields, List.foldl_nil, quiet]

/-- No register of the engines can be written (R8, R367). -/
theorem State.fieldsAt_engines (s : State) {d : Nat} (lo : 0x200000 ≤ d) (hi : d < 0x340000) : s.fieldsAt d = [] := by
  unfold State.fieldsAt State.blockFields
  repeat rw [if_neg (by omega)]
  rw [if_pos (by omega)]
  rfl

theorem State.wrote_engines (s old : State) {d : Nat} (m v : Nat) (lo : 0x200000 ≤ d) (hi : d < 0x340000) : s.wrote old d m v = s := by
  unfold State.wrote
  extract_lets hit
  repeat rw [if_neg (by omega)]
  exact if_pos hi

/-- Nor any behind the stream engines. -/
theorem State.fieldsAt_gap (s : State) {d : Nat} (lo : 0x3C0000 ≤ d) (hi : d < 0x400000) : s.fieldsAt d = [] := by
  unfold State.fieldsAt State.blockFields
  repeat rw [if_neg (by omega)]
  rw [if_pos (by omega), if_neg (by omega)]
  rfl

theorem State.wrote_gap (s old : State) {d : Nat} (m v : Nat) (lo : 0x3C0000 ≤ d) (hi : d < 0x400000) : s.wrote old d m v = s := by
  unfold State.wrote
  extract_lets hit
  repeat rw [if_neg (by omega)]
  exact if_pos hi

/-- The window of an absent stack has no registers (R3). -/
theorem State.fieldsAt_absentStack {s : State} {k d : Nat} (absent : s.stackPresent k = false) (hk : k < 8) (lo : memBase k ≤ d)
    (hi : d < memBase k + 0xC000) : s.fieldsAt d = [] := by
  unfold memBase at lo hi
  have window : (d - 0x400000) / 0x10000 = k := by omega
  unfold State.fieldsAt State.blockFields
  simp only [window, absent]
  repeat rw [if_neg (by omega)]
  rw [if_pos (by omega)]
  rfl

theorem State.wrote_stack (s old : State) {k d : Nat} (m v : Nat) (hk : k < 8) (lo : memBase k ≤ d) (hi : d < memBase k + 0xC000) :
    s.wrote old d m v = s := by
  unfold memBase at lo hi
  have below : (d - 0x400000) % 0x10000 < 0xC000 := by omega
  unfold State.wrote
  extract_lets hit
  repeat rw [if_neg (by omega)]
  rw [if_pos (by omega)]
  have other (n : Nat) (h : 0xC000 ≤ n) : (d - 0x400000) % 0x10000 ≠ n := by omega
  simp [State.memWrote, other]

/-- The window of an absent port has no registers (R3). -/
theorem State.fieldsAt_absentPort {s : State} {p d : Nat} (absent : s.portPresent p = false) (hp : p < 20) (lo : fabBase p ≤ d)
    (hi : d < fabBase p + 0x8000) : s.fieldsAt d = [] := by
  unfold fabBase at lo hi
  have window : (d - 0x600000) / 0x8000 = p := by omega
  unfold State.fieldsAt State.blockFields
  simp only [window, absent]
  repeat rw [if_neg (by omega)]
  rw [if_pos (by omega)]
  rfl

theorem State.wrote_absentPort {s : State} (old : State) {p d : Nat} (m v : Nat) (absent : s.portPresent p = false) (hp : p < 20)
    (lo : fabBase p ≤ d) (hi : d < fabBase p + 0x8000) : s.wrote old d m v = s := by
  unfold fabBase at lo hi
  have window : (d - 0x600000) / 0x8000 = p := by omega
  unfold State.wrote
  simp only [window, absent]
  repeat rw [if_neg (by omega)]
  exact if_pos (by omega)

theorem barWriteDiscarded : Says.BarWriteDiscarded := by
  intro s off size val
  have base (n : Nat) (h : n % 8 = 0) (lo : n ≤ off) : n ≤ off / 8 * 8 := by omega
  refine ⟨fun odd => ?_, fun lo hi => ?_, fun lo hi => ?_, fun k hk absent lo hi => ?_, fun p hp absent lo hi => ?_⟩ <;>
    refine exec_regWrite_still ?_
  · have discarded : (!(decide (size = 4) || decide (size = 8)) || decide (off % size ≠ 0)) = true := by simpa using odd
    simp only [State.barWrite, discarded, Bool.true_or, if_true]
  · exact State.barWrite_nowhere size val (s.fieldsAt_engines (base _ rfl lo) (by omega)) fun m v => s.wrote_engines s m v (base _ rfl lo) (by omega)
  · exact State.barWrite_nowhere size val (s.fieldsAt_gap (base _ rfl lo) (by omega)) fun m v => s.wrote_gap s m v (base _ rfl lo) (by omega)
  · have lo' : memBase k ≤ off / 8 * 8 := base _ (by unfold memBase; omega) lo
    exact State.barWrite_nowhere size val (State.fieldsAt_absentStack absent hk lo' (by omega)) fun m v => s.wrote_stack s m v hk lo' (by omega)
  · have lo' : fabBase p ≤ off / 8 * 8 := base _ (by unfold fabBase; omega) lo
    exact State.barWrite_nowhere size val (State.fieldsAt_absentPort absent hp lo' (by omega)) fun m v =>
      State.wrote_absentPort s m v absent hp lo' (by omega)

/-! What a write sets -/

theorem State.responds_glb {s : State} {off : Nat} (on : s.glbOn = true) (low : off < 0x20000) : s.responds off = true := by
  simp [State.responds, on, low]

/-- A live module with its link up and no fatal error answers in every block. -/
theorem State.responds_live {s : State} (live : s.live = true) (stop : s.core.ras.stop = false) (cxl : s.core.host.cxl = true) {off : Nat}
    (high : 0x20000 ≤ off) (low : off < 0xA00000) : s.responds off = true := by
  have block : (decide (off < 0x20000) || decide (0xA00000 ≤ off) && decide (off < 0xB00000)) = false := by simp; omega
  simp only [State.responds, block, live, cxl, stop]
  rfl

/-- The RAS block answers after a fatal error too (R410). -/
theorem State.responds_ras {s : State} (live : s.live = true) (cxl : s.core.host.cxl = true) {off : Nat} (high : 0x900000 ≤ off)
    (low : off < 0xA00000) : s.responds off = true := by
  have block : (decide (off < 0x20000) || decide (0xA00000 ≤ off) && decide (off < 0xB00000)) = false := by simp; omega
  have ras : (decide (0x900000 ≤ off) && decide (off < 0xA00000)) = true := by simp [high, low]
  simp only [State.responds, block, live, cxl, ras]
  simp

/-- A field that is no command register, no ledger control and not locked is open. -/
theorem State.fieldShut_rw {s : State} {f : Fld} (h : f ∉ [⟨qmgBase, 0, 8, 0⟩, ⟨mmuBase, 0, 8, 0⟩, ⟨rceGBase, 0, 8, 0⟩, ⟨secBase + 0x20, 0, 8, 0⟩,
    ⟨ftlBase + 0x28, 0, 8, 0⟩, fldLive, fldQuiesce]) {a : Acc} (acc : a ≠ .rwl) : s.fieldShut (f, a) = false := by
  simp only [List.mem_cons, List.not_mem_nil, or_false, not_or] at h
  simp [State.fieldShut, h, acc]

/-- A write of the low word of the doubleword at d. -/
theorem State.barWrite_low {s : State} {d v : Nat} (aligned : d % 8 = 0) (on : s.responds d = true) (whole : lawful d = 2 ^ 64 - 1) :
    s.barWrite d 4 v = ((s.fieldsAt d).foldl (fun t x => t.writeField d (2 ^ 32 - 1) (v % 2 ^ 32) x) s).wrote s d (2 ^ 32 - 1) (v % 2 ^ 32) := by
  have place : d / 8 * 8 = d := by omega
  rw [State.barWrite_four (by omega) on, place, Nat.sub_self, Nat.mul_zero, pow_zero, Nat.mul_one, Nat.mul_one, whole]
  rfl

/-- A write of the high word of the doubleword at d. -/
theorem State.barWrite_high {s : State} {d v : Nat} (aligned : d % 8 = 0) (on : s.responds (d + 4) = true) (whole : lawful d = 2 ^ 64 - 1) :
    s.barWrite (d + 4) 4 v = ((s.fieldsAt d).foldl (fun t x => t.writeField d ((2 ^ 32 - 1) * 2 ^ 32) (v % 2 ^ 32 * 2 ^ 32) x) s).wrote s d
      ((2 ^ 32 - 1) * 2 ^ 32) (v % 2 ^ 32 * 2 ^ 32) := by
  have place : (d + 4) / 8 * 8 = d := by omega
  rw [State.barWrite_four (by omega) on, place, Nat.add_sub_cancel_left, whole]
  rfl

/-- HIF_MOD (R373, R383). -/
theorem State.barWrite_mod {s : State} (on : s.glbOn = true) (v : Nat) : s.barWrite (hifBase + 0x30) 4 v = s.setReg fldModUsec v := by
  have fields : s.fieldsAt (hifBase + 0x30) = [(fldModUsec, .rw), (fldEvtMask, .rw)] := by
    unfold State.fieldsAt State.blockFields hifFields
    cases s.core.host.committed <;> rfl
  rw [State.barWrite_low rfl (State.responds_glb on (by decide)) rfl, fields, List.foldl_cons, List.foldl_cons, List.foldl_nil,
    State.writeField_out (by decide), State.writeField_whole (State.fieldShut_rw (by decide) (by decide)) (by decide) (by decide) (by decide)]
  have value : s.setReg fldModUsec (bits (v % 2 ^ 32) 0 16) = s.setReg fldModUsec v := by
    simp [State.setReg, bits, fldModUsec]
  exact value

/-- RAS_CE_THRESH (R409, R415). -/
theorem State.barWrite_ceThresh {s : State} (live : s.live = true) (cxl : s.core.host.cxl = true) (v : Nat) :
    s.barWrite (rasBase + 0x14) 4 v = s.setReg fldCeThresh v := by
  have fields : s.fieldsAt (rasBase + 0x10) = [(fldCeThresh, .rw)] := rfl
  rw [State.barWrite_high (d := rasBase + 0x10) rfl (State.responds_ras live cxl (by decide) (by decide)) rfl, fields, List.foldl_cons, List.foldl_nil,
    State.writeField_whole (State.fieldShut_rw (by decide) (by decide)) (by decide) (by decide) (by decide)]
  have value : s.setReg fldCeThresh (bits (v % 2 ^ 32 * 2 ^ 32) 32 16) = s.setReg fldCeThresh v := by
    simp [State.setReg, bits, fldCeThresh]
  exact value

/-- GLB_FT_CTL with SRC as it stands and no RESTEP (R40). -/
theorem State.barWrite_ftCtl {s : State} (on : s.glbOn = true) {v : Nat} (same : v % 4 = s.reg fldSrc)
    (quiet : v.testBit 31 = false) :
    s.barWrite 0x108 4 v = ((s.setReg fldHoldLimit (v / 2 ^ 16)).setReg fldExch (v / 2 ^ 8)).setReg fldSrc v := by
  have fields : s.fieldsAt 0x108 = [(fldHoldLimit, .rw), (fldExch, .rw), (fldSrc, .rw)] := rfl
  rw [State.barWrite_low rfl (State.responds_glb on (by decide)) rfl, fields, List.foldl_cons, List.foldl_cons, List.foldl_cons, List.foldl_nil,
    State.writeField_whole (State.fieldShut_rw (by decide) (by decide)) (by decide) (by decide) (by decide),
    State.writeField_whole (State.fieldShut_rw (by decide) (by decide)) (by decide) (by decide) (by decide),
    State.writeField_whole (State.fieldShut_rw (by decide) (by decide)) (by decide) (by decide) (by decide)]
  have limit : s.setReg fldHoldLimit (bits (v % 2 ^ 32) 16 8) = s.setReg fldHoldLimit (v / 2 ^ 16) := by
    have cut : v % 2 ^ 32 / 2 ^ 16 % 2 ^ 8 = v / 2 ^ 16 % 2 ^ 8 := by omega
    simp only [State.setReg, bits, fldHoldLimit, cut, Nat.mod_mod]
  have exch (t : State) : t.setReg fldExch (bits (v % 2 ^ 32) 8 4) = t.setReg fldExch (v / 2 ^ 8) := by
    have cut : v % 2 ^ 32 / 2 ^ 8 % 2 ^ 4 = v / 2 ^ 8 % 2 ^ 4 := by omega
    simp only [State.setReg, bits, fldExch, cut, Nat.mod_mod]
  have src (t : State) : t.setReg fldSrc (bits (v % 2 ^ 32) 0 2) = t.setReg fldSrc v := by
    simp [State.setReg, bits, fldSrc]
  show ((((s.setReg fldHoldLimit (bits (v % 2 ^ 32) 16 8)).setReg fldExch (bits (v % 2 ^ 32) 8 4)).setReg fldSrc (bits (v % 2 ^ 32) 0 2)).wrote s
    0x108 (2 ^ 32 - 1) (v % 2 ^ 32)) = _
  rw [limit, exch, src]
  generalize hu : ((s.setReg fldHoldLimit (v / 2 ^ 16)).setReg fldExch (v / 2 ^ 8)).setReg fldSrc v = u
  have source : u.source = s.source := by
    have reg : u.reg fldSrc = s.reg fldSrc := by rw [← hu, State.reg_setReg_same]; exact same
    have ft : u.ft = s.ft := by rw [← hu]; rfl
    simp only [State.source, reg, ft]
  have kept : u.sourceChange s = u := if_pos source
  have bit : (v % 2 ^ 32).testBit 31 = false := by rw [Nat.testBit_mod_two_pow, quiet]; rfl
  simp only [State.wrote, if_true, kept, bit, Bool.and_false, Bool.false_eq_true, if_false]

theorem regWriteSets : Says.RegWriteSets := by
  intro s v
  refine ⟨fun on => ?_, fun live cxl => ?_, fun on _ same quiet => ?_⟩
  · refine ⟨_, exec_regWrite (State.barWrite_mod on v) rfl, ?_⟩
    exact ⟨State.reg_setReg_same s fldModUsec v, State.reg_setReg_ne s fldModUsec fldEvtMask v (by decide), rfl, rfl, rfl, rfl⟩
  · exact ⟨_, exec_regWrite (State.barWrite_ceThresh live cxl v) rfl, State.reg_setReg_same s fldCeThresh v, rfl, rfl⟩
  · refine ⟨_, exec_regWrite (State.barWrite_ftCtl on same quiet) rfl, ?_, ?_, rfl⟩
    · exact (State.reg_setReg_ne _ fldSrc fldHoldLimit v (by decide)).trans <| (State.reg_setReg_ne _ fldExch fldHoldLimit _ (by decide)).trans <|
        State.reg_setReg_same s fldHoldLimit _
    · exact (State.reg_setReg_ne _ fldSrc fldExch v (by decide)).trans (State.reg_setReg_same _ fldExch _)

/-- What a write of QMG_INT makes of one of its bits. -/
def State.clearIf (s : State) (v i : Nat) : State := if v.testBit i then s.setReg ⟨qmgInt, i, 1, 0⟩ 0 else s

theorem State.flagBit_clearIf (s : State) (v i j : Nat) :
    (s.clearIf v j).flagBit qmgInt i = (s.flagBit qmgInt i && !(decide (i = j) && v.testBit j)) := by
  unfold State.clearIf
  by_cases hb : v.testBit j = true
  · by_cases hi : i = j
    · simp [hb, hi, State.flagBit, State.setReg, Fld.key]
    · simp [hb, hi, State.flagBit, State.setReg, Fld.key, mgetD_mput_ne]
  · simp [hb]

/-- QMG_INT (R155, R160). -/
theorem State.barWrite_qmgInt {s : State} (live : s.live = true) (stop : s.core.ras.stop = false) (cxl : s.core.host.cxl = true) (v : Nat) :
    s.barWrite qmgInt 4 v = (((s.clearIf v 0).clearIf v 1).clearIf v 2).clearIf v 3 := by
  have fields : s.fieldsAt qmgInt = [(⟨qmgInt, 0, 1, 0⟩, .w1c), (⟨qmgInt, 1, 1, 0⟩, .w1c), (⟨qmgInt, 2, 1, 0⟩, .w1c), (⟨qmgInt, 3, 1, 0⟩, .w1c)] := rfl
  have bit (t : State) (i : Nat) (hi : i < 4) : t.writeField qmgInt (2 ^ 32 - 1) (v % 2 ^ 32) (⟨qmgInt, i, 1, 0⟩, .w1c) = t.clearIf v i := by
    have cut : (v % 2 ^ 32).testBit i = v.testBit i := by rw [Nat.testBit_mod_two_pow]; simp; omega
    have whole : bits (2 ^ 32 - 1) (8 * (qmgInt - qmgInt) + i) 1 = 1 := by interval_cases i <;> decide
    have open_ : t.fieldShut (⟨qmgInt, i, 1, 0⟩, .w1c) = false := State.fieldShut_rw (by interval_cases i <;> decide) (by decide)
    rw [State.writeField_w1c open_ whole, Nat.sub_self, Nat.mul_zero, Nat.zero_add, cut]
    rfl
  rw [State.barWrite_low rfl (State.responds_live live stop cxl (by decide) (by decide)) rfl, fields]
  simp only [List.foldl_cons, List.foldl_nil]
  rw [bit _ 0 (by decide), bit _ 1 (by decide), bit _ 2 (by decide), bit _ 3 (by decide)]
  rfl

theorem State.clearIf_frame (s : State) (v i : Nat) :
    (s.clearIf v i).ft = s.ft ∧ (s.clearIf v i).core.regs.evc = s.core.regs.evc ∧ (s.clearIf v i).core.irq = s.core.irq := by
  unfold State.clearIf
  split <;> exact ⟨rfl, rfl, rfl⟩

theorem w1cBits : Says.W1cBits := by
  intro s v i hi
  refine ⟨fun live stop cxl => ?_, s.flagBit_raise qmgInt i, ?_⟩
  · refine ⟨_, exec_regWrite (State.barWrite_qmgInt live stop cxl v) (by simp only [State.clearIf_frame]), ?_⟩
    refine ⟨?_, by simp only [State.clearIf_frame], by simp only [State.clearIf_frame]⟩
    have cleared : ((((s.clearIf v 0).clearIf v 1).clearIf v 2).clearIf v 3).flagBit qmgInt i = (s.flagBit qmgInt i && !v.testBit i) := by
      simp only [State.flagBit_clearIf]
      interval_cases i <;> simp
    exact cleared
  · rw [State.raise_evc, mgetD_mput_same]

/-- Settles O35: a field takes the bits of the write at its place, a W1C bit loses them, and no register of these sets anything off. -/
theorem registerFields : Obligations.RegisterFields := ⟨regWriteSets, w1cBits⟩

/-- QMG_DISP_CFG, whose field bedrock locks (R9, R160). -/
theorem State.barWrite_stallMax {s : State} (live : s.live = true) (stop : s.core.ras.stop = false) (cxl : s.core.host.cxl = true) (v : Nat) :
    s.barWrite fldStallMax.off 4 v = if s.core.boot.locked then s else s.setReg fldStallMax v := by
  have fields : s.fieldsAt fldStallMax.off = [(fldStallMax, .rwl)] := rfl
  have shut : s.fieldShut (fldStallMax, .rwl) = s.core.boot.locked := by
    simp [State.fieldShut, fldStallMax, fldLive, fldQuiesce, qmgBase, mmuBase, rceGBase, secBase, ftlBase]
  rw [State.barWrite_low rfl (State.responds_live live stop cxl (by decide) (by decide)) rfl, fields, List.foldl_cons, List.foldl_nil]
  split
  case isTrue locked =>
    have kept : s.writeField fldStallMax.off (2 ^ 32 - 1) (v % 2 ^ 32) (fldStallMax, .rwl) = s := by simp [State.writeField, shut, locked]
    rw [kept]
    rfl
  case isFalse unlocked =>
    rw [State.writeField_whole (by rw [shut]; simpa using unlocked) (by decide) (by decide) (by decide)]
    have value : s.setReg fldStallMax (bits (v % 2 ^ 32) 0 16) = s.setReg fldStallMax v := by simp [State.setReg, bits, fldStallMax]
    exact value

theorem rwlLock : Says.RwlLock := by
  intro s v live stop cxl
  refine ⟨_, exec_regWrite (State.barWrite_stallMax live stop cxl v) (by split <;> rfl), fun locked => ?_, fun unlocked => ?_⟩
  · simp only [locked, if_true]
  · simp only [unlocked, Bool.false_eq_true, if_false]
    have value : (s.setReg fldStallMax v).reg fldStallMax = v / 2 ^ fldStallMax.lo % 2 ^ fldStallMax.w := by
      rw [State.reg_setReg_same, show fldStallMax.lo = 0 from rfl, pow_zero, Nat.div_one]
    exact value

/-- Settles O34: where no field lies and nothing is set off a write is discarded, and a locked field is shut. -/
theorem registerWrites : Obligations.RegisterWrites := ⟨barWriteDiscarded, rwlLock⟩

end Sys2Proof.Machine
end

section
/-! PROOF. Accesses to memory: what they leave alone, and that they see one address space (10_translation R237-R244). -/
namespace Sys2Proof.Machine

/-! What accesses do to registers -/

/-- A bit of an interrupt register of some block (R3, R155). -/
def intKey (k : Nat) : Prop := k / 8 % 0x1000 = 0x80

/-- A counter outside the QMG block, or that of its lost error records. -/
def quietCnt (o : Nat) : Prop := o < 0x20000 ∨ 0x100000 ≤ o ∨ o = qmgBase + 0x130

/-- From s to t fields keep their values but for bits of interrupt registers, where those that stand stay, and the counters of the QMG block are not
moved but for that of lost error records. -/
structure RegsKept (s t : State) : Prop where
  csr : ∀ k d, ¬ intKey k → mgetD t.core.regs.csr k d = mgetD s.core.regs.csr k d
  bits : ∀ k, mgetD s.core.regs.csr k 0 = 1 → intKey k → mgetD t.core.regs.csr k 0 = 1
  cnt : ∀ p, ¬ quietCnt p → t.counter p = s.counter p

namespace RegsKept

theorem of_regs {s t : State} (h : t.core.regs = s.core.regs) : RegsKept s t := by
  refine ⟨fun k d _ => by rw [h], fun k hk _ => by rwa [h], fun p _ => ?_⟩
  unfold State.counter
  rw [h]

theorem refl (s : State) : RegsKept s s := of_regs rfl

theorem trans {s t u : State} (h : RegsKept s t) (k : RegsKept t u) : RegsKept s u :=
  ⟨fun i d hi => (k.csr i d hi).trans (h.csr i d hi), fun i hb hi => k.bits i (h.bits i hb hi) hi, fun p hp => (k.cnt p hp).trans (h.cnt p hp)⟩

theorem bump (s : State) {o : Nat} (n : Nat) (h : quietCnt o) : RegsKept s (s.bump o n) :=
  ⟨fun _ _ _ => rfl, fun _ hk _ => hk, fun _ hp => State.counter_bump_ne s n fun e => hp (e ▸ h)⟩

theorem raise (s : State) {o i : Nat} (h : o % 0x1000 = 0x80) (hi : i < 8) : RegsKept s (s.raise o i) := by
  refine ⟨fun k d hk => ?_, fun k hb _ => ?_, fun p hp => s.counter_raise o i fun e => hp (.inl (by rw [e]; decide))⟩
  · rw [State.raise_csr, mgetD_mput_ne]
    rintro rfl
    exact hk (by unfold intKey; omega)
  · rw [State.raise_csr, mgetD_mput]
    split
    · rfl
    · exact hb

/-- A field that is no interrupt bit reads as before. -/
theorem reg {s t : State} (h : RegsKept s t) {f : Fld} (hf : ¬ intKey f.key) : t.reg f = s.reg f := h.csr _ _ hf

theorem flagBit {s t : State} (h : RegsKept s t) {o i : Nat} (ho : o % 0x1000 = 0x80) (hi : i < 8) (hb : s.flagBit o i = true) : t.flagBit o i = true := by
  simp only [State.flagBit, decide_eq_true_eq] at *
  exact h.bits _ hb (by unfold intKey; omega)

end RegsKept

/-! Accesses to memory -/

/-- t is s after accesses to memory: of its core only memory, registers, interrupts, ledger, command blocks and the list of invalidations that wait for
accesses may differ. -/
structure Accessed (s t : State) : Prop where
  rest : ∃ regs irq inv invs invDone mem ldg cmds, t = { s with
    core.regs := regs, core.irq := irq, core.mmu.inv := inv, core.mmu.invs := invs, core.mmu.invDone := invDone, core.mem := mem, core.ldg := ldg
    core.cmds := cmds }
  regs : RegsKept s t

namespace Accessed

theorem refl (s : State) : Accessed s s := ⟨⟨_, _, _, _, _, _, _, _, rfl⟩, .refl s⟩

theorem trans {s t u : State} (h : Accessed s t) (k : Accessed t u) : Accessed s u := by
  refine ⟨?_, h.regs.trans k.regs⟩
  obtain ⟨⟨_, _, _, _, _, _, _, _, rfl⟩, -⟩ := h
  obtain ⟨⟨_, _, _, _, _, _, _, _, rfl⟩, -⟩ := k
  exact ⟨_, _, _, _, _, _, _, _, rfl⟩

theorem foldl {α : Type} {f : State → α → State} (hf : ∀ s a, Accessed s (f s a)) (l : List α) (s : State) : Accessed s (l.foldl f s) := by
  induction l generalizing s with
  | nil => exact refl s
  | cons a l ih => exact (hf s a).trans (ih _)

theorem bump (s : State) {o : Nat} (n : Nat) (h : quietCnt o) : Accessed s (s.bump o n) := ⟨⟨_, _, _, _, _, _, _, _, rfl⟩, .bump s n h⟩
theorem take (s : State) (c i n : Nat) : Accessed s (s.take c i n) := ⟨⟨_, _, _, _, _, _, _, _, rfl⟩, .of_regs rfl⟩
theorem give (s : State) (c i n : Nat) : Accessed s (s.give c i n) := ⟨⟨_, _, _, _, _, _, _, _, rfl⟩, .of_regs rfl⟩
theorem ofMem (s : State) (m : Memory) : Accessed s { s with core.mem := m } := ⟨⟨_, _, _, _, _, _, _, _, rfl⟩, .of_regs rfl⟩

theorem raise (s : State) {o i : Nat} (h : o % 0x1000 = 0x80) (hi : i < 8) : Accessed s (s.raise o i) := by
  obtain ⟨_, _, hr⟩ := s.raise_core o i
  exact ⟨⟨_, _, _, _, _, _, _, _, hr⟩, .raise s h hi⟩

theorem raiseIf (s : State) (p : Bool) {o i : Nat} (h : o % 0x1000 = 0x80) (hi : i < 8) : Accessed s (s.raiseIf p o i) := by
  unfold State.raiseIf
  split
  · exact raise s h hi
  · exact refl s

/-! Counters and interrupt registers of the blocks that serve accesses -/

theorem memCnt (k n : Nat) : quietCnt (memBase k + n) := .inr (.inl (by unfold memBase; omega))
theorem memInt_int (k : Nat) : memInt k % 0x1000 = 0x80 := by unfold memInt memBase; omega
theorem hifCnt {n : Nat} (h : n < 0x10000) : quietCnt (hifBase + n) := .inl (by unfold hifBase; omega)
theorem mmuCnt (n : Nat) : quietCnt (mmuBase + n) := .inr (.inl (by unfold mmuBase; omega))
theorem ftlCnt (n : Nat) : quietCnt (ftlBase + n) := .inr (.inl (by unfold ftlBase; omega))
theorem rasCnt (n : Nat) : quietCnt (rasBase + n) := .inr (.inl (by unfold rasBase; omega))

/-! The operations of an access, innermost first -/

theorem wqPut (s : State) (k m c : Nat) : Accessed s (s.wqPut k m c) := ⟨⟨_, _, _, _, _, _, _, _, rfl⟩, .of_regs rfl⟩

theorem hbmWrite (s : State) (a : Nat) (bs : List Byte) (c : Nat) : Accessed s (s.hbmWrite a bs c) :=
  ((wqPut s _ _ _).trans (ofMem _ _)).trans (bump _ _ (memCnt _ _))

theorem hostWrite (s : State) (a : Nat) (bs : List Byte) : Accessed s (s.hostWrite a bs) := by
  unfold State.hostWrite
  split
  · exact (ofMem s _).trans (bump _ _ (hifCnt (by decide)))
  · exact (bump s _ (hifCnt (by decide))).trans (raise _ (by decide) (by decide))

theorem ftlSettle (s : State) : Accessed s s.ftlSettle := by
  unfold State.ftlSettle
  split
  · exact ⟨⟨_, _, _, _, _, _, _, _, rfl⟩, .of_regs rfl⟩
  · exact refl s

theorem endRecovery (s : State) (n : Nat) : Accessed s (s.endRecovery n) := by
  unfold State.endRecovery
  split
  · exact (ofMem s _).trans (ftlSettle _)
  · exact refl s

theorem programmed (s : State) : Accessed s s.programmed :=
  ((((ofMem s _).trans (bump _ _ (ftlCnt _))).trans (bump _ _ (ftlCnt _))).trans (bump _ _ (ftlCnt _))).trans (raiseIf _ _ (by decide) (by decide))

theorem flashWrite (s : State) (a : Nat) (bs : List Byte) : Accessed s (s.flashWrite a bs) := by
  unfold State.flashWrite
  split
  · exact refl s
  · dsimp only
    split
    · exact ((((ofMem s _).trans (endRecovery _ _)).trans (ofMem _ _)).trans (bump _ _ (ftlCnt _))).trans (programmed _)
    · exact (((ofMem s _).trans (endRecovery _ _)).trans (bump _ _ (ftlCnt _))).trans (programmed _)

theorem hbmTouch (s : State) (a n : Nat) : Accessed s (s.hbmTouch a n) := (bump s _ (memCnt _ _)).trans (raiseIf _ _ (memInt_int _) (by decide))

theorem countWalk (s : State) (c a : Nat) : Accessed s (s.countWalk c a) := by
  have h : Accessed s ((s.bump (mmuBase + 0x100) 1).bump (mmuBase + 0x108) 1) := (bump s _ (mmuCnt _)).trans (bump _ _ (mmuCnt _))
  unfold State.countWalk
  dsimp only
  split
  · exact h.trans (foldl (fun s a => hbmTouch s a 8) _ _)
  · exact h

theorem missWalk (s : State) (c a : Nat) : Accessed s (s.missWalk c a) := by
  unfold State.missWalk
  split
  · exact refl s
  · exact countWalk s c a

theorem setPool (s : State) (k : Nat) (p : PoolTu) : Accessed s (s.setPool k p) := ofMem s _
theorem tuDone (s : State) (k : Nat) : Accessed s (s.tuDone k) := ⟨⟨_, _, _, _, _, _, _, _, rfl⟩, .of_regs rfl⟩

theorem freeTu (s : State) (k : Nat) (p : PoolTu) : Accessed s (s.freeTu k p) := by
  have h : Accessed s (((s.bump (memBase p.stack + 0x130) 1).give 0xF p.stack 1).tuDone k) :=
    ((bump s _ (memCnt _ _)).trans (give _ _ _ _)).trans (tuDone _ _)
  unfold State.freeTu
  dsimp only
  split
  · exact h.trans (ofMem _ _)
  · exact h.trans (setPool _ _ _)

theorem takeTu (s : State) (c k q : Nat) : Accessed s (s.takeTu c k q).1 := by
  unfold State.takeTu
  split
  · exact refl s
  · exact refl s
  · split
    · exact refl s
    · exact freeTu s _ _

theorem fillFrom (s : State) (k : Nat) (p : PoolTu) : Accessed s (s.fillFrom k p) := by
  have end_ (t : State) (x : PoolTu) : Accessed t ((t.tuDone k).setPool k x) := (tuDone _ _).trans (setPool _ _ _)
  unfold State.fillFrom
  dsimp only
  split
  · exact ((((hbmWrite s _ _ _).trans (ofMem _ _)).trans (raiseIf _ _ (memInt_int _) (by decide))).trans (bump _ _ (ftlCnt _))).trans (end_ _ _)
  · exact ((((hbmWrite s _ _ _).trans (ofMem _ _)).trans (raiseIf _ _ (memInt_int _) (by decide))).trans (bump _ _ (hifCnt (by decide)))).trans (end_ _ _)

theorem poolTouch (s : State) (c a : Nat) (l : Loc) (w : Bool) : Accessed s (s.poolTouch c a l w) := by
  unfold State.poolTouch
  split
  · exact refl s
  · dsimp only
    split
    · exact (setPool s _ _).trans (bump _ _ (memCnt _ _))
    · split
      · exact bump s _ (memCnt _ _)
      · split
        · exact ((takeTu s _ _ _).trans (bump _ _ (memCnt _ _))).trans (raise _ (memInt_int _) (by decide))
        · exact (((((takeTu s _ _ _).trans (bump _ _ (memCnt _ _))).trans (take _ _ _ _)).trans (fillFrom _ _ _)).trans (setPool _ _ _)).trans
            (raiseIf _ _ (memInt_int _) (by decide))

theorem touch (s : State) (c a : Nat) (l : Loc) (w : Bool) : Accessed s (s.touch c a l w) := by
  unfold State.touch
  have h := poolTouch s c a l w
  dsimp only
  split
  · split
    · split
      · exact h.trans (setPool _ _ _)
      · exact h
    · exact h
  · exact h

theorem vtouch (s : State) (c a n : Nat) (w se : Bool) : Accessed s (s.vtouch c a n w se) := by
  refine foldl (fun s p => ?_) _ s
  dsimp only
  split
  · rename_i l _
    have h := (missWalk s c p.1).trans (touch _ c p.1 l w)
    split
    · exact h
    · split
      · exact h.trans (hbmTouch _ _ _)
      · exact h.trans (bump _ _ (ftlCnt _))
      · split
        · exact h.trans (hbmTouch _ _ _)
        · split
          · exact h
          · split
            · exact h.trans (bump _ _ (ftlCnt _))
            · exact h.trans (bump _ _ (hifCnt (by decide)))
      · exact h.trans (bump _ _ (hifCnt (by decide)))
  · exact refl s

theorem poolWrite (s : State) (k : Nat) (p : PoolTu) (o : Nat) (bs : List Byte) (c : Nat) : Accessed s (s.poolWrite k p o bs c) := by
  have hr : ∀ (s : State) (b : Prop) [Decidable b], Accessed s (if b then s.endRecovery p.home else s) := by
    intro s b _
    split
    · exact endRecovery s _
    · exact refl s
  unfold State.poolWrite
  dsimp only
  split
  · split
    · exact ((hbmWrite s _ _ _).trans (hr _ _)).trans (setPool _ _ _)
    · exact (hbmWrite s _ _ _).trans (hr _ _)
  · split
    · exact (hr s _).trans (setPool _ _ _)
    · have hs : ∀ b : Prop, [Decidable b] → Accessed s (if b then s.setPool k { p with imagePin := false } else s) := by
        intro b _
        split
        · exact setPool s _ _
        · exact refl s
      split
      · exact (hs _).trans (flashWrite _ _ _)
      · exact (hs _).trans (hostWrite _ _ _)

theorem locWrite (s : State) (l : Loc) (bs : List Byte) (c : Nat) : Accessed s (s.locWrite l bs c) := by
  unfold State.locWrite
  split
  · exact hbmWrite s _ _ _
  · exact flashWrite s _ _
  · exact hostWrite s _ _
  · exact poolWrite s _ _ _ _ _
  · exact poolWrite s _ _ _ _ _

theorem vput (s : State) (c a : Nat) (bs : List Byte) (se : Bool) (cap : Nat) : Accessed s (s.vput c a bs se cap) := by
  unfold State.vput
  generalize s.cut c a bs.length true se = l
  induction l generalizing s bs with
  | nil => exact refl s
  | cons p l ih =>
    rw [List.foldl_cons]
    dsimp only
    split
    · exact (((missWalk s _ _).trans (touch _ _ _ _ _)).trans (locWrite _ _ _ _)).trans (ih _ _)
    · exact ih _ _

end Accessed

/-! The address space -/

/-- s and t translate addresses alike: the tables, the caches and the entries of the contexts are the same. -/
structure SameSpace (s t : State) : Prop where
  fuse : t.fuse = s.fuse
  mem : t.core.mem = s.core.mem
  tlb : t.core.mmu.tlb = s.core.mmu.tlb
  atc : t.core.mmu.atc = s.core.mmu.atc
  refused : t.core.mmu.refused = s.core.mmu.refused
  entry : ∀ c, (t.ctx c).entry = (s.ctx c).entry

namespace SameSpace
variable {s t : State}

theorem refl (s : State) : SameSpace s s := ⟨rfl, rfl, rfl, rfl, rfl, fun _ => rfl⟩

theorem trans {u : State} (h : SameSpace s t) (k : SameSpace t u) : SameSpace s u :=
  ⟨k.fuse.trans h.fuse, k.mem.trans h.mem, k.tlb.trans h.tlb, k.atc.trans h.atc, k.refused.trans h.refused, fun c => (k.entry c).trans (h.entry c)⟩

theorem symm (h : SameSpace s t) : SameSpace t s :=
  ⟨h.fuse.symm, h.mem.symm, h.tlb.symm, h.atc.symm, h.refused.symm, fun c => (h.entry c).symm⟩

variable (h : SameSpace s t)
include h

theorem stackPresent (k : Nat) : t.stackPresent k = s.stackPresent k := by simp only [State.stackPresent, h.fuse]
theorem dpaOk (a : Nat) : t.dpaOk a = s.dpaOk a := by simp only [State.dpaOk, h.stackPresent]
theorem flashTus : t.flashTus = s.flashTus := by simp only [State.flashTus, h.fuse]
theorem hbmPoison (a n : Nat) : t.hbmPoison a n = s.hbmPoison a n := by simp only [State.hbmPoison, h.mem]

theorem leafOk {c d : Ctx} (hc : d.entry = c.entry) (l i e : Nat) : t.leafOk d l i e = s.leafOk c l i e := by
  simp only [State.leafOk, h.dpaOk, h.flashTus, h.stackPresent, Ctx.flag, hc]

theorem nonLeafOk (e : Nat) : t.nonLeafOk e = s.nonLeafOk e := by simp only [State.nonLeafOk, h.dpaOk]

theorem walkFrom {c d : Ctx} (hc : d.entry = c.entry) (va : Nat) : ∀ n l a, t.walkFrom d va n l a = s.walkFrom c va n l a
  | 0, _, _ => rfl
  | n + 1, l, a => by simp only [State.walkFrom, h.mem, h.hbmPoison, h.leafOk hc, h.nonLeafOk, walkFrom hc va n]

theorem leafOf (c va : Nat) : t.leafOf c va = s.leafOf c va := by
  have hr : (t.ctx c).root = (s.ctx c).root := by simp only [Ctx.root, h.entry]
  simp only [State.leafOf, State.walk, h.tlb, hr, h.dpaOk, h.walkFrom (h.entry c)]

theorem xlate (c va : Nat) (w se : Bool) : t.xlate c va w se = s.xlate c va w se := by
  have hp : (t.ctx c).pasid = (s.ctx c).pasid := by simp only [Ctx.pasid, h.entry]
  simp only [State.xlate, State.useLeaf, h.leafOf, h.dpaOk, h.atc, h.refused, hp]

theorem cut (c va n : Nat) (w se : Bool) : t.cut c va n w se = s.cut c va n w se := by
  have hx : t.xlate = s.xlate := by funext c va w se; exact h.xlate c va w se
  unfold State.cut State.oneTu
  rw [hx]

/-- Where the host answers alike, reads find the same bytes. -/
theorem locRead (hl : t.core.host.linkUp = s.core.host.linkUp) (l : Loc) (n : Nat) : t.locRead l n = s.locRead l n := by
  have hh : t.hostRead = s.hostRead := by funext a n; simp only [State.hostRead, hl, h.mem]
  have hm : t.flashMarked = s.flashMarked := by funext a; simp only [State.flashMarked, h.mem]
  have hp : t.hbmPoison = s.hbmPoison := by funext a n; exact h.hbmPoison a n
  have he : t.poolEntry = s.poolEntry := by funext a b c; simp only [State.poolEntry, h.mem]
  have hd : t.poolDpa = s.poolDpa := by funext a b; simp only [State.poolDpa, State.poolBase, h.mem]
  unfold State.locRead State.poolRead
  rw [hm, hp, hh, he, hd, h.mem]

theorem vget (hl : t.core.host.linkUp = s.core.host.linkUp) (c va n : Nat) (se : Bool) : t.vget c va n se = s.vget c va n se := by
  simp only [State.vget, h.cut, h.xlate, h.locRead hl]

end SameSpace

end Sys2Proof.Machine
end

section
/-! PROOF. Queues: what reading a queue gives after each shared operation, and how a control instruction is dispatched, runs and completes
(06_programs R139-R149). -/
namespace Sys2Proof.Machine
open State

/-! Reading a queue -/

theorem State.queue_congr {s t : State} (h : t.core.qm.queues = s.core.qm.queues) (p : Nat) : t.queue p = s.queue p := by
  unfold State.queue; rw [h]

@[simp] theorem State.queue_setQueue_same (s : State) (q : Nat) (x : Queue) : (s.setQueue q x).queue q = x := by
  simp [State.queue, State.setQueue]

theorem State.queue_setQueue_ne (s : State) {p q : Nat} (x : Queue) (h : p ≠ q) : (s.setQueue q x).queue p = s.queue p := by
  simp [State.queue, State.setQueue, mgetD_mput_ne _ _ _ h]

@[simp] theorem State.queue_updQueue_same (s : State) (q : Nat) (f : Queue → Queue) : (s.updQueue q f).queue q = f (s.queue q) := by
  simp [State.updQueue]

theorem State.queue_updQueue_ne (s : State) {p q : Nat} (f : Queue → Queue) (h : p ≠ q) : (s.updQueue q f).queue p = s.queue p :=
  s.queue_setQueue_ne _ h

/-- What a queue operation leaves of the queue management besides the queues. -/
@[simp] theorem State.setQueue_qm (s : State) (q : Nat) (x : Queue) :
    (s.setQueue q x).core.qm = { s.core.qm with queues := mput s.core.qm.queues q x } := rfl

@[simp] theorem State.updQueue_qm (s : State) (q : Nat) (f : Queue → Queue) :
    (s.updQueue q f).core.qm = { s.core.qm with queues := mput s.core.qm.queues q (f (s.queue q)) } := rfl

@[simp] theorem State.queue_bump (s : State) (o n p : Nat) : (s.bump o n).queue p = s.queue p := rfl
@[simp] theorem State.queue_take (s : State) (c i n p : Nat) : (s.take c i n).queue p = s.queue p := rfl
@[simp] theorem State.queue_give (s : State) (c i n p : Nat) : (s.give c i n).queue p = s.queue p := rfl
@[simp] theorem State.queue_updCtx (s : State) (c p : Nat) (f : Ctx → Ctx) : (s.updCtx c f).queue p = s.queue p := rfl
@[simp] theorem State.queue_updKc (s : State) (k p : Nat) (f : KcSample → KcSample) : (s.updKc k f).queue p = s.queue p := rfl
@[simp] theorem State.queue_raise (s : State) (o i p : Nat) : (s.raise o i).queue p = s.queue p := s.queue_congr (by simp) p

/-! Opcodes of encoded control instructions -/

theorem iOp_ctlWord {op : Nat} (h : Hdr) (body : Nat) (hop : op < 256) : iOp (ctlWord op h body) = op := by
  simp only [iOp, ctlWord, bits, put]
  omega

/-! Outcomes -/

theorem answers_core {f : State → State} {s : State} {p : State → Prop} (h : p { s with core := (f s).core }) : Answers (liftCore f s) p :=
  ⟨_, rfl, h⟩

theorem answers_dispatching {f : State → State} {s : State} {p : State → Prop} (hd : s.dispatching = true)
    (h : p { s with core := (f s).core }) : Answers (liftCore (whenDispatching f) s) p :=
  answers_core (by rwa [whenDispatching_pos f hd])

theorem answers_dispatching_at {f : State → State} {s t : State} {p : State → Prop} (hd : s.dispatching = true) (ht : f s = t)
    (h : p { s with core := t.core }) : Answers (liftCore (whenDispatching f) s) p :=
  answers_dispatching hd (by rwa [ht])

theorem answers_live {f : State → State} {s : State} {p : State → Prop} (hd : s.live = true)
    (h : p { s with core := (f s).core }) : Answers (liftCore (whenLive f) s) p :=
  answers_core (by rwa [whenLive_pos f hd])

/-- An instruction as a core puts it in flight: what decides how it completes. -/
structure Fresh (s : State) (q raw : Nat) (i : InFlight) : Prop where
  seq : i.seq = (s.queue q).nextSeq
  op : i.op = iOp raw
  sig : i.sig = sigOf raw
  outs : i.outs = []
  deadline : i.deadline = 0
  unit : i.unit = 0xFFFF

/-- u is s with the control instruction `raw` of queue q in flight as i, nothing of it carried out yet. -/
structure Launched (s u : State) (q raw : Nat) (i : InFlight) : Prop where
  fresh : Fresh s q raw i
  queue : u.queue q = { s.queue q with
    st := .bound, cur := none, fl := [i], nextSeq := (s.queue q).nextSeq + 1, reserved := (s.queue q).reserved + 1
    fetch := ((s.queue q).fetch + 1) % (s.queue q).rmod
    head := if iOp raw = 0x0F then ((s.queue q).fetch + 1) % (s.queue q).rmod else (s.queue q).head
    prog := if iOp raw = 0x0F then (s.queue q).prog + 1 else (s.queue q).prog }
  sampled : u.sampledBy q (s.queue q).nextSeq = none
  rest : ∃ turn queues n cnt ldg kc, u = { s with
    core.qm.turn := turn, core.qm.queues := queues, core.regs.cnt := cnt, core.ldg := ldg, core.pmc.kc := kc
    core.mmu.ctxs := mupd s.core.mmu.ctxs (s.queue q).ctx {} (fun k => { k with tagNext := n }) }

theorem mem_mput {α : Type} {m : Map α} {k : Nat} {a : α} {e : Nat × α} (h : e ∈ mput m k a) : e = (k, a) ∨ e ∈ m := by
  induction m with
  | nil => simpa [mput] using h
  | cons x m ih =>
    obtain ⟨j, b⟩ := x
    unfold mput at h
    split at h
    · simpa using h
    · split at h
      · simp only [List.mem_cons] at h ⊢; tauto
      · simp only [List.mem_cons] at h ⊢
        rcases h with h | h
        · exact .inr (.inl h)
        · rcases ih h with h | h
          · exact .inl h
          · exact .inr (.inr h)

theorem mem_of_mget {α : Type} {m : Map α} {k : Nat} {a : α} (h : mget m k = some a) : (k, a) ∈ m := by
  induction m with
  | nil => simp at h
  | cons x m ih =>
    obtain ⟨j, b⟩ := x
    rw [mget_cons] at h
    split at h
    · simp_all
    · exact List.mem_cons_of_mem _ (ih h)

theorem mgetD_cases {α : Type} (m : Map α) (k : Nat) (d : α) : mgetD m k d = d ∨ (k, mgetD m k d) ∈ m := by
  unfold mgetD
  cases h : mget m k with
  | none => exact .inl rfl
  | some a => exact .inr (mem_of_mget h)

/-- A change of a queue that keeps its context, its instructions and its held records adds no tag to those in use. -/
theorem tagsOf_updQueue {s : State} {q c : Nat} {f : Queue → Queue} (hc : (f (s.queue q)).ctx = (s.queue q).ctx)
    (hf : (f (s.queue q)).fl = (s.queue q).fl) (hh : (f (s.queue q)).held = (s.queue q).held) {t : Nat} (h : t ∈ (s.updQueue q f).tagsOf c) :
    t ∈ s.tagsOf c := by
  unfold tagsOf at *
  simp only [List.mem_flatMap] at *
  obtain ⟨e, he, ht⟩ := h
  rcases mem_mput he with rfl | he
  · rw [hc, hf, hh] at ht
    rcases mgetD_cases s.core.qm.queues q {} with hd | hd
    · have : s.queue q = {} := hd
      simp [this] at ht
    · exact ⟨_, hd, ht⟩
  · exact ⟨e, he, ht⟩

theorem autoTag_isSome_iff (s : State) (c : Nat) :
    (s.autoTag c).isSome = true ↔ ∃ i, i < (s.ctx c).tagCount ∧ (s.ctx c).tagFirst + ((if (s.ctx c).tagFirst ≤ (s.ctx c).tagNext ∧
      (s.ctx c).tagNext < (s.ctx c).tagFirst + (s.ctx c).tagCount then (s.ctx c).tagNext - (s.ctx c).tagFirst else 0) + i) % (s.ctx c).tagCount
        ∉ s.tagsOf c := by
  simp [autoTag, List.find?_isSome]

/-- Where fewer tags are in use, a free one is still found. -/
theorem autoTag_mono {s t : State} {c : Nat} (hx : t.ctx c = s.ctx c) (ht : ∀ a, a ∈ t.tagsOf c → a ∈ s.tagsOf c)
    (h : (s.autoTag c).isSome = true) : (t.autoTag c).isSome = true := by
  rw [autoTag_isSome_iff] at *
  obtain ⟨i, hi, hn⟩ := h
  exact ⟨i, by rwa [hx], fun hm => hn (by rw [hx] at hm; exact ht _ hm)⟩

/-- The state of a queue as its next entry, the control instruction `raw`, is about to be launched: it has been fetched and has passed its checks. -/
structure Fetched (s v : State) (q raw : Nat) : Prop where
  queue : ∃ c, v.queue q = { s.queue q with
    cur := some c, head := if iOp raw = 0x0F then ((s.queue q).fetch + 1) % (s.queue q).rmod else (s.queue q).head }
  tags : ∀ t, t ∈ v.tagsOf (s.queue q).ctx → t ∈ s.tagsOf (s.queue q).ctx
  rest : ∃ turn queues, v = { s with core.qm.turn := turn, core.qm.queues := queues }

theorem sampledBy_none_iff (s : State) (q n : Nat) : s.sampledBy q n = none ↔ ∀ e ∈ s.core.pmc.kc, e.2.live ≠ some (q, n) := by
  simp [sampledBy]

/-- A dispatch that does not bring its core's countdown to 0 tags no instruction. -/
theorem sampledBy_countDispatch {s : State} {k q n c q' n' : Nat} (hk : 1 < (mgetD s.core.pmc.kc k {}).count)
    (h : s.sampledBy q' n' = none) : (s.countDispatch k q n c).sampledBy q' n' = none := by
  rw [sampledBy_none_iff] at *
  intro e he
  have hc : s.countDispatch k q n c = s.updKc k (fun x => { x with count := x.count - 1 }) := by simp [countDispatch, hk]
  rw [hc] at he
  rcases mem_mput he with rfl | he
  · rcases mgetD_cases s.core.pmc.kc k {} with hd | hd
    · simp [hd]
    · exact fun hn => h _ hd hn
  · exact h e he

/-- An instruction with an automatic tag and no deadline as the core launches it. -/
def Queue.flight (x : Queue) (c : Cur) (tag now : Nat) : InFlight :=
  { seq := x.nextSeq, tag := tag, op := iOp c.raw, fn := bits c.raw 128 8, sig := sigOf c.raw, mode := iMod c.raw, unit := 0xFFFF, prog := x.prog, ft := c.ft,
    dft := now, deadline := 0 }

/-- The fetch pointer past a control instruction and the instruction in flight. -/
def State.putInFlight (s : State) (q : Nat) (c : Cur) (tag : Nat) : State :=
  let x := (s.queue q).advance (decide (iOp c.raw = 0x0F))
  let s := s.setQueue q { x with st := .bound, nextSeq := x.nextSeq + 1, reserved := x.reserved + 1, fl := x.fl ++ [(s.queue q).flight c tag s.now] }
  (((s.updCtx x.ctx (fun k => { k with tagNext := tag + 1 })).bump (qmgBase + 0x100) 1).take 6 0 1).take 7 q 1

theorem State.putInFlight_rest (s : State) (q : Nat) (c : Cur) (tag : Nat) : ∃ queues n cnt ldg, s.putInFlight q c tag = { s with
    core.qm.queues := queues, core.regs.cnt := cnt, core.ldg := ldg
    core.mmu.ctxs := mupd s.core.mmu.ctxs (s.queue q).ctx {} (fun k => { k with tagNext := n }) } :=
  ⟨_, tag + 1, _, _, rfl⟩

/-- The instruction in flight, counted by its core's sampling, nothing of it carried out yet. -/
def State.enter (s : State) (q : Nat) (c : Cur) (tag : Nat) : State :=
  (s.putInFlight q c tag).countDispatch (kcOf (s.queue q) q) q (s.queue q).nextSeq (s.queue q).ctx

/-- What a launch does with an instruction that the core carries out itself. -/
def State.carryOut (s : State) (q seq raw idx : Nat) (x : Queue) : State :=
  match firstBad (reservedBad raw ++ ixBad raw (ixSums raw x.c) ++ ctlBad raw ++ s.cmpbBad x raw idx) with
  | some b => ((s.lookAhead x raw idx).finishWith q seq 0xC (badDetail b)).complete q seq
  | none => (s.lookAhead x raw idx).runControl q seq raw idx (ixSums raw x.c)

theorem launch_ctl {s : State} {q tag : Nat} {c : Cur} (ha : s.autoTag (s.queue q).ctx = some tag) (hcr : (s.queue q).crFree ≠ 0)
    (ht : iTag c.raw = 0xFFFF) (hd : iDeadline c.raw = 0) (hc : opControl (iOp c.raw) = true) :
    s.launch q c = (s.enter q c tag).carryOut q (s.queue q).nextSeq c.raw (s.queue q).fetch ((s.queue q).advance (decide (iOp c.raw = 0x0F))) := by
  have htf : s.tagFor (s.queue q).ctx c.raw = some tag := by simp [tagFor, ht, ha]
  unfold State.launch
  simp only [htf, hcr, ht, hd, hc, if_true, if_false]
  rfl

theorem countDispatch_counting {s : State} {k : Nat} (q n c : Nat) (hk : 1 < (mgetD s.core.pmc.kc k {}).count) :
    s.countDispatch k q n c = s.updKc k (fun x => { x with count := x.count - 1 }) := by
  simp [countDispatch, hk]

theorem Fetched.enter {s v : State} {q raw tag : Nat} {c : Cur} (hv : Fetched s v q raw) (hl : Launches s q raw) (hr : c.raw = raw) :
    Launched s (v.enter q c tag) q raw ((v.queue q).flight c tag v.now) := by
  obtain ⟨-, -, -, -, hfl, -, -, -, -, -, -, -, -, hk, hs⟩ := hl
  obtain ⟨⟨c0, hq⟩, -, turn, queues, hv⟩ := hv
  subst hr
  have hk' : 1 < (mgetD (v.putInFlight q c tag).core.pmc.kc (kcOf (v.queue q) q) {}).count := by rw [hq, hv]; exact hk
  have he : v.enter q c tag = (v.putInFlight q c tag).updKc (kcOf (v.queue q) q) (fun x => { x with count := x.count - 1 }) :=
    countDispatch_counting _ _ _ hk'
  refine ⟨⟨?_, rfl, rfl, rfl, rfl, rfl⟩, ?_, ?_, ?_⟩
  · rw [hq]; rfl
  · rw [he]
    simp only [State.putInFlight, queue_updKc, queue_take, queue_bump, queue_updCtx, queue_setQueue_same, Queue.advance, hq, hfl]
    by_cases h : iOp c.raw = 0x0F <;> simp [h, Queue.rmod, Queue.rsz]
  · exact sampledBy_countDispatch hk' (by rw [hv]; exact hs)
  · have hctx : (v.queue q).ctx = (s.queue q).ctx := by rw [hq]; rfl
    obtain ⟨queues', n, cnt, ldg, hp⟩ := v.putInFlight_rest q c tag
    rw [he, hp, hctx, hv]
    exact ⟨turn, queues', n, cnt, ldg, _, rfl⟩

theorem State.tookTurn_turn (s : State) (q : Nat) : ∃ turn, s.tookTurn q = { s with core.qm.turn := turn } := by
  unfold State.tookTurn
  dsimp only
  split <;> exact ⟨_, rfl⟩

theorem Fetched.updCur {s v : State} {q raw : Nat} (hv : Fetched s v q raw) (c : Cur) :
    Fetched s (v.updQueue q (fun x => { x with cur := some c })) q raw := by
  obtain ⟨⟨c0, hq⟩, htags, turn, queues, hr⟩ := hv
  refine ⟨⟨c, by rw [queue_updQueue_same, hq]⟩, fun t ht => htags t (tagsOf_updQueue rfl rfl rfl ht), turn, _, by rw [hr]; rfl⟩

theorem Queue.fetched_instr (x : Queue) (raw ft : Nat) : x.fetched { raw := raw, ft := ft } =
    { x with cur := some { raw := raw, ft := ft }, head := if iOp raw = 0x0F then (x.fetch + 1) % x.rmod else x.head } := by
  simp [Queue.fetched]

theorem fetched_start {s : State} {q raw : Nat} :
    Fetched s ((s.tookTurn q).updQueue q (fun x => x.fetched { raw := raw, ft := s.now })) q raw := by
  obtain ⟨turn, ht⟩ := s.tookTurn_turn q
  rw [ht]
  exact ⟨⟨_, by rw [queue_updQueue_same, Queue.fetched_instr]; rfl⟩, fun t h => (tagsOf_updQueue rfl rfl rfl h :), turn, _, rfl⟩

/-- The next entry of a queue with its fetch done, past the checks of its header. -/
def Cur.start (raw ft : Nat) : Cur := { raw := raw, ft := ft, checked := true }

theorem Fetched.runCur_evalWait {s v : State} {q raw : Nat} (hv : Fetched s v q raw) (hhdr : firstBad (s.headerBad (s.queue q) raw) = none)
    (hcur : (v.queue q).cur = some { raw := raw, ft := s.now }) :
    v.runCur q = (v.updQueue q (fun x => { x with cur := some (Cur.start raw s.now) })).evalWait q (Cur.start raw s.now) := by
  obtain ⟨⟨c0, hq⟩, -, turn, queues, hr⟩ := hv
  have hh : v.headerBad (v.queue q) raw = s.headerBad (s.queue q) raw := by rw [hq, hr]; rfl
  unfold State.runCur
  simp only [hcur, hh, hhdr]
  rfl

/-- The flag that a passed header's wait reference names is the context's. -/
theorem ownsFlag_of_headerBad {s : State} {x : Queue} {raw : Nat} (hhdr : firstBad (s.headerBad x raw) = none) (hm : refMode (iWait raw) ≠ 0) :
    s.ownsFlag x.ctx (refFlag (iWait raw)) = true := by
  have hb : (4, 4) ∉ s.headerBad x raw := by rw [firstBad_eq_none.1 hhdr]; simp
  simpa [State.headerBad, hm] using hb

/-- An entry whose wait holds is launched. -/
theorem Fetched.evalWait {s v : State} {q raw : Nat} (hv : Fetched s v q raw) (hl : Launches s q raw) (hc : opControl (iOp raw) = true) :
    ∃ u c, Fetched s u q raw ∧ c.raw = raw ∧ v.evalWait q (Cur.start raw s.now) = u.launch q c := by
  obtain ⟨-, -, -, -, -, -, -, hhdr, -, hwait, -⟩ := hl
  rcases hwait with hm | ⟨hm, hf⟩
  · exact ⟨v, Cur.start raw s.now, hv, rfl, by simp [State.evalWait, hm, Cur.start]⟩
  · have hm0 : refMode (iWait raw) ≠ 0 := by rw [hm]; decide
    have hown := ownsFlag_of_headerBad hhdr hm0
    have h5 : iOp raw ≠ 5 ∧ iOp raw ≠ 6 := by simp [opControl] at hc; omega
    refine ⟨_, { Cur.start raw s.now with served := true }, hv.updCur { Cur.start raw s.now with served := true }, rfl, ?_⟩
    obtain ⟨⟨c1, hq1⟩, -, turn, queues, hr⟩ := hv
    have ho1 : v.ownsFlag (v.queue q).ctx (refFlag (iWait raw)) = true := by rw [hq1, hr]; exact hown
    have hf1 : (v.flag (refFlag (iWait raw))).state = true := by rw [hr]; exact hf
    simp [State.evalWait, Cur.start, hm, h5, ho1, hf1, waitHolds, State.serve]

theorem dispatchAs_runCur {s : State} {q : Nat} (raw : Nat) (hmay : s.mayDispatch q = true) (hcur : (s.queue q).cur = none)
    (hav : (s.queue q).avail = true) :
    s.dispatchAs q raw = ((s.tookTurn q).updQueue q (fun x => x.fetched { raw := raw, ft := s.now })).runCur q := by
  obtain ⟨turn, ht⟩ := s.tookTurn_turn q
  have hq : (s.tookTurn q).queue q = s.queue q := by rw [ht]; rfl
  have hn : (s.tookTurn q).now = s.now := by rw [ht]
  simp [State.dispatchAs, hmay, hq, hcur, hav, hn]

/-- A control instruction that may be launched comes to be carried out. -/
theorem Launches.dispatchAs {s : State} {q raw : Nat} (hl : Launches s q raw) (hc : opControl (iOp raw) = true) :
    ∃ u i, Launched s u q raw i ∧ s.dispatchAs q raw = u.carryOut q (s.queue q).nextSeq raw (s.queue q).fetch
      ((s.queue q).advance (decide (iOp raw = 0x0F))) := by
  obtain ⟨-, hmay, hcur, hav, hfl, -, hcr, hhdr, -, hwait, htag, haut, hdl, hk, hs⟩ := id hl
  have hst : Fetched s _ q raw := fetched_start
  have hrun := (dispatchAs_runCur raw hmay hcur hav).trans (hst.runCur_evalWait hhdr (by rw [queue_updQueue_same]; rfl))
  obtain ⟨v, c, hv, hr, he⟩ := (hst.updCur (Cur.start raw s.now)).evalWait hl hc
  obtain ⟨⟨c0, hq⟩, htags, turn, queues, hvr⟩ := id hv
  have hx : v.ctx (s.queue q).ctx = s.ctx (s.queue q).ctx := by rw [hvr]; rfl
  obtain ⟨tag, ht⟩ := Option.isSome_iff_exists.1 (autoTag_mono hx htags haut)
  refine ⟨v.enter q c tag, _, hv.enter hl hr, ?_⟩
  subst hr
  rw [hrun, he, launch_ctl (tag := tag) (by rw [hq]; exact ht) (by rw [hq]; exact hcr) htag hdl hc, hq]
  by_cases h : iOp c.raw = 0x0F <;> simp [h, Queue.advance, Queue.rmod, Queue.rsz]

/-- An instruction that the core carries out itself and that has no branch target to check is run where its body checks pass. -/
theorem carryOut_runControl {s : State} {q seq raw idx : Nat} {x : Queue} (h : iOp raw ≠ 0x0B)
    (hb : firstBad (reservedBad raw ++ ixBad raw (ixSums raw x.c) ++ ctlBad raw) = none) :
    s.carryOut q seq raw idx x = s.runControl q seq raw idx (ixSums raw x.c) := by
  have hc : s.cmpbBad x raw idx = [] := by simp [State.cmpbBad, h, check]
  have hl : s.lookAhead x raw idx = s := by simp [State.lookAhead, h]
  rw [State.carryOut, hc, List.append_nil, hb, hl]

/-! Signals -/

/-- t is s after signals: only flags, waits and what waits brought the queues (counters, a served entry) may differ. -/
structure Signalled (s t : State) : Prop where
  qm : ∃ qm, t = { s with core.qm := qm }
  queue : ∀ p, ∃ ctrs cur, t.queue p = { s.queue p with ctrs := ctrs, cur := cur } ∧ ((s.queue p).cur = none → cur = none)
  eiq : t.core.qm.eiq = s.core.qm.eiq
  slots : t.core.qm.slots = s.core.qm.slots
  owner : t.core.qm.owner = s.core.qm.owner
  doorbells : t.core.qm.doorbells = s.core.qm.doorbells

theorem Signalled.refl (s : State) : Signalled s s := ⟨⟨_, rfl⟩, fun _ => ⟨_, _, rfl, id⟩, rfl, rfl, rfl, rfl⟩

theorem Signalled.trans {s t u : State} (h : Signalled s t) (k : Signalled t u) : Signalled s u := by
  obtain ⟨qm, hqm⟩ := h.qm
  obtain ⟨qm', hqm'⟩ := k.qm
  refine ⟨⟨qm', by rw [hqm', hqm]⟩, fun p => ?_, k.eiq.trans h.eiq, k.slots.trans h.slots, k.owner.trans h.owner, k.doorbells.trans h.doorbells⟩
  obtain ⟨a, b, hq, hn⟩ := h.queue p
  obtain ⟨a', b', hq', hn'⟩ := k.queue p
  refine ⟨a', b', by rw [hq', hq], fun hc => hn' ?_⟩
  rw [hq]
  exact hn hc

/-- A queue changed in its counters and its served entry only. -/
theorem Signalled.of_updQueue (s : State) (q : Nat) (f : Queue → Queue)
    (h : ∃ ctrs cur, f (s.queue q) = { s.queue q with ctrs := ctrs, cur := cur } ∧ ((s.queue q).cur = none → cur = none)) :
    Signalled s (s.updQueue q f) := by
  refine ⟨⟨_, rfl⟩, fun p => ?_, rfl, rfl, rfl, rfl⟩
  by_cases hp : p = q
  · subst hp
    obtain ⟨a, b, hf, hn⟩ := h
    exact ⟨a, b, by rw [State.queue_updQueue_same, hf], hn⟩
  · exact ⟨_, _, s.queue_updQueue_ne f hp, id⟩

/-- Flags, updates, waiters, notes and marks are a signal's to change. -/
theorem Signalled.of_flags (s : State) (fl : Map Flag) (up : Map (List FlagUpdate)) (ws : List Waiter) (ns : List Nat) (ms : List (Nat × Nat)) :
    Signalled s { s with core.qm.flags := fl, core.qm.upd := up, core.qm.waiters := ws, core.qm.notes := ns, core.qm.marks := ms } :=
  ⟨⟨_, rfl⟩, fun _ => ⟨_, _, rfl, id⟩, rfl, rfl, rfl, rfl⟩

theorem State.serve_signalled (s : State) (f m c q : Nat) : Signalled s (s.serve f m c q) := by
  unfold State.serve
  split
  · exact Signalled.of_flags s _ _ _ _ _
  · exact Signalled.of_updQueue s _ _ ⟨_, _, rfl, id⟩
  · exact Signalled.refl s

theorem State.serveWaiter_signalled (s : State) (w : Waiter) : Signalled s (s.serveWaiter w) := by
  unfold State.serveWaiter
  split
  · refine (s.serve_signalled w.flag w.mode w.ctr w.q).trans ?_
    generalize s.serve w.flag w.mode w.ctr w.q = t
    dsimp only
    refine (Signalled.of_flags t t.core.qm.flags t.core.qm.upd (t.core.qm.waiters.filter (fun v => !(v.q = w.q && v.seq = w.seq && v.flag = w.flag)))
      t.core.qm.notes t.core.qm.marks).trans ?_
    split
    · exact Signalled.of_flags _ _ _ _ _ _
    · exact (Signalled.of_updQueue _ w.q _ ⟨_, _, rfl, fun h => by rw [h]; rfl⟩).trans (Signalled.of_flags _ _ _ _ _ _)
  · exact Signalled.refl s

theorem foldl_serveWaiter_signalled (l : List Waiter) (s : State) : Signalled s (l.foldl State.serveWaiter s) := by
  induction l generalizing s with
  | nil => exact Signalled.refl s
  | cons w l ih => exact (s.serveWaiter_signalled w).trans (ih _)

theorem State.flagCycle_signalled (s : State) (f : Nat) : Signalled s (s.flagCycle f) :=
  (Signalled.of_flags s _ _ _ _ _).trans (foldl_serveWaiter_signalled _ _)

theorem State.flagArrive_signalled (s : State) (f c : Nat) (u : FlagUpdate) : Signalled s (s.flagArrive f c u) := by
  unfold State.flagArrive
  split
  · exact Signalled.of_flags s _ _ _ _ _
  · exact Signalled.refl s

theorem State.setFlag_signalled (s : State) (f c q : Nat) : Signalled s (s.setFlag f c q) :=
  (s.flagArrive_signalled f c _).trans (State.flagCycle_signalled _ f)

theorem State.signal_signalled (s : State) (r c q : Nat) (e : Bool) : Signalled s (s.signal r c q e) := by
  unfold State.signal
  split
  · split
    · exact Signalled.refl s
    · exact s.setFlag_signalled _ _ _
  · exact s.setFlag_signalled _ _ _
  · split
    · exact s.setFlag_signalled _ _ _
    · exact Signalled.refl s
  · exact Signalled.refl s

@[simp] theorem State.signal_none (s : State) {r : Nat} (c q : Nat) (e : Bool) (h : refMode r = 0) : s.signal r c q e = s := by
  simp [State.signal, h]

/-! Completion -/

/-- Releasing the scratch of an instruction changes the vector units and the ledger only. -/
theorem State.freeScratch_core (s : State) (q seq : Nat) : ∃ vus ldg, s.freeScratch q seq = { s with core.vus := vus, core.ldg := ldg } := by
  unfold State.freeScratch
  generalize s.core.vus = l
  induction l generalizing s with
  | nil => exact ⟨s.core.vus, s.core.ldg, rfl⟩
  | cons v l ih =>
    rw [List.foldl_cons]
    dsimp only
    split
    · exact ih s
    · obtain ⟨a, b, h⟩ := ih (State.give _ 0xE v.1 (v.2.scratchOf q seq))
      exact ⟨a, b, h⟩

/-- A queue that has neither been asked to stop nor is being destroyed settles into the state that its work gives it. -/
theorem settleStop_none {s : State} {q : Nat} (hd : (s.queue q).destroying = false) (ha : (s.queue q).aborting = false) : s.settleStop q = s := by
  simp [State.settleStop, hd, ha]

theorem sampleDone_none {s : State} {q : Nat} {i : InFlight} (st c : Nat) (h : s.sampledBy q i.seq = none) : s.sampleDone q i st c = s := by
  simp [State.sampleDone, h]

/-- The outcome of an instruction that met none is OK. -/
theorem statusOf_nil (l : Bool) : statusOf l [] = (0, 0) := by
  cases l <;> rfl

theorem isError_zero (l : Bool) : isError l 0 = false := by
  cases l <;> rfl

@[simp] theorem State.queue_freeScratch (s : State) (q seq p : Nat) : (s.freeScratch q seq).queue p = s.queue p := by
  obtain ⟨vus, ldg, h⟩ := s.freeScratch_core q seq
  rw [h]; rfl

theorem countLate_none {s : State} {i : InFlight} (h : mhas i.outs 3 = false) : s.countLate i = s := by
  simp [State.countLate, h]

theorem retire_plain {s : State} {q : Nat} {i : InFlight} (d : Nat) (hca : (s.queue q).complAll = false) (hop : i.op ≠ 0x0F) :
    s.retire q i 0 d = (((s.setQueue q { s.queue q with fl := (s.queue q).fl.filter (fun j => j.seq ≠ i.seq) }).updQueue q
      (fun x => { x with reserved := x.reserved - 1 })).give 7 q 1).give 6 0 1 := by
  simp [State.retire, hca, hop]

/-- An instruction without outcomes that is in flight alone, needs no record and is no END completes: its signal is applied, its ring slot and its
tag are given back. -/
theorem completeInst_alone {s w : State} {q : Nat} {i : InFlight} (hfl : (s.queue q).fl = [i]) (ho : i.outs = []) (hd : i.deadline = 0)
    (hop : i.op ≠ 0x0F) (hca : (s.queue q).complAll = false) (hs : s.sampledBy q i.seq = none)
    (hw : (s.freeScratch q i.seq).signal i.sig (s.queue q).ctx q false = w) :
    (∃ ldg queues, s.completeInst q i.seq = { w with core.ldg := ldg, core.qm.queues := queues })
      ∧ (s.completeInst q i.seq).queue q = { w.queue q with fl := [], reserved := (w.queue q).reserved - 1 } := by
  have hin : (s.queue q).inst i.seq = some i := by simp [Queue.inst, hfl]
  have hlate : ∀ n, i.lateOut n = i := by simp [InFlight.lateOut, hd]
  have hsig : Signalled (s.freeScratch q i.seq) w := hw ▸ State.signal_signalled _ _ _ _ _
  obtain ⟨vus, ldg, hf⟩ := s.freeScratch_core q i.seq
  obtain ⟨qm, hqm⟩ := hsig.qm
  obtain ⟨ctrs, cur, hq, -⟩ := hsig.queue q
  rw [State.queue_freeScratch] at hq
  have hret := retire_plain (s := w) (q := q) 0 (by rw [hq]; exact hca) hop
  have hfl' : (w.queue q).fl.filter (fun j => j.seq ≠ i.seq) = [] := by rw [hq]; simp [hfl]
  have hsam : (w.retire q i 0 0).sampledBy q i.seq = none := by rw [hret, hqm, hf]; exact hs
  have hcomp : s.completeInst q i.seq = (w.retire q i 0 0).updQueue q id := by
    unfold State.completeInst
    simp only [hin, hlate, ho, countLate_none (s := s.freeScratch q i.seq) (i := i) (by simp [ho, mhas]), State.queue_freeScratch, statusOf_nil,
      isError_zero]
    simp [hw, sampleDone_none _ _ hsam]
    rfl
  rw [hcomp, hret]
  refine ⟨⟨_, _, rfl⟩, ?_⟩
  simp only [State.queue_updQueue_same, State.queue_give, State.queue_setQueue_same, id, hfl']

/-- The state that a queue's work gives it is a matter of its state and two stamps. -/
theorem Queue.rest_eq (x : Queue) (n : Nat) : ∃ st rf jf, x.rest n = { x with st := st, readyFt := rf, idleFt := jf } := by
  have hu : ∃ st, x.unwait = { x with st := st } := by
    unfold Queue.unwait
    split <;> exact ⟨_, rfl⟩
  obtain ⟨st, hu⟩ := hu
  unfold Queue.rest
  rw [hu]
  dsimp only
  split
  · split
    · split <;> exact ⟨_, _, _, rfl⟩
    · exact ⟨_, _, _, rfl⟩
  · split <;> exact ⟨_, _, _, rfl⟩
  · split <;> exact ⟨_, _, _, rfl⟩
  · exact ⟨_, _, _, rfl⟩

/-- What follows the last completion of a queue that is neither stopping nor going away. -/
theorem settle_nothing {s : State} {q : Nat} (hfl : (s.queue q).fl = []) (hd : (s.queue q).destroying = false) (ha : (s.queue q).aborting = false) :
    s.settle q = s.updQueue q (fun x => x.rest s.now) := by
  obtain ⟨st, rf, jf, hr⟩ := (s.queue q).rest_eq s.now
  unfold State.settle
  simp only [hfl, List.length_nil, State.settleCtl]
  refine settleStop_none ?_ ?_ <;> rw [State.queue_updQueue_same, hr] <;> assumption

/-- An instruction that the core has carried out, in flight alone and without outcomes. -/
structure Alone (s : State) (q : Nat) (i : InFlight) : Prop where
  fl : (s.queue q).fl = [i]
  outs : i.outs = []
  deadline : i.deadline = 0
  op : i.op ≠ 0x0F
  complAll : (s.queue q).complAll = false
  sampled : s.sampledBy q i.seq = none
  destroying : (s.queue q).destroying = false
  aborting : (s.queue q).aborting = false

/-- A control instruction that stands alone and signals nothing completes: it is no longer in flight, and nothing but its queue, the scratch
bookkeeping of the vector units and the ledger has changed. -/
theorem Alone.ctlDone {s w : State} {q : Nat} {i : InFlight} (h : Alone s q i)
    (hw : ((s.finish q i.seq).freeScratch q i.seq).signal i.sig (s.queue q).ctx q false = w) :
    (∃ ldg queues, s.ctlDone q i.seq = { w with core.ldg := ldg, core.qm.queues := queues })
      ∧ (s.ctlDone q i.seq).queue q = ({ w.queue q with fl := [], reserved := (w.queue q).reserved - 1 } : Queue).rest s.now := by
  have hfl : ((s.finish q i.seq).queue q).fl = [{ i with done := true, fid := none }] := by
    simp [State.finish, State.updInst, Queue.updFl, h.fl]
  have hx : (s.finish q i.seq).queue q = { s.queue q with fl := [{ i with done := true, fid := none }] } := by
    simp [State.finish, State.updInst, Queue.updFl, h.fl]
  obtain ⟨⟨ldg, queues, hc⟩, hq⟩ := completeInst_alone (w := w) (i := { i with done := true, fid := none }) hfl h.outs h.deadline h.op (by rw [hx]; exact h.complAll)
    h.sampled (by rw [hx]; exact hw)
  have hsig : Signalled ((s.finish q i.seq).freeScratch q i.seq) w := hw ▸ State.signal_signalled _ _ _ _ _
  obtain ⟨ctrs, cur, hwq, -⟩ := hsig.queue q
  obtain ⟨qm, hqm⟩ := hsig.qm
  obtain ⟨vus, ldg', hf⟩ := (s.finish q i.seq).freeScratch_core q i.seq
  rw [State.queue_freeScratch, hx] at hwq
  have hnow : ((s.finish q i.seq).completeInst q i.seq).now = s.now := by
    rw [hc]; show w.now = _; rw [hqm, hf]; rfl
  have hset : s.ctlDone q i.seq = ((s.finish q i.seq).completeInst q i.seq).updQueue q (fun x => x.rest s.now) := by
    rw [← hnow]
    exact settle_nothing (by rw [hq]) (by rw [hq, hwq]; exact h.destroying) (by rw [hq, hwq]; exact h.aborting)
  rw [hset]
  exact ⟨⟨ldg, _, by rw [hc]; rfl⟩, by rw [State.queue_updQueue_same, hq]⟩

/-- A control instruction other than CMPB that may be launched is run. -/
theorem Launches.runs {s : State} {q raw : Nat} (hl : Launches s q raw) (hc : opControl (iOp raw) = true) (hb : iOp raw ≠ 0x0B) :
    ∃ u i, Launched s u q raw i
      ∧ s.dispatchAs q raw = u.runControl q (s.queue q).nextSeq raw (s.queue q).fetch (ixSums raw (s.queue q).c) := by
  obtain ⟨u, i, hu, hd⟩ := hl.dispatchAs hc
  obtain ⟨-, -, -, -, -, -, -, -, hbody, -⟩ := hl
  exact ⟨u, i, hu, hd.trans (carryOut_runControl hb hbody)⟩

@[simp] theorem Queue.rest_hold (x : Queue) (n : Nat) : (x.rest n).hold = x.hold := by
  obtain ⟨a, b, c, h⟩ := x.rest_eq n
  rw [h]

/-- A HALTED queue rests as it is. -/
theorem Queue.rest_halted {x : Queue} (n : Nat) (h : x.st = .halted) : (x.rest n).st = .halted := by
  simp [Queue.rest, Queue.unwait, h]

theorem ready_of_mayDispatch {s : State} {q : Nat} (h : s.mayDispatch q = true) : s.ready q = true := by
  simp only [State.mayDispatch, Bool.and_eq_true] at h
  exact h.1

/-- A queue that may go on is neither stopping nor going away, and nothing holds it. -/
theorem ready_queue {s : State} {q : Nat} (h : s.ready q = true) :
    (s.queue q).destroying = false ∧ (s.queue q).aborting = false ∧ (s.queue q).hold = .none ∧ (s.queue q).slot.isSome = true
      ∧ (s.ctx (s.queue q).ctx).st = .active := by
  simp only [State.ready, Bool.and_eq_true, decide_eq_true_eq, Bool.not_eq_true'] at h
  obtain ⟨⟨⟨⟨⟨⟨⟨⟨⟨⟨-, -⟩, hh⟩, -⟩, -⟩, ha⟩, hd⟩, -⟩, hsl⟩, hc⟩, -⟩ := h
  exact ⟨hd, ha, hh, hsl, hc⟩

/-- An instruction in flight as its core left it, whatever it did to counters, comparators and the fetch pointer since. -/
theorem Launched.alone {s u w : State} {q raw : Nat} {i : InFlight} (hu : Launched s u q raw i) (hl : Launches s q raw) (hop : iOp raw ≠ 0x0F)
    (hp : w.core.pmc = u.core.pmc)
    (hq : ∃ ctrs comps fetch beyond st, w.queue q = { u.queue q with ctrs := ctrs, comps := comps, fetch := fetch, beyond := beyond, st := st }) :
    Alone w q i := by
  obtain ⟨-, hmay, -, -, -, hca, -⟩ := hl
  obtain ⟨hd, ha, -⟩ := ready_queue (ready_of_mayDispatch hmay)
  obtain ⟨c, p, f, b, st, hq⟩ := hq
  refine ⟨?_, hu.fresh.outs, hu.fresh.deadline, by rw [hu.fresh.op]; exact hop, ?_, ?_, ?_, ?_⟩
  · rw [hq, hu.queue]
  · rw [hq, hu.queue]; exact hca
  · have := hu.sampled
    unfold State.sampledBy at *
    rwa [hp, hu.fresh.seq]
  · rw [hq, hu.queue]; exact hd
  · rw [hq, hu.queue]; exact ha

/-- A control instruction that signals nothing completes with its queue, the scratch of the vector units and the ledger changed, and nothing else. -/
theorem Alone.ctlDone_silent {s : State} {q : Nat} {i : InFlight} (h : Alone s q i) (hs : refMode i.sig = 0) :
    (∃ vus ldg queues, s.ctlDone q i.seq = { s with core.vus := vus, core.ldg := ldg, core.qm.queues := queues })
      ∧ ∃ st rf jf, (s.ctlDone q i.seq).queue q = { s.queue q with
        fl := [], reserved := (s.queue q).reserved - 1, st := st, readyFt := rf, idleFt := jf } := by
  obtain ⟨⟨ldg, queues, hc⟩, hq⟩ := h.ctlDone rfl
  rw [State.signal_none _ _ _ _ hs] at hc hq
  obtain ⟨vus, ldg', hf⟩ := (s.finish q i.seq).freeScratch_core q i.seq
  obtain ⟨st, rf, jf, hr⟩ := Queue.rest_eq
    { (s.finish q i.seq).queue q with fl := [], reserved := ((s.finish q i.seq).queue q).reserved - 1 } s.now
  rw [State.queue_freeScratch] at hq
  refine ⟨⟨vus, ldg, queues, by rw [hc, hf]; rfl⟩, st, rf, jf, ?_⟩
  rw [hq, hr]
  simp [State.finish, State.updInst, Queue.updFl]

/-- A queue whose only instruction, carried out by its core, has completed has moved past it. -/
theorem Launched.passed {s u t : State} {q raw : Nat} {i : InFlight} (hu : Launched s u q raw i) (hm : t.core.mem = s.core.mem)
    (hq : ∃ ctrs comps cur st rf jf r, t.queue q = { u.queue q with
      ctrs := ctrs, comps := comps, fl := [], reserved := r, st := st, readyFt := rf, idleFt := jf, cur := cur } ∧ cur = none) :
    Passed s t q := by
  obtain ⟨a, b, c, d, e, f, g, hq, rfl⟩ := hq
  unfold Passed
  rw [hq, hu.queue]
  exact ⟨rfl, rfl, rfl, rfl, hm⟩

theorem Launched.flags {s u : State} {q raw : Nat} {i : InFlight} (hu : Launched s u q raw i) : u.core.qm.flags = s.core.qm.flags := by
  obtain ⟨turn, qs, n, cnt, ldg, kc, hr⟩ := hu.rest
  rw [hr]

/-- A control instruction that leaves alone all but counters and comparators, and signals nothing, passes. -/
theorem Launched.ctlDone {s u w : State} {q raw : Nat} {i : InFlight} (hu : Launched s u q raw i) (hl : Launches s q raw) (hop : iOp raw ≠ 0x0F)
    (hsig : refMode (sigOf raw) = 0) (hp : w.core.pmc = u.core.pmc) (hm : w.core.mem = u.core.mem)
    {ctrs : Map Nat} {comps : Map Comparator} (hq : w.queue q = { u.queue q with ctrs := ctrs, comps := comps }) :
    Passed s (w.ctlDone q (s.queue q).nextSeq) q ∧ (w.ctlDone q (s.queue q).nextSeq).core.qm.flags = w.core.qm.flags
      ∧ ((w.ctlDone q (s.queue q).nextSeq).queue q).ctrs = ctrs ∧ ((w.ctlDone q (s.queue q).nextSeq).queue q).comps = comps
      ∧ ((w.ctlDone q (s.queue q).nextSeq).queue q).hold = .none := by
  have hal : Alone w q i := hu.alone hl hop hp ⟨_, _, _, _, _, hq⟩
  obtain ⟨⟨vus, ldg, queues, hc⟩, st, rf, jf, ht⟩ := hal.ctlDone_silent (by rw [hu.fresh.sig]; exact hsig)
  rw [← hu.fresh.seq]
  obtain ⟨turn, qs, n, cnt, ldg', kc, hr⟩ := hu.rest
  refine ⟨hu.passed ?_ ⟨ctrs, comps, _, st, rf, jf, _, by rw [ht, hq], by rw [hu.queue]⟩, ?_, ?_, ?_, ?_⟩
  · rw [hc]; exact hm.trans (by rw [hr])
  · rw [hc]
  · rw [ht, hq]
  · rw [ht, hq]
  · rw [ht, hq, hu.queue]
    exact (ready_queue (ready_of_mayDispatch hl.2.1)).2.2.1

end Sys2Proof.Machine
end

section
/-! PROOF. NOP, WAIT, FENCE, HALT, SIG and CLR (06_programs R140, R154, 07_tile R177-R179). -/
namespace Sys2Proof.Machine
open State

/-! NOP, WAIT, FENCE and HALT -/

/-- What a completed FENCE, HALT or END does to its queue. -/
def Queue.released (x : Queue) (op : Nat) : Queue :=
  if op = 0x07 then { x with hold := .none }
  else if op = 0x08 then
    { x with hold := .none, st := if x.st = .error || x.st = .preempted then x.st else .halted, was := if x.st = .preempted then .halted else x.was }
  else x

/-- A FENCE, HALT or END alone in flight completes as its queue settles. -/
theorem settleCtl_one {s : State} {q : Nat} {i : InFlight} (hfl : (s.queue q).fl = [i]) (hc : i.ctl = true) :
    s.settleCtl q 1 = (s.completeInst q i.seq).updQueue q (fun x => x.released i.op) := by
  have hb : (s.queue q).clearBefore i = true := by
    unfold Queue.clearBefore
    split <;> simp [hfl]
  have hf : (s.queue q).fl.find? (fun i => i.ctl && (s.queue q).clearBefore i) = some i := by rw [hfl]; simp [hc, hb]
  simp only [State.settleCtl, hf]
  congr 1
  funext x
  unfold Queue.released
  split <;> simp_all

theorem Queue.released_eq (x : Queue) (op : Nat) : ∃ h st wa, x.released op = { x with hold := h, st := st, was := wa } := by
  unfold Queue.released
  split
  · exact ⟨_, _, _, rfl⟩
  · split <;> exact ⟨_, _, _, rfl⟩

/-- A FENCE or HALT with nothing before it, in flight alone. -/
theorem settle_one {s : State} {q : Nat} {i : InFlight} (h : Alone s q i) (hc : i.ctl = true) (hs : refMode i.sig = 0) :
    (∃ vus ldg queues, s.settle q = { s with core.vus := vus, core.ldg := ldg, core.qm.queues := queues })
      ∧ (s.settle q).queue q = (({ s.queue q with fl := [], reserved := (s.queue q).reserved - 1 } : Queue).released i.op).rest s.now := by
  obtain ⟨⟨ldg, queues, hcmp⟩, hq⟩ := completeInst_alone h.fl h.outs h.deadline h.op h.complAll h.sampled rfl
  rw [State.signal_none _ _ _ _ hs] at hcmp hq
  obtain ⟨vus, ldg', hf⟩ := s.freeScratch_core q i.seq
  rw [State.queue_freeScratch] at hq
  have hone := settleCtl_one h.fl hc
  obtain ⟨hd, st, wa, hre⟩ := Queue.released_eq ({ s.queue q with fl := [], reserved := (s.queue q).reserved - 1 }) i.op
  obtain ⟨st', rf, jf, hr⟩ := Queue.rest_eq (({ s.queue q with fl := [], reserved := (s.queue q).reserved - 1 } : Queue).released i.op) s.now
  have hq1 : (s.settleCtl q 1).queue q = ({ s.queue q with fl := [], reserved := (s.queue q).reserved - 1 } : Queue).released i.op := by
    rw [hone, State.queue_updQueue_same, hq]
  have hnow : (s.settleCtl q 1).now = s.now := by rw [hone]; show (s.completeInst q i.seq).now = _; rw [hcmp, hf]
  have hset : s.settle q = (s.settleCtl q 1).updQueue q (fun x => x.rest s.now) := by
    unfold State.settle
    simp only [h.fl, List.length_singleton, hnow]
    refine settleStop_none ?_ ?_ <;> rw [State.queue_updQueue_same, hq1, hr, hre]
    · exact h.destroying
    · exact h.aborting
  rw [hset]
  refine ⟨⟨vus, ldg, _, by rw [hone, hcmp, hf]; rfl⟩, by rw [State.queue_updQueue_same, hq1]⟩

/-- The state of FENCE and HALT as they wait for what comes before them. -/
theorem Launched.waiting {s u : State} {q raw : Nat} {i : InFlight} (hu : Launched s u q raw i) (hl : Launches s q raw) (hop : iOp raw ≠ 0x0F)
    (hsig : refMode (sigOf raw) = 0) (h : Hold) :
    let w := (u.updQueue q (fun x => { x with hold := h })).updInst q (s.queue q).nextSeq (fun i => { i with ctl := true })
    Passed s (w.settle q) q ∧ (w.settle q).core.qm.flags = s.core.qm.flags ∧ ((w.settle q).queue q).ctrs = (s.queue q).ctrs
      ∧ (w.settle q).queue q = (({ w.queue q with fl := [], reserved := (w.queue q).reserved - 1 } : Queue).released (iOp raw)).rest w.now
      ∧ (w.queue q).st = .bound := by
  intro w
  obtain ⟨-, hmay, -, -, -, hca, -⟩ := id hl
  obtain ⟨hd, ha, -⟩ := ready_queue (ready_of_mayDispatch hmay)
  have hwq : w.queue q = { u.queue q with hold := h, fl := [{ i with ctl := true }] } := by
    simp [w, State.updInst, Queue.updFl, hu.queue, hu.fresh.seq]
  have hal : Alone w q { i with ctl := true } := by
    refine ⟨by rw [hwq], hu.fresh.outs, hu.fresh.deadline, by rw [hu.fresh.op]; exact hop, ?_, ?_, ?_, ?_⟩
    · rw [hwq, hu.queue]; exact hca
    · have := hu.sampled
      rwa [← hu.fresh.seq] at this
    · rw [hwq, hu.queue]; exact hd
    · rw [hwq, hu.queue]; exact ha
  obtain ⟨⟨vus, ldg, queues, hset⟩, hq⟩ := settle_one hal rfl (by rw [hu.fresh.sig]; exact hsig)
  obtain ⟨turn, qs, n, cnt, ldg', kc, hr⟩ := hu.rest
  have hop' : i.op = iOp raw := hu.fresh.op
  obtain ⟨hd, st, wa, hre⟩ := Queue.released_eq ({ w.queue q with fl := [], reserved := (w.queue q).reserved - 1 }) (iOp raw)
  obtain ⟨st', rf, jf, hrs⟩ := Queue.rest_eq (({ w.queue q with fl := [], reserved := (w.queue q).reserved - 1 } : Queue).released (iOp raw)) w.now
  rw [show ({ i with ctl := true } : InFlight).op = iOp raw from hop'] at hq
  have hmem : (w.settle q).core.mem = s.core.mem := by
    rw [hset]; exact (rfl : _ = u.core.mem).trans (by rw [hr])
  have hfin := hq
  rw [hrs, hre, hwq, hu.queue] at hfin
  refine ⟨?_, ?_, ?_, hq, ?_⟩
  · unfold Passed
    rw [hfin]
    exact ⟨rfl, rfl, rfl, rfl, hmem⟩
  · rw [hset]; exact (rfl : _ = u.core.qm.flags).trans (by rw [hr])
  · rw [hfin]
  · rw [hwq, hu.queue]

theorem plainControlCompletes : Says.PlainControlCompletes := by
  intro s q tmo h keeps
  have plain : ∀ raw, Launches s q raw → refMode (iSig raw) = 0 → (iOp raw = 0x00 ∨ iOp raw = 0x01) → keeps (s.dispatchAs q raw) := by
    intro raw hl hsig hop
    obtain ⟨u, i, hu, hd⟩ := hl.runs (by rcases hop with h | h <;> rw [h] <;> rfl) (by rcases hop with h | h <;> rw [h] <;> decide)
    have hrun : ∀ ix, u.runControl q (s.queue q).nextSeq raw (s.queue q).fetch ix = u.ctlDone q (s.queue q).nextSeq := by
      intro ix; rcases hop with h | h <;> simp only [State.runControl, h]
    have hsg : refMode (sigOf raw) = 0 := by rcases hop with h | h <;> simp [sigOf, h, hsig]
    obtain ⟨hpass, hflags, hctrs, -⟩ := hu.ctlDone hl (by rcases hop with h | h <;> rw [h] <;> decide) hsg rfl rfl
      (show u.queue q = { u.queue q with ctrs := (u.queue q).ctrs, comps := (u.queue q).comps } from rfl)
    rw [hd, hrun]
    exact ⟨hpass, hflags.trans hu.flags, by rw [hctrs, hu.queue]⟩
  have fence : ∀ raw, Launches s q raw → refMode (iSig raw) = 0 → iOp raw = 0x07 →
      keeps (s.dispatchAs q raw) ∧ ((s.dispatchAs q raw).queue q).hold = .none := by
    intro raw hl hsig hop
    obtain ⟨u, i, hu, hd⟩ := hl.runs (by rw [hop]; rfl) (by rw [hop]; decide)
    obtain ⟨hpass, hflags, hctrs, hq, -⟩ := hu.waiting hl (by rw [hop]; decide) (by simp [sigOf, hop, hsig]) .fence
    simp only [State.runControl, hop] at hd
    rw [hd]
    refine ⟨⟨hpass, hflags, hctrs⟩, ?_⟩
    rw [hq, Queue.rest_hold, hop]
    rfl
  have halt : ∀ raw, Launches s q raw → refMode (iSig raw) = 0 → iOp raw = 0x08 →
      keeps (s.dispatchAs q raw) ∧ ((s.dispatchAs q raw).queue q).st = .halted := by
    intro raw hl hsig hop
    obtain ⟨u, i, hu, hd⟩ := hl.runs (by rw [hop]; rfl) (by rw [hop]; decide)
    obtain ⟨hpass, hflags, hctrs, hq, hst⟩ := hu.waiting hl (by rw [hop]; decide) (by simp [sigOf, hop, hsig]) .halt
    simp only [State.runControl, hop] at hd
    have hh : ∀ x : Queue, x.st = .bound → (x.released 0x08).st = .halted := by intro x hx; simp [Queue.released, hx]
    rw [hd]
    refine ⟨⟨hpass, hflags, hctrs⟩, ?_⟩
    rw [hq, hop]
    exact Queue.rest_halted _ (hh _ hst)
  refine ⟨fun hl hs => ?_, fun hl hs => ?_, fun hl hs => ?_, fun hl hs => ?_⟩
  · exact answers_dispatching hl.1 (plain _ hl hs (.inl (iOp_ctlWord _ _ (by decide))))
  · exact answers_dispatching hl.1 (plain _ hl hs (.inr (iOp_ctlWord _ _ (by decide))))
  · exact answers_dispatching hl.1 (fence _ hl hs (iOp_ctlWord _ _ (by decide)))
  · exact answers_dispatching hl.1 (halt _ hl hs (iOp_ctlWord _ _ (by decide)))

/-! SIG and CLR -/

/-- A flag's update cycle with nobody waiting on it changes that flag alone. -/
theorem flagCycle_alone {s : State} {f : Nat} (h : ∀ w ∈ s.core.qm.waiters, w.flag ≠ f) :
    s.flagCycle f = { s with core.qm.flags := mput s.core.qm.flags f (applyUpdates (s.flag f) (mgetD s.core.qm.upd f []))
                             core.qm.upd := mdel s.core.qm.upd f } := by
  have hf : s.core.qm.waiters.filter (fun w => w.flag = f) = [] := by simpa using h
  simp only [State.flagCycle, hf, List.foldl_nil]

/-- An update of a flag that nobody waits on and that nothing else has reached. -/
theorem flagCycle_arrive {s : State} {f c : Nat} {u : FlagUpdate} (hown : s.ownsFlag c f = true) (hup : mgetD s.core.qm.upd f [] = [])
    (h : ∀ w ∈ s.core.qm.waiters, w.flag ≠ f) :
    ∃ upd, (s.flagArrive f c u).flagCycle f
      = { s with core.qm.flags := mput s.core.qm.flags f (applyUpdates (s.flag f) [u]), core.qm.upd := upd } := by
  have ha : s.flagArrive f c u = { s with core.qm.upd := mupd s.core.qm.upd f [] (· ++ [u]) } := by simp [State.flagArrive, hown]
  have hc := flagCycle_alone (s := { s with core.qm.upd := mupd s.core.qm.upd f [] (· ++ [u]) }) h
  have hg : mgetD (mupd s.core.qm.upd f [] (· ++ [u])) f [] = [u] := by simp [hup]
  rw [ha, hc, hg]
  exact ⟨_, rfl⟩

theorem State.flag_mput_ne {s t : State} {f g : Nat} {w : Flag} (h : t.core.qm.flags = mput s.core.qm.flags f w) (hg : g ≠ f) : t.flag g = s.flag g := by
  simp [State.flag, h, mgetD_mput_ne _ _ _ hg]

theorem State.flag_mput_same {s t : State} {f : Nat} {w : Flag} (h : t.core.qm.flags = mput s.core.qm.flags f w) : t.flag f = w := by
  simp [State.flag, h]

/-- The flag that a passed header's signal reference names is the context's. -/
theorem Launches.ownsFlag {s : State} {q raw : Nat} (hl : Launches s q raw) (hm : refMode (iSig raw) ≠ 0) :
    s.ownsFlag (s.queue q).ctx (refFlag (iSig raw)) = true := by
  obtain ⟨-, -, -, -, -, -, -, hhdr, -⟩ := hl
  have hb : (8, 4) ∉ s.headerBad (s.queue q) raw := by rw [firstBad_eq_none.1 hhdr]; simp
  simpa [State.headerBad, hm] using hb

/-- A completed signal of a flag that nobody waits on and that nothing else has reached sets it, and is all that has changed of flags and memory. -/
theorem Launched.ctlDone_sets {s u : State} {q raw : Nat} {i : InFlight} (hu : Launched s u q raw i) (hl : Launches s q raw) (hop : iOp raw ≠ 0x0F)
    (hsig : refMode (sigOf raw) = 1 ∨ refMode (sigOf raw) = 2) (hown : s.ownsFlag (s.queue q).ctx (refFlag (sigOf raw)) = true)
    (hup : mgetD s.core.qm.upd (refFlag (sigOf raw)) [] = []) (hw : ∀ w ∈ s.core.qm.waiters, w.flag ≠ refFlag (sigOf raw)) :
    Passed s (u.ctlDone q (s.queue q).nextSeq) q ∧ (u.ctlDone q (s.queue q).nextSeq).core.qm.flags
      = mput s.core.qm.flags (refFlag (sigOf raw)) (applyUpdates (s.flag (refFlag (sigOf raw))) [⟨true, some q⟩]) := by
  have hal : Alone u q i := hu.alone hl hop rfl ⟨_, _, _, _, _, rfl⟩
  obtain ⟨vus, ldg, hf⟩ := (u.finish q i.seq).freeScratch_core q i.seq
  obtain ⟨turn, qs, n, cnt, ldg', kc, hr⟩ := hu.rest
  have hsg : ((u.finish q i.seq).freeScratch q i.seq).signal i.sig (u.queue q).ctx q false
      = (((u.finish q i.seq).freeScratch q i.seq).flagArrive (refFlag (sigOf raw)) (s.queue q).ctx ⟨true, some q⟩).flagCycle (refFlag (sigOf raw)) := by
    have hctx : (u.queue q).ctx = (s.queue q).ctx := by rw [hu.queue]; rfl
    rw [hctx, hu.fresh.sig]
    rcases hsig with h | h <;> simp [State.signal, h, State.setFlag]
  obtain ⟨upd, hc⟩ := flagCycle_arrive (s := (u.finish q i.seq).freeScratch q i.seq) (c := (s.queue q).ctx) (u := ⟨true, some q⟩)
    (f := refFlag (sigOf raw)) (by rw [hf, hr]; exact hown) (by rw [hf, hr]; exact hup) (by rw [hf, hr]; exact hw)
  obtain ⟨⟨ldg'', queues, hd⟩, hq⟩ := hal.ctlDone hsg
  have hfq : (u.finish q i.seq).queue q = { u.queue q with fl := [{ i with done := true, fid := none }] } := by
    simp [State.finish, State.updInst, Queue.updFl, hal.fl]
  have hwq : ((((u.finish q i.seq).freeScratch q i.seq).flagArrive (refFlag (sigOf raw)) (s.queue q).ctx ⟨true, some q⟩).flagCycle
      (refFlag (sigOf raw))).queue q = (u.finish q i.seq).queue q := by rw [hc]; exact State.queue_freeScratch _ _ _ _
  obtain ⟨st, rf, jf, hrs⟩ := Queue.rest_eq { u.queue q with fl := [], reserved := (u.queue q).reserved - 1 } u.now
  rw [hwq, hfq, hrs] at hq
  rw [← hu.fresh.seq]
  refine ⟨hu.passed ?_ ⟨(u.queue q).ctrs, (u.queue q).comps, (u.queue q).cur, st, rf, jf, (u.queue q).reserved - 1, hq, by rw [hu.queue]⟩, ?_⟩
  · rw [hd, hc, hf, hr]; rfl
  · rw [hd, hc, hf, hr]; rfl

/-- The counters of a queue after a CLR of a flag with a COUNT. -/
def clrCounters (x : Queue) (raw count : Nat) : Map Nat := if (iMod raw).testBit 0 then mput x.ctrs (refCtr (iSig raw)) count else x.ctrs

/-- CLR of a flag that nobody waits on and that nothing else has reached. -/
theorem Launches.clr {s : State} {q raw : Nat} (hl : Launches s q raw) (hop : iOp raw = 0x03) (hup : mgetD s.core.qm.upd (refFlag (iSig raw)) [] = [])
    (hw : ∀ w ∈ s.core.qm.waiters, w.flag ≠ refFlag (iSig raw)) :
    Passed s (s.dispatchAs q raw) q
      ∧ (s.dispatchAs q raw).core.qm.flags
        = mput s.core.qm.flags (refFlag (iSig raw)) (applyUpdates (s.flag (refFlag (iSig raw))) [⟨false, some q⟩])
      ∧ ((s.dispatchAs q raw).queue q).ctrs = clrCounters (s.queue q) raw (s.flag (refFlag (iSig raw))).count := by
  have hsg : refMode (sigOf raw) = 0 := by
    have h0 : sigOf raw = 0 := by simp [sigOf, hop]
    rw [h0]; rfl
  have hmode : refMode (iSig raw) ≠ 0 := by
    obtain ⟨-, -, -, -, -, -, -, hhdr, -⟩ := id hl
    have hb : (11, 5) ∉ s.headerBad (s.queue q) raw := by rw [firstBad_eq_none.1 hhdr]; simp
    have : refMode (iSig raw) = 1 := by simpa [State.headerBad, hop] using hb
    omega
  have hown := hl.ownsFlag hmode
  obtain ⟨u, i, hu, hd⟩ := hl.runs (by rw [hop]; rfl) (by rw [hop]; decide)
  obtain ⟨f, hfe⟩ : ∃ f, refFlag (iSig raw) = f := ⟨_, rfl⟩
  rw [hfe] at hup hw hown ⊢
  obtain ⟨turn, qs, n, cnt, ldg, kc, hr⟩ := hu.rest
  have hcnt : ((u.flag f).count) = (s.flag f).count := by rw [hr]; rfl
  set u1 := if (iMod raw).testBit 0 then u.updQueue q (fun x => { x with ctrs := mput x.ctrs (refCtr (iSig raw)) (s.flag f).count }) else u with hu1
  have hq1 : u1.queue q = { u.queue q with ctrs := clrCounters (u.queue q) raw (s.flag f).count, comps := (u.queue q).comps } := by
    rw [hu1, clrCounters]; split <;> simp
  have hu1' : ∃ queues, u1 = { u with core.qm.queues := queues } := by
    rw [hu1]; split <;> exact ⟨_, rfl⟩
  obtain ⟨queues, hu1'⟩ := hu1'
  obtain ⟨upd, hc⟩ := flagCycle_arrive (s := u1) (c := (s.queue q).ctx) (u := ⟨false, some q⟩) (f := f) (by rw [hu1', hr]; exact hown)
    (by rw [hu1', hr]; exact hup) (by rw [hu1', hr]; exact hw)
  have hrun : s.dispatchAs q raw = ((u1.flagArrive f (s.queue q).ctx ⟨false, some q⟩).flagCycle f).ctlDone q (s.queue q).nextSeq := by
    have hctx : (u.queue q).ctx = (s.queue q).ctx := by rw [hu.queue]; rfl
    simp only [hd, State.runControl, hop, State.doClr, hctx, hfe, hu1, hcnt]
  obtain ⟨hpass, hfl, hct, -⟩ := hu.ctlDone (w := (u1.flagArrive f (s.queue q).ctx ⟨false, some q⟩).flagCycle f)
    hl (by rw [hop]; decide) hsg (by rw [hc, hu1']) (by rw [hc, hu1']) (by rw [hc]; exact hq1)
  rw [← hrun] at hpass hfl hct
  have hflags : (s.dispatchAs q raw).core.qm.flags = mput s.core.qm.flags f (applyUpdates (s.flag f) [⟨false, some q⟩]) := by
    rw [hfl, hc, hu1', hr]; rfl
  exact ⟨hpass, hflags, by rw [hct, hu.queue]; rfl⟩

/-- Settles O6: the signal of a SIG and the clear of a CLR are one update cycle of a flag that nobody waits on. -/
theorem signalsAndClears : Obligations.SignalsAndClears := by
  intro s q h
  constructor
  · intro raw f hl hm hup hw
    obtain ⟨t, ht⟩ : ∃ t, s.dispatchAs q raw = t := ⟨_, rfl⟩
    refine answers_dispatching_at hl.1 ht ?_
    have hop : iOp raw = 0x02 := iOp_ctlWord _ _ (by decide)
    obtain ⟨u, i, hu, hd⟩ := hl.runs (by rw [hop]; rfl) (by rw [hop]; decide)
    have hsg : sigOf raw = iSig raw := by simp [sigOf, hop]
    obtain ⟨hpass, hfl⟩ := hu.ctlDone_sets hl (by rw [hop]; decide) (by rwa [hsg]) (by rw [hsg]; exact hl.ownsFlag (by omega)) (by rw [hsg]; exact hup)
      (by rw [hsg]; exact hw)
    simp only [State.runControl, hop] at hd
    rw [← hd, ht] at hpass hfl
    rw [hsg] at hfl
    exact ⟨hpass, (State.flag_mput_same hfl).trans (by simp [applyUpdates]; rfl), fun g hg => State.flag_mput_ne hfl hg⟩
  · intro raw f hl hup hw
    obtain ⟨t, ht⟩ : ∃ t, s.dispatchAs q raw = t := ⟨_, rfl⟩
    refine answers_dispatching_at hl.1 ht ?_
    obtain ⟨hpass, hflags, hct⟩ := hl.clr (iOp_ctlWord _ _ (by decide)) hup hw
    rw [ht] at hpass hflags hct
    refine ⟨hpass, (State.flag_mput_same hflags).trans (by simp [applyUpdates, f]), fun g hg => State.flag_mput_ne hflags hg, fun hb => ?_, fun hb => ?_⟩
    · show (t.queue q).c _ = _
      rw [Queue.c, hct, clrCounters, if_pos hb, mgetD_mput_same]
    · show (t.queue q).ctrs = _
      rw [hct, clrCounters, hb]; rfl

/-- A WAIT whose condition does not hold registers with its flag's controller. -/
theorem Fetched.evalWait_waits {s v : State} {q raw : Nat} (hv : Fetched s v q raw) (hop : iOp raw = 0x01)
    (hhdr : firstBad (s.headerBad (s.queue q) raw) = none)
    (hw : waitHolds (s.flag (refFlag (iWait raw))) (refMode (iWait raw)) ((s.queue q).c (refCtr (iWait raw))) = false) :
    ∃ c, v.evalWait q (Cur.start raw s.now) = { v.updQueue q (fun x => { x with st := .waiting, cur := some c }) with
      core.qm.waiters := s.core.qm.waiters ++ [⟨refFlag (iWait raw), refMode (iWait raw), refCtr (iWait raw), q, none, s.now⟩] } := by
  have hm : refMode (iWait raw) ≠ 0 := by
    have hb : (7, 8) ∉ s.headerBad (s.queue q) raw := by rw [firstBad_eq_none.1 hhdr]; simp
    simpa [State.headerBad, hop] using hb
  have hown := ownsFlag_of_headerBad hhdr hm
  obtain ⟨⟨c1, hq1⟩, -, turn, queues, hr⟩ := hv
  have ho1 : v.ownsFlag (v.queue q).ctx (refFlag (iWait raw)) = true := by rw [hq1, hr]; exact hown
  have hw1 : waitHolds (v.flag (refFlag (iWait raw))) (refMode (iWait raw)) ((v.queue q).c (refCtr (iWait raw))) = false := by
    rw [hq1, hr]; exact hw
  have hwt : v.core.qm.waiters = s.core.qm.waiters := by rw [hr]
  have hn : v.now = s.now := by rw [hr]
  refine ⟨{ Cur.start raw s.now with waitFt := some s.now }, ?_⟩
  simp only [State.evalWait, Cur.start, hop, hm, ho1, hw1]
  rw [← hwt, ← hn]
  rfl

/-- A queue whose next entry is a WAIT that does not hold is WAITING and has not moved on. -/
theorem dispatchAs_waits {s : State} {q raw : Nat} (hop : iOp raw = 0x01) (hmay : s.mayDispatch q = true) (hcur : (s.queue q).cur = none)
    (hav : (s.queue q).avail = true) (hhdr : firstBad (s.headerBad (s.queue q) raw) = none)
    (hw : waitHolds (s.flag (refFlag (iWait raw))) (refMode (iWait raw)) ((s.queue q).c (refCtr (iWait raw))) = false) :
    ((s.dispatchAs q raw).queue q).st = .waiting ∧ ((s.dispatchAs q raw).queue q).fetch = (s.queue q).fetch
      ∧ ((s.dispatchAs q raw).queue q).nextSeq = (s.queue q).nextSeq
      ∧ (s.dispatchAs q raw).core.qm.waiters
        = s.core.qm.waiters ++ [⟨refFlag (iWait raw), refMode (iWait raw), refCtr (iWait raw), q, none, s.now⟩]
      ∧ (s.dispatchAs q raw).core.mem = s.core.mem := by
  have hst : Fetched s _ q raw := fetched_start
  have hrun := (dispatchAs_runCur raw hmay hcur hav).trans (hst.runCur_evalWait hhdr (by rw [queue_updQueue_same]; rfl))
  have hv := hst.updCur (Cur.start raw s.now)
  obtain ⟨c, he⟩ := hv.evalWait_waits hop hhdr hw
  obtain ⟨⟨c1, hq1⟩, -, turn, queues, hr⟩ := hv
  rw [hrun, he]
  generalize ((s.tookTurn q).updQueue q fun x => x.fetched { raw := raw, ft := s.now }).updQueue q
    (fun x => { x with cur := some (Cur.start raw s.now) }) = v at *
  have hq := queue_updQueue_same v q (fun x => { x with st := .waiting, cur := some c })
  rw [hq1] at hq
  refine ⟨?_, ?_, ?_, rfl, by rw [hr]; rfl⟩
  · exact (congrArg Queue.st hq :)
  · exact (congrArg Queue.fetch hq :)
  · exact (congrArg Queue.nextSeq hq :)

theorem waitRegisters : Says.WaitRegisters := by
  intro s q tmo h raw w hd hmay hcur hav hhdr hw
  obtain ⟨t, ht⟩ : ∃ t, s.dispatchAs q raw = t := ⟨_, rfl⟩
  refine answers_dispatching_at hd ht ?_
  have := dispatchAs_waits (iOp_ctlWord _ _ (by decide)) hmay hcur hav hhdr hw
  rwa [ht] at this

/-- Settles O36: plain control instructions complete with their queue moved on, and a WAIT that must wait is registered once. -/
theorem plainControlAndWait : Obligations.PlainControlAndWait := ⟨plainControlCompletes, waitRegisters⟩

end Sys2Proof.Machine
end

section
/-! PROOF. Counters and comparators: CSET, CADD and CMPB (06_programs R148-R150, 07_tile R177-R179). -/
namespace Sys2Proof.Machine
open State

/-! What a CMPB looks ahead at -/

/-- The pieces of an access lie in it. -/
theorem mem_pieces {size : Nat} {p : Nat × Nat} : ∀ {fuel va n : Nat}, p ∈ pieces size fuel va n → va ≤ p.1 ∧ p.1 < va + n ∧ p.1 + p.2 ≤ va + n
  | 0, _, _, h => by simp [pieces] at h
  | fuel + 1, va, n, h => by
    unfold pieces at h
    dsimp only at h
    split at h
    · simp at h
    · rcases List.mem_cons.1 h with rfl | h
      · simp only
        omega
      · have := mem_pieces h
        omega

theorem mem_cut {s : State} {c va n : Nat} {w se : Bool} {p : Nat × Nat} (h : p ∈ s.cut c va n w se) : va ≤ p.1 ∧ p.1 < va + n := by
  unfold State.cut at h
  obtain ⟨r, hr, hp⟩ := List.mem_flatMap.1 h
  have h1 := mem_pieces hr
  split at hp
  · rw [List.mem_singleton.1 hp]
    omega
  · have h2 := mem_pieces hp
    omega

theorem SameSpace.of_mmu {s t : State} (hf : t.fuse = s.fuse) (hm : t.core.mem = s.core.mem) (hu : t.core.mmu = s.core.mmu) : SameSpace s t :=
  ⟨hf, hm, by rw [hu], by rw [hu], by rw [hu], fun c => by unfold State.ctx; rw [hu]⟩

theorem SameSpace.raiseIf (s : State) (p : Bool) (o i : Nat) : SameSpace s (s.raiseIf p o i) := by
  unfold State.raiseIf
  split
  · exact .of_mmu (by simp) (by simp) (by simp)
  · exact .refl s

theorem SameSpace.hbmTouch (s : State) (a n : Nat) : SameSpace s (s.hbmTouch a n) := by
  have h : SameSpace s (s.bump (memBase (a / 2 ^ 37) + 0x100) n) := .of_mmu rfl rfl rfl
  exact h.trans (.raiseIf _ _ _ _)

theorem SameSpace.foldl {α : Type} {f : State → α → State} {s : State} (l : List α) (hf : ∀ t, ∀ a ∈ l, SameSpace s t → SameSpace s (f t a))
    {t : State} (h : SameSpace s t) : SameSpace s (l.foldl f t) := by
  induction l generalizing t with
  | nil => exact h
  | cons a l ih => exact ih (fun t b hb => hf t b (List.mem_cons_of_mem _ hb)) (hf t a (List.mem_cons_self ..) h)

theorem SameSpace.missWalk (s : State) (c a : Nat) : SameSpace s (s.missWalk c a) := by
  unfold State.missWalk State.countWalk
  split
  · exact .refl s
  · have hb : SameSpace s ((s.bump (mmuBase + 0x100) 1).bump (mmuBase + 0x108) 1) := .of_mmu rfl rfl rfl
    dsimp only
    split
    · exact SameSpace.foldl _ (fun t a _ ht => ht.trans (.hbmTouch t a 8)) hb
    · exact hb

/-- A read of an entry that lies in HBM changes nothing that a translation or a read sees. -/
theorem SameSpace.vtouch {s t : State} (ht : SameSpace s t) {c va n : Nat}
    (hx : ∀ a, va ≤ a → a < va + n → ∃ d, s.xlate c a false false = .ok (.hbm d)) : SameSpace s (t.vtouch c va n false false) := by
  refine SameSpace.foldl _ (fun u p hp hu => ?_) ht
  rw [ht.cut] at hp
  obtain ⟨h1, h2⟩ := mem_cut hp
  obtain ⟨d, hd⟩ := hx p.1 h1 h2
  have hl : u.xlate c p.1 false false = .ok (.hbm d) := by rw [hu.xlate, hd]
  have htouch : ∀ v : State, v.touch c p.1 (.hbm d) false = v := fun v => rfl
  simp only [hl, htouch]
  exact (hu.trans (.missWalk u c p.1)).trans (.hbmTouch _ d p.2)

theorem Launched.sameSpace {s u : State} {q raw : Nat} {i : InFlight} (hu : Launched s u q raw i) : SameSpace s u := by
  obtain ⟨turn, qs, n, cnt, ldg, kc, hr⟩ := hu.rest
  refine ⟨by rw [hr], by rw [hr], by rw [hr], by rw [hr], by rw [hr], fun c => ?_⟩
  have hc : u.ctx c = mgetD (mupd s.core.mmu.ctxs (s.queue q).ctx {} (fun k => { k with tagNext := n })) c {} := by rw [hr]; rfl
  rw [hc]
  by_cases h : c = (s.queue q).ctx
  · subst h
    rw [mgetD_mupd_same]; rfl
  · rw [mgetD_mupd_ne _ _ _ _ h]; rfl

/-- The entries that a CMPB looks at read the same once it is in flight. -/
theorem Launched.targetBad {s u : State} {q raw : Nat} {i : InFlight} (hu : Launched s u q raw i) (x : Queue) (idx : Nat) (off : Int) :
    u.targetBad x idx off = s.targetBad x idx off := by
  have hl : u.core.host.linkUp = s.core.host.linkUp := by obtain ⟨turn, qs, n, cnt, ldg, kc, hr⟩ := hu.rest; rw [hr]
  have he : u.entryOp = s.entryOp := by
    funext x i
    simp only [State.entryOp, State.vnat, hu.sameSpace.vget hl]
  unfold State.targetBad
  rw [he]

theorem Accessed.lookAhead (s : State) (x : Queue) (raw idx : Nat) : Accessed s (s.lookAhead x raw idx) := by
  unfold State.lookAhead
  split
  · exact Accessed.foldl (fun s i => Accessed.vtouch s _ _ _ _ _) _ _
  · exact Accessed.refl s

theorem lookAhead_mem {s t : State} (ht : SameSpace s t) {x : Queue} {raw idx : Nat}
    (h : cmpbOff raw ≤ 1 ∨ ∀ va, x.ring ≤ va → va < x.ring + 64 * 2 ^ x.rsz → ∃ a, s.xlate x.ctx va false false = .ok (.hbm a)) :
    (t.lookAhead x raw idx).core.mem = s.core.mem := by
  unfold State.lookAhead
  split
  · rcases h with h | h
    · have h0 : min ((cmpbOff raw).toNat - 1) (x.ahead idx x.seen - 1) = 0 := by omega
      rw [h0]
      exact ht.mem
    · refine (SameSpace.foldl (s := s) _ (fun u i _ hu => hu.vtouch fun a h1 h2 => h a (by omega) ?_) ht).mem
      have := Nat.mod_lt (idx + 1 + i) (Nat.two_pow_pos x.rsz)
      omega
  · exact ht.mem

/-! Counters -/

/-- Where no comparator of a queue is armed, a counter is written and nothing else follows. -/
theorem setCtr_unarmed {s : State} {q : Nat} (n v : Nat) (h : ∀ k, (mgetD (s.queue q).comps k {}).armed = false) :
    s.setCtr q n v = s.updQueue q (fun x => { x with ctrs := mput x.ctrs n (v % 2 ^ 32) }) := by
  have hone : ∀ (t : State) (k : Nat), (∀ k, (mgetD (t.queue q).comps k {}).armed = false) → t.compareOne q k = t := by
    intro t k ht
    simp [State.compareOne, ht k]
  have hall : ∀ (l : List Nat) (t : State), (∀ k, (mgetD (t.queue q).comps k {}).armed = false) →
      l.foldl (fun s k => if (mgetD (s.queue q).comps k {}).ctr = n then s.compareOne q k else s) t = t := by
    intro l t ht
    induction l with
    | nil => rfl
    | cons k l ih => rw [List.foldl_cons, hone t k ht, ite_self, ih]
  exact hall _ _ (by rw [State.queue_updQueue_same]; exact h)

/-- CSET of a counter and CADD: the counter holds the value, every other one what it held. -/
theorem Launches.writes {s : State} {q raw n v : Nat} (hl : Launches s q raw) (hop : iOp raw = 0x09 ∨ iOp raw = 0x0A) (hs : refMode (iSig raw) = 0)
    (hc : ∀ k, (mgetD (s.queue q).comps k {}).armed = false)
    (hrun : ∀ u : State, (u.queue q).ctrs = (s.queue q).ctrs →
      u.runControl q (s.queue q).nextSeq raw (s.queue q).fetch (ixSums raw (s.queue q).c) = (u.setCtr q n v).ctlDone q (s.queue q).nextSeq) :
    Passed s (s.dispatchAs q raw) q ∧ ((s.dispatchAs q raw).queue q).ctrs = mput (s.queue q).ctrs n (v % 2 ^ 32) := by
  obtain ⟨u, i, hu, hd⟩ := hl.runs (by rcases hop with h | h <;> rw [h] <;> rfl) (by rcases hop with h | h <;> rw [h] <;> decide)
  have hsg : refMode (sigOf raw) = 0 := by
    unfold sigOf
    split
    · rfl
    · exact hs
  have hset := setCtr_unarmed (s := u) (q := q) n v (by rw [hu.queue]; exact hc)
  have hq : (u.setCtr q n v).queue q = { u.queue q with ctrs := mput (s.queue q).ctrs n (v % 2 ^ 32), comps := (u.queue q).comps } := by
    rw [hset, State.queue_updQueue_same, hu.queue]
  obtain ⟨hpass, -, hct, -⟩ := hu.ctlDone (w := u.setCtr q n v) hl (by rcases hop with h | h <;> rw [h] <;> decide) hsg (by rw [hset]; rfl)
    (by rw [hset]; rfl) hq
  rw [hd, hrun u (by rw [hu.queue])]
  exact ⟨hpass, hct⟩

theorem Queue.c_of_ctrs {x y : Queue} {n v : Nat} (h : y.ctrs = mput x.ctrs n v) : y.c n = v ∧ ∀ m, m ≠ n → y.c m = x.c m := by
  unfold Queue.c
  rw [h]
  exact ⟨mgetD_mput_same _ _ _ _, fun m hm => mgetD_mput_ne _ _ _ hm⟩

/-- CSET that arms a comparator whose relation does not hold. -/
theorem Launches.arms {s : State} {q raw : Nat} (hl : Launches s q raw) (hop : iOp raw = 0x09) (hk : bits (iField raw 16 1) 4 1 = 1)
    (hrel : relHolds (iField raw 17 1 % 16) ((s.queue q).c (iField raw 17 1 / 16)) (iField raw 20 4) = false) :
    Passed s (s.dispatchAs q raw) q ∧ ((s.dispatchAs q raw).queue q).ctrs = (s.queue q).ctrs
      ∧ mget ((s.dispatchAs q raw).queue q).comps (iField raw 16 1 % 16)
        = some ⟨true, iField raw 17 1 / 16, iField raw 17 1 % 16, iField raw 20 4, iSig raw⟩ := by
  obtain ⟨u, i, hu, hd⟩ := hl.runs (by rw [hop]; rfl) (by rw [hop]; decide)
  have hsg : refMode (sigOf raw) = 0 := by
    have h0 : sigOf raw = 0 := by simp [sigOf, hop, hk]
    rw [h0]; rfl
  obtain ⟨c, hc⟩ : ∃ c : Comparator, c = ⟨true, iField raw 17 1 / 16, iField raw 17 1 % 16, iField raw 20 4, iSig raw⟩ := ⟨_, rfl⟩
  have hw : (u.updQueue q (fun x => { x with comps := mput x.comps (iField raw 16 1 % 16) c })).compareOne q (iField raw 16 1 % 16)
      = u.updQueue q (fun x => { x with comps := mput x.comps (iField raw 16 1 % 16) c }) := by
    have hh : relHolds c.rel ((u.queue q).c c.ctr) c.value = false := by rw [hc, hu.queue]; exact hrel
    unfold Queue.c at hh
    simp [State.compareOne, Queue.c, hh]
  obtain ⟨hpass, -, hct, hcm, -⟩ := hu.ctlDone (w := u.updQueue q (fun x => { x with comps := mput x.comps (iField raw 16 1 % 16) c })) hl
    (by rw [hop]; decide) hsg rfl rfl (ctrs := (s.queue q).ctrs) (comps := mput (s.queue q).comps (iField raw 16 1 % 16) c)
    (by rw [State.queue_updQueue_same, hu.queue])
  have hrun : s.dispatchAs q raw = (u.updQueue q (fun x => { x with comps := mput x.comps (iField raw 16 1 % 16) c })).ctlDone q (s.queue q).nextSeq := by
    rw [hd]
    simp only [State.runControl, hop, State.doCset, hk, if_false, one_ne_zero, ← hc, hw]
  rw [hrun]
  exact ⟨hpass, hct, by rw [hcm, mget_mput_same, hc]⟩

/-- Does the relation of a CMPB hold for a queue's counters (R150)? -/
def Queue.taken (x : Queue) (raw : Nat) : Bool :=
  relHolds (iField raw 17 1 % 16) (x.c (iField raw 16 1 % 16)) (if (iMod raw).testBit 0 then x.c (iField raw 18 1 % 16) else iField raw 20 4)

/-- The next fetch of a CMPB: at its target where its relation holds, else past itself. -/
def Queue.branch (x : Queue) (raw : Nat) : Nat :=
  if x.taken raw then (((x.fetch : Int) + cmpbOff raw) % (x.rmod : Int)).toNat else (x.fetch + 1) % x.rmod

theorem doCmpb_taken {s : State} {q raw : Nat} (seq idx : Nat) (h : (s.queue q).taken raw = true) : ∃ far st, s.doCmpb q seq raw idx
    = (s.setQueue q { s.queue q with
        fetch := (((idx : Int) + cmpbOff raw) % ((s.queue q).rmod : Int)).toNat, beyond := far, st := st }).ctlDone q seq :=
  ⟨_, _, if_pos h⟩

theorem doCmpb_not_taken {s : State} {q raw : Nat} (seq idx : Nat) (h : ¬ (s.queue q).taken raw = true) :
    s.doCmpb q seq raw idx = s.ctlDone q seq := if_neg h

/-- CMPB with a target that is valid. -/
theorem Launches.branches {s : State} {q raw : Nat} (hl : Launches s q raw) (hop : iOp raw = 0x0B) (hs : refMode (iSig raw) = 0)
    (ht : s.targetBad (s.queue q) (s.queue q).fetch (cmpbOff raw) = false) :
    ((s.dispatchAs q raw).queue q).fetch = (s.queue q).branch raw ∧ ((s.dispatchAs q raw).queue q).ctrs = (s.queue q).ctrs
      ∧ ((s.dispatchAs q raw).queue q).fl = [] ∧ (s.dispatchAs q raw).core.qm.flags = s.core.qm.flags
      ∧ ((cmpbOff raw ≤ 1 ∨ ∀ va, (s.queue q).ring ≤ va → va < (s.queue q).ring + 64 * 2 ^ (s.queue q).rsz →
          ∃ a, s.xlate (s.queue q).ctx va false false = .ok (.hbm a)) → (s.dispatchAs q raw).core.mem = s.core.mem) := by
  obtain ⟨u, i, hu, hd⟩ := hl.dispatchAs (by rw [hop]; rfl)
  obtain ⟨-, -, -, -, -, -, -, -, hbody, -⟩ := id hl
  have hadv : (s.queue q).advance (decide (iOp raw = 0x0F))
      = { s.queue q with fetch := ((s.queue q).fetch + 1) % (s.queue q).rmod, cur := none } := by simp [Queue.advance, hop]
  rw [hadv] at hd
  set x := ({ s.queue q with fetch := ((s.queue q).fetch + 1) % (s.queue q).rmod, cur := none } : Queue) with hx
  have hcb : u.cmpbBad x raw (s.queue q).fetch = [] := by
    have hb : u.targetBad x (s.queue q).fetch (cmpbOff raw) = false := (hu.targetBad _ _ _).trans ht
    simp [State.cmpbBad, hb, check]
  have hsg : refMode (sigOf raw) = 0 := by simp [sigOf, hop, hs]
  obtain ⟨w, hw⟩ : ∃ w, u.lookAhead x raw (s.queue q).fetch = w := ⟨_, rfl⟩
  have hacc : Accessed u w := hw ▸ Accessed.lookAhead _ _ _ _
  have hrun : s.dispatchAs q raw = w.doCmpb q (s.queue q).nextSeq raw (s.queue q).fetch := by
    have hix : (ixSums raw x.c) = ixSums raw (s.queue q).c := rfl
    rw [hd, State.carryOut, hcb, List.append_nil, hix, hbody, hw]
    simp only [State.runControl, hop]
  obtain ⟨regs, irq, inv, invs, invDone, mem, ldg, cmds, hwu⟩ := hacc.rest
  have hwq : w.queue q = u.queue q := by rw [hwu]; rfl
  obtain ⟨v, far, st, queues, hvw, hvq, hdone⟩ : ∃ v far st queues, v = { w with core.qm.queues := queues }
      ∧ v.queue q = { u.queue q with fetch := (s.queue q).branch raw, beyond := far, st := st }
      ∧ w.doCmpb q (s.queue q).nextSeq raw (s.queue q).fetch = v.ctlDone q (s.queue q).nextSeq := by
    have htk : (w.queue q).taken raw = (s.queue q).taken raw := by rw [hwq, hu.queue]; rfl
    have hrm : (w.queue q).rmod = (s.queue q).rmod := by rw [hwq, hu.queue]; rfl
    by_cases h : (s.queue q).taken raw = true
    · obtain ⟨far, st, hdo⟩ := doCmpb_taken (s.queue q).nextSeq (s.queue q).fetch (htk.trans h)
      refine ⟨w.setQueue q _, far, st, _, rfl, ?_, hdo⟩
      rw [State.queue_setQueue_same, Queue.branch, if_pos h, hrm, hwq]
    · have hf : (w.queue q).fetch = (s.queue q).branch raw := by rw [Queue.branch, if_neg h, hwq, hu.queue]
      exact ⟨w, (w.queue q).beyond, (w.queue q).st, w.core.qm.queues, rfl, by rw [← hf, hwq], doCmpb_not_taken _ _ (by rwa [htk])⟩
  have hal : Alone v q i := hu.alone hl (by rw [hop]; decide) (by rw [hvw, hwu])
    ⟨(u.queue q).ctrs, (u.queue q).comps, _, far, st, hvq⟩
  obtain ⟨⟨vus, ldg', queues', hc⟩, st', rf, jf, htq⟩ := hal.ctlDone_silent (by rw [hu.fresh.sig]; exact hsg)
  rw [hu.fresh.seq] at hc htq
  rw [hrun, hdone]
  refine ⟨by rw [htq, hvq], by rw [htq, hvq, hu.queue], by rw [htq], ?_, fun hring => ?_⟩
  · rw [hc, hvw, hwu]
    exact hu.flags
  · rw [hc, hvw, ← hw]
    exact lookAhead_mem hu.sameSpace hring

/-- Settles O7: a counter is written or a comparator armed with nothing else moved, and CMPB moves the fetch pointer by its relation. -/
theorem counterInstructions : Obligations.CounterInstructions := by
  intro s q h hc
  refine ⟨fun dst rel value => ?_, fun dst addend => ?_, fun ctr rel ctr2 value offset => ?_⟩
  · intro raw n hl hs
    obtain ⟨t, ht⟩ : ∃ t, s.dispatchAs q raw = t := ⟨_, rfl⟩
    have hop : iOp raw = 0x09 := iOp_ctlWord _ _ (by decide)
    refine ⟨fun hk => answers_dispatching_at hl.1 ht ?_, fun hk hrel => answers_dispatching_at hl.1 ht ?_⟩
    · obtain ⟨hpass, hct⟩ := hl.writes (.inl hop) hs hc (fun u _ => by
        simp only [State.runControl, hop, State.doCset, hk, if_true]; rfl)
      rw [ht] at hpass hct
      obtain ⟨hn, hm⟩ := Queue.c_of_ctrs hct
      exact ⟨hpass, hn, hm⟩
    · have := hl.arms hop hk hrel
      rwa [ht] at this
  · intro raw n hl hs
    obtain ⟨t, ht⟩ : ∃ t, s.dispatchAs q raw = t := ⟨_, rfl⟩
    have hop : iOp raw = 0x0A := iOp_ctlWord _ _ (by decide)
    refine answers_dispatching_at hl.1 ht ?_
    obtain ⟨hpass, hct⟩ := hl.writes (n := n) (v := ((s.queue q).c n + iField raw 20 4) % 2 ^ 32) (.inr hop) hs hc (fun u hu => by
      simp only [State.runControl, hop, State.doCadd, Queue.c, hu]; rfl)
    rw [ht, Nat.mod_mod] at hct
    rw [ht] at hpass
    obtain ⟨hn, hm⟩ := Queue.c_of_ctrs hct
    exact ⟨hpass, hn, hm⟩
  · intro raw x b hl hs htb
    obtain ⟨t, ht⟩ : ∃ t, s.dispatchAs q raw = t := ⟨_, rfl⟩
    refine answers_dispatching_at hl.1 ht ?_
    have := hl.branches (iOp_ctlWord _ _ (by decide)) hs htb
    rwa [ht] at this

end Sys2Proof.Machine
end

section
/-! PROOF. Records: what the error records, faults and completion records of a queue leave alone (06_programs R143, R158, 10_translation R242-R248). -/
namespace Sys2Proof.Machine
open State

/-- t is s after accesses, requests to the host and records of errors and faults: of the contexts only their error rings have moved. -/
structure Recorded (s t : State) : Prop where
  rest : ∃ regs irq mmu mem ldg cmds host, t = { s with
    core.regs := regs, core.irq := irq, core.mmu := mmu, core.mem := mem, core.ldg := ldg, core.cmds := cmds, core.host := host }
  regs : RegsKept s t
  ctx : ∀ c, ∃ n p f w, t.ctx c = { s.ctx c with errSeq := n, errPos := p, errFull := f, errWait := w }
  tlb : t.core.mmu.tlb = s.core.mmu.tlb
  atc : t.core.mmu.atc = s.core.mmu.atc
  linkUp : t.core.host.linkUp = s.core.host.linkUp

namespace Recorded

theorem refl (s : State) : Recorded s s := ⟨⟨_, _, _, _, _, _, _, rfl⟩, .refl s, fun _ => ⟨_, _, _, _, rfl⟩, rfl, rfl, rfl⟩

theorem trans {s t u : State} (h : Recorded s t) (k : Recorded t u) : Recorded s u := by
  refine ⟨?_, h.regs.trans k.regs, fun c => ?_, k.tlb.trans h.tlb, k.atc.trans h.atc, k.linkUp.trans h.linkUp⟩
  · obtain ⟨_, _, _, _, _, _, _, ht⟩ := h.rest
    obtain ⟨_, _, _, _, _, _, _, hu⟩ := k.rest
    exact ⟨_, _, _, _, _, _, _, by rw [hu, ht]⟩
  · obtain ⟨_, _, _, _, ht⟩ := h.ctx c
    obtain ⟨_, _, _, _, hu⟩ := k.ctx c
    exact ⟨_, _, _, _, by rw [hu, ht]⟩

theorem foldl {α : Type} {f : State → α → State} (hf : ∀ s a, Recorded s (f s a)) (l : List α) (s : State) : Recorded s (l.foldl f s) := by
  induction l generalizing s with
  | nil => exact refl s
  | cons a l ih => exact (hf s a).trans (ih _)

theorem of_accessed {s t : State} (h : Accessed s t) : Recorded s t := by
  obtain ⟨⟨_, _, _, _, _, _, _, _, rfl⟩, hr⟩ := h
  exact ⟨⟨_, _, _, _, _, _, _, rfl⟩, hr, fun _ => ⟨_, _, _, _, rfl⟩, rfl, rfl, rfl⟩

theorem bump (s : State) {o : Nat} (n : Nat) (h : quietCnt o) : Recorded s (s.bump o n) := of_accessed (.bump s n h)
theorem give (s : State) (c i n : Nat) : Recorded s (s.give c i n) := of_accessed (.give s c i n)
theorem take (s : State) (c i n : Nat) : Recorded s (s.take c i n) := of_accessed (.take s c i n)
theorem raise (s : State) {o i : Nat} (h : o % 0x1000 = 0x80) (hi : i < 8) : Recorded s (s.raise o i) := of_accessed (.raise s h hi)
theorem raiseIf (s : State) (p : Bool) {o i : Nat} (h : o % 0x1000 = 0x80) (hi : i < 8) : Recorded s (s.raiseIf p o i) := of_accessed (.raiseIf s p h hi)
theorem missWalk (s : State) (c a : Nat) : Recorded s (s.missWalk c a) := of_accessed (.missWalk s c a)
theorem vput (s : State) (c a : Nat) (bs : List Byte) (se : Bool) (cap : Nat) : Recorded s (s.vput c a bs se cap) := of_accessed (.vput s c a bs se cap)

/-- A change of the lists of the MMU that translations do not read. -/
theorem ofLists (s : State) (ats : List AtsReq) (faults : Map PageFault) (refused : List (Nat × Nat × Nat)) (recs : List KillRec) :
    Recorded s { s with core.mmu.ats := ats, core.mmu.faults := faults, core.mmu.refused := refused, core.mmu.killRecs := recs } :=
  ⟨⟨_, _, _, _, _, _, _, rfl⟩, .of_regs rfl, fun _ => ⟨_, _, _, _, rfl⟩, rfl, rfl, rfl⟩

theorem ofHost (s : State) (sn : Map Bool) (co : List CacheWr) : Recorded s { s with core.host.bisnp := sn, core.host.cacheOut := co } :=
  ⟨⟨_, _, _, _, _, _, _, rfl⟩, .of_regs rfl, fun _ => ⟨_, _, _, _, rfl⟩, rfl, rfl, rfl⟩

theorem updErr (s : State) (c : Nat) {f : Ctx → Ctx} (hf : ∀ x, ∃ n p b w, f x = { x with errSeq := n, errPos := p, errFull := b, errWait := w }) :
    Recorded s (s.updCtx c f) := by
  refine ⟨⟨_, _, _, _, _, _, _, rfl⟩, .of_regs rfl, fun d => ?_, rfl, rfl, rfl⟩
  by_cases h : d = c
  · subst h
    obtain ⟨n, p, b, w, hx⟩ := hf (s.ctx d)
    exact ⟨n, p, b, w, (mgetD_mupd_same _ _ _ _).trans hx⟩
  · exact ⟨_, _, _, _, mgetD_mupd_ne _ _ _ _ h⟩

theorem qm {s t : State} (h : Recorded s t) : t.core.qm = s.core.qm := by
  obtain ⟨_, _, _, _, _, _, _, ht⟩ := h.rest
  rw [ht]

/-! What an access waits for -/

theorem writeHome (s : State) (p : PoolTu) : Recorded s (s.writeHome p) := by
  unfold State.writeHome
  dsimp only
  split
  · exact ((bump s _ (Accessed.memCnt _ _)).trans (bump _ _ (Accessed.memCnt _ _))).trans (of_accessed (.flashWrite _ _ _))
  · exact (((bump s _ (Accessed.memCnt _ _)).trans (bump _ _ (Accessed.memCnt _ _))).trans (of_accessed (.hostWrite _ _ _))).trans
      (of_accessed (.ofMem _ _))

theorem startWb (s : State) (k : Nat) (p : PoolTu) : Recorded s (s.startWb k p) := by
  unfold State.startWb
  dsimp only
  split
  · exact of_accessed (.setPool _ _ _)
  · exact (writeHome s p).trans (of_accessed (.setPool _ _ _))

theorem askFor (s : State) (c : Nat) (st : Stop) : Recorded s (s.askFor c st) := by
  unfold State.askFor
  split
  · unfold State.askAts
    split
    · exact refl s
    · exact (ofLists s _ _ _ _).trans (bump _ _ (Accessed.mmuCnt _))
  · unfold State.askSnoop
    split
    · exact refl s
    · exact (ofHost s _ _).trans (bump _ _ (Accessed.hifCnt (n := 0x128) (by decide)))
  · unfold State.askEvict
    split
    · split
      · exact of_accessed (.setPool _ _ _)
      · exact startWb s _ _
    · exact refl s
  · exact refl s

/-! Error records and faults -/

theorem errLost (s : State) (c : Nat) : Recorded s (s.errLost c) := by
  unfold State.errLost
  split
  · exact bump s _ (Accessed.mmuCnt _)
  · exact bump s _ (.inr (.inr rfl))

theorem writeErrors (s : State) (c : Nat) (l : List (List Byte)) : Recorded s (s.writeErrors c l) := by
  induction l generalizing s with
  | nil => exact updErr s c fun _ => ⟨_, _, _, _, rfl⟩
  | cons bs l ih =>
    unfold State.writeErrors
    dsimp only
    split
    · refine Recorded.trans ?_ (ih _)
      exact ((vput s _ _ _ _ _).trans (raiseIf _ _ (by decide) (by decide))).trans (updErr _ c fun _ => ⟨_, _, _, _, rfl⟩)
    · exact (errLost s c).trans (ih _)
    · exact (errLost s c).trans (ih _)
    · exact (askFor s c _).trans (updErr _ c fun _ => ⟨_, _, _, _, rfl⟩)

theorem errRecord (s : State) (c : Nat) (mk : Nat → Nat → List Byte) : Recorded s (s.errRecord c mk) := by
  have h : Recorded s (s.updCtx c (fun x => { x with errSeq := (x.errSeq + 1) % 65536 })) := updErr s c fun _ => ⟨_, _, _, _, rfl⟩
  unfold State.errRecord
  dsimp only
  split
  · exact h.trans (errLost _ c)
  · exact h.trans (writeErrors _ c _)

theorem unrefuse (s : State) (c a : Nat) : Recorded s (s.unrefuse c a) := ofLists s _ _ _ _

theorem raiseFault (s : State) (c a cause : Nat) (w : Bool) (who : Stopper) (q unit tag : Nat) :
    Recorded s (s.raiseFault c a cause w who q unit tag).1 := by
  have hw := missWalk s c a
  have hb : Recorded s ((s.missWalk c a).bump (mmuBase + 0x110) 1) := hw.trans (bump _ _ (Accessed.mmuCnt _))
  unfold State.raiseFault
  dsimp only
  split
  · exact hw.trans (ofLists _ _ _ _ _)
  · split
    · split
      · exact ((hb.trans (errRecord _ c _)).trans (unrefuse _ _ _)).trans (raise (o := mmuInt) (i := 0) _ (by decide) (by decide))
      · exact (hb.trans (errRecord _ c _)).trans (raise (o := mmuInt) (i := 0) _ (by decide) (by decide))
    · split
      · exact hw.trans (bump _ _ (Accessed.mmuCnt _))
      · exact (((hb.trans (ofLists _ _ _ _ _)).trans (take _ _ _ _)).trans (errRecord _ c _)).trans (raise (o := mmuInt) (i := 0) _ (by decide) (by decide))

/-! Completion records -/

theorem sendVector (s : State) (v : Nat) : Recorded s (s.sendVector v) := by
  have hb : ∀ irq : Irq, Recorded s { s with core.irq := irq } := fun _ =>
    ⟨⟨_, _, _, _, _, _, _, rfl⟩, .of_regs rfl, fun _ => ⟨_, _, _, _, rfl⟩, rfl, rfl, rfl⟩
  have hc : ∀ irq : Irq, Recorded s ({ s with core.irq := irq }.bump (hifBase + 0x130) 1) := fun irq =>
    (hb irq).trans (bump _ _ (Accessed.hifCnt (by decide)))
  unfold State.sendVector
  split
  · exact hb _
  · split
    · exact hb _
    · unfold State.sendNow
      dsimp only
      split
      · exact hc _
      · exact (hc _).trans ⟨⟨_, _, _, _, _, _, _, rfl⟩, .of_regs rfl, fun _ => ⟨_, _, _, _, rfl⟩, rfl, rfl, rfl⟩

theorem recordSent (s0 s : State) (c : Nat) (v : Option Nat) (l : Tr) : Recorded s (State.recordSent s0 s c v l) := by
  unfold State.recordSent
  split
  · split
    · exact ofHost s _ _
    · exact refl s
  · split
    · exact refl s
    · exact sendVector s _

theorem freeTag (s : State) (t : Option Nat) : Recorded s (s.freeTag t) := by
  unfold State.freeTag
  split
  · exact give s _ _ _
  · exact refl s

theorem putKilled (s : State) (r : KillRec) : Recorded s (s.putKilled r) := by
  unfold State.putKilled
  dsimp only
  split
  · split
    · exact ((vput s _ _ _ _ _).trans (recordSent _ _ _ _ _)).trans (freeTag _ _)
    · exact ofLists s _ _ _ _
  · exact freeTag s _
  · exact (bump s _ (Accessed.mmuCnt _)).trans (freeTag _ _)
  · exact (askFor s _ _).trans (ofLists _ _ _ _ _)

end Recorded

/-- t is s after completion records have been written or held: of the queues only the records that they hold have moved. -/
structure Emitted (s t : State) : Prop where
  rest : ∃ regs irq mmu mem ldg cmds host queues, t = { s with
    core.regs := regs, core.irq := irq, core.mmu := mmu, core.mem := mem, core.ldg := ldg, core.cmds := cmds, core.host := host
    core.qm.queues := queues }
  regs : RegsKept s t
  ctx : ∀ c, ∃ n p f w, t.ctx c = { s.ctx c with errSeq := n, errPos := p, errFull := f, errWait := w }
  queue : ∀ p, ∃ h, t.queue p = { s.queue p with held := h }

namespace Emitted

theorem of_recorded {s t : State} (h : Recorded s t) : Emitted s t := by
  obtain ⟨_, _, _, _, _, _, _, ht⟩ := h.rest
  exact ⟨⟨_, _, _, _, _, _, _, _, ht⟩, h.regs, h.ctx, fun p => ⟨_, by rw [ht]; rfl⟩⟩

theorem refl (s : State) : Emitted s s := of_recorded (.refl s)

theorem trans {s t u : State} (h : Emitted s t) (k : Emitted t u) : Emitted s u := by
  refine ⟨?_, h.regs.trans k.regs, fun c => ?_, fun p => ?_⟩
  · obtain ⟨_, _, _, _, _, _, _, _, ht⟩ := h.rest
    obtain ⟨_, _, _, _, _, _, _, _, hu⟩ := k.rest
    exact ⟨_, _, _, _, _, _, _, _, by rw [hu, ht]⟩
  · obtain ⟨_, _, _, _, ht⟩ := h.ctx c
    obtain ⟨_, _, _, _, hu⟩ := k.ctx c
    exact ⟨_, _, _, _, by rw [hu, ht]⟩
  · obtain ⟨_, ht⟩ := h.queue p
    obtain ⟨_, hu⟩ := k.queue p
    exact ⟨_, by rw [hu, ht]⟩

theorem hold (s : State) (q : Nat) (f : List HeldRec → List HeldRec) : Emitted s (s.updQueue q (fun x => { x with held := f x.held })) := by
  refine ⟨⟨_, _, _, _, _, _, _, _, rfl⟩, .of_regs rfl, fun _ => ⟨_, _, _, _, rfl⟩, fun p => ?_⟩
  by_cases h : p = q
  · subst h
    exact ⟨_, State.queue_updQueue_same s p _⟩
  · exact ⟨_, State.queue_updQueue_ne s _ h⟩

theorem putRecord (s : State) (q i : Nat) (bs : List Byte) (t : Option Nat) : Emitted s (s.putRecord q i bs t) := by
  have keep (s : State) : Emitted s (s.updQueue q (fun x => { x with held := x.held ++ [⟨i, bs, t⟩] })) := hold s q (· ++ [⟨i, bs, t⟩])
  unfold State.putRecord
  dsimp only
  split
  · exact of_recorded (.putKilled s _)
  · split
    · exact keep s
    · split
      · split
        · exact of_recorded (((Recorded.vput s _ _ _ _ _).trans (.recordSent _ _ _ _ _)).trans (.freeTag _ _))
        · exact keep s
      · exact of_recorded (.freeTag s _)
      · split
        · exact of_recorded ((Recorded.raiseFault s _ _ _ _ _ _ _ _).trans (.freeTag _ _))
        · exact (of_recorded (Recorded.raiseFault s _ _ _ _ _ _ _ _)).trans (keep _)
      · exact (of_recorded (Recorded.askFor s _ _)).trans (keep _)

end Emitted

theorem emitRecord_emitted (s : State) (q tag st op gen d unit : Nat) (held : Option Nat) : Emitted
    (s.setQueue q { s.queue q with crTail := ((s.queue q).crTail + 1) % (s.queue q).cmod, reserved := (s.queue q).reserved - 1 })
    (s.emitRecord q tag st op gen d unit held) :=
  Emitted.putRecord _ _ _ _ _

/-- A completion record takes the next place of its ring. -/
theorem emitRecord_queue (s : State) (q tag st op gen d unit : Nat) (held : Option Nat) : ∃ h, (s.emitRecord q tag st op gen d unit held).queue q
    = { s.queue q with crTail := ((s.queue q).crTail + 1) % (s.queue q).cmod, reserved := (s.queue q).reserved - 1, held := h } := by
  obtain ⟨h, hq⟩ := (emitRecord_emitted s q tag st op gen d unit held).queue q
  rw [State.queue_setQueue_same] at hq
  exact ⟨h, hq⟩

end Sys2Proof.Machine
end

section
/-! PROOF. GATE and END (06_programs R140, R146, 07_tile R177-R179). -/
namespace Sys2Proof.Machine
open State

/-! What a gate is compared with -/

theorem dieOf_congr {s t : State} {q : Nat} (hf : t.fuse = s.fuse) (hs : (t.queue q).slot = (s.queue q).slot) (hh : (t.queue q).home = (s.queue q).home) :
    t.dieOf q = s.dieOf q := by
  have hq : t.quarterOf = s.quarterOf := by
    funext c u
    simp only [State.quarterOf, State.opeQuarter, State.opePhys, State.opePositions, hf]
  unfold State.dieOf
  rw [hs, hh, hq]

theorem Launched.nowAt {s u : State} {q raw : Nat} {i : InFlight} (hu : Launched s u q raw i) : u.nowAt (u.dieOf q) = s.nowAt (s.dieOf q) := by
  obtain ⟨turn, qs, n, cnt, ldg, kc, hr⟩ := hu.rest
  have hd : u.dieOf q = s.dieOf q := dieOf_congr (by rw [hr]) (by rw [hu.queue]) (by rw [hu.queue])
  rw [hd]
  unfold State.nowAt State.now
  rw [hr]

/-- GATE completes where its time has come, and holds its queue where it has not. -/
theorem Launches.gate {s : State} {q raw : Nat} (hl : Launches s q raw) (hop : iOp raw = 0x04) (hs : refMode (iSig raw) = 0) :
    (effAt raw (ixSums raw (s.queue q).c) 0 128 64 ≤ s.nowAt (s.dieOf q) → Passed s (s.dispatchAs q raw) q)
    ∧ (s.nowAt (s.dieOf q) < effAt raw (ixSums raw (s.queue q).c) 0 128 64 →
        ((s.dispatchAs q raw).queue q).hold = .gate (effAt raw (ixSums raw (s.queue q).c) 0 128 64)
        ∧ ((s.dispatchAs q raw).queue q).st = .waiting ∧ ((s.dispatchAs q raw).queue q).fl.length = 1
        ∧ (s.dispatchAs q raw).core.mem = s.core.mem) := by
  obtain ⟨u, i, hu, hd⟩ := hl.runs (by rw [hop]; rfl) (by rw [hop]; decide)
  have hsg : refMode (sigOf raw) = 0 := by simp [sigOf, hop, hs]
  simp only [State.runControl, hop, State.doGate, hu.nowAt] at hd
  refine ⟨fun hv => ?_, fun hv => ?_⟩
  · rw [hd, if_pos hv]
    have hsch : ∃ n, u.scheduled = { u with core.unsync := n } := by
      unfold State.scheduled
      split <;> exact ⟨_, rfl⟩
    obtain ⟨n, hn⟩ := hsch
    exact (hu.ctlDone (w := u.scheduled) hl (by rw [hop]; decide) hsg (by rw [hn]) (by rw [hn]) (ctrs := (u.queue q).ctrs) (comps := (u.queue q).comps)
      (by rw [hn]; rfl)).1
  · rw [hd, if_neg (by omega), State.queue_updQueue_same, hu.queue]
    exact ⟨rfl, rfl, rfl, hu.sameSpace.mem⟩

/-! What settling a queue leaves of it -/

/-- y is the queue x after completions: fetched no further, held by nothing new, with nothing new in flight. -/
structure Queue.Eased (x y : Queue) : Prop where
  hold : x.hold = .none → y.hold = .none
  fetch : y.fetch = x.fetch
  fl : ∀ seq, x.inst seq = none → y.inst seq = none

theorem Queue.Eased.refl (x : Queue) : x.Eased x := ⟨id, rfl, fun _ => id⟩

theorem Queue.Eased.trans {x y z : Queue} (h : x.Eased y) (k : y.Eased z) : x.Eased z :=
  ⟨k.hold ∘ h.hold, k.fetch.trans h.fetch, fun n hn => k.fl n (h.fl n hn)⟩

/-- An instruction that has left what is in flight. -/
theorem Queue.Eased.retired (x : Queue) (n : Nat) : x.Eased { x with fl := x.fl.filter (fun j => j.seq ≠ n) } := by
  refine ⟨id, rfl, fun m hm => ?_⟩
  simp only [Queue.inst, List.find?_eq_none, decide_eq_true_eq, List.mem_filter] at hm ⊢
  exact fun i hi => hm i hi.1

theorem Queue.Eased.updFl (x : Queue) (n : Nat) {f : InFlight → InFlight} (hf : ∀ i, (f i).seq = i.seq) : x.Eased (x.updFl n f) := by
  refine ⟨id, rfl, fun m hm => ?_⟩
  simp only [Queue.inst, Queue.updFl, List.find?_eq_none, decide_eq_true_eq, List.mem_map, forall_exists_index, and_imp] at hm ⊢
  rintro _ i hi rfl
  split
  · rw [hf]; exact hm i hi
  · exact hm i hi

theorem Queue.rest_eased (x : Queue) (n : Nat) : x.Eased (x.rest n) := by
  obtain ⟨_, _, _, h⟩ := x.rest_eq n
  rw [h]
  exact ⟨id, rfl, fun _ => id⟩

/-- Every queue of t is that of s after completions. -/
def Settles (s t : State) : Prop := ∀ p, (s.queue p).Eased (t.queue p)

namespace Settles

theorem refl (s : State) : Settles s s := fun _ => .refl _
theorem trans {s t u : State} (h : Settles s t) (k : Settles t u) : Settles s u := fun p => (h p).trans (k p)
theorem of_qm {s t : State} (h : t.core.qm.queues = s.core.qm.queues) : Settles s t := fun p => by rw [State.queue_congr h p]; exact .refl _

theorem foldl {α : Type} {f : State → α → State} (hf : ∀ s a, Settles s (f s a)) (l : List α) (s : State) : Settles s (l.foldl f s) := by
  induction l generalizing s with
  | nil => exact refl s
  | cons a l ih => exact (hf s a).trans (ih _)

theorem setQueue (s : State) (q : Nat) (x : Queue) (h : (s.queue q).Eased x) : Settles s (s.setQueue q x) := fun p => by
  by_cases hq : p = q
  · subst hq
    rw [State.queue_setQueue_same]
    exact h
  · rw [State.queue_setQueue_ne _ _ hq]
    exact .refl _

theorem updQueue (s : State) (q : Nat) {f : Queue → Queue} (h : ∀ x : Queue, x.Eased (f x)) : Settles s (s.updQueue q f) := setQueue s q _ (h _)

theorem thenUpd {s t : State} (k : Settles s t) {q : Nat} {f : Queue → Queue} (h : ∀ x : Queue, x.Eased (f x)) : Settles s (t.updQueue q f) :=
  k.trans (updQueue t q h)

theorem of_emitted {s t : State} (h : Emitted s t) : Settles s t := fun p => by
  obtain ⟨_, hq⟩ := h.queue p
  rw [hq]
  exact ⟨id, rfl, fun _ => id⟩

theorem of_signalled {s t : State} (h : Signalled s t) : Settles s t := fun p => by
  obtain ⟨_, _, hq, -⟩ := h.queue p
  rw [hq]
  exact ⟨id, rfl, fun _ => id⟩

theorem emitRecord (s : State) (q tag st op gen d unit : Nat) (held : Option Nat) : Settles s (s.emitRecord q tag st op gen d unit held) :=
  Settles.trans (setQueue s q _ (by exact ⟨id, rfl, fun _ => id⟩)) (of_emitted (emitRecord_emitted s q tag st op gen d unit held))

theorem retire (s : State) (q : Nat) (i : InFlight) (c d : Nat) : Settles s (s.retire q i c d) := by
  have hs : Settles s (s.setQueue q { s.queue q with fl := (s.queue q).fl.filter (fun j => j.seq ≠ i.seq) }) :=
    setQueue s q _ (.retired _ _)
  unfold State.retire
  dsimp only
  split
  · exact hs.trans (emitRecord _ _ _ _ _ _ _ _ _)
  · refine hs.trans (Settles.trans ?_ (of_qm rfl))
    exact updQueue _ q (f := fun x => { x with reserved := x.reserved - 1 }) fun _ => ⟨id, rfl, fun _ => id⟩

end Settles

/-- Writing samples changes nothing of the queue management. -/
theorem flushSamples_qm (s : State) (l : List (List Byte)) : (s.flushSamples l).core.qm = s.core.qm := by
  induction l generalizing s with
  | nil => rfl
  | cons bs l ih =>
    have lost : ∀ s : State, s.sampleLost.core.qm = s.core.qm := fun s => by simp [State.sampleLost]
    unfold State.flushSamples
    split
    · rw [ih, lost]
    · dsimp only
      split
      · rw [ih]
        exact (Recorded.vput _ _ _ _ _ _).qm
      · rw [ih, lost]
      · rw [ih, lost]
      · exact (Recorded.askFor _ _ _).qm

theorem sampleDone_qm (s : State) (q : Nat) (i : InFlight) (st c : Nat) : (s.sampleDone q i st c).core.qm = s.core.qm := by
  unfold State.sampleDone
  split
  · rfl
  · exact flushSamples_qm _ _

namespace Settles

theorem countLate (s : State) (i : InFlight) : Settles s (s.countLate i) := by
  unfold State.countLate
  split
  · exact refl s
  · split
    · exact of_qm rfl
    · dsimp only
      split <;> exact of_qm rfl

/-- What is in flight once an instruction has been retired does not have its number. -/
theorem retire_inst (s : State) (q : Nat) (i : InFlight) (c d : Nat) : ((s.retire q i c d).queue q).inst i.seq = none := by
  have gone : ((s.setQueue q { s.queue q with fl := (s.queue q).fl.filter (fun j => j.seq ≠ i.seq) }).queue q).inst i.seq = none := by
    rw [State.queue_setQueue_same, Queue.inst, List.find?_eq_none]
    intro j hj
    simpa using (List.mem_filter.1 hj).2
  unfold State.retire
  dsimp only
  split
  · exact (emitRecord _ _ _ _ _ _ _ _ _ q).fl _ gone
  · refine (Settles.trans ?_ (of_qm rfl) q).fl _ gone
    exact updQueue _ q (f := fun x => { x with reserved := x.reserved - 1 }) fun _ => ⟨id, rfl, fun _ => id⟩

theorem errorStop_eased (x : Queue) : x.Eased x.errorStop := by
  unfold Queue.errorStop
  split
  · exact .refl x
  · split
    · exact ⟨id, rfl, fun _ => id⟩
    · split <;> exact ⟨id, rfl, fun _ => id⟩

theorem freeScratch (s : State) (q n : Nat) : Settles s (s.freeScratch q n) := fun p => by rw [State.queue_freeScratch]; exact .refl _

/-- What a completion does after its signal. -/
theorem retired (s : State) (q : Nat) (i : InFlight) (c d st ctx : Nat) (p : Bool) :
    Settles s (((s.retire q i c d).sampleDone q i st ctx).updQueue q (fun x => if p then x.errorStop else x)) := by
  refine Settles.trans ((retire _ _ _ _ _).trans (of_qm (by rw [sampleDone_qm]))) (updQueue _ q fun x => ?_)
  split
  · exact errorStop_eased x
  · exact .refl x

theorem retired_inst (s : State) (q : Nat) (i : InFlight) (c d st ctx : Nat) (p : Bool) :
    ((((s.retire q i c d).sampleDone q i st ctx).updQueue q (fun x => if p then x.errorStop else x)).queue q).inst i.seq = none := by
  refine (Settles.trans (of_qm (by rw [sampleDone_qm])) (updQueue _ q fun x => ?_) q).fl _ (retire_inst s q i c d)
  split
  · exact errorStop_eased x
  · exact .refl x

theorem completeInst (s : State) (q seq : Nat) : Settles s (s.completeInst q seq) := by
  unfold State.completeInst
  split
  · exact refl s
  · dsimp only
    refine Settles.trans ?_ (retired _ _ _ _ _ _ _ _)
    split
    · exact (freeScratch s q seq).trans (countLate _ _)
    · exact ((freeScratch s q seq).trans (countLate _ _)).trans (of_signalled (State.signal_signalled _ _ _ _ _))

/-- An instruction that completes is no longer in flight. -/
theorem completeInst_inst (s : State) (q seq : Nat) : ((s.completeInst q seq).queue q).inst seq = none := by
  unfold State.completeInst
  split
  · assumption
  · rename_i i hi
    have hseq : (i.lateOut (s.nowAt (s.dieOf q))).seq = seq := by
      have : i.seq = seq := by simpa [Queue.inst] using List.find?_some hi
      unfold InFlight.lateOut
      split <;> exact this
    have h := retired_inst (q := q) (i := i.lateOut (s.nowAt (s.dieOf q)))
    rw [hseq] at h
    exact h _ _ _ _ _ _

theorem settleCtl (n : Nat) (s : State) (q : Nat) : Settles s (s.settleCtl q n) := by
  induction n generalizing s with
  | zero => exact refl s
  | succ n ih =>
    unfold State.settleCtl
    dsimp only
    split
    · exact refl s
    · refine ((completeInst s q _).trans (updQueue _ q fun x => ?_)).trans (ih _)
      split
      · exact ⟨fun _ => rfl, rfl, fun _ => id⟩
      · exact ⟨fun _ => rfl, rfl, fun _ => id⟩
      · exact .refl x

theorem asideFree (s : State) (q n : Nat) (p : Option Nat) : Settles s (s.asideFree q n p) := by
  unfold State.asideFree
  split
  · exact refl s
  · split <;> exact of_qm rfl

theorem dropSaved (s : State) (q : Nat) : Settles s (s.dropSaved q) := by
  unfold State.dropSaved
  split
  · dsimp only
    refine Settles.trans ?_ (of_qm rfl)
    exact (foldl (fun s (t : Tile × Option Nat) => asideFree s _ _ _) _ _).trans (asideFree _ _ _ _)
  · exact of_qm rfl

theorem settleStop (s : State) (q : Nat) : Settles s (s.settleStop q) := by
  have table (t : State) : Settles t (t.tableWrite q) := by
    unfold State.tableWrite
    dsimp only
    split <;> exact of_qm rfl
  have ring : Settles s (s.dropRing q) := setQueue (s.give 7 q (s.queue q).unread) q _ ⟨id, rfl, fun _ => id⟩
  have slot (t : State) : Settles t (t.freeSlot q) := by
    unfold State.freeSlot
    split
    · exact refl t
    · rename_i r _
      have h0 : Settles t { t with core.qm.slots := mdel t.core.qm.slots (slotKey r) } := of_qm rfl
      exact thenUpd h0 fun _ => ⟨id, rfl, fun _ => id⟩
  unfold State.settleStop
  dsimp only
  split
  · exact refl s
  · split
    · have hd : Settles s ((((s.dropRing q).dropSaved q).freeSlot q).updQueue q (fun x => { x with
          st := .disabled, destroying := false, aborting := false, desc := 0, ctrs := [], comps := [], left := none, beyond := 0, errPend := false })) :=
        thenUpd ((ring.trans (dropSaved _ q)).trans (slot _)) fun _ => ⟨id, rfl, fun _ => id⟩
      exact fun p => by rw [State.queue_raise]; exact hd.trans (table _) p
    · split
      · refine updQueue s q fun x => ?_
        exact Queue.Eased.trans (by exact ⟨id, rfl, fun _ => id⟩) (Queue.rest_eased _ _)
      · exact refl s

theorem settle (s : State) (q : Nat) : Settles s (s.settle q) := by
  exact ((settleCtl _ s q).trans (updQueue _ q fun x => Queue.rest_eased x _)).trans (settleStop _ q)

theorem ctlDone (s : State) (q seq : Nat) : Settles s (s.ctlDone q seq) :=
  (Settles.trans (updQueue s q (by exact fun x => .updFl x seq fun _ => rfl)) (completeInst (s.finish q seq) q seq)).trans (settle _ q)

end Settles

/-- A gate whose time has come holds its queue no longer. -/
theorem gateExpiry_opens {s : State} {q v : Nat} (hl : s.dispatching = true) (hh : (s.queue q).hold = .gate v) (hv : v ≤ s.nowAt (s.dieOf q))
    (hst : (s.queue q).st ≠ .preempted) : ((s.gateExpiry q).queue q).hold = .none := by
  have hsch : ∃ n, s.scheduled = { s with core.unsync := n } := by
    unfold State.scheduled
    split <;> exact ⟨_, rfl⟩
  obtain ⟨n, hn⟩ := hsch
  unfold State.gateExpiry
  rw [whenDispatching_pos _ hl]
  simp only [hh, ge_iff_le, hv, decide_true, Bool.true_and, hst, ne_eq, not_false_eq_true, if_true]
  split
  · refine (Settles.ctlDone _ q _ q).hold ?_
    rw [State.queue_setQueue_same]
  · rw [State.queue_setQueue_same]

theorem gateHolds : Says.GateHolds := by
  intro s q ft h
  refine ⟨?_, fun v hd hh => ⟨fun hv hst => answers_core (gateExpiry_opens hd hh hv hst), fun hv => ?_⟩⟩
  · intro raw v hl hs
    obtain ⟨t, ht⟩ : ∃ t, s.dispatchAs q raw = t := ⟨_, rfl⟩
    obtain ⟨hgo, hwait⟩ := hl.gate (iOp_ctlWord _ _ (by decide)) hs
    rw [ht] at hgo hwait
    exact ⟨fun hv => answers_dispatching_at hl.1 ht (hgo hv), fun hv => answers_dispatching_at hl.1 ht (hwait hv)⟩
  · have hn : s.gateExpiry q = s := by
      unfold State.gateExpiry
      rw [whenDispatching_pos _ hd]
      simp only [hh]
      rw [if_neg]
      simp only [Bool.and_eq_true, decide_eq_true_eq]
      omega
    show liftCore (fun s => s.gateExpiry q) s = .next s
    rw [liftCore_goes, hn]

/-! END -/

/-- The END of a program completes with a record. -/
theorem completeInst_end {s : State} {q : Nat} {i : InFlight} (hfl : (s.queue q).fl = [i]) (ho : i.outs = []) (hd : i.deadline = 0) (hop : i.op = 0x0F) :
    ∃ ctrs cur h, (s.completeInst q i.seq).queue q = { s.queue q with
      ctrs := ctrs, cur := cur, held := h, fl := [], crTail := ((s.queue q).crTail + 1) % (s.queue q).cmod, reserved := (s.queue q).reserved - 1 } := by
  have hin : (s.queue q).inst i.seq = some i := by simp [Queue.inst, hfl]
  have hlate : ∀ n, i.lateOut n = i := by simp [InFlight.lateOut, hd]
  obtain ⟨w, hw⟩ : ∃ w, (s.freeScratch q i.seq).signal i.sig (s.queue q).ctx q false = w := ⟨_, rfl⟩
  have hsig : Signalled (s.freeScratch q i.seq) w := hw ▸ State.signal_signalled _ _ _ _ _
  obtain ⟨ctrs, cur, hq, -⟩ := hsig.queue q
  rw [State.queue_freeScratch] at hq
  have hret : ∃ h, (w.retire q i 0 0).queue q = { w.queue q with
      fl := [], held := h, crTail := ((w.queue q).crTail + 1) % (w.queue q).cmod, reserved := (w.queue q).reserved - 1 } := by
    have hfl' : (w.queue q).fl.filter (fun j => j.seq ≠ i.seq) = [] := by rw [hq]; simp only [hfl]; simp
    have hr : w.retire q i 0 0 = (w.setQueue q { w.queue q with fl := [] }).emitRecord q i.tag (statusByte (w.queue q).lateErr 0) i.op i.gen 0 i.unit
        (some i.tag) := by
      unfold State.retire
      simp only [hop, decide_true, Bool.or_true, if_true, hfl']
    obtain ⟨h, he⟩ := emitRecord_queue (w.setQueue q { w.queue q with fl := [] }) q i.tag (statusByte (w.queue q).lateErr 0) i.op i.gen 0 i.unit (some i.tag)
    rw [State.queue_setQueue_same] at he
    exact ⟨h, by rw [hr, he]; rfl⟩
  obtain ⟨h, hret⟩ := hret
  have hcomp : s.completeInst q i.seq = ((w.retire q i 0 0).sampleDone q i (statusByte (w.queue q).lateErr 0) (w.queue q).ctx).updQueue q id := by
    have hctx : (w.queue q).ctx = (s.queue q).ctx := by rw [hq]; rfl
    have hle : (w.queue q).lateErr = (s.queue q).lateErr := by rw [hq]; rfl
    unfold State.completeInst
    simp only [hin, hlate, ho, countLate_none (s := s.freeScratch q i.seq) (i := i) (by simp [ho, mhas]), State.queue_freeScratch, statusOf_nil,
      isError_zero, hctx, hle]
    simp [hw]
    rfl
  refine ⟨ctrs, cur, h, ?_⟩
  have hsd := State.queue_congr (s := w.retire q i 0 0) (t := (w.retire q i 0 0).sampleDone q i (statusByte (w.queue q).lateErr 0) (w.queue q).ctx)
    (by rw [sampleDone_qm]) q
  rw [hcomp, State.queue_updQueue_same, hsd, hret, hq]
  rfl

/-- END moves the head to the fetch pointer and begins the next program. -/
theorem Launches.ends {s : State} {q raw : Nat} (hl : Launches s q raw) (hop : iOp raw = 0x0F) :
    ((s.dispatchAs q raw).queue q).fetch = ((s.queue q).fetch + 1) % (s.queue q).rmod
      ∧ ((s.dispatchAs q raw).queue q).head = ((s.queue q).fetch + 1) % (s.queue q).rmod
      ∧ ((s.dispatchAs q raw).queue q).prog = (s.queue q).prog + 1
      ∧ ((s.dispatchAs q raw).queue q).crTail = ((s.queue q).crTail + 1) % (s.queue q).cmod ∧ ((s.dispatchAs q raw).queue q).fl = [] := by
  obtain ⟨u, i, hu, hd⟩ := hl.runs (by rw [hop]; rfl) (by rw [hop]; decide)
  obtain ⟨-, hmay, -⟩ := id hl
  obtain ⟨hdes, habo, -⟩ := ready_queue (ready_of_mayDispatch hmay)
  obtain ⟨w, hw⟩ : ∃ w, u.updInst q (s.queue q).nextSeq (fun i => { i with ctl := true }) = w := ⟨_, rfl⟩
  have hwq : w.queue q = { u.queue q with fl := [{ i with ctl := true }] } := by
    rw [← hw]
    simp [State.updInst, Queue.updFl, hu.queue, hu.fresh.seq]
  have hfl : (w.queue q).fl = [{ i with ctl := true }] := by rw [hwq]
  obtain ⟨ctrs, cur, h, hc⟩ := completeInst_end hfl hu.fresh.outs hu.fresh.deadline (hu.fresh.op.trans hop)
  have hone : (w.settleCtl q 1).queue q = (w.completeInst q i.seq).queue q := by
    rw [settleCtl_one hfl rfl, State.queue_updQueue_same]
    have : ∀ x : Queue, x.released i.op = x := by intro x; rw [hu.fresh.op, hop]; rfl
    exact this _
  rw [show ({ i with ctl := true } : InFlight).seq = i.seq from rfl] at hc
  rw [← hone] at hc
  obtain ⟨st, rf, jf, hrest⟩ := ((w.settleCtl q 1).queue q).rest_eq (w.settleCtl q 1).now
  have hset : w.settle q = (w.settleCtl q 1).updQueue q (fun x => x.rest (w.settleCtl q 1).now) := by
    unfold State.settle
    rw [hfl]
    refine settleStop_none ?_ ?_ <;> simp only [List.length_singleton, State.queue_updQueue_same] <;> rw [hrest, hc, hwq, hu.queue] <;> assumption
  have hfin : (s.dispatchAs q raw).queue q = ((w.settleCtl q 1).queue q).rest (w.settleCtl q 1).now := by
    simp only [State.runControl, hop, hw] at hd
    rw [hd, hset, State.queue_updQueue_same]
  rw [hfin, hrest, hc, hwq, hu.queue]
  simp only [hop, if_true]
  exact ⟨trivial, trivial, trivial, rfl, trivial⟩

theorem endBeginsProgram : Says.EndBeginsProgram := by
  intro s q h hl
  obtain ⟨t, ht⟩ : ∃ t, s.dispatchAs q (ctlWord 0x0F h 0) = t := ⟨_, rfl⟩
  have := hl.ends (iOp_ctlWord _ _ (by decide))
  rw [ht] at this
  exact answers_dispatching_at hl.1 ht this

/-- Settles O37: a GATE follows the copy of FT of its queue's quarter, and an END closes its program with a record. -/
theorem gateAndEnd : Obligations.GateAndEnd := ⟨gateHolds, endBeginsProgram⟩

end Sys2Proof.Machine
end

section
/-! PROOF. What an instruction that leaves the head of its slot changes, and DEP, LBAR and the checks at the head. -/
namespace Sys2Proof.Machine
open State

/-! Instructions in flight, by their sequence numbers -/

/-- A change of instructions that keeps their numbers. -/
theorem Queue.inst_map {x : Queue} {f : InFlight → InFlight} (hf : ∀ i, (f i).seq = i.seq) (n : Nat) :
    ({ x with fl := x.fl.map f } : Queue).inst n = (x.inst n).map f := by
  simp only [Queue.inst, List.find?_map]
  congr 2
  funext i
  simp [hf]

theorem Queue.inst_updFl_same (x : Queue) (n : Nat) {f : InFlight → InFlight} (hf : ∀ i, (f i).seq = i.seq) : (x.updFl n f).inst n = (x.inst n).map f := by
  rw [Queue.updFl, Queue.inst_map]
  · cases h : x.inst n with
    | none => rfl
    | some i =>
      have hn : i.seq = n := by simpa [Queue.inst] using List.find?_some h
      simp [hn]
  · intro i
    split
    · exact hf i
    · rfl

/-- g changes of an instruction only what its issue stamps. -/
def Stamps (g : InFlight → InFlight) : Prop := ∀ i, ∃ a b, g i = { i with ift := a, frz0 := b }

theorem Stamps.id : Stamps (fun i => i) := fun i => ⟨i.ift, i.frz0, rfl⟩

theorem Stamps.seq {g : InFlight → InFlight} (h : Stamps g) (i : InFlight) : (g i).seq = i.seq := by
  obtain ⟨_, _, h⟩ := h i
  rw [h]

theorem Stamps.outs {g : InFlight → InFlight} (h : Stamps g) (i : InFlight) : (g i).outs = i.outs := by
  obtain ⟨_, _, h⟩ := h i
  rw [h]

/-- One changed queue that keeps everything but the stamps of what it has in flight. -/
theorem stamped_updInst (s : State) (q n p : Nat) {f : InFlight → InFlight} (hf : Stamps f) :
    ∃ g, Stamps g ∧ (s.updInst q n f).queue p = { s.queue p with fl := (s.queue p).fl.map g } := by
  by_cases hp : p = q
  · subst hp
    refine ⟨fun i => if i.seq = n then f i else i, fun i => ?_, s.queue_updQueue_same p _⟩
    dsimp only
    split
    · exact hf i
    · exact Stamps.id i
  · refine ⟨_, Stamps.id, ?_⟩
    rw [State.updInst, State.queue_updQueue_ne _ _ hp, List.map_id']

/-! The head leaves its slot -/

theorem State.stampHead_rest (s : State) (r : SlotRef) : ∃ queues, s.stampHead r = { s with core.qm.queues := queues } := by
  unfold State.stampHead
  split <;> exact ⟨_, rfl⟩

theorem State.popHead_rest (s : State) (r : SlotRef) : ∃ queues live, s.popHead r = { s with
    core.qm.eiq := mput s.core.qm.eiq (slotKey r) (mgetD s.core.qm.eiq (slotKey r) []).tail, core.qm.queues := queues, core.ldg.live := live } := by
  unfold State.popHead
  obtain ⟨q, h⟩ := State.stampHead_rest
    ({ s with core.qm.eiq := mput s.core.qm.eiq (slotKey r) (mgetD s.core.qm.eiq (slotKey r) []).tail }.give 8 (eiqPart r) 1) r
  rw [h]
  exact ⟨_, _, rfl⟩

theorem State.popHead_queue (s : State) (r : SlotRef) (p : Nat) :
    ∃ g, Stamps g ∧ (s.popHead r).queue p = { s.queue p with fl := (s.queue p).fl.map g } := by
  unfold State.popHead State.stampHead
  split
  · exact ⟨_, Stamps.id, by rw [List.map_id']; rfl⟩
  · exact stamped_updInst _ _ _ p fun i => ⟨_, _, rfl⟩

theorem State.popHead_left (s : State) (r : SlotRef) : Left s (s.popHead r) r := by
  obtain ⟨_, _, h⟩ := s.popHead_rest r
  rw [h]
  simp [Left]

@[simp] theorem State.updInst_eiq (s : State) (q n : Nat) (f : InFlight → InFlight) : (s.updInst q n f).core.qm.eiq = s.core.qm.eiq := rfl

/-- An instruction that has been finished is done. -/
theorem done_finish (s : State) (e : Entry) : Done (s.finish e.q e.seq) e := by
  intro i hi
  rw [State.finish, State.updInst, State.queue_updQueue_same, Queue.inst_updFl_same] at hi
  · obtain ⟨j, -, rfl⟩ := Option.map_eq_some_iff.1 hi
    rfl
  · exact fun _ => rfl

/-- How an instruction stands once it has been finished with an outcome. -/
theorem inst_finishWith (s : State) (q n c d : Nat) :
    ((s.finishWith q n c d).queue q).inst n = ((s.queue q).inst n).map (fun i => { i.out c d false with done := true, fid := none }) := by
  rw [State.finishWith, State.finish, State.note, State.updInst, State.updInst, State.queue_updQueue_same, State.queue_updQueue_same,
    Queue.inst_updFl_same, Queue.inst_updFl_same, Option.map_map]
  · rfl
  · exact fun _ => rfl
  · exact fun _ => rfl

theorem InFlight.out_has (i : InFlight) (c d : Nat) (b : Bool) : mhas (i.out c d b).outs c = true := by
  simp [InFlight.out, mhas]

/-- A head entry turned away with an outcome. -/
theorem ended_popHead (s : State) (r : SlotRef) (e : Entry) (c d : Nat) : Ended s ((s.popHead r).finishWith e.q e.seq c d) r e c := by
  refine ⟨s.popHead_left r, fun i hi => ?_⟩
  rw [inst_finishWith] at hi
  obtain ⟨j, -, rfl⟩ := Option.map_eq_some_iff.1 hi
  exact ⟨rfl, j.out_has c d false⟩

/-- The detail of an outcome that the instruction did not have yet. -/
theorem outcome_popHead (s : State) (r : SlotRef) (e : Entry) (c d : Nat) {i : InFlight} (hi : (s.queue e.q).inst e.seq = some i)
    (ho : mget i.outs c = none) : ∃ j, (((s.popHead r).finishWith e.q e.seq c d).queue e.q).inst e.seq = some j ∧ mget j.outs c = some d := by
  obtain ⟨g, hg, hq⟩ := s.popHead_queue r e.q
  refine ⟨_, by rw [inst_finishWith, hq, Queue.inst_map hg.seq, hi]; rfl, ?_⟩
  simp [InFlight.out, hg.outs, mhas, ho]

/-- A command whose row checks the head of a slot turns away what fails a check. -/
theorem rejects_of_atHead {s : State} {c : Instr} {r : SlotRef} {op : Nat} {bad : Entry → List Bad} (f : Entry → State → State)
    (h : exec c s = .next { s with core := (s.atHead r op bad f).core }) : Rejects s c r op bad := by
  intro e b hb
  rw [atHead_bad f hb] at h
  refine ⟨_, h, ended_popHead s r e _ _, ?_, ?_, ?_, ?_, fun i hi ho => outcome_popHead s r e _ _ hi ho⟩
  all_goals
    obtain ⟨_, _, hp⟩ := s.popHead_rest r
    rw [hp]
    rfl

/-- The same of a row that runs while dispatch does. -/
theorem rejects_of_dispatching {s : State} {c : Instr} {r : SlotRef} {op : Nat} {bad : Entry → List Bad} {g : State → State}
    {f : Entry → State → State} (hd : s.dispatching = true) (h : exec c s = liftCore (whenDispatching g) s) (hg : g s = s.atHead r op bad f) :
    Rejects s c r op bad := by
  refine rejects_of_atHead f (h.trans ?_)
  rw [liftCore_goes, whenDispatching_pos _ hd, hg]

theorem State.mvxClean_idle {s : State} {n : Nat} (h : (s.mvu n).run = none) : s.mvxClean n = s := by
  simp [State.mvxClean, h]

/-- A matrix-vector instruction that fails a check while its unit is idle. -/
theorem mvx_rejects {s : State} {r : SlotRef} (hd : s.dispatching = true) (hrun : (s.mvu r.unit).run = none) (hres : (s.mvu r.unit).result = none)
    (hstop : (s.mvu r.unit).stopped = false) (hw : s.mvxWaits r = false) : Rejects s (.mvx r 0 []) r 0x18 (s.mvxBad r) := by
  intro e b hb
  refine rejects_of_atHead (fun e s => (s.popHead r).setMvu r.unit { (s.popHead r).mvu r.unit with run := some { e := e } }) ?_ e b hb
  have hm : (((s.popHead r).finishWith e.q e.seq 0xC (badDetail b)).mvu r.unit).run = none := by
    obtain ⟨_, _, hp⟩ := s.popHead_rest r
    rw [hp]
    exact hrun
  show liftCore _ s = _
  rw [liftCore_goes, whenDispatching_pos _ hd]
  simp only [State.mvxClean_idle hrun, hrun, hres, hstop, hw, Option.isSome_none, Bool.or_self, Bool.false_eq_true, if_false, List.isEmpty_nil, if_true,
    atHead_bad _ hb, hm]

/-- Settles O24: each row pops its head with the outcome of the first check that fails. -/
theorem failedChecksEnd : Obligations.FailedChecksEnd := by
  intro s r hd
  refine ⟨fun hrun => ?_, mvx_rejects hd, fun hs k => ?_, fun hi hh => ?_, fun hh => ?_, rejects_of_dispatching hd rfl rfl⟩
  · exact ⟨rejects_of_dispatching hd rfl (if_neg (by simp [hrun])), rejects_of_dispatching hd rfl (if_neg (by simp [hrun]))⟩
  · exact ⟨rejects_of_dispatching hd rfl (if_neg (by simp [hs])), rejects_of_dispatching hd rfl (if_neg (by simp [hs])),
      rejects_of_dispatching hd rfl (if_neg (by simp [hs]))⟩
  · have hb : ¬(s.seIssuing r || s.headHeld r) = true := by simp [hi, hh]
    have hn : ¬s.seIssuing r = true := by simp [hi]
    exact ⟨rejects_of_dispatching hd rfl (if_neg hb), rejects_of_dispatching hd rfl (if_neg hn), rejects_of_dispatching hd rfl (if_neg hb),
      rejects_of_dispatching hd rfl (if_neg hn), rejects_of_dispatching hd rfl (if_neg hb), rejects_of_dispatching hd rfl (if_neg hb)⟩
  · exact rejects_of_dispatching hd rfl (if_neg (by simp [hh]))

/-! DEP and LBAR -/

theorem State.markerWait_holds {s : State} {e : Entry} (h : refMode (iWait e.raw) = 0 ∨ (e.q, e.seq) ∈ s.core.qm.marks) :
    s.markerWait e = (s, some true) := by
  unfold State.markerWait
  by_cases h0 : refMode (iWait e.raw) = 0
  · simp only [h0, if_true]
  · have hm : s.core.qm.marks.contains (e.q, e.seq) = true := by simpa using h.resolve_left h0
    simp only [h0, if_false, hm, if_true]

/-- A marker that passes: it leaves its share, done, and nothing else changes but its mark. -/
theorem State.markerDone_rest (s : State) (r : SlotRef) (e : Entry) : Left s (s.markerDone r e) r ∧ Done (s.markerDone r e) e
    ∧ ((s.markerDone r e).queue e.q).dep = (s.queue e.q).dep ∧ (s.markerDone r e).core.mem = s.core.mem
    ∧ (s.markerDone r e).core.qm.flags = s.core.qm.flags := by
  obtain ⟨_, _, hp⟩ := s.popHead_rest r
  obtain ⟨_, -, hq⟩ := s.popHead_queue r e.q
  refine ⟨s.popHead_left r, done_finish _ e, ?_, ?_, ?_⟩
  · rw [State.markerDone, State.finish, State.updInst, State.queue_updQueue_same]
    have hd : ((s.popHead r).queue e.q).dep = (s.queue e.q).dep := by rw [hq]
    exact hd
  · exact congrArg (·.core.mem) hp
  · exact congrArg (·.core.qm.flags) hp

/-- Settles O8: a marker whose wait is satisfied passes, and DEP counts on top. -/
theorem markersPass : Obligations.MarkersPass := by
  intro s r e hd hw
  obtain ⟨hleft, hdone, hdep, hmem, hfl⟩ := s.markerDone_rest r e
  refine ⟨fun hh hi => ?_, fun hh hb => ?_⟩
  · refine answers_dispatching hd ?_
    rw [atHead_ok _ hh, if_neg (by simp [hi]), State.markerWait_holds hw]
    have hq := (s.markerDone r e).queue_updQueue_same e.q (fun x => { x with dep := (x.dep + 1) % 65536 })
    exact ⟨(congrArg Queue.dep hq).trans (congrArg (fun n => (n + 1) % 65536) hdep), hleft,
      fun i hx => hdone i (Eq.trans (congrArg (Queue.inst · e.seq) hq).symm hx), hmem, hfl⟩
  · refine answers_dispatching hd ?_
    rw [atHead_ok _ hh, if_neg (by simp [hb]), State.markerWait_holds hw]
    exact ⟨hdep, hleft, hdone, hmem, hfl⟩

end Sys2Proof.Machine
end

section
/-! PROOF. Binding, flag updates, and waits and completions. -/
namespace Sys2Proof.Machine
open State

/-! Binding -/

/-- A write of HBM: its bytes and the marks of the lines that it covers, beside counters and the write queue. -/
theorem State.hbmWrite_rest (s : State) (a : Nat) (bs : List Byte) (c : Nat) : ∃ cnt live wq, s.hbmWrite a bs c = { s with
    core.regs.cnt := cnt, core.ldg.live := live, core.mem.wq := wq, core.mem.hbm := memWrites s.core.mem.hbm a bs
    core.mem.badLines := s.core.mem.badLines.filter (fun l => !(decide (a ≤ l * 64) && decide (l * 64 + 64 ≤ a + bs.length))) } := by
  have hq (k m c : Nat) : ∃ live wq, s.wqPut k m c = { s with core.ldg.live := live, core.mem.wq := wq } := ⟨_, _, rfl⟩
  unfold State.hbmWrite
  dsimp only
  obtain ⟨_, _, h⟩ := hq (a / 2 ^ 37) (ceilDiv (a % 64 + bs.length) 64) c
  rw [h]
  exact ⟨_, _, _, rfl⟩

theorem State.tableWrite_rest (s : State) (q : Nat) : ∃ cnt live mem, s.tableWrite q = { s with
    core.regs.cnt := cnt, core.ldg.live := live, core.mem := mem } := by
  unfold State.tableWrite
  dsimp only
  split
  · obtain ⟨_, _, _, h⟩ := s.hbmWrite_rest (s.reg fldCqtBase + 64 * q) (leBytes 64 (s.queue q).desc) wqData
    rw [h]
    exact ⟨_, _, _, rfl⟩
  · exact ⟨_, _, _, rfl⟩

@[simp] theorem State.queue_tableWrite (s : State) (q p : Nat) : (s.tableWrite q).queue p = s.queue p := by
  obtain ⟨_, _, _, h⟩ := s.tableWrite_rest q
  rw [h]
  rfl

/-- A queue after it has been bound. -/
def Queue.bound (x : Queue) (r : SlotRef) (home : Nat) : Queue :=
  { (x.see x.tail) with slot := some r, st := .bound, home := home, left := none, desc := withHome x.desc home }

theorem State.queue_bind_same (s : State) (q : Nat) (r : SlotRef) : (s.bind q r).queue q = (s.queue q).bound r (s.quarterOf r.cls r.unit) := by
  rw [State.bind, State.queue_tableWrite, State.queue_updQueue_same]
  rfl

theorem State.queue_bind_ne (s : State) {q p : Nat} (r : SlotRef) (h : p ≠ q) : (s.bind q r).queue p = s.queue p := by
  rw [State.bind, State.queue_tableWrite, State.queue_updQueue_ne _ _ h]
  rfl

theorem State.bind_rest (s : State) (q : Nat) (r : SlotRef) : (s.bind q r).core.saved = s.core.saved
    ∧ (s.bind q r).core.qm.slots = mput s.core.qm.slots (slotKey r) q := by
  unfold State.bind
  obtain ⟨_, _, _, h⟩ := State.tableWrite_rest (({ s with core.qm.slots := mput s.core.qm.slots (slotKey r) q }).updQueue q (fun x =>
    { (x.see x.tail) with slot := some r, st := .bound, home := s.quarterOf r.cls r.unit, left := none, desc := withHome x.desc (s.quarterOf r.cls r.unit) })) q
  rw [h]
  exact ⟨rfl, rfl⟩

theorem State.restore_none {s : State} {q : Nat} (r : SlotRef) (h : mget s.core.saved q = none) : s.restore q r = s := by simp [State.restore, h]

/-- Settles O9: a queue without a saved share is bound as it stands, and the idle time decides its unbinding. -/
theorem bindingHolds : Obligations.BindingHolds := by
  intro s q r hl
  refine ⟨fun hb hs => answers_live hl ?_, fun hst hslot => ⟨fun ht => answers_live hl ?_, fun ht => ?_⟩⟩
  · obtain ⟨hsv, hsl⟩ := s.bind_rest q r
    have hq := s.queue_bind_same q r
    rw [if_pos hb, State.restore_none r (by rw [hsv, hs])]
    have same (p : Nat) (hp : p ≠ q) := s.queue_bind_ne r hp
    exact ⟨congrArg Queue.slot hq, by simp [hsl], congrArg Queue.st hq, congrArg Queue.home hq, same⟩
  · have hf : s.freeSlot q = { s with core.qm.slots := mdel s.core.qm.slots (slotKey r) }.updQueue q (fun x => { x with slot := none }) := by
      simp [State.freeSlot, hslot]
    dsimp only
    rw [if_pos (by simp [hst, hslot, ht]), hf]
    have hq := State.queue_updQueue_same { s with core.qm.slots := mdel s.core.qm.slots (slotKey r) } q (fun x => { x with slot := none })
    exact ⟨hq, mget_mdel_same _ _, rfl⟩
  · show liftCore _ s = .next s
    rw [liftCore_goes, whenLive_pos _ hl]
    dsimp only
    rw [if_neg (by simp [ht])]

/-! Flag updates -/

theorem Flag.count_applyUpdates (w : Flag) (us : List FlagUpdate) : (applyUpdates w us).count = (w.count + (us.filter (·.set)).length) % 65536 := rfl

theorem applyUpdates_state_of_set {us : List FlagUpdate} (w : Flag) (h : ∃ u ∈ us, u.set = true) : (applyUpdates w us).state = true := by
  obtain ⟨u, hu, hs⟩ := h
  have : (us.filter (·.set)) ≠ [] := List.ne_nil_of_mem (List.mem_filter.2 ⟨hu, hs⟩)
  simp [applyUpdates, this]

theorem applyUpdates_state_cases (w : Flag) (us : List FlagUpdate) :
    (∃ u ∈ us, u.set = true) ∨ us = [] ∨ (applyUpdates w us).state = false := by
  by_cases hs : ∃ u ∈ us, u.set = true
  · exact .inl hs
  · by_cases hn : us = []
    · exact .inr (.inl hn)
    · have : us.filter (·.set) = [] := List.filter_eq_nil_iff.2 fun u hu hset => hs ⟨u, hu, hset⟩
      exact .inr (.inr (by simp [applyUpdates, this, hn]))

/-- A cycle with one set serves the one waiter in mode TAKE. -/
theorem flagCycle_take {s : State} {f : Nat} {w : Waiter} (hw : s.core.qm.waiters = [w]) (hf : w.flag = f) (hm : w.mode = 2) (hs : w.seq = none)
    (hu : mget s.core.qm.upd f = some [⟨true, none⟩]) : ((s.flagCycle f).flag f).state = false
      ∧ ((s.flagCycle f).flag f).count = ((s.flag f).count + 1) % 65536 ∧ (s.flagCycle f).core.qm.waiters = [] ∧ w.q ∈ (s.flagCycle f).core.qm.notes := by
  subst hf
  have hwf : ([w].filter fun v => v.flag = w.flag) = [w] := by simp
  have hup : mgetD s.core.qm.upd w.flag [] = [⟨true, none⟩] := by simp [mgetD, hu]
  have hflag : (applyUpdates (s.flag w.flag) [⟨true, none⟩]).state = true := rfl
  simp only [State.flagCycle, hw, hwf, hup, List.foldl_cons, List.foldl_nil, State.serveWaiter, hm, hs]
  rw [if_pos]
  · simp [State.serve, State.flag, State.updQueue, State.setQueue, applyUpdates, hs]
  · simp [waitHolds, State.flag, applyUpdates]

/-- A host write of both bits. -/
theorem State.flagWrite_both {s : State} {f : Nat} (ho : mhas s.core.qm.owner (f / 256) = true) (hf : f < 2 ^ 20) :
    s.flagWrite f (2 ^ 62 + 2 ^ 63) = { s with core.qm.upd := mupd s.core.qm.upd f [] (fun l => l ++ [FlagUpdate.mk true none, ⟨false, none⟩]) } := by
  have hn : ¬(!mhas s.core.qm.owner (f / 256) || decide (f ≥ 2 ^ 20)) = true := by simp [ho]; omega
  unfold State.flagWrite
  rw [if_neg hn, show (2 ^ 62 + 2 ^ 63 : Nat).testBit 62 = true by decide, show (2 ^ 62 + 2 ^ 63 : Nat).testBit 63 = true by decide]
  rfl

/-- Settles O10: a host write adds to the updates of its flag, and one cycle applies them. -/
theorem flagUpdates : Obligations.FlagUpdates := by
  intro s f hd hf
  have hl := State.live_of_dispatching hd
  refine ⟨fun ho => answers_dispatching hd ?_, fun ho v => ?_, fun hw us hus => answers_live hl ?_, fun w hw hwf hm hs hu => answers_live hl ?_⟩
  · rw [State.flagWrite_both ho hf]
    have h := mgetD_mupd_same s.core.qm.upd f [] (fun l => l ++ [FlagUpdate.mk true none, ⟨false, none⟩])
    exact ⟨h, rfl, rfl⟩
  · show liftCore _ s = .next s
    rw [liftCore_goes, whenDispatching_pos _ hd]
    simp [State.flagWrite, ho]
  · rw [flagCycle_alone hw, show mgetD s.core.qm.upd f [] = us by simp [mgetD, hus]]
    have same : (State.flag { s with core.qm.flags := mput s.core.qm.flags f (applyUpdates (s.flag f) us) } f) = applyUpdates (s.flag f) us :=
      State.flag_mput_same rfl
    exact ⟨(congrArg Flag.count same).trans (Flag.count_applyUpdates _ _), mget_mdel_same _ _,
      fun h => (congrArg Flag.state same).trans (applyUpdates_state_of_set _ h),
      (applyUpdates_state_cases (s.flag f) us).imp_right (Or.imp_right fun h => (congrArg Flag.state same).trans h),
      fun g hg => State.flag_mput_ne (s := s) rfl hg, rfl⟩
  · exact flagCycle_take hw hwf hm hs hu

/-! Notifications -/

theorem FabOnly.of_updPort (s : State) (i : Nat) (f : Port → Port) : FabOnly s (s.updPort i f) := rfl

theorem State.discardRx_fab (s : State) (i id : Nat) (b : Bool) : FabOnly s (s.discardRx i id b) := by
  unfold State.discardRx
  split
  · rfl
  · exact FabOnly.trans (FabOnly.of_updPort s i _) (State.freeRx_fab _ _ _ _ _)

theorem State.copyGone_fab (s : State) (src : Option (Nat × Nat)) (b : Bool) : FabOnly s (s.copyGone src b) := by
  unfold State.copyGone
  split
  · rfl
  · split
    · rfl
    · split
      · exact s.discardRx_fab _ _ _
      · rfl

theorem State.unhold_fab (s : State) (p : Packet) : FabOnly s (s.unhold p) := by
  have h0 (l : List Held) : FabOnly s { s with core.fab.held := l } := rfl
  unfold State.unhold
  split
  · rfl
  · dsimp only
    split
    · exact FabOnly.trans (h0 _) (State.copyGone_fab _ _ _)
    · exact FabOnly.trans (h0 _) (State.d2dFreed_fab _ _ _ _ _)
    · exact h0 _

/-- Taking a packet off the inbox is the fabric's business. -/
theorem State.takeOne_fab (s : State) (sel : Packet → Bool) : FabOnly s (s.takeOne sel) := by
  unfold State.takeOne
  split
  · have h0 (l : List Packet) : FabOnly s { s with core.fab.inbox := l } := rfl
    exact (h0 _).trans (State.unhold_fab _ _)
  · rfl

theorem notify_waiting {s : State} {q : Nat} (hl : s.live = true) (hq : q ∈ s.core.qm.notes) (hst : (s.queue q).st = .waiting) :
    Answers (exec (.notify q) s) (fun t => t.queue q = { s.queue q with st := .bound } ∧ t.core.qm.notes = s.core.qm.notes.erase q
      ∧ t.core.mem = s.core.mem) := by
  refine answers_live hl ?_
  have hc : s.core.qm.notes.contains q = true := by simpa using hq
  dsimp only
  obtain ⟨fab, ldg, ht⟩ : ∃ fab ldg, s.takeOne (fun p => p.type = 0x32 && (epDie p.dest = s.dieOf q || epDie p.dest = 4))
    = { s with core.fab := fab, core.ldg := ldg } := ⟨_, _, s.takeOne_fab _⟩
  rw [ht, if_pos hc]
  have hu := State.queue_updQueue_same { s with core.fab := fab, core.ldg := ldg, core.qm.notes := s.core.qm.notes.erase q } q
    (fun x => if x.st = QState.waiting then { x with st := QState.bound } else x)
  exact ⟨hu.trans (if_pos hst), rfl, rfl⟩

/-! Completions and wait timeouts -/

/-- A finished instruction completes: it is in flight no longer, and its queue fetches on from where it stood. -/
theorem complete_gone (s : State) (q seq : Nat) :
    ((s.complete q seq).queue q).inst seq = none ∧ ((s.complete q seq).queue q).fetch = (s.queue q).fetch :=
  ⟨(Settles.settle _ q q).fl _ (Settles.completeInst_inst s q seq), (Settles.settle _ q q).fetch.trans (Settles.completeInst s q seq q).fetch⟩

/-- The counter of expired waits, which no access and no record moves. -/
theorem not_quiet_expired : ¬ quietCnt (qmgBase + 0x128) := by unfold quietCnt qmgBase; omega

theorem waitExpired_queue (s : State) (c : Nat) (x : Expiry) (tag p : Nat) : (s.waitExpired c x tag).queue p = s.queue p := by
  unfold State.waitExpired
  dsimp only
  rw [State.queue_bump, State.queue_raise]
  exact State.queue_congr (by rw [(Recorded.errRecord s c _).qm]) p

theorem waitExpired_counter (s : State) (c : Nat) (x : Expiry) (tag : Nat) :
    (s.waitExpired c x tag).counter (qmgBase + 0x128) = (s.counter (qmgBase + 0x128) + 1) % 2 ^ 64 := by
  unfold State.waitExpired
  dsimp only
  rw [State.counter_bump_same, State.counter_raise _ _ _ (by decide), (Recorded.errRecord s c _).regs.cnt _ not_quiet_expired]

/-- The queue y is x as an instruction that ended at its wait leaves it: past it, with a record more. -/
structure Queue.Expired (x y : Queue) : Prop where
  st : y.st = if x.st = .waiting then .bound else x.st
  cur : y.cur = none
  fetch : y.fetch = (x.fetch + 1) % x.rmod
  fl : y.fl = x.fl
  desc : y.desc = x.desc
  destroying : y.destroying = x.destroying
  aborting : y.aborting = x.aborting

/-- The records of an expired wait. -/
theorem endTimeout_records (s : State) (q raw : Nat) (e : Expiry) (hcr : (s.queue q).crFree ≠ 0) : ∃ t : State, s.endTimeout q raw e
      = (t.updQueue q Queue.errorStop).settle q ∧ (s.queue q).Expired (t.queue q)
      ∧ t.counter (qmgBase + 0x128) = (s.counter (qmgBase + 0x128) + 1) % 2 ^ 64 := by
  obtain ⟨s1, h1⟩ : ∃ s1, s1 = (s.setQueue q { ((s.queue q).advance (decide (iOp raw = 0x0F))) with
    reserved := (s.queue q).reserved + 1, st := if (s.queue q).st = .waiting then .bound else (s.queue q).st }).take 7 q 1 := ⟨_, rfl⟩
  obtain ⟨s2, h2⟩ : ∃ s2, s2 = s1.signal (sigOf raw) (s.queue q).ctx q true := ⟨_, rfl⟩
  obtain ⟨s3, h3⟩ : ∃ s3, s3 = s2.emitRecord q (iTag raw) 0x84 (iOp raw) 0 e.detail 0xFFFF none := ⟨_, rfl⟩
  refine ⟨s3.waitExpired (s.queue q).ctx e (iTag raw), ?_, ?_, ?_⟩
  · rw [h3, h2, h1]
    unfold State.endTimeout
    dsimp only
    rw [if_neg hcr]
  · have hsig := State.signal_signalled s1 (sigOf raw) (s.queue q).ctx q true
    obtain ⟨ctrs, cur, hq, hcur⟩ := hsig.queue q
    obtain ⟨held, hr⟩ := emitRecord_queue s2 q (iTag raw) 0x84 (iOp raw) 0 e.detail 0xFFFF none
    rw [waitExpired_queue, h3, hr, h2, hq]
    have hc : cur = none := hcur (by rw [h1, State.queue_take, State.queue_setQueue_same]; rfl)
    rw [h1, State.queue_take, State.queue_setQueue_same]
    exact ⟨rfl, hc, rfl, rfl, rfl, rfl, rfl⟩
  · have hc : s2.counter (qmgBase + 0x128) = s.counter (qmgBase + 0x128) := by
      obtain ⟨_, hqm⟩ := (State.signal_signalled s1 (sigOf raw) (s.queue q).ctx q true).qm
      rw [h2, hqm, h1]
      rfl
    rw [waitExpired_counter, h3, (emitRecord_emitted s2 q _ _ _ _ _ _ _).regs.cnt _ not_quiet_expired]
    exact congrArg (fun n => (n + 1) % 2 ^ 64) hc

theorem curTimeout_stops {s : State} {w : Waiter} {c : Cur} (hcr : (s.queue w.q).crFree ≠ 0) (hfl : (s.queue w.q).fl = [])
    (hst : (s.queue w.q).st = .waiting) (hcont : (s.queue w.q).cont = false) (hd : (s.queue w.q).destroying = false)
    (ha : (s.queue w.q).aborting = false) : ((s.curTimeout w c).queue w.q).st = .error ∧ ((s.curTimeout w c).queue w.q).cur = none
      ∧ ((s.curTimeout w c).queue w.q).fetch = ((s.queue w.q).fetch + 1) % (s.queue w.q).rmod
      ∧ (s.curTimeout w c).counter (qmgBase + 0x128) = (s.counter (qmgBase + 0x128) + 1) % 2 ^ 64 := by
  obtain ⟨u, hu⟩ : ∃ u, u = (s.withdraw w.q).updQueue w.q (fun y => { y with cur := some { c with expired := some (s.expiryOf w) } }) := ⟨_, rfl⟩
  have hq : u.queue w.q = { s.queue w.q with cur := some { c with expired := some (s.expiryOf w) } } := by
    rw [hu, State.queue_updQueue_same]; rfl
  have hcnt : u.counter (qmgBase + 0x128) = s.counter (qmgBase + 0x128) := by rw [hu]; rfl
  obtain ⟨t, ht, hx, hn⟩ := endTimeout_records u w.q c.raw (s.expiryOf w) (by rw [hq]; exact hcr)
  rw [hq] at hx
  have hy : (t.queue w.q).errorStop = { t.queue w.q with st := .error } := by
    have hc : (t.queue w.q).cont = (s.queue w.q).cont := by
      unfold Queue.cont Queue.policy
      rw [hx.desc]
    simp [Queue.errorStop, hc, hcont, hx.st, hst, hx.destroying, hd]
  have he : (t.updQueue w.q Queue.errorStop).queue w.q = { t.queue w.q with st := .error } := by rw [State.queue_updQueue_same, hy]
  have hcur : s.curTimeout w c = (t.updQueue w.q Queue.errorStop).updQueue w.q (fun x => x.rest t.now) := by
    unfold State.curTimeout
    dsimp only
    rw [← hu, ht, settle_nothing (by rw [he]; exact hx.fl.trans hfl) (by rw [he]; exact hx.destroying.trans hd) (by rw [he]; exact hx.aborting.trans ha)]
    rfl
  have hrest : ({ t.queue w.q with st := .error } : Queue).rest t.now = { t.queue w.q with st := .error } := by
    simp [Queue.rest, Queue.unwait]
  rw [hcur, State.queue_updQueue_same, he, hrest]
  exact ⟨rfl, hx.cur, hx.fetch, hn.trans (by rw [hcnt])⟩

/-- Settles O11: the notification and the completion act on the queue alone; an expired wait ends its instruction with a record. -/
theorem waitsAndCompletions : Obligations.WaitsAndCompletions := by
  intro s q hd
  have hl := State.live_of_dispatching hd
  refine ⟨notify_waiting hl, fun seq i hi hdone => answers_live hl ?_, fun w c hw hc h0 ht hcr hfl hst hcont hdes hab => answers_dispatching hd ?_,
    fun w seq hw ht => ?_⟩
  · rw [hi]
    dsimp only
    rw [if_pos hdone]
    exact complete_gone s q seq
  · have hq : w.q = q := by
      have := List.find?_some hw
      simp only [Bool.and_eq_true, decide_eq_true_eq] at this
      exact this.1
    dsimp only
    rw [hw, hc]
    dsimp only
    rw [if_neg (by simp [h0]; omega)]
    subst hq
    exact curTimeout_stops hcr hfl hst hcont hdes hab
  · show liftCore _ s = .next s
    rw [liftCore_goes, whenDispatching_pos _ hd]
    dsimp only
    rw [hw]
    dsimp only
    rw [if_pos (by simp [ht])]

end Sys2Proof.Machine
end

section
/-! PROOF. The doorbells. -/
namespace Sys2Proof.Machine
open State

theorem answers_live_at {f : State → State} {s t : State} {p : State → Prop} (hl : s.live = true) (ht : f s = t)
    (h : p { s with core := t.core }) : Answers (liftCore (whenLive f) s) p := answers_live hl (by rwa [ht])

/-! A doorbell write reaches its page -/

theorem dbPage_ok {s : State} {q : Nat} (h : BellOk s q) (f : State → State) : s.dbPage q f = f (s.bump (hifBase + 0x100) 1) := by
  obtain ⟨-, hq, hst, hk, hd⟩ := h
  unfold State.dbPage
  rw [if_neg (by omega)]
  simp only [hst, hd, if_false, Bool.false_eq_true]
  exact if_neg hk

/-- A tail that a ring of this queue takes. -/
def Queue.takesTail (x : Queue) (v : Nat) : Prop :=
  v < x.rmod ∧ x.ahead x.head x.tail ≤ x.ahead x.head v ∧ x.ahead x.head v ≤ 2 ^ x.rsz

theorem newTail_taken {s : State} {q v : Nat} (h : (s.queue q).takesTail v) : s.newTail q v
    = { s.updQueue q (fun x => { x with tail := v }) with
        core.qm.doorbells := s.core.qm.doorbells ++ [{ q := q, home := (s.queue q).home, tail := some v }] } := by
  obtain ⟨hv, hlo, hhi⟩ := h
  unfold State.newTail
  dsimp only
  rw [if_neg (by omega), if_neg (by simp; omega)]
  rfl

theorem newTail_bad {s : State} {q v : Nat} (h : ¬ (s.queue q).takesTail v) : s.newTail q v = s.raise qmgInt 0 := by
  unfold State.newTail
  dsimp only
  split
  · rfl
  · rw [if_pos]
    simp only [Queue.takesTail, not_and_or, not_le, not_lt] at h
    simp only [Bool.or_eq_true, decide_eq_true_eq]
    omega

/-- A doorbell that only counts and sends. -/
theorem newCrHead_sends (s : State) (q v : Nat) : s.newCrHead q v = { s with
    core.qm.doorbells := s.core.qm.doorbells ++ [{ q := q, home := (s.queue q).home, crHead := some (v % 2 ^ 17 % (s.queue q).cmod) }] } := rfl

/-! A forwarded doorbell arrives -/

theorem Queue.rest_of_work {x : Queue} (n : Nat) (hw : x.hasWork = true) (hi : x.st ≠ .idle) : x.rest n = x := by
  have hu : x.unwait = x := by simp [Queue.unwait, hw]
  unfold Queue.rest
  rw [hu]
  dsimp only
  split
  · contradiction
  · simp [hw]
  · simp [hw]
  · rfl

theorem Queue.rest_idle {x : Queue} (n : Nat) (hi : x.st = .idle) (hw : x.hasWork = true) : (x.rest n).st = if x.slot.isSome then .bound else .ready := by
  have hu : x.unwait = x := by simp [Queue.unwait, hi]
  unfold Queue.rest
  rw [hu]
  simp only [hi, hw, if_true]
  split <;> rfl

theorem Queue.hasWork_of_avail {x : Queue} (h : x.avail = true) : x.hasWork = true := by
  simp only [Queue.avail, Bool.and_eq_true, decide_eq_true_eq] at h
  have hne : x.fetch ≠ x.seen := by
    intro he
    have : x.ahead x.fetch x.seen = 0 := by simp [Queue.ahead, he]
    omega
  simp [Queue.hasWork, hne]

/-- What a forwarded tail makes of its queue. -/
def Queue.told (x : Queue) (n now : Nat) : Queue :=
  let y := x.see n
  (if y.st = .waiting && y.cur.isNone && y.hold = .none && y.avail then { y with st := .bound } else y).rest now

theorem Queue.see_eq {x : Queue} {n : Nat} (h : x.ahead x.seen n ≤ x.ahead x.seen x.tail) :
    x.see n = { x with seen := n, beyond := x.beyond - x.ahead x.seen n } := by simp [Queue.see, h]

theorem Queue.told_eq {x : Queue} {n : Nat} (now : Nat) (h : x.ahead x.seen n ≤ x.ahead x.seen x.tail) : ∃ st rf jf,
    x.told n now = { x with seen := n, beyond := x.beyond - x.ahead x.seen n, st := st, readyFt := rf, idleFt := jf } := by
  unfold Queue.told
  rw [Queue.see_eq h]
  dsimp only
  split
  all_goals
    obtain ⟨_, _, _, hr⟩ := Queue.rest_eq _ now
    rw [hr]
    exact ⟨_, _, _, rfl⟩

theorem Queue.told_idle {x : Queue} {n : Nat} (now : Nat) (h : x.ahead x.seen n ≤ x.ahead x.seen x.tail) (hi : x.st = .idle) (hn : n ≠ x.fetch) :
    (x.told n now).st = if x.slot.isSome then .bound else .ready := by
  obtain ⟨y, hy⟩ : ∃ y, x.see n = y := ⟨_, rfl⟩
  have hs : y.st = .idle ∧ y.slot = x.slot ∧ y.hasWork = true := by
    rw [← hy, Queue.see_eq h]
    exact ⟨hi, rfl, by simp [Queue.hasWork, Ne.symm hn]⟩
  obtain ⟨hst, hslot, hw⟩ := hs
  simp only [Queue.told, hy]
  rw [if_neg (by simp [hst]), Queue.rest_idle now hst hw, hslot]

theorem Queue.told_waiting {x : Queue} {n : Nat} (now : Nat) (h : x.ahead x.seen n ≤ x.ahead x.seen x.tail) (hi : x.st = .waiting) (hc : x.cur = none)
    (hh : x.hold = .none) (ha : (x.see n).avail = true) : (x.told n now).st = .bound := by
  obtain ⟨y, hy⟩ : ∃ y, x.see n = y := ⟨_, rfl⟩
  have hs : y.st = .waiting ∧ y.cur = none ∧ y.hold = .none := by
    rw [← hy, Queue.see_eq h]
    exact ⟨hi, hc, hh⟩
  obtain ⟨hst, hcur, hhold⟩ := hs
  rw [hy] at ha
  simp only [Queue.told, hy]
  rw [if_pos (by simp [hst, hcur, hhold, ha]), Queue.rest_of_work _ (by exact Queue.hasWork_of_avail ha) (by simp)]

/-- A tail that comes to its queue's home. -/
theorem bellIn_tail {s : State} {d : Bell} {n : Nat} (hc : d.crHead = none) (ht : d.tail = some n) (hh : d.home = (s.queue d.q).home) :
    s.bellIn d = s.updQueue d.q (fun x => x.told n s.now) := by
  unfold State.bellIn
  simp only [hc, ht, hh, if_true]
  rfl

theorem bellIn_crHead {s : State} {d : Bell} {h : Nat} (hc : d.crHead = some h) (ht : d.tail = none) :
    s.bellIn d = (s.updQueue d.q (fun x => { x with crHead := h })).give 7 d.q ((h + (s.queue d.q).cmod - (s.queue d.q).crHead) % (s.queue d.q).cmod) := by
  unfold State.bellIn
  simp only [hc, ht]

theorem doorbellsMoveQueues : Says.DoorbellsMoveQueues := by
  intro s q v hb x b taken
  have hd := hb.1
  have hl := State.live_of_dispatching hd
  have cnt : (s.bump (hifBase + 0x100) 1).counter (hifBase + 0x100) = (s.counter (hifBase + 0x100) + 1) % 2 ^ 64 := State.counter_bump_same s _ _
  have same := State.queue_updQueue_same (s.bump (hifBase + 0x100) 1) q (fun x => { x with tail := v % 2 ^ 32 })
  have other (p : Nat) (hp : p ≠ q) := State.queue_updQueue_ne (s.bump (hifBase + 0x100) 1) (fun x => { x with tail := v % 2 ^ 32 }) hp
  refine ⟨fun hv hlo hhi => ?_, fun hbad => ?_, ?_, fun n hn => ?_, fun d hf hfirst => ?_⟩
  · have ht : ((s.bump (hifBase + 0x100) 1).queue q).takesTail (v % 2 ^ 32) := ⟨hv, hlo, hhi⟩
    refine ⟨answers_dispatching hd ?_, answers_dispatching hd ?_⟩
    · dsimp only
      rw [if_pos rfl, dbPage_ok hb, newTail_taken ht]
      exact ⟨⟨same, other, rfl, cnt⟩, rfl⟩
    · dsimp only
      rw [if_neg (by decide), if_pos rfl, dbPage_ok hb, newTail_taken ht, newCrHead_sends]
      refine ⟨⟨same, other, rfl, cnt⟩, ?_⟩
      have hq : (State.queue { (s.bump (hifBase + 0x100) 1).updQueue q (fun x => { x with tail := v % 2 ^ 32 }) with
          core.qm.doorbells := s.core.qm.doorbells ++ [b] } q) = { x with tail := v % 2 ^ 32 } := same
      exact (congrArg (fun z : Queue => s.core.qm.doorbells ++ [b] ++ [{ q := q, home := z.home, crHead := some (v / 2 ^ 32 % 2 ^ 17 % z.cmod) }]) hq).trans
        (List.append_assoc _ _ _)
  · refine answers_dispatching hd ?_
    have ht : ¬ ((s.bump (hifBase + 0x100) 1).queue q).takesTail (v % 2 ^ 32) := by
      rintro ⟨h1, h2, h3⟩
      rcases hbad with h | h | h
      · exact absurd h1 (Nat.not_lt.2 h)
      · exact absurd h3 (Nat.not_le.2 h)
      · exact absurd h2 (Nat.not_le.2 h)
    dsimp only
    rw [if_pos rfl, dbPage_ok hb, newTail_bad ht]
    refine ⟨State.queue_raise _ _ _ q, State.flagBit_raise _ _ _, ?_⟩
    exact congrArg Qmg.doorbells (State.raise_qm _ _ _)
  · refine answers_dispatching hd ?_
    dsimp only
    rw [if_pos rfl, dbPage_ok hb, newCrHead_sends]
    exact ⟨rfl, rfl, rfl⟩
  · have none (f : State → State) (h : whenDispatching f s = s) : liftCore (whenDispatching f) s = .next s := by rw [liftCore_goes, h]
    refine ⟨none _ ?_, fun h8 => ⟨none _ ?_, none _ ?_, none _ ?_⟩⟩ <;> rw [whenDispatching_pos _ hd]
    · exact if_neg hn
    · exact (if_neg hn).trans (if_neg h8)
    · simp [State.dbCtlWrite, hn, h8]
    · simp [State.dbCtlWrite, hn, h8]
  · have hq : d.q = q := by simpa using List.find?_some hf
    refine ⟨fun h hc ht => answers_live hl ?_, fun n hc ht hh hle => ?_⟩
    · rw [hf]
      dsimp only
      rw [if_pos hfirst, bellIn_crHead hc ht, hq]
      exact ⟨State.queue_updQueue_same { s with core.qm.doorbells := s.core.qm.doorbells.erase d } q (fun x => { x with crHead := h }), rfl, rfl⟩
    · have hu := State.queue_updQueue_same { s with core.qm.doorbells := s.core.qm.doorbells.erase d } q (fun x => x.told n s.now)
      refine answers_live_at hl (t := { s with core.qm.doorbells := s.core.qm.doorbells.erase d }.updQueue q (fun x => x.told n s.now)) ?_ ?_
      · rw [hf]
        dsimp only
        rw [if_pos hfirst, bellIn_tail hc ht (by rw [hq]; exact hh), hq]
      obtain ⟨st, rf, jf, he⟩ := Queue.told_eq s.now hle
      have hk := hu.trans he
      have hfetch := congrArg Queue.fetch hk
      have htail := congrArg Queue.tail hk
      exact ⟨congrArg Queue.seen hk, rfl, rfl, hfetch, htail,
        fun hi hn => (congrArg Queue.st hu).trans (Queue.told_idle _ hle hi hn),
        fun hi hcu hho ha => (congrArg Queue.st hu).trans (Queue.told_waiting _ hle hi hcu hho ha)⟩

/-! DB_CTL -/

theorem dbCtl_resume {s : State} {q v : Nat} (h1 : v.testBit 1 = false) (h0 : v.testBit 0 = true) (hst : (s.queue q).st = .halted ∨ (s.queue q).st = .error)
    (hf : s.fenceOf q ≠ 1) : s.dbCtl q v = s.updQueue q (fun x =>
      ({ x with st := if x.slot.isSome then x.onward else QState.ready, readyFt := s.now, errPend := false }).rest s.now) := by
  unfold State.dbCtl
  rw [if_neg (by simp [h1]), if_pos h0]
  dsimp only
  rw [if_pos (by simpa using hst)]
  split
  · rw [if_neg (by simp [hf])]
  · rfl

theorem Queue.onward_cases (x : Queue) : x.onward = .waiting ∨ x.onward = .bound := ite_eq_or_eq _ _ _

/-- A queue that resumes with work. -/
theorem Queue.resumed {x : Queue} (now : Nat) (hw : x.hasWork = true) :
    ({ x with st := if x.slot.isSome then x.onward else QState.ready, readyFt := now, errPend := false } : Queue).rest now
      = { x with st := if x.slot.isSome then x.onward else QState.ready, readyFt := now, errPend := false } := by
  refine Queue.rest_of_work now (by exact hw) ?_
  dsimp only
  split
  · rcases x.onward_cases with h | h <;> simp [h]
  · simp

theorem Queue.onward_bound {x : Queue} (hc : x.cur = none) (hb : x.beyond = 0) (hh : x.hold = .none) : x.onward = .bound := by
  simp [Queue.onward, hc, hb, hh]

/-- A queue that is asked to stop: what it has not fetched is passed over, and only a gate holds on. -/
def Queue.stopped (x : Queue) : Queue :=
  { x with head := x.tail, fetch := x.tail, seen := x.tail, beyond := 0, cur := none, aborting := true
           hold := match x.hold with | .gate v => .gate v | _ => .none }

theorem Queue.stopped_hold {x : Queue} (h : ∀ v, x.hold ≠ .gate v) : x.stopped.hold = .none := by
  cases hh : x.hold with
  | gate v => exact absurd hh (h v)
  | none => simp [Queue.stopped, hh]
  | fence => simp [Queue.stopped, hh]
  | halt => simp [Queue.stopped, hh]

/-- An abort of a queue that no format mismatch has fenced. -/
theorem abortQueue_unfenced {s : State} {q : Nat} (hf : s.fenceOf q ≠ 1) :
    s.abortQueue q = ((((s.withdraw q).unfetch q).updQueue q Queue.stopped).cancelAside q).settle q := by
  have hfen : (decide (s.fenceOf q = 1) && decide ((s.queue q).st = QState.error)) = false := by simp [hf]
  unfold State.abortQueue
  dsimp only
  rw [hfen]
  simp only [Bool.false_eq_true, if_false]
  split <;> rfl

/-- What an abort has done before it settles a queue with nothing set aside. -/
theorem abortQueue_plain {s : State} {q : Nat} (ha : (s.queue q).aside = none) (hs : (s.queue q).stalled = none) (hf : s.fenceOf q ≠ 1) :
    ∃ t, (∃ qm faults, t = { s with core.qm := qm, core.mmu.faults := faults })
      ∧ t.queue q = { (s.queue q).stopped with aside := none, stalled := none, stall := 0 } ∧ s.abortQueue q = t.settle q := by
  obtain ⟨u, hu⟩ : ∃ u, u = ((s.withdraw q).unfetch q).updQueue q Queue.stopped := ⟨_, rfl⟩
  have hq : u.queue q = (s.queue q).stopped := by
    rw [hu, State.queue_updQueue_same]
    rfl
  have hc : u.cancelAside q = u.updQueue q (fun x => { x with aside := none, stalled := none, stall := 0 }) := by
    have ha' : (u.queue q).aside = none := by rw [hq]; exact ha
    have hs' : (u.queue q).stalled = none := by rw [hq]; exact hs
    simp [State.cancelAside, State.endStall, ha', hs']
  refine ⟨u.updQueue q (fun x => { x with aside := none, stalled := none, stall := 0 }), ⟨_, _, by rw [hu]; rfl⟩, ?_, ?_⟩
  · rw [State.queue_updQueue_same, hq]
  · rw [abortQueue_unfenced hf, ← hu, hc]

theorem settle_empty {s : State} {q : Nat} (hfl : (s.queue q).fl = []) : s.settle q = (s.updQueue q (fun x => x.rest s.now)).settleStop q := by
  simp only [State.settle, hfl, List.length_nil, State.settleCtl]

theorem settleStop_aborting {s : State} {q : Nat} (hfl : (s.queue q).fl = []) (hh : (s.queue q).held = []) (hd : (s.queue q).destroying = false)
    (ha : (s.queue q).aborting = true) : s.settleStop q = s.updQueue q (fun x =>
      ({ x with aborting := false, st := if x.st = QState.preempted then QState.preempted else QState.idle, idleFt := s.now }).rest s.now) := by
  unfold State.settleStop
  dsimp only
  rw [if_neg (by simp [hfl, hh]), if_neg (by simp [hd]), if_pos ha]

theorem Queue.rest_ne_preempted {x : Queue} (n : Nat) (h : x.st ≠ .preempted) : (x.rest n).st ≠ .preempted := by
  have hu : x.unwait.st ≠ .preempted := by
    unfold Queue.unwait
    split
    · simp
    · exact h
  unfold Queue.rest
  dsimp only
  split
  · split
    · split <;> simp
    · exact hu
  · split
    · simp
    · exact hu
  · split
    · simp
    · exact hu
  · exact hu

/-- A queue with nothing in flight or held that settles under an abort: it is IDLE. -/
theorem settle_aborting {s : State} {q : Nat} (hfl : (s.queue q).fl = []) (hh : (s.queue q).held = []) (hd : (s.queue q).destroying = false)
    (ha : (s.queue q).aborting = true) (hst : (s.queue q).st ≠ .preempted) (hw : (s.queue q).hasWork = false) :
    ∃ rf jf, (s.settle q).queue q = { s.queue q with st := .idle, readyFt := rf, idleFt := jf, aborting := false }
      ∧ (s.settle q).core.mem = s.core.mem := by
  obtain ⟨st, rf, jf, hr⟩ := (s.queue q).rest_eq s.now
  have hnp : st ≠ .preempted := by
    have := (s.queue q).rest_ne_preempted s.now hst
    rwa [hr] at this
  have hq : (s.updQueue q (fun x => x.rest s.now)).queue q = { s.queue q with st := st, readyFt := rf, idleFt := jf } := by
    rw [State.queue_updQueue_same, hr]
  rw [settle_empty hfl, settleStop_aborting (by rw [hq]; exact hfl) (by rw [hq]; exact hh) (by rw [hq]; exact hd) (by rw [hq]; exact ha),
    State.queue_updQueue_same, hq]
  obtain ⟨y, hy⟩ : ∃ y : Queue, y = { s.queue q with st := .idle, readyFt := rf, idleFt := s.now, aborting := false } := ⟨_, rfl⟩
  have hyw : y.hasWork = false := by rw [hy]; exact hw
  have hyi : y.st = .idle := by rw [hy]
  have hrest : y.rest s.now = y := by simp [Queue.rest, Queue.unwait, hyi, hyw]
  refine ⟨rf, s.now, ?_, rfl⟩
  dsimp only
  rw [if_neg hnp]
  subst hy
  exact hrest

theorem dbCtlResumesAndAborts : Says.DbCtlResumesAndAborts := by
  intro s q w hb hf hsz x
  have hd := hb.1
  have page : s.dbCtlWrite q w = (s.bump (hifBase + 0x100) 1).dbCtl q w.val := by
    unfold State.dbCtlWrite
    rw [if_pos (by simpa using hsz), dbPage_ok hb]
  refine ⟨fun h1 h0 hst hw => ⟨answers_dispatching hd ?_, Queue.onward_bound⟩, fun h1 hfl hh ha hs hst hg => ?_⟩
  · rw [page, dbCtl_resume (s := s.bump (hifBase + 0x100) 1) h1 h0 hst hf]
    have hu := (State.queue_updQueue_same (s.bump (hifBase + 0x100) 1) q (fun x =>
      ({ x with st := if x.slot.isSome then x.onward else QState.ready, readyFt := s.now, errPend := false }).rest s.now)).trans (Queue.resumed s.now hw)
    have hfetch := congrArg Queue.fetch hu
    have htail := congrArg Queue.tail hu
    exact ⟨congrArg Queue.st hu, congrArg Queue.errPend hu, hfetch, htail, rfl⟩
  · obtain ⟨t, ⟨_, _, ht⟩, hq, hab⟩ := abortQueue_plain (s := s.bump (hifBase + 0x100) 1) (q := q) ha hs hf
    have hwork : (t.queue q).hasWork = false := by
      rw [hq]
      simp [Queue.hasWork, Queue.stopped]
    obtain ⟨rf, jf, hset, hmem⟩ := settle_aborting (s := t) (q := q) (by rw [hq]; exact hfl) (by rw [hq]; exact hh)
      (by rw [hq]; exact hb.2.2.2.2) (by rw [hq]; rfl) (by rw [hq]; exact hst) hwork
    rw [hq] at hset
    have hctl : s.dbCtlWrite q w = t.settle q := by
      rw [page, ← hab]
      unfold State.dbCtl
      rw [if_pos h1]
    refine answers_dispatching_at hd hctl ?_
    have htail := congrArg Queue.tail hset
    exact ⟨congrArg Queue.st hset, congrArg Queue.head hset, congrArg Queue.fetch hset, htail, congrArg Queue.cur hset,
      (congrArg Queue.hold hset).trans (Queue.stopped_hold hg), hmem.trans (by rw [ht]; rfl)⟩

/-- Settles O38: each doorbell changes its queue and sends, and DB_CTL acts once its page has taken it. -/
theorem doorbells : Obligations.Doorbells := ⟨doorbellsMoveQueues, dbCtlResumesAndAborts⟩

end Sys2Proof.Machine
end

section
/-! PROOF. Memory read back, and the QMG commands on queues and context resources. -/
namespace Sys2Proof.Machine
open State

/-! Memory -/

/-- Settles O15: the bytes of HBM are a canonical finite map, and whole lines lose their marks. -/
theorem memoryReadBack : Obligations.MemoryReadBack := by
  intro s a bs hw
  obtain ⟨_, _, _, h⟩ := s.hbmWrite_rest a bs wqData
  rw [h]
  refine ⟨fun i hi => memRead_memWrites_in bs _ a i hw hi, fun b hb => memRead_memWrites_out bs _ a b hb, memWf_memWrites bs _ a hw, fun l hl ho => ?_,
    fun l h1 h2 => ?_⟩
  · simp only [List.contains_eq_mem, decide_eq_true_eq, List.mem_filter, Bool.not_eq_true', Bool.and_eq_false_iff, decide_eq_false_iff_not] at hl ⊢
    exact ⟨hl, by omega⟩
  · simp only [List.contains_eq_mem, decide_eq_false_iff_not, List.mem_filter, not_and, Bool.not_eq_true', Bool.and_eq_false_iff]
    omega

theorem leNat_leBytes (n : Nat) : ∀ x, leNat (leBytes n x) = x % 256 ^ n := by
  induction n with
  | zero => intro x; simp [leBytes, leNat, Nat.mod_one]
  | succ n ih =>
    intro x
    rw [leBytes, leNat, ih, BitVec.toNat_ofNat, show 256 ^ (n + 1) = 256 * 256 ^ n from pow_succ' 256 n]
    exact Nat.mod_mul.symm

@[simp] theorem leBytes_length (n : Nat) : ∀ x, (leBytes n x).length = n := by
  induction n with
  | zero => intro x; rfl
  | succ n ih => intro x; simp [leBytes, ih]

theorem memReads_eq_of_forall {m : Mem} {bs : List Byte} : ∀ {a : Nat}, (∀ i (h : i < bs.length), memRead m (a + i) = bs[i]) → memReads m a bs.length = bs := by
  induction bs with
  | nil => intro a _; rfl
  | cons b bs ih =>
    intro a h
    have h0 : memRead m a = b := h 0 (Nat.succ_pos _)
    have ht : memReads m (a + 1) bs.length = bs := ih fun i hi => by
      have := h (i + 1) (Nat.succ_lt_succ hi)
      rwa [show a + (i + 1) = a + 1 + i by omega] at this
    exact congrArg₂ List.cons h0 ht

/-- A number written to memory is what is read there. -/
theorem memNat_memWrites {m : Mem} (a n x : Nat) (hw : memWf m = true) : memNat (memWrites m a (leBytes n x)) a n = x % 256 ^ n := by
  have h := memReads_eq_of_forall (m := memWrites m a (leBytes n x)) (bs := leBytes n x) (a := a)
    fun i hi => memRead_memWrites_in (leBytes n x) m a i hw hi
  rw [leBytes_length] at h
  rw [memNat, h, leNat_leBytes]

/-! Command blocks -/

/-- A block's command has ended. -/
theorem State.cmdDone_rest (s : State) (k code int bit : Nat) : ∃ regs irq, s.cmdDone k code int bit = { s with
    core.regs := regs, core.irq := irq, core.cmds := mupd s.core.cmds k {} (fun c => { c with busy := false, result := resultOf code }) } := by
  obtain ⟨_, _, h⟩ := State.raise_core
    { s with core.cmds := mupd s.core.cmds k {} (fun c => { c with busy := false, result := resultOf code }) } int bit
  exact ⟨_, _, h⟩

section
variable (s : State) (k code int bit : Nat)
@[simp] theorem State.cmdDone_qm : (s.cmdDone k code int bit).core.qm = s.core.qm := State.raise_qm _ _ _
@[simp] theorem State.cmdDone_mem : (s.cmdDone k code int bit).core.mem = s.core.mem := State.raise_mem _ _ _
@[simp] theorem State.cmdDone_mmu : (s.cmdDone k code int bit).core.mmu = s.core.mmu := State.raise_mmu _ _ _
end

theorem State.cmdDone_cmd (s : State) (k code int bit : Nat) :
    mgetD (s.cmdDone k code int bit).core.cmds k {} = { mgetD s.core.cmds k {} with busy := false, result := resultOf code } := by
  obtain ⟨_, _, h⟩ := s.cmdDone_rest k code int bit
  rw [h]
  exact mgetD_mupd_same s.core.cmds k {} (fun c => { c with busy := false, result := resultOf code })

theorem State.cmdDone_flagBit (s : State) (k code int bit : Nat) : (s.cmdDone k code int bit).flagBit int bit = true := State.flagBit_raise _ _ _

theorem State.cmdDone_reg (s : State) (k code : Nat) {int bit : Nat} {f : Fld} (h : f.key ≠ 8 * int + bit) :
    (s.cmdDone k code int bit).reg f = s.reg f := State.reg_raise _ h

/-- The state in which a block's command runs. -/
def State.begun (s : State) (k op : Nat) : State := { s with core.cmds := mput s.core.cmds k { op := op } }

section
variable (s : State) (k op : Nat)
@[simp] theorem State.begun_qm : (s.begun k op).core.qm = s.core.qm := rfl
@[simp] theorem State.begun_mmu : (s.begun k op).core.mmu = s.core.mmu := rfl
@[simp] theorem State.begun_mem : (s.begun k op).core.mem = s.core.mem := rfl
@[simp] theorem State.begun_reg (f : Fld) : (s.begun k op).reg f = s.reg f := rfl
@[simp] theorem State.begun_arg (b n : Nat) : (s.begun k op).arg b n = s.arg b n := rfl
@[simp] theorem State.begun_queue (q : Nat) : (s.begun k op).queue q = s.queue q := rfl
@[simp] theorem State.begun_ctx (c : Nat) : (s.begun k op).ctx c = s.ctx c := rfl
@[simp] theorem State.begun_ctxUsable (c : Nat) : (s.begun k op).ctxUsable c = s.ctxUsable c := rfl
@[simp] theorem State.begun_tagsOf (c : Nat) : (s.begun k op).tagsOf c = s.tagsOf c := rfl
end

theorem runCmd_idle {s : State} {k : Nat} (h : s.cmdBusy k = false) (op int bit : Nat) (f : State → State × Nat) :
    s.runCmd k op int bit f = (f (s.begun k op)).1.cmdDone k (f (s.begun k op)).2 int bit := by
  unfold State.runCmd
  rw [if_neg (by simp [h])]
  rfl

theorem runCmd_gives {s u : State} {k op int bit code : Nat} {f : State → State × Nat} (hb : s.cmdBusy k = false)
    (hf : f (s.begun k op) = (u, code)) : s.runCmd k op int bit f = u.cmdDone k code int bit := by rw [runCmd_idle hb, hf]

/-- What a command that kept the block's entry leaves there. -/
theorem cmdDone_begun {s u : State} {k op : Nat} (hu : u.core.cmds = (s.begun k op).core.cmds) (code int bit : Nat) :
    mgetD (u.cmdDone k code int bit).core.cmds k {} = { op := op, busy := false, result := resultOf code } := by
  rw [State.cmdDone_cmd, hu, State.begun]
  simp

/-! FLAG_ALLOC, FLAG_FREE, TAG_RANGE and ERR_RING -/

theorem mgetD_filter_none {α : Type} {m : Map α} {p : Nat × α → Bool} {k : Nat} (d : α) (h : ∀ a, p (k, a) = false) : mgetD (m.filter p) k d = d := by
  have hn : mget (m.filter p) k = none := by
    cases hg : mget (m.filter p) k with
    | none => rfl
    | some a =>
      have := (List.mem_filter.1 (mem_of_mget hg)).2
      rw [h a] at this
      exact absurd this (by simp)
  simp [mgetD, hn]

theorem firstFree_lt {n i : Nat} {used : List Nat} (h : firstFree n used = some i) : i < n := List.mem_range.1 (List.mem_of_find?_eq_some h)

/-- FLAG_ALLOC with a free block. -/
theorem flagAlloc_eq {s : State} {b : Nat} (hb : s.cmdBusy 0 = false) (hu : s.ctxUsable (bits (s.arg qmgBase 0) 0 12) = true)
    (hf : firstFree 4096 (s.core.qm.owner.map (·.1)) = some b) : s.flagAlloc =
      ({ s.begun 0 0x10 with
          core.qm.owner := mput s.core.qm.owner b (bits (s.arg qmgBase 0) 0 12)
          core.qm.flags := s.core.qm.flags.filter (fun e => e.1 / 256 ≠ b)
          core.qm.upd := s.core.qm.upd.filter (fun e => e.1 / 256 ≠ b) }.setReg (fldArg qmgBase 1) b).cmdDone 0 0 qmgInt 3 := by
  have hn : (!s.ctxUsable (bits (s.arg qmgBase 0) 0 12)) = false := by rw [hu]; rfl
  unfold State.flagAlloc State.qmgCmd
  refine runCmd_gives hb ?_
  refine (if_neg (Bool.eq_false_iff.1 hn)).trans ?_
  simp only [State.begun_qm, hf, State.begun_arg]

theorem flagFree_eq {s : State} (hb : s.cmdBusy 0 = false) (ho : mhas s.core.qm.owner (bits (s.arg qmgBase 0) 0 12) = true)
    (hw : ∀ w ∈ s.core.qm.waiters, w.flag / 256 ≠ bits (s.arg qmgBase 0) 0 12) : s.flagFree =
      { s.begun 0 0x11 with core.qm.owner := mdel s.core.qm.owner (bits (s.arg qmgBase 0) 0 12) }.cmdDone 0 0 qmgInt 3 := by
  have h : (!mhas s.core.qm.owner (bits (s.arg qmgBase 0) 0 12)
      || s.core.qm.waiters.any (fun w => w.flag / 256 = bits (s.arg qmgBase 0) 0 12)) = false := by
    simpa [ho] using hw
  unfold State.flagFree State.qmgCmd
  refine runCmd_gives hb ?_
  exact if_neg (Bool.eq_false_iff.1 h)

theorem tagRange_eq {s : State} (hb : s.cmdBusy 0 = false) {c f n : Nat} (hc : c = bits (s.arg qmgBase 0) 0 12) (hf : f = bits (s.arg qmgBase 0) 16 16)
    (hn : n = bits (s.arg qmgBase 1) 0 17) (hu : s.ctxUsable c = true) (h0 : n ≠ 0) (hle : f + n ≤ 65536)
    (ht : ∀ e ∈ s.core.mmu.ctxs, e.1 ≠ c → e.2.tagCount = 0) (hno : s.tagsOf c = []) : s.tagRange =
      (((s.begun 0 0x12).updCtx c (fun x => { x with tagFirst := f, tagCount := n, tagNext := f })).ctxWrite c).cmdDone 0 0 qmgInt 3 := by
  have hclash : s.core.mmu.ctxs.any (fun e => e.1 ≠ c && e.2.tagCount ≠ 0 && f < e.2.tagFirst + e.2.tagCount && e.2.tagFirst < f + n) = false := by
    rw [List.any_eq_false]
    intro e he
    by_cases hec : e.1 = c
    · simp [hec]
    · simp [ht e he hec]
  have h : (!s.ctxUsable c || decide (n = 0) || decide (n > 65536) || decide (f + n > 65536)
      || s.core.mmu.ctxs.any (fun e => e.1 ≠ c && e.2.tagCount ≠ 0 && f < e.2.tagFirst + e.2.tagCount && e.2.tagFirst < f + n)) = false := by
    rw [hclash]
    simp [hu, h0, show ¬ 65536 < n by omega, show ¬ 65536 < f + n by omega]
  have ht : (!(s.tagsOf c).isEmpty) = false := by rw [hno]; rfl
  subst hc hf hn
  unfold State.tagRange State.qmgCmd
  refine runCmd_gives hb ?_
  exact (if_neg (Bool.eq_false_iff.1 h)).trans (if_neg (Bool.eq_false_iff.1 ht))

theorem errRing_eq {s : State} (hb : s.cmdBusy 0 = false) {c n : Nat} (hc : c = bits (s.arg qmgBase 0) 0 12)
    (hn : n = bits (s.arg qmgBase 1) 0 5) (hu : s.ctxUsable c = true) (h7 : 7 ≤ n) (h16 : n ≤ 16) : s.errRing =
      (((s.begun 0 0x13).updCtx c (fun x => { x with
        errBase := bits (s.arg qmgBase 1) 12 44, errN := n, errSet := true, errPos := 0, errFull := false })).ctxWrite c).cmdDone 0 0 qmgInt 3 := by
  have h : (!s.ctxUsable c || decide (n < 7) || decide (n > 16)) = false := by simp [hu, h7, h16]
  subst hc hn
  unfold State.errRing State.qmgCmd
  refine runCmd_gives hb ?_
  exact if_neg (Bool.eq_false_iff.1 h)

/-- What every QMG command that ends with 0 leaves, where it changed no queue. -/
theorem cmdDone_ok {s u : State} {op : Nat} (hc : u.core.cmds = (s.begun 0 op).core.cmds) (hq : u.core.qm.queues = s.core.qm.queues) :
    (mgetD (u.cmdDone 0 0 qmgInt 3).core.cmds 0 {}).result = 0 ∧ (u.cmdDone 0 0 qmgInt 3).flagBit qmgInt 3 = true
      ∧ (u.cmdDone 0 0 qmgInt 3).core.qm.queues = s.core.qm.queues := by
  obtain ⟨_, _, h⟩ := u.cmdDone_rest 0 0 qmgInt 3
  refine ⟨by rw [cmdDone_begun hc]; rfl, u.cmdDone_flagBit 0 0 qmgInt 3, ?_⟩
  rw [h]
  exact hq

/-- A context's entry in the table follows a change of it. -/
theorem ctxWrite_table {s u : State} (hw : memWf s.core.mem.hbm = true) (hm : u.core.mem = s.core.mem) (hf : u.fuse = s.fuse)
    (hr : u.core.regs.csr = s.core.regs.csr) (c : Nat) :
    ((u.ctxWrite c).core.mmu = u.core.mmu ∧ (u.ctxWrite c).core.qm = u.core.qm ∧ (u.ctxWrite c).core.cmds = u.core.cmds)
    ∧ (s.dpaOk (s.reg fldCtxtBase + 128 * c) = true →
      memNat (u.ctxWrite c).core.mem.hbm (s.reg fldCtxtBase + 128 * c) 128 = (u.ctx c).word % 2 ^ 1024)
    ∧ ∀ b, (b < s.reg fldCtxtBase + 128 * c ∨ s.reg fldCtxtBase + 128 * c + 128 ≤ b) → memRead (u.ctxWrite c).core.mem.hbm b = memRead s.core.mem.hbm b := by
  have ha : u.reg fldCtxtBase + 128 * c = s.reg fldCtxtBase + 128 * c := by simp only [State.reg, hr]
  have hd (a : Nat) : u.dpaOk a = s.dpaOk a := by simp only [State.dpaOk, State.stackPresent, hf]
  unfold State.ctxWrite
  dsimp only
  rw [ha, hd]
  generalize hA : s.reg fldCtxtBase + 128 * c = A
  split
  · obtain ⟨_, _, _, h⟩ := u.hbmWrite_rest A (leBytes 128 (u.ctx c).word) wqData
    rw [h]
    refine ⟨⟨rfl, rfl, rfl⟩, fun _ => ?_, fun b hb => ?_⟩
    · rw [show (2 : Nat) ^ 1024 = 256 ^ 128 by rw [show 256 = 2 ^ 8 by rfl, ← pow_mul]]
      exact memNat_memWrites A 128 _ (by rw [hm]; exact hw)
    · exact (memRead_memWrites_out (leBytes 128 (u.ctx c).word) u.core.mem.hbm A b (by rw [leBytes_length]; exact hb)).trans (by rw [hm])
  · exact ⟨⟨rfl, rfl, rfl⟩, fun h => absurd h ‹_›, fun _ _ => by rw [hm]⟩

theorem State.ctx_updCtx_same (s : State) (c : Nat) (f : Ctx → Ctx) : (s.updCtx c f).ctx c = f (s.ctx c) := by
  simp [State.ctx, State.updCtx]

/-- Settles O12: each command ends at once, and a changed context is written to its table. -/
theorem contextResourceCommands : Obligations.ContextResourceCommands := by
  intro s hd hb hw c a ok kept table
  have changed (op : Nat) (f : Ctx → Ctx) {g : State → State} {p : State → Prop}
      (hg : g s = (((s.begun 0 op).updCtx c f).ctxWrite c).cmdDone 0 0 qmgInt 3)
      (hp : ∀ t, ok t → table t → t.ctx c = f (s.ctx c) → p t) : Answers (liftCore (whenDispatching g) s) p := by
    obtain ⟨u, hu⟩ : ∃ u, u = (s.begun 0 op).updCtx c f := ⟨_, rfl⟩
    obtain ⟨⟨hmmu, hqm, hcmds⟩, htab, hout⟩ := ctxWrite_table (s := s) (u := u) hw (by rw [hu]; rfl) (by rw [hu]; rfl) (by rw [hu]; rfl) c
    rw [← hu] at hg
    have hctx : ((u.ctxWrite c).cmdDone 0 0 qmgInt 3).ctx c = u.ctx c :=
      congrArg (fun m : Mmu => mgetD m.ctxs c {}) ((State.cmdDone_mmu _ _ _ _ _).trans hmmu)
    have hmem := State.cmdDone_mem (u.ctxWrite c) 0 0 qmgInt 3
    refine answers_dispatching_at hd hg (hp _ (cmdDone_ok (hcmds.trans (by rw [hu]; rfl)) (by rw [hqm, hu]; rfl)) ⟨fun h => ?_, fun b hb => ?_⟩ ?_)
    · exact (congrArg (fun m : Memory => memNat m.hbm a 128) hmem).trans ((htab h).trans (congrArg (fun x : Ctx => x.word % 2 ^ 1024) hctx.symm))
    · exact (congrArg (fun m : Memory => memRead m.hbm b) hmem).trans (hout b hb)
    · exact hctx.trans (by rw [hu, State.ctx_updCtx_same, State.begun_ctx])
  refine ⟨fun b hu hf => ?_, fun ho hwt => ?_, fun hu hn hle htags hno => ?_, fun hu h7 h16 => ?_⟩
  · obtain ⟨u, hu'⟩ : ∃ u, u = { s.begun 0 0x10 with
        core.qm.owner := mput s.core.qm.owner b (bits (s.arg qmgBase 0) 0 12)
        core.qm.flags := s.core.qm.flags.filter (fun e => e.1 / 256 ≠ b)
        core.qm.upd := s.core.qm.upd.filter (fun e => e.1 / 256 ≠ b) }.setReg (fldArg qmgBase 1) b := ⟨_, rfl⟩
    have ht : s.flagAlloc = u.cmdDone 0 0 qmgInt 3 := by rw [flagAlloc_eq hb hu hf, hu']
    have hq : (u.cmdDone 0 0 qmgInt 3).core.qm = { s.core.qm with
        owner := mput s.core.qm.owner b c, flags := s.core.qm.flags.filter (fun e => e.1 / 256 ≠ b)
        upd := s.core.qm.upd.filter (fun e => e.1 / 256 ≠ b) } := by rw [State.cmdDone_qm, hu']; rfl
    have hm : (u.cmdDone 0 0 qmgInt 3).core.mem = s.core.mem := by rw [State.cmdDone_mem, hu']; rfl
    have hreg : u.reg (fldArg qmgBase 1) = b := by
      rw [hu', State.reg_setReg_same]
      exact Nat.mod_eq_of_lt (lt_trans (firstFree_lt hf) (by decide))
    refine answers_dispatching_at hd ht ⟨cmdDone_ok (by rw [hu']; rfl) (by rw [hu']; rfl), hm, ?_,
      (u.cmdDone_reg 0 0 (f := fldArg qmgBase 1) (by decide)).trans hreg, fun f hfb => ?_⟩
    · exact (congrArg (fun m : Qmg => mget m.owner b) hq).trans (mget_mput_same _ _ _)
    · exact (congrArg (fun m : Qmg => mgetD m.flags f {}) hq).trans (mgetD_filter_none _ fun _ => by simp [hfb])
  · obtain ⟨u, hu'⟩ : ∃ u, u = { s.begun 0 0x11 with core.qm.owner := mdel s.core.qm.owner (bits (s.arg qmgBase 0) 0 12) } := ⟨_, rfl⟩
    have ht : s.flagFree = u.cmdDone 0 0 qmgInt 3 := by rw [flagFree_eq hb ho hwt, hu']
    have hq : (u.cmdDone 0 0 qmgInt 3).core.qm = { s.core.qm with owner := mdel s.core.qm.owner c } := by rw [State.cmdDone_qm, hu']; rfl
    have hm : (u.cmdDone 0 0 qmgInt 3).core.mem = s.core.mem := by rw [State.cmdDone_mem, hu']; rfl
    exact answers_dispatching_at hd ht ⟨cmdDone_ok (by rw [hu']) (by rw [hu']; rfl), hm,
      (congrArg (fun m : Qmg => mget m.owner c) hq).trans (mget_mdel_same _ _)⟩
  · exact changed 0x12 _ (tagRange_eq hb rfl rfl rfl hu hn hle htags hno) fun t hok htab hctx => ⟨hok, htab, hctx⟩
  · exact changed 0x13 _ (errRing_eq hb rfl rfl hu h7 h16) fun t hok htab hctx => ⟨hok, htab, hctx⟩

/-! The QMG commands on queues -/

/-- What a command that ends leaves in its block. -/
def Ended0 (t : State) (op code : Nat) : Prop :=
  (mgetD t.core.cmds 0 {}).busy = false ∧ (mgetD t.core.cmds 0 {}).op = op ∧ (mgetD t.core.cmds 0 {}).result = code ∧ t.flagBit qmgInt 3 = true

theorem cmdDone_ended {s u : State} {op : Nat} (hc : u.core.cmds = (s.begun 0 op).core.cmds) (code : Nat) :
    Ended0 (u.cmdDone 0 code qmgInt 3) op (resultOf code) := by
  refine ⟨?_, ?_, ?_, u.cmdDone_flagBit 0 code qmgInt 3⟩ <;> rw [cmdDone_begun hc]

/-- Reading its vector changes nothing else of a queue, and no other queue. -/
theorem State.readMap_queue (s : State) (q : Nat) : (∃ v, (s.readMap q).queue q = { s.queue q with vector := v })
    ∧ (∀ p, p ≠ q → (s.readMap q).queue p = s.queue p) ∧ (s.readMap q).core.cmds = s.core.cmds := by
  have hr (t : State) (b : Bool) (o i : Nat) : (∀ p, (t.raiseIf b o i).queue p = t.queue p) ∧ (t.raiseIf b o i).core.cmds = t.core.cmds := by
    unfold State.raiseIf
    split
    · exact ⟨fun p => t.queue_raise o i p, t.raise_cmds o i⟩
    · exact ⟨fun _ => rfl, rfl⟩
  unfold State.readMap
  dsimp only
  obtain ⟨hq, hc⟩ := hr (s.updQueue q _) _ (hifBase + 0x80) 5
  refine ⟨⟨_, (hq q).trans (State.queue_updQueue_same _ _ _)⟩, fun p hp => (hq p).trans (State.queue_updQueue_ne _ _ hp), hc⟩

/-- A descriptor that CQ_CREATE or CQ_MODIFY takes: the queue is y as the command makes it, with its vector read. -/
theorem setDesc_gives {s : State} {q d : Nat} {create : Bool} {y : Queue} (hb : s.descBad d = false) (ha : s.descAbsent d = false)
    (hst : (if create then decide ((s.queue q).st = .disabled) else decide ((s.queue q).st = .idle) && (s.queue q).slot.isNone) = true)
    (hy : y = if create then { st := .idle, desc := withHome d (if create then 0 else (s.queue q).home), idleFt := s.now }
      else (s.queue q).reDesc (withHome d (if create then 0 else (s.queue q).home))) :
    ∃ u v, s.setDesc q d create = (u, 0) ∧ u.queue q = { y with vector := v } ∧ (∀ p, p ≠ q → u.queue p = s.queue p)
      ∧ u.core.cmds = s.core.cmds := by
  obtain ⟨w, hw⟩ : ∃ w, w = ((s.setQueue q y).give 7 q ((s.queue q).unread - y.unread)).take 7 q (y.unread - (s.queue q).unread) := ⟨_, rfl⟩
  obtain ⟨⟨v, hv⟩, hne, hc⟩ := w.readMap_queue q
  have hset : s.setDesc q d create = ((w.readMap q).tableWrite q, 0) := by
    unfold State.setDesc
    dsimp only
    rw [if_neg (by rw [hst, hb]; decide), if_neg (Bool.eq_false_iff.1 ha), ← hy, ← hw]
  have htab : ((w.readMap q).tableWrite q).core.cmds = (w.readMap q).core.cmds := by
    obtain ⟨_, _, _, h⟩ := (w.readMap q).tableWrite_rest q
    rw [h]
  refine ⟨_, v, hset, ?_, fun p hp => ?_, htab.trans (hc.trans (by rw [hw]; rfl))⟩
  · rw [State.queue_tableWrite, hv, hw]
    exact congrArg (fun x : Queue => { x with vector := v }) (State.queue_setQueue_same s q y)
  · rw [State.queue_tableWrite, hne p hp, hw]
    exact State.queue_setQueue_ne s y hp

theorem setDesc_bad {s : State} {q d : Nat} (create : Bool) (hb : s.descBad d = true) : s.setDesc q d create = (s, 0xC) := by
  simp [State.setDesc, hb]

/-- The data words of a block after a number has been put there. -/
theorem putData_reg (s : State) (b v : Nat) : ∀ n i, i < n → (s.putData b v n).reg (fldData b i) = bits v (32 * i) 32 := by
  intro n
  induction n with
  | zero => intro i hi; exact absurd hi (Nat.not_lt_zero i)
  | succ n ih =>
    intro i hi
    by_cases h : i = n
    · subst h
      rw [State.putData, State.reg_setReg_same]
      exact Nat.mod_eq_of_lt (Nat.mod_lt _ (by decide))
    · rw [State.putData, State.reg_setReg_ne _ _ _ _ (by simp only [Fld.key, fldData]; omega)]
      exact ih i (by omega)

theorem putData_rest (s : State) (b v n : Nat) : ∃ csr, s.putData b v n = { s with core.regs.csr := csr } := by
  induction n with
  | zero => exact ⟨_, rfl⟩
  | succ n ih =>
    obtain ⟨_, h⟩ := ih
    rw [State.putData, h]
    exact ⟨_, rfl⟩

/-- A queue with nothing in flight that goes away. -/
theorem settleStop_destroying {s : State} {q : Nat} (hfl : (s.queue q).fl = []) (hh : (s.queue q).held = []) (hd : (s.queue q).destroying = true) :
    Ended0 (s.settleStop q) 3 0 ∧ ((s.settleStop q).queue q).st = .disabled ∧ ((s.settleStop q).queue q).slot = none := by
  have hslot (t : State) : ((t.freeSlot q).queue q).slot = none := by
    unfold State.freeSlot
    split
    · assumption
    · rw [State.queue_updQueue_same]
  have hq (t : State) (f : Queue → Queue) : ((t.updQueue q f).tableWrite q).queue q = f (t.queue q) := by
    rw [State.queue_tableWrite, State.queue_updQueue_same]
  obtain ⟨u, hu⟩ : ∃ u, u = (((((s.dropRing q).dropSaved q).freeSlot q).updQueue q (fun x => { x with
      st := .disabled, destroying := false, aborting := false, desc := 0, ctrs := [], comps := []
      left := none, beyond := 0, errPend := false })).tableWrite q) := ⟨_, rfl⟩
  obtain ⟨w, hw⟩ : ∃ w : State, w = { u with
      core.qm.doorbells := u.core.qm.doorbells.filter (fun d => d.q ≠ q)
      core.cmds := mput u.core.cmds 0 { busy := false, op := 3, arg := q, result := 0 } } := ⟨_, rfl⟩
  have hs : s.settleStop q = w.raise qmgInt 3 := by
    unfold State.settleStop
    dsimp only
    rw [if_neg (by simp [hfl, hh]), if_pos hd, hw, hu]
  have hwq : w.queue q = u.queue q := by rw [hw]; rfl
  have huq := hq (((s.dropRing q).dropSaved q).freeSlot q) (fun x => { x with
      st := .disabled, destroying := false, aborting := false, desc := 0, ctrs := [], comps := []
      left := none, beyond := 0, errPend := false })
  rw [← hu] at huq
  have hcmd : mgetD (w.raise qmgInt 3).core.cmds 0 {} = { busy := false, op := 3, arg := q, result := 0 } := by
    rw [State.raise_cmds, hw]
    exact mgetD_mput_same _ _ _ _
  rw [hs]
  refine ⟨⟨?_, ?_, ?_, State.flagBit_raise _ _ _⟩, ?_, ?_⟩
  · rw [hcmd]
  · rw [hcmd]
  · rw [hcmd]
  · rw [State.queue_raise, hwq, huq]
  · rw [State.queue_raise, hwq, huq]
    exact hslot _

theorem qmgBusyDiscards : Says.QmgBusyDiscards := by
  intro s hb c hc
  have quiet {f : State → State} (h : f s = s) : liftCore (whenDispatching f) s = .next s := by
    rw [liftCore_goes]
    unfold whenDispatching guardBy
    split
    · rw [h]
    · rfl
  simp only [List.mem_cons, List.not_mem_nil, or_false] at hc
  rcases hc with rfl | rfl | rfl | rfl | rfl | rfl | rfl | rfl
  · exact quiet (by simp [State.cqCreate, State.qmgCmd, State.runCmd, hb])
  · exact quiet (by simp [State.cqModify, State.qmgCmd, State.runCmd, hb])
  · exact quiet (if_pos hb)
  · exact quiet (by simp [State.cqRead, State.qmgCmd, State.runCmd, hb])
  · exact quiet (by simp [State.flagAlloc, State.qmgCmd, State.runCmd, hb])
  · exact quiet (by simp [State.flagFree, State.qmgCmd, State.runCmd, hb])
  · exact quiet (by simp [State.tagRange, State.qmgCmd, State.runCmd, hb])
  · exact quiet (by simp [State.errRing, State.qmgCmd, State.runCmd, hb])

/-- What a command that changes a queue's descriptor, or refuses to, does. -/
theorem cqCreate_gives {s u : State} {code : Nat} (hb : s.cmdBusy 0 = false)
    (h : (s.begun 0 1).setDesc (bits (s.arg qmgBase 0) 0 15) (s.cmdData qmgBase 16) true = (u, code)) : s.cqCreate = u.cmdDone 0 code qmgInt 3 := by
  unfold State.cqCreate State.qmgCmd
  exact runCmd_gives hb h

theorem cqModify_gives {s u : State} {code : Nat} (hb : s.cmdBusy 0 = false)
    (h : (s.begun 0 2).setDesc (bits (s.arg qmgBase 0) 0 15) (s.cmdData qmgBase 16) false = (u, code)) : s.cqModify = u.cmdDone 0 code qmgInt 3 := by
  unfold State.cqModify State.qmgCmd
  exact runCmd_gives hb h

theorem State.queue_cmdDone (s : State) (k code int bit p : Nat) : (s.cmdDone k code int bit).queue p = s.queue p :=
  State.queue_congr (by rw [State.cmdDone_qm]) p

/-- A queue that CQ_DESTROY takes away at once. -/
theorem cqDestroy_gives {s : State} {q : Nat} (hb : s.cmdBusy 0 = false) (hq : q = bits (s.arg qmgBase 0) 0 15) (hst : (s.queue q).st ≠ .disabled)
    (hfl : (s.queue q).fl = []) (hh : (s.queue q).held = []) (ha : (s.queue q).aside = none) (hs : (s.queue q).stalled = none)
    (hf : s.fenceOf q ≠ 1) : Ended0 s.cqDestroy 3 0 ∧ (s.cqDestroy.queue q).st = .disabled ∧ (s.cqDestroy.queue q).slot = none := by
  obtain ⟨w, hw⟩ : ∃ w, w = (s.startCmd 0 3 q).updQueue q (fun x => { x with destroying := true }) := ⟨_, rfl⟩
  have hd : s.cqDestroy = w.abortQueue q := by
    subst hq
    unfold State.cqDestroy
    dsimp only
    rw [if_neg (Bool.eq_false_iff.1 hb), if_neg hst, ← hw]
  have hwq : w.queue q = { s.queue q with destroying := true } := by
    rw [hw, State.queue_updQueue_same]
    rfl
  have hwf : w.fenceOf q ≠ 1 := by
    have : w.fenceOf q = s.fenceOf q := by
      unfold State.fenceOf
      rw [hwq, hw]
      rfl
    rwa [this]
  obtain ⟨t, -, htq, ht⟩ := abortQueue_plain (by rw [hwq]; exact ha) (by rw [hwq]; exact hs) hwf
  rw [hwq] at htq
  obtain ⟨_, _, _, hr⟩ := (t.queue q).rest_eq t.now
  have huq : (t.updQueue q (fun x => x.rest t.now)).queue q = (t.queue q).rest t.now := State.queue_updQueue_same _ _ _
  rw [hr, htq] at huq
  rw [hd, ht, settle_empty (by rw [htq]; exact hfl)]
  exact settleStop_destroying (by rw [huq]; exact hfl) (by rw [huq]; exact hh) (by rw [huq]; rfl)

theorem cqCreate_creates {s : State} {q d : Nat} (hd : s.dispatching = true) (hb : s.cmdBusy 0 = false) (hq : q = bits (s.arg qmgBase 0) 0 15)
    (hD : d = s.cmdData qmgBase 16) (hst : (s.queue q).st = .disabled) (hbad : s.descBad d = false) (habs : s.descAbsent d = false) :
    Answers (exec .cqCreate s) (fun t => Ended0 t 1 0 ∧ (t.queue q).st = .idle ∧ (t.queue q).desc = withHome d 0 ∧ (t.queue q).fetch = 0
      ∧ (t.queue q).tail = 0 ∧ ∀ p, p ≠ q → t.queue p = s.queue p) := by
  obtain ⟨y, hy⟩ : ∃ y : Queue, y = { st := .idle, desc := withHome d 0, idleFt := s.now } := ⟨_, rfl⟩
  obtain ⟨u, v, hset, hu, hne, hc⟩ := setDesc_gives (s := s.begun 0 1) (q := q) (d := d) (create := true) (y := y) hbad habs
    (by rw [if_pos rfl]; exact decide_eq_true hst) hy
  have hk := (u.queue_cmdDone 0 0 qmgInt 3 q).trans hu
  rw [hy] at hk
  exact answers_dispatching_at hd (cqCreate_gives hb (by rw [← hq, ← hD, hset])) ⟨cmdDone_ended hc 0, congrArg Queue.st hk, congrArg Queue.desc hk,
    congrArg Queue.fetch hk, congrArg Queue.tail hk, fun p hp => (u.queue_cmdDone 0 0 qmgInt 3 p).trans (hne p hp)⟩

theorem cqCreate_refuses {s : State} {q d : Nat} (hd : s.dispatching = true) (hb : s.cmdBusy 0 = false) (hq : q = bits (s.arg qmgBase 0) 0 15)
    (hD : d = s.cmdData qmgBase 16) (hbad : s.descBad d = true) :
    Answers (exec .cqCreate s) (fun t => Ended0 t 1 0x8C ∧ t.queue q = s.queue q)
    ∧ Answers (exec .cqModify s) (fun t => Ended0 t 2 0x8C ∧ t.queue q = s.queue q) := by
  have h1 : (s.begun 0 1).setDesc q d true = (s.begun 0 1, 0xC) := setDesc_bad true hbad
  have h2 : (s.begun 0 2).setDesc q d false = (s.begun 0 2, 0xC) := setDesc_bad false hbad
  exact ⟨answers_dispatching_at hd (cqCreate_gives hb (by rw [← hq, ← hD, h1])) ⟨cmdDone_ended rfl 0xC, State.queue_cmdDone _ _ _ _ _ q⟩,
    answers_dispatching_at hd (cqModify_gives hb (by rw [← hq, ← hD, h2])) ⟨cmdDone_ended rfl 0xC, State.queue_cmdDone _ _ _ _ _ q⟩⟩

/-- The size of a ring is its descriptor's. -/
theorem Queue.rmod_congr {x y : Queue} (h : x.desc = y.desc) : x.rmod = y.rmod := by
  unfold Queue.rmod Queue.rsz
  rw [h]

theorem Queue.reDesc_desc (x : Queue) (d : Nat) : (x.reDesc d).desc = d := rfl

theorem Queue.reDesc_st (x : Queue) (d : Nat) : (x.reDesc d).st = x.st := rfl

theorem Queue.reDesc_tail (x : Queue) (d : Nat) : (x.reDesc d).tail = x.tail % (x.reDesc d).rmod := by
  have h : (x.reDesc d).rmod = ({ x with desc := d } : Queue).rmod := Queue.rmod_congr rfl
  rw [h]
  unfold Queue.reDesc
  dsimp only

theorem cqModify_replaces {s : State} {q d : Nat} (hd : s.dispatching = true) (hb : s.cmdBusy 0 = false) (hq : q = bits (s.arg qmgBase 0) 0 15)
    (hD : d = s.cmdData qmgBase 16) (hst : (s.queue q).st = .idle) (hslot : (s.queue q).slot = none) (hbad : s.descBad d = false)
    (habs : s.descAbsent d = false) : Answers (exec .cqModify s) (fun t => Ended0 t 2 0 ∧ (t.queue q).st = .idle
      ∧ (t.queue q).desc = withHome d (s.queue q).home ∧ (t.queue q).tail = (s.queue q).tail % (t.queue q).rmod) := by
  obtain ⟨y, hy⟩ : ∃ y : Queue, y = (s.queue q).reDesc (withHome d (s.queue q).home) := ⟨_, rfl⟩
  have hyst : y.st = .idle := by rw [hy, Queue.reDesc_st, hst]
  have hydesc : y.desc = withHome d (s.queue q).home := by rw [hy, Queue.reDesc_desc]
  have hytail : y.tail = (s.queue q).tail % y.rmod := by rw [hy]; exact Queue.reDesc_tail _ _
  obtain ⟨u, v, hset, hu, -, hc⟩ := setDesc_gives (s := s.begun 0 2) (q := q) (d := d) (create := false) (y := y) hbad habs
    (by
      rw [if_neg (by decide)]
      exact Bool.and_eq_true_iff.2 ⟨decide_eq_true hst, Option.isNone_iff_eq_none.2 hslot⟩)
    (by rw [if_neg (by decide), if_neg (by decide)]; exact hy)
  have hk := (u.queue_cmdDone 0 0 qmgInt 3 q).trans hu
  have facts (z : Queue) (hz : z = { y with vector := v }) : z.st = .idle ∧ z.desc = withHome d (s.queue q).home ∧ z.tail = (s.queue q).tail % z.rmod := by
    have hr : z.rmod = y.rmod := Queue.rmod_congr (by rw [hz])
    have ht : z.tail = y.tail := by rw [hz]
    exact ⟨by rw [hz]; exact hyst, by rw [hz]; exact hydesc, by rw [hr, ht, hytail]⟩
  exact answers_dispatching_at hd (cqModify_gives hb (by rw [← hq, ← hD, hset])) ⟨cmdDone_ended hc 0, facts _ hk⟩

theorem cqRead_reads {s : State} {q : Nat} (hd : s.dispatching = true) (hb : s.cmdBusy 0 = false) (hq : q = bits (s.arg qmgBase 0) 0 15) :
    Answers (exec .cqRead s) (fun t => Ended0 t 4 0 ∧ t.queue q = s.queue q
      ∧ ∀ i, i < 16 → t.reg (fldData qmgBase i) = bits (withHome (s.queue q).desc (s.queue q).home) (32 * i) 32) := by
  obtain ⟨v, hv⟩ : ∃ v, v = withHome (s.queue q).desc (s.queue q).home := ⟨_, rfl⟩
  obtain ⟨u, hu⟩ : ∃ u, u = (s.begun 0 4).putData qmgBase v 16 := ⟨_, rfl⟩
  obtain ⟨csr, hr⟩ := putData_rest (s.begun 0 4) qmgBase v 16
  rw [← hu] at hr
  have ht : s.cqRead = u.cmdDone 0 0 qmgInt 3 := by
    unfold State.cqRead State.qmgCmd
    refine runCmd_gives hb ?_
    rw [hu, hv, hq]
    simp only [State.begun_arg, State.begun_queue]
  have hqq : (u.cmdDone 0 0 qmgInt 3).queue q = s.queue q := (u.queue_cmdDone 0 0 qmgInt 3 q).trans (by rw [hr]; rfl)
  refine answers_dispatching_at hd ht ⟨cmdDone_ended (by rw [hr]) 0, hqq, fun i hi => ?_⟩
  refine (u.cmdDone_reg 0 0 (f := fldData qmgBase i) ?_).trans ?_
  · simp only [Fld.key, fldData, qmgInt]
    omega
  · rw [hu, ← hv]
    exact putData_reg _ _ _ 16 i hi

theorem queueCommands : Says.QueueCommands := by
  intro s hd hb q d x done
  exact ⟨cqCreate_creates hd hb rfl rfl, cqCreate_refuses hd hb rfl rfl, cqModify_replaces hd hb rfl rfl,
    fun hst _ hfl hh ha hs hf => answers_dispatching hd (cqDestroy_gives hb rfl hst hfl hh ha hs hf), cqRead_reads hd hb rfl⟩

/-- Settles O40: a block runs one command at a time, and each command on a queue acts on its descriptor alone. -/
theorem queueManager : Obligations.QueueManager := ⟨qmgBusyDiscards, queueCommands⟩

end Sys2Proof.Machine
end

section
/-! PROOF. Interrupts, the freeze and the test access port. -/
namespace Sys2Proof.Machine
open State

/-- An entry that a filter keeps is read as before. -/
theorem mget_filter_keep {α : Type} {m : Map α} {p : Nat × α → Bool} {k : Nat} (h : ∀ a, p (k, a) = true) : mget (m.filter p) k = mget m k := by
  induction m with
  | nil => rfl
  | cons e m ih =>
    obtain ⟨j, a⟩ := e
    by_cases hj : j = k
    · subst hj
      rw [List.filter_cons_of_pos (h a)]
      simp [mget]
    · rw [List.filter_cons]
      split <;> simp [mget, hj, ih]

/-! MSI-X -/

/-- A vector that is sent is counted once, and only interrupts and their registers change. -/
theorem State.sendNow_rest (s : State) (v : Nat) : ∃ cnt busy, s.sendNow v = { s with
    core.regs.cnt := cnt, core.irq.busy := busy, core.irq.sent := mupd s.core.irq.sent v 0 (· + 1) } := by
  unfold State.sendNow
  dsimp only
  split <;> exact ⟨_, _, rfl⟩

theorem sendVector_held {s : State} {v : Nat} (h : s.core.irq.fmask = true ∨ smem v s.core.irq.masked = true) :
    s.sendVector v = { s with core.irq.pba := sins v s.core.irq.pba } := if_pos (by simpa using h)

theorem sendVector_sends {s : State} {v : Nat} (hf : s.core.irq.fmask = false) (hm : smem v s.core.irq.masked = false)
    (hb : mhas s.core.irq.busy v = false) : s.sendVector v = s.sendNow v := by
  unfold State.sendVector
  rw [if_neg (by simp [hf, hm]), if_neg (by simp [hb])]

/-- Settles O17: a vector is kept, held back or sent once, and FLR filters the HIF block out of the registers. -/
theorem msixModeration : Obligations.MsixModeration := by
  intro s v ht hv
  refine ⟨fun h => ?_, fun hp hb => ?_, fun ft hb hft hf hm => ?_, fun ft hb hft => ?_, ?_⟩
  · rw [sendVector_held h]
    exact ⟨by simp [smem], rfl⟩
  · obtain ⟨u, hu⟩ : ∃ u : State, u = { s with core.irq.masked := [], core.irq.fmask := false, core.irq.pba := [] } := ⟨_, rfl⟩
    have hs : u.sendVector v = u.sendNow v := sendVector_sends (by rw [hu]) (by rw [hu]; rfl) (by rw [hu]; exact hb)
    obtain ⟨_, _, hn⟩ := u.sendNow_rest v
    have hdel : sdel v [v] = [] := by simp [sdel]
    have hrow : exec (.msixUnmask [] false) s = .next { s with core := (u.sendVector v).core } := by
      simp only [exec, execMsixUnmask, liftCore_goes]
      rw [if_neg (by simp [ht]), if_neg (by decide), hp]
      show Host.Outcome.next { s with core := (State.sendVector { s with core.irq.masked := [], core.irq.fmask := false, core.irq.pba := sdel v [v] } v).core } = _
      rw [hdel, ← hu]
    rw [hs, hn, hu] at hrow
    exact ⟨_, hrow, rfl, mgetD_mupd_same s.core.irq.sent v 0 (· + 1)⟩
  · simp only [exec, execMsixModExpiry]
    refine answers_core ?_
    dsimp only
    rw [hb]
    dsimp only
    rw [if_neg (by simp [ht, hft])]
    split
    · obtain ⟨u, hu⟩ : ∃ u : State, u = { s with core.irq.busy := mdel s.core.irq.busy v, core.irq.again := sdel v s.core.irq.again } := ⟨_, rfl⟩
      have hs : u.sendVector v = u.sendNow v := sendVector_sends (by rw [hu]; exact hf) (by rw [hu]; exact hm) (by rw [hu]; simp [mhas])
      obtain ⟨_, _, hn⟩ := u.sendNow_rest v
      rw [← hu, hs, hn, hu]
      exact ⟨mgetD_mupd_same s.core.irq.sent v 0 (· + 1), by simp [sdel], rfl⟩
    · rename_i hag
      exact ⟨rfl, Bool.eq_false_iff.2 hag, rfl⟩
  · simp only [exec, execMsixModExpiry]
    rw [liftCore_goes, hb]
    dsimp only
    rw [if_pos (by simp [hft])]
  · simp only [exec, execFlr]
    refine answers_core ?_
    dsimp only
    rw [if_neg (by simp [ht])]
    have gone {k d : Nat} (hk : (decide (8 * hifBase ≤ k) && decide (k < 8 * (hifBase + 0x1000))) = true) :
        mgetD (s.core.regs.csr.filter (fun e => !(decide (8 * hifBase ≤ e.1) && decide (e.1 < 8 * (hifBase + 0x1000))))) k d = d :=
      mgetD_filter_none d fun _ => by simp only [hk, Bool.not_true]
    have kept {k d : Nat} (hk : (decide (8 * hifBase ≤ k) && decide (k < 8 * (hifBase + 0x1000))) = false) :
        mgetD (s.core.regs.csr.filter (fun e => !(decide (8 * hifBase ≤ e.1) && decide (e.1 < 8 * (hifBase + 0x1000))))) k d
          = mgetD s.core.regs.csr k d := by
      rw [mgetD, mget_filter_keep fun _ => by simp only [hk, Bool.not_false], mgetD]
    exact ⟨rfl, rfl, rfl, gone (by decide), gone (by decide), kept (by decide), kept (by decide), rfl, rfl, rfl, rfl⟩

/-! The freeze -/

/-- Notices on the ports are the fabric's. -/
theorem freezeNotice_fab (s : State) (i : Nat) : FabOnly s (s.freezeNotice i) := by
  unfold State.freezeNotice
  dsimp only
  split
  · rfl
  · exact FabOnly.of_updPort _ _ _

theorem State.freeze_rest {s : State} (h : s.core.ras.frozen = false) : ∃ fab ldg, s.freeze = { s with
    core.fab := fab, core.ldg := ldg, core.ras.frozen := true, core.ras.froze := true, core.ras.frozenFt := s.now, core.host.linkUp := false } := by
  have hf : FabOnly s ((s.core.fab.ports.map (·.1)).foldl State.freezeNotice s) := FabOnly.foldl _ freezeNotice_fab _ _
  unfold State.freeze
  rw [if_neg (by simp [h]), hf]
  exact ⟨_, _, rfl⟩

/-- A frozen module whose pins are past the rails does not move. -/
theorem tick_frozen {s : State} (h : s.core.ras.frozen = true) (hp : s.core.boot.phase ≠ .rails) : s.tick = s := by
  unfold State.tick
  rw [if_neg (by simp [State.timing, h]), if_neg (by simp [hp])]

/-- Settles O18: a freeze is the notices on the ports and the freeze flops. -/
theorem freezeStops : Obligations.FreezeStops := by
  intro s hf ht
  refine ⟨fun hen hp c hc hlive => ?_, fun hen c hc => ?_, fun ho => ?_⟩
  · obtain ⟨fab, ldg, hz⟩ := s.freeze_rest hf
    have hph : s.core.boot.phase ≠ .rails := by
      intro h
      simp [State.timing, h] at ht
    have hrow : exec c s = .next { s with core := s.freeze.core } := by
      simp only [List.mem_cons, List.not_mem_nil, or_false] at hc
      rcases hc with rfl | rfl
      · simp only [exec, execFreezeRequest, liftCore_goes, whenTiming_pos _ ht]
        rw [if_pos (by simp [hen, hp])]
      · simp only [exec, execSwfreeze, liftCore_goes, whenLive_pos _ (hlive rfl), State.swFreeze, hen, if_true]
    rw [hz] at hrow
    refine ⟨_, hrow, rfl, rfl, rfl, rfl, rfl, rfl, rfl, ?_⟩
    exact congrArg Host.Outcome.next (tick_frozen rfl hph)
  · simp only [List.mem_cons, List.not_mem_nil, or_false] at hc
    rcases hc with rfl | rfl
    · simp only [exec, execFreezeRequest, liftCore_goes, whenTiming_pos _ ht]
      rw [if_neg (by simp [hen])]
    · have hs : whenLive State.swFreeze s = s := by
        unfold whenLive guardBy State.swFreeze
        rw [if_neg (by omega : ¬ s.reg fldFrzEn = 1), ite_self]
      simp only [exec, execSwfreeze, liftCore_goes, hs]
  · simp only [exec, execGlbFrzRead]
    refine answers_core ?_
    rw [whenTiming_pos _ ht]
    dsimp only
    rw [if_neg (by simp [ho])]
    by_cases hr : s.core.boot.phase = .ready
    · rw [if_pos hr]
      exact ⟨rfl, by simp [hr], by simp [hr]⟩
    · rw [if_neg hr]
      exact ⟨rfl, by simp [hr], by simp [hr]⟩

/-! The test access port -/

theorem answers_tap {f : State → State} {s : State} {p : State → Prop} (h : s.tapOn = true) (hp : p { s with core := (f s).core }) :
    Answers (liftCore (whenTap f) s) p :=
  answers_core (by rwa [whenTap, guardBy_pos f h])

/-- What FRZ_STAT puts below the FT of the freeze. -/
def frzLow (r : Ras) (ro : Bool) : Nat := put 63 1 (b2n r.frozen) + put 62 1 (b2n ro) + put 61 1 (b2n r.v) + put 48 8 r.src

theorem frzLow_bits (r : Ras) (ro : Bool) : frzLow r ro < 2 ^ 64 ∧ frzLow r ro / 2 ^ 63 = b2n r.frozen := by
  have hs : r.src % 2 ^ 8 < 2 ^ 8 := Nat.mod_lt _ (by decide)
  unfold frzLow put
  generalize r.src % 2 ^ 8 = k at hs ⊢
  cases r.frozen <;> cases ro <;> cases r.v <;> simp only [b2n, Bool.false_eq_true, if_false, if_true] <;> omega

theorem idcode_bits (r : Nat) : bits (put 28 4 r + put 12 16 0x0340 + put 1 11 0x2B7 + 1) 0 28 = 0x0340 * 2 ^ 12 + 0x2B7 * 2 + 1 := by
  unfold bits put
  omega

/-- The word that FRZ_STAT puts out: the FT of the freeze above, FROZEN in bit 63. -/
theorem frzStat_word (r : Ras) (ro : Bool) (w : Nat)
    (hw : w = put 64 64 r.frozenFt + put 63 1 (b2n r.frozen) + put 62 1 (b2n ro) + put 61 1 (b2n r.v) + put 48 8 r.src) :
    w / 2 ^ 64 = r.frozenFt % 2 ^ 64 ∧ w.testBit 63 = r.frozen := by
  obtain ⟨hlt, hdiv⟩ := frzLow_bits r ro
  have hw : w = frzLow r ro + r.frozenFt % 2 ^ 64 * 2 ^ 64 := by
    rw [hw, frzLow, show put 64 64 r.frozenFt = r.frozenFt % 2 ^ 64 * 2 ^ 64 from rfl]
    omega
  rw [hw]
  generalize r.frozenFt % 2 ^ 64 = f
  generalize frzLow r ro = l at hlt hdiv
  refine ⟨by rw [Nat.add_mul_div_right _ _ (by decide), Nat.div_eq_of_lt hlt, Nat.zero_add], ?_⟩
  have hd : (l + f * 2 ^ 64) / 2 ^ 63 % 2 = b2n r.frozen := by
    cases hfr : r.frozen <;> simp only [hfr, b2n, Bool.false_eq_true, if_false, if_true] at hdiv ⊢ <;> omega
  rw [Nat.testBit_eq_decide_div_mod_eq, hd]
  cases r.frozen <;> rfl

/-- Settles O19: each instruction of the port puts its words out. -/
theorem tapInstructions : Obligations.TapInstructions := by
  intro s h
  refine ⟨answers_tap h ⟨?_, rfl⟩, answers_tap h ?_, fun v => answers_tap h rfl, fun n ho => answers_tap h ?_, fun n i hi hw => answers_tap h ?_,
    answers_tap h ⟨rfl, rfl⟩, fun v => ⟨answers_tap h ⟨rfl, rfl, rfl, rfl⟩, answers_tap h ⟨rfl, rfl, rfl⟩⟩⟩
  · simp only [State.tap, List.map_cons, List.map_nil, idcode_bits]
  · obtain ⟨hft, hbit⟩ := frzStat_word s.core.ras s.core.sec.roEn _ rfl
    simp only [State.tap, List.map_cons, List.map_nil, hft, hbit, and_self]
  · have hon : (s.core.ras.frozen && s.core.sec.roEn) = false := by
      rcases ho with h | h <;> simp [h]
    dsimp only
    rw [hon]
    exact List.eq_replicate_iff.2 ⟨by simp [State.tap], by simp [State.tap]⟩
  · dsimp only
    have hn : ¬ i < s.itemWords s.core.ras.tapSel := by omega
    simp [State.tap, hi, hn]

end Sys2Proof.Machine
end

section
/-! PROOF. The mailbox and firmware updates. -/
namespace Sys2Proof.Machine
open State

@[simp] theorem State.raise_sec (s : State) (o i : Nat) : (s.raise o i).core.sec = s.core.sec := by obtain ⟨_, _, h⟩ := s.raise_core o i; rw [h]
@[simp] theorem State.raise_pwr (s : State) (o i : Nat) : (s.raise o i).core.pwr = s.core.pwr := by obtain ⟨_, _, h⟩ := s.raise_core o i; rw [h]

/-- A running module is not in recovery. -/
theorem State.live_phase {s : State} (h : s.live = true) : s.core.boot.phase = .ready ∧ s.core.ras.frozen = false := by
  simpa [State.live] using h

theorem mailbox_live {s : State} (h : s.live = true) (b : Bool) (f : State → State) : s.mailbox b f = f s := by
  obtain ⟨hp, -⟩ := State.live_phase h
  simp [State.mailbox, State.mboxOn, h, hp]

theorem mailbox_recovery {s : State} (h : s.core.boot.phase = .recovery) (hf : s.core.ras.frozen = false) (f : State → State) :
    s.mailbox false f = s.mboxSay .unsupported := by
  simp [State.mailbox, State.mboxOn, h, hf]

theorem stagePiece_zero (old data : List Byte) : stagePiece old 0 data = data := by simp [stagePiece]

/-- The staged image written to the boot area. -/
theorem writeBoot_rest (s : State) : ∃ regs irq, s.writeBoot = { s with core.regs := regs, core.irq := irq, core.sec.bootArea := s.core.sec.staged, core.sec.staged := [], core.sec.path := 0, core.sec.verified := false } := by
  obtain ⟨_, _, h⟩ := State.raise_core { s with
    core.sec.bootArea := s.core.sec.staged, core.sec.staged := [], core.sec.path := 0, core.sec.verified := false } secInt 2
  exact ⟨_, _, h⟩

theorem activateFw_verified {s : State} (hl : s.live = true) (hp : s.core.sec.path ≠ 2) (hv : s.verifyImage s.core.sec.staged = 0) :
    exec .activateFw s = .next (s.writeBoot.mboxSay .success) := by
  have hr : decide (s.core.boot.phase = .recovery) = false := by simp [(State.live_phase hl).1]
  obtain ⟨_, _, h⟩ := writeBoot_rest s
  simp only [exec, execActivateFw, liftTime_goes, mailbox_live hl, if_neg hp, hv, hr, Bool.false_eq_true, ne_eq, not_true_eq_false, if_false]
  rw [h]
  rfl

theorem activateFw_failed {s : State} (hl : s.live = true) (hp : s.core.sec.path ≠ 2) (hv : s.verifyImage s.core.sec.staged ≠ 0) :
    exec .activateFw s = .next ({ s with core.sec.path := 0, core.sec.staged := [] }.mboxSay .invalidInput) := by
  simp only [exec, execActivateFw, liftTime_goes, mailbox_live hl, if_neg hp, if_pos hv]
  rfl

theorem mailboxAnswers : Says.MailboxAnswers := by
  intro s
  refine ⟨fun hl c hc => ?_, fun hp hf c hc => ?_, fun data hl hp => ?_, fun hl hp => ?_, fun hl hp => ?_⟩
  · have reply (b : Bool) : Answers (liftCore (fun s => s.mailbox b State.mboxReply) s)
        (fun t => t.core.host.mbox = some .success ∧ t.core.mem = s.core.mem ∧ t.core.qm = s.core.qm ∧ t.core.sec = s.core.sec) := by
      refine answers_core ?_
      rw [mailbox_live hl]
      exact ⟨rfl, rfl, rfl, rfl⟩
    simp only [List.mem_cons, List.not_mem_nil, or_false] at hc
    rcases hc with rfl | rfl | rfl | rfl | rfl | rfl <;> exact reply _
  · have refuse (f : State → State) : Answers (liftCore (fun s => s.mailbox false f) s)
        (fun t => t.core.host.mbox = some .unsupported ∧ t.core.sec = s.core.sec) := by
      refine answers_core ?_
      rw [mailbox_recovery hp hf]
      exact ⟨rfl, rfl⟩
    simp only [List.mem_cons, List.not_mem_nil, or_false] at hc
    rcases hc with rfl | rfl | rfl | rfl <;> exact refuse _
  · simp only [exec, execTransferFw]
    refine answers_core ?_
    rw [mailbox_live hl, if_neg hp, stagePiece_zero]
    exact ⟨rfl, rfl, rfl, rfl⟩
  · obtain ⟨_, _, hw⟩ := writeBoot_rest s
    have hready := (State.live_phase hl).1
    by_cases hv : s.verifyImage s.core.sec.staged = 0
    · have hb : (s.writeBoot.mboxSay .success).flagBit secInt 2 = true := State.flagBit_raise _ _ _
      obtain ⟨t, ht⟩ : ∃ t, t = s.writeBoot.mboxSay .success := ⟨_, rfl⟩
      have hs : t.core.host.mbox = some .success ∧ t.core.sec.bootArea = s.core.sec.staged ∧ t.core.sec.staged = [] ∧ t.core.boot = s.core.boot := by
        rw [ht, hw]
        exact ⟨rfl, rfl, rfl, rfl⟩
      obtain ⟨hmb, hboot, hst, hph⟩ := hs
      rw [← ht] at hb
      refine ⟨t, by rw [activateFw_verified hl hp hv, ht], ?_⟩
      simp only [if_pos hv]
      exact ⟨hmb, hboot, by rw [hph]; exact hready, fun _ => ⟨hst, hb⟩⟩
    · refine ⟨_, activateFw_failed hl hp hv, ?_⟩
      simp only [if_neg hv]
      exact ⟨rfl, rfl, hready, fun h => absurd h hv⟩
  · refine ⟨s.mboxSay .busy, ?_, rfl, rfl⟩
    simp only [exec, execActivateFw, liftTime_goes, mailbox_live hl, if_pos hp]
    rfl

theorem pldmUpdate : Says.PldmUpdate := by
  intro s hl
  refine ⟨fun off d hp => ?_, fun off d hp => ?_, fun off d hp => ⟨?_, fun hv => ?_, fun hv => ?_⟩, answers_live hl ⟨rfl, rfl⟩, answers_live hl ⟨rfl, rfl⟩⟩
  · refine answers_live hl ?_
    rw [if_pos rfl, if_neg (by simp [hp])]
    exact ⟨rfl, rfl, rfl⟩
  · refine answers_live hl ?_
    rw [if_pos rfl, if_pos hp]
    exact ⟨rfl, rfl⟩
  · refine answers_live hl ?_
    rw [if_neg (by decide), if_neg (by simp [hp])]
    exact ⟨rfl, rfl, rfl⟩
  · refine answers_live hl ?_
    obtain ⟨_, _, hw⟩ := writeBoot_rest s
    rw [if_neg (by decide), if_neg (by simp [hp])]
    dsimp only
    rw [if_pos hv, hw]
    exact ⟨rfl, rfl⟩
  · show liftCore _ s = .next s
    rw [liftCore_goes, whenLive_pos _ hl]
    dsimp only
    rw [if_neg (by decide), if_neg (by simp [hp])]
    rw [if_neg (by simp [hv])]
    rfl

/-- Settles O47: a running module's mailbox runs each command, one in recovery four of them. -/
theorem mailboxAndPldm : Obligations.MailboxAndPldm := ⟨mailboxAnswers, pldmUpdate⟩

end Sys2Proof.Machine
end

section
/-! PROOF. What begins at the head of an engine's slot: OPA, the row-port instructions and MVX. -/
namespace Sys2Proof.Machine
open State

/-! Engines and matrix-vector units as maps -/

@[simp] theorem State.ope_setOpe_same (s : State) (n : Nat) (o : Ope) : (s.setOpe n o).ope n = o := mgetD_mput_same ..

theorem State.ope_setOpe_ne (s : State) {n k : Nat} (o : Ope) (h : k ≠ n) : (s.setOpe n o).ope k = s.ope k := mgetD_mput_ne _ _ _ h

@[simp] theorem Ope.part_setPart_same (o : Ope) (p : Nat) (x : OPart) : (o.setPart p x).part p = x := mgetD_mput_same ..

theorem Ope.part_setPart_ne (o : Ope) {p k : Nat} (x : OPart) (h : k ≠ p) : (o.setPart p x).part k = o.part k := mgetD_mput_ne _ _ _ h

@[simp] theorem State.mvu_setMvu_same (s : State) (n : Nat) (m : Mvu) : (s.setMvu n m).mvu n = m := mgetD_mput_same ..

theorem State.mvu_setMvu_ne (s : State) {n k : Nat} (m : Mvu) (h : k ≠ n) : (s.setMvu n m).mvu k = s.mvu k := mgetD_mput_ne _ _ _ h

theorem State.popHead_ope (s : State) (r : SlotRef) (n : Nat) : (s.popHead r).ope n = s.ope n := by
  obtain ⟨_, _, h⟩ := s.popHead_rest r
  rw [h]
  rfl

theorem State.popHead_mvu (s : State) (r : SlotRef) (n : Nat) : (s.popHead r).mvu n = s.mvu n := by
  obtain ⟨_, _, h⟩ := s.popHead_rest r
  rw [h]
  rfl

theorem State.popHead_mem (s : State) (r : SlotRef) : (s.popHead r).core.mem = s.core.mem := by
  obtain ⟨_, _, h⟩ := s.popHead_rest r
  rw [h]

theorem State.popHead_flags (s : State) (r : SlotRef) : (s.popHead r).core.qm.flags = s.core.qm.flags := by
  obtain ⟨_, _, h⟩ := s.popHead_rest r
  rw [h]

/-! The issue stage of an engine -/

/-- The head leaves its share and its engine becomes x. -/
theorem opeTakes_head (s : State) (r : SlotRef) (x : Ope) : Left s ((s.popHead r).setOpe r.unit x) r
    ∧ ((s.popHead r).setOpe r.unit x).ope r.unit = x ∧ (∀ n, n ≠ r.unit → ((s.popHead r).setOpe r.unit x).ope n = s.ope n)
    ∧ ((s.popHead r).setOpe r.unit x).core.mem = s.core.mem ∧ ((s.popHead r).setOpe r.unit x).core.qm.flags = s.core.qm.flags :=
  ⟨s.popHead_left r, State.ope_setOpe_same _ _ _, fun n hn => (State.ope_setOpe_ne _ _ hn).trans (s.popHead_ope r n), s.popHead_mem r, s.popHead_flags r⟩

/-- A row-port instruction that passes its checks is handed to the row port. -/
theorem toRowPort_ok {s : State} {r : SlotRef} {op : Nat} {bad : Entry → List Bad} {e : Entry} (hrun : ((s.ope r.unit).part r.slot).run = none)
    (h : HeadOk s r op (fun e => s.tileBad r e ++ bad e) e) :
    s.toRowPort r op bad = (s.popHead r).setOpe r.unit { s.ope r.unit with pend := (s.ope r.unit).pend ++ [(r.slot, e)] } := by
  rw [State.toRowPort, if_neg (by simp [hrun]), atHead_ok _ h]
  simp only [State.popHead_ope]

/-- Nothing is bad only where every check passes. -/
theorem firstBad_none {l : List Bad} (h : firstBad l = none) : l = [] := by
  cases l with
  | nil => rfl
  | cons b bs =>
    simp only [firstBad] at h
    split at h
    · cases h
    · split at h <;> cases h

/-- ACCUP checks the image that it finds only after the encoding: a head that passes ACCUP's first checks passes its own. -/
theorem accup_headOk {s : State} {r : SlotRef} {e : Entry} (h : HeadOk s r 0x16 (fun e => s.tileBad r e ++ s.placeBad r e) e) :
    HeadOk s r 0x16 (fun e => s.tileBad r e ++
      if (s.placeBad r e ++ reservedBad e.raw ++ ixBad e.raw e.ix ++ destBad e.raw).isEmpty then s.placeBad r e
      else s.placeBad r e ++ s.placeWrong r e) e := by
  obtain ⟨hh, hop, hrun, hbad, habs⟩ := h
  refine ⟨hh, hop, hrun, ?_, habs⟩
  have hnil := firstBad_none hbad
  simp only [List.append_eq_nil_iff] at hnil
  obtain ⟨⟨⟨h1, h2⟩, h3⟩, h4, h5⟩ := hnil
  simp [h1, h2, h3, h4, h5, firstBad]

/-- The same as the row of the instruction, whose checks look at the state. -/
theorem rowPort_takes {s : State} {r : SlotRef} {op : Nat} {e : Entry} (bad : State → Entry → List Bad) (hd : s.dispatching = true)
    (hrun : ((s.ope r.unit).part r.slot).run = none) (h : HeadOk s r op (fun e => s.tileBad r e ++ bad s e) e) :
    Answers (liftCore (whenDispatching (fun s => s.toRowPort r op (bad s))) s) (fun t => Left s t r
      ∧ t.ope r.unit = { s.ope r.unit with pend := (s.ope r.unit).pend ++ [(r.slot, e)] } ∧ (∀ n, n ≠ r.unit → t.ope n = s.ope n)
      ∧ t.core.mem = s.core.mem ∧ t.core.qm.flags = s.core.qm.flags) :=
  answers_dispatching_at hd (toRowPort_ok hrun h) (opeTakes_head s r _)

/-- Settles O20: the head leaves its share and its engine takes it. -/
theorem opeInstructionsIssue : Obligations.OpeInstructionsIssue := by
  intro s r e hd hrun
  refine ⟨fun h => ?_, fun h => ?_, fun h => ?_, fun h => ?_, fun h => ?_, fun h => ?_, fun h => ?_⟩
  · refine answers_dispatching_at hd (t := (s.popHead r).setOpe r.unit _) ?_ (opeTakes_head s r _)
    rw [if_neg (by simp [hrun]), atHead_ok _ h]
    simp only [State.popHead_ope]
  · exact rowPort_takes (fun _ _ => []) hd hrun h
  · exact rowPort_takes (fun _ e => alignBad 24 (e.eff 1 24 56) 16384) hd hrun h
  · exact rowPort_takes (fun s e => e.destAlign 24 16384 ++ vuQuarterBad (s.opeQuarter r.unit) 24 e) hd hrun h
  · exact rowPort_takes (fun s e => s.placeBad r e ++ s.placeHeld r e) hd hrun h
  · exact rowPort_takes (fun s e => if (s.placeBad r e ++ reservedBad e.raw ++ ixBad e.raw e.ix ++ destBad e.raw).isEmpty then s.placeBad r e
      else s.placeBad r e ++ s.placeWrong r e) hd hrun (accup_headOk h)
  · exact rowPort_takes (fun _ e => check e.a32 (19, 7) ++ e.destAlign 24 16384) hd hrun h

/-! MVX, its stop and held slot writes -/

theorem mvx_groups_pos {s : State} {r : SlotRef} {e : Entry} (h : HeadOk s r 0x18 (s.mvxBad r) e) : 0 < e.outs * e.rowGroups := by
  obtain ⟨-, -, -, hbad, -⟩ := h
  have hnil := firstBad_none hbad
  simp only [State.mvxBad, List.append_eq_nil_iff, check] at hnil
  have ho : e.outs ≠ 0 := fun h0 => by simp [h0] at hnil
  have hk : e.kb ≠ 0 := fun h0 => by simp [h0] at hnil
  have hg : 0 < e.rowGroups := by
    unfold Entry.rowGroups ceilDiv
    exact Nat.div_pos (by omega) (by omega)
  exact Nat.mul_pos (by omega) hg

/-- With no weight group to consume an MVX whose last group has not come stays as it is. -/
theorem State.mvxGroups_zero {s : State} {n : Nat} {x : MvxRun} (h : (s.mvu n).run = some x) (hg : x.g < x.e.outs * x.e.rowGroups) :
    s.mvxGroups n 0 = s := by
  simp only [State.mvxGroups, h]
  exact if_neg (by omega)

theorem State.mvxClean_busy {s : State} {n : Nat} {x : MvxRun} {i : InFlight} (h : (s.mvu n).run = some x) (hi : (s.queue x.e.q).inst x.e.seq = some i)
    (hd : i.done = false) : s.mvxClean n = s := by
  simp [State.mvxClean, h, hi, hd]

/-- Two states that differ in what error records change: registers, interrupts, translation, memory, counters and the RAS log. -/
def Logged (s t : State) : Prop := ∃ regs irq mmu mem ldg cmds host ras, t = { s with
  core.regs := regs, core.irq := irq, core.mmu := mmu, core.mem := mem, core.ldg := ldg, core.cmds := cmds, core.host := host, core.ras := ras }

theorem Logged.refl (s : State) : Logged s s := ⟨_, _, _, _, _, _, _, _, rfl⟩

theorem Logged.trans {s t u : State} (h : Logged s t) (k : Logged t u) : Logged s u := by
  obtain ⟨_, _, _, _, _, _, _, _, rfl⟩ := h
  obtain ⟨_, _, _, _, _, _, _, _, rfl⟩ := k
  exact ⟨_, _, _, _, _, _, _, _, rfl⟩

theorem Logged.of_recorded {s t : State} (h : Recorded s t) : Logged s t := by
  obtain ⟨_, _, _, _, _, _, _, h⟩ := h.rest
  exact ⟨_, _, _, _, _, _, _, _, h⟩

theorem Logged.of_logOnly {s t : State} (h : LogOnly s t) : Logged s t := by
  obtain ⟨_, _, _, _, _, h⟩ := h
  exact ⟨_, _, _, _, _, _, _, _, h⟩

theorem Logged.rasUc (s : State) (src die unit ctx addr n : Nat) : Logged s (s.rasUc src die unit ctx addr n) :=
  .of_logOnly ((s.rasLog_logOnly ..).trans (State.raise_logOnly ..))

theorem Logged.ctxError (s : State) (c q unit src cls addr n : Nat) : Logged s (s.ctxError c q unit src cls addr n) := by
  unfold State.ctxError
  exact .of_recorded (.errRecord ..)

theorem Logged.contained (s : State) (src k : Nat) (r : SlotRef) : Logged s (s.contained src k r) := by
  unfold State.contained
  split
  · exact (Logged.rasUc s src (s.slotQuarter r) (slotCode r) _ 0 k).trans (.ctxError ..)
  · exact .rasUc ..

theorem Logged.ramError (s : State) (src k : Nat) (r : SlotRef) : Logged s (s.ramError src k r) := by
  unfold State.ramError
  split
  · exact .refl s
  · exact Logged.trans (t := s.bump (rasBase + 0x118) k) ⟨_, _, _, _, _, _, _, _, rfl⟩ (.contained ..)

/-- One output of an MVX struck by an uncorrectable error. -/
theorem State.mvuErrors_one {s : State} {n k : Nat} {x : MvxRun} (h : (s.mvu n).run = some x) (hk : k < x.e.outs * x.e.vsel.length) :
    ∃ u : State, u.core.mvus = s.core.mvus ∧ u.core.qm = s.core.qm ∧ s.mvuErrors n [k] = u.setMvu n { s.mvu n with
      run := some { x with acc := mupd x.acc k { ms := [0] } (fun w => { w with st := w.st ||| 4 }) } } := by
  obtain ⟨_, _, _, _, _, _, _, _, hu⟩ := Logged.ramError s 7 1 ⟨4, n, 0⟩
  refine ⟨s.ramError 7 1 ⟨4, n, 0⟩, by rw [hu], by rw [hu], ?_⟩
  have hm : (s.ramError 7 [k].length ⟨4, n, 0⟩).mvu n = s.mvu n := by
    rw [List.length_singleton, hu]
    rfl
  unfold State.mvuErrors
  simp only [hm, h, List.filter_cons, hk, decide_true, if_true, List.filter_nil, List.foldl_cons, List.foldl_nil]
  rfl

/-- Settles O23: the unit of an instruction that begins, is struck, is stopped, or gets a held write. -/
theorem mvuCommands : Obligations.MvuCommands := by
  intro s r e hd
  refine ⟨fun h hrun hres hstop hheld => ?_, fun x i k hrun hi hdone hfid hg hk => ?_, fun n x hrun => ?_, fun n slot h hreads hfind => ?_⟩
  · have hw : s.mvxWaits r = false := by
      simp only [State.mvxWaits, h.1]
      simpa using fun _ a => hheld a
    refine answers_dispatching_at hd (t := (s.popHead r).setMvu r.unit { s.mvu r.unit with run := some { e := e } }) ?_
      ⟨s.popHead_left r, State.mvu_setMvu_same _ _ _, fun n hn => (State.mvu_setMvu_ne _ _ hn).trans (s.popHead_mvu r n), s.popHead_mem r,
        s.popHead_flags r⟩
    simp only [State.mvxClean_idle hrun, hrun, hres, hstop, hw, Option.isSome_none, Bool.or_self, Bool.false_eq_true, if_false, List.isEmpty_nil, if_true,
      atHead_ok _ h, State.popHead_mvu, State.mvu_setMvu_same]
    split
    · exact State.mvxGroups_zero (congrArg Mvu.run (State.mvu_setMvu_same _ _ _)) (mvx_groups_pos h)
    · rfl
  · obtain ⟨u, humvu, huqm, hu⟩ := State.mvuErrors_one hrun hk
    refine answers_dispatching_at hd (t := s.mvuErrors r.unit [k]) ?_ ?_
    · simp only [State.mvxClean_busy hrun hi hdone, hrun, Option.isSome_some, Bool.true_or, if_true, List.isEmpty_cons, Bool.false_eq_true, if_false, hu,
        State.mvu_setMvu_same]
      split
      · exact State.mvxGroups_zero (congrArg Mvu.run (State.mvu_setMvu_same _ _ _)) hg
      · rfl
    · rw [hu]
      exact ⟨State.mvu_setMvu_same _ _ _, fun n hn => (State.mvu_setMvu_ne _ _ hn).trans (by simp only [State.mvu, humvu])⟩
  · refine answers_live_at (live_of_dispatching hd) (t := s.setMvu n _) ?_
      ⟨State.mvu_setMvu_same _ _ _, fun k hk => State.mvu_setMvu_ne _ _ hk, rfl, rfl⟩
    simp only [State.mvuStop, hrun]
  · refine answers_live (live_of_dispatching hd) ?_
    simp only [hreads, Bool.false_eq_true, if_false, hfind]
    have facts (t : State) (hm : t.mvu n = { s.mvu n with held := (s.mvu n).held.erase h, vecs := mput (s.mvu n).vecs slot h.2.1 })
        (hmem : t.core.mem = s.core.mem) : mget (t.mvu n).vecs slot = some h.2.1 ∧ (t.mvu n).held = (s.mvu n).held.erase h
          ∧ (∀ k, k ≠ slot → mget (t.mvu n).vecs k = mget (s.mvu n).vecs k) ∧ t.core.mem = s.core.mem := by
      rw [hm]
      exact ⟨mget_mput_same _ _ _, rfl, fun k hk => mget_mput_ne _ _ hk, hmem⟩
    split
    · exact facts _ (State.mvu_setMvu_same _ _ _) rfl
    · exact facts _ (State.mvu_setMvu_same _ _ _) rfl

end Sys2Proof.Machine
end

section
/-! PROOF. What sending a packet changes, and the flash tier's events (12_mladben_fabric R293-R301, 09_memory_tiers R226-R231). -/
namespace Sys2Proof.Machine
open State

/-! Packets that a die sends -/

/-- t is s after packets have been sent: of its core only the fabric, the ledger, registers and interrupts may differ. -/
structure Posted (s t : State) : Prop where
  rest : ∃ regs irq fab ldg, t = { s with core.regs := regs, core.irq := irq, core.fab := fab, core.ldg := ldg }
  regs : RegsKept s t

namespace Posted

theorem refl (s : State) : Posted s s := ⟨⟨_, _, _, _, rfl⟩, .refl s⟩

theorem trans {s t u : State} (h : Posted s t) (k : Posted t u) : Posted s u := by
  refine ⟨?_, h.regs.trans k.regs⟩
  obtain ⟨⟨_, _, _, _, rfl⟩, -⟩ := h
  obtain ⟨⟨_, _, _, _, rfl⟩, -⟩ := k
  exact ⟨_, _, _, _, rfl⟩

theorem foldl {α : Type} {f : State → α → State} (hf : ∀ s a, Posted s (f s a)) (l : List α) (s : State) : Posted s (l.foldl f s) := by
  induction l generalizing s with
  | nil => exact refl s
  | cons a l ih => exact (hf s a).trans (ih _)

theorem of_fab {s t : State} (h : FabOnly s t) : Posted s t := ⟨⟨_, _, _, _, h⟩, .of_regs (by rw [h])⟩

theorem bump (s : State) {o : Nat} (n : Nat) (h : quietCnt o) : Posted s (s.bump o n) := ⟨⟨_, _, _, _, rfl⟩, .bump s n h⟩

theorem raise (s : State) {o i : Nat} (h : o % 0x1000 = 0x80) (hi : i < 8) : Posted s (s.raise o i) := by
  obtain ⟨_, _, hr⟩ := s.raise_core o i
  exact ⟨⟨_, _, _, _, hr⟩, .raise s h hi⟩

theorem fabCnt (p n : Nat) : quietCnt (fabBase p + n) := .inr (.inl (by unfold fabBase; omega))
theorem fabInt_int (i : Nat) : fabInt i % 0x1000 = 0x80 := by unfold fabInt fabBase; omega

theorem sendOn (s : State) (die : Nat) (p : Packet) : Posted s (s.sendOn die p).1 := by
  unfold State.sendOn
  split
  · exact of_fab (s.deliver_fab die p)
  · split
    · exact of_fab (s.toPort_fab ..)
    · exact refl s

theorem dropPacket (s : State) (p : Packet) (reason port : Nat) : Posted s (s.dropPacket p reason port) := by
  unfold State.dropPacket
  have h : Posted s ((s.bump (fabBase (port / 2) + 0x158) 1).raise (fabInt port) 4) :=
    (bump s _ (fabCnt _ _)).trans (raise _ (fabInt_int _) (by decide))
  dsimp only
  split
  · exact h
  · exact (h.trans (bump _ _ (fabCnt _ _))).trans (sendOn _ _ _)

theorem emit (s : State) (p : Packet) (die : Nat) : Posted s (s.emit p die) := by
  unfold State.emit
  split
  · dsimp only
    split
    · exact dropPacket ..
    · refine (foldl (fun s i => ?_) _ s).trans (foldl (fun s d => of_fab (s.deliver_fab ..)) _ _)
      split
      · exact of_fab (s.toPort_fab ..)
      · exact dropPacket ..
  · dsimp only
    split
    · exact sendOn ..
    · exact dropPacket ..

end Posted

/-! A list of TU numbers -/

theorem smem_sins (x y : Nat) (l : List Nat) : smem x (sins y l) = (decide (x = y) || smem x l) := by
  induction l with
  | nil => simp [sins, smem]
  | cons z zs ih =>
    simp only [smem, List.contains_eq_mem] at ih
    unfold sins
    split
    · simp [smem]
    · split
      · subst_vars
        simp [smem]
      · simp [smem, ih, Bool.or_left_comm]

theorem smem_sdel_same (x : Nat) (l : List Nat) : smem x (sdel x l) = false := by simp [smem, sdel]

theorem smem_filter_out {x : Nat} {l : List Nat} {p : Nat → Bool} (h : p x = false) : smem x (l.filter p) = false := by simp [smem, h]

/-! Recovery of marked TUs (R229-R231) -/

/-- t is s after recoveries have gone on: of memory only the TUs being programmed and recovered differ. -/
structure Recovers (s t : State) : Prop where
  rest : ∃ regs irq fab ldg cmds p r u, t = { s with core.regs := regs, core.irq := irq, core.fab := fab, core.ldg := ldg, core.cmds := cmds
                                                     core.mem.progQ := p, core.mem.recovering := r, core.mem.unrecLast := u }
  regs : RegsKept s t

namespace Recovers

theorem refl (s : State) : Recovers s s := ⟨⟨_, _, _, _, _, _, _, _, rfl⟩, .refl s⟩

theorem trans {s t u : State} (h : Recovers s t) (k : Recovers t u) : Recovers s u := by
  refine ⟨?_, h.regs.trans k.regs⟩
  obtain ⟨⟨_, _, _, _, _, _, _, _, rfl⟩, -⟩ := h
  obtain ⟨⟨_, _, _, _, _, _, _, _, rfl⟩, -⟩ := k
  exact ⟨_, _, _, _, _, _, _, _, rfl⟩

theorem of_posted {s t : State} (h : Posted s t) : Recovers s t := by
  obtain ⟨_, _, _, _, hr⟩ := h.rest
  exact ⟨⟨_, _, _, _, _, _, _, _, hr⟩, h.regs⟩

theorem ftlSettle (s : State) : Recovers s s.ftlSettle := by
  unfold State.ftlSettle
  split
  · exact ⟨⟨_, _, _, _, _, _, _, _, rfl⟩, .of_regs rfl⟩
  · exact refl s

theorem unrecovered (s : State) (tu : Nat) : Recovers s (s.unrecovered tu) := by
  have h : Recovers s { s with core.mem.recovering := sdel tu s.core.mem.recovering, core.mem.unrecLast := tu } :=
    ⟨⟨_, _, _, _, _, _, _, _, rfl⟩, .of_regs rfl⟩
  exact (h.trans (of_posted (.raise _ (by decide) (by decide)))).trans (ftlSettle _)

theorem peerReads (s : State) (tu e p src : Nat) : Recovers s (s.peerReads tu e p src) := by
  refine of_posted (Posted.foldl (fun s k => ?_) _ s)
  exact Posted.trans (t := (s.newTx _).1) ⟨⟨_, _, _, _, rfl⟩, .of_regs rfl⟩ (.emit ..)

theorem tryReplicas (tu : Nat) : ∀ (n i : Nat) (s : State), Recovers s (s.tryReplicas tu i n) := by
  intro n
  induction n with
  | zero => exact fun i s => unrecovered s tu
  | succ n ih =>
    intro i s
    unfold State.tryReplicas
    extract_lets r e first kind src covers d u
    have hu : Recovers s u := of_posted (.bump s _ (Accessed.hifCnt (by decide)))
    split
    · split
      · exact hu.trans (ih _ _)
      · split
        · exact hu
        · exact hu.trans ⟨⟨_, _, _, _, _, _, _, _, rfl⟩, .of_regs rfl⟩
    · split
      · exact peerReads ..
      · exact ih _ _

theorem beginRecovery (s : State) (tu : Nat) : Recovers s (s.beginRecovery tu) :=
  Recovers.trans (t := { s with core.mem.recovering := sins tu s.core.mem.recovering }) ⟨⟨_, _, _, _, _, _, _, _, rfl⟩, .of_regs rfl⟩
    (tryReplicas tu _ 0 _)

end Recovers

/-- What a record of the RAS log does to interrupt bits. -/
theorem rasLog_regs (s : State) (t c src die unit ctx a d n : Nat) : (s.rasLog t c src die unit ctx a d n).core.mem.marked = s.core.mem.marked
    ∧ (s.rasLog t c src die unit ctx a d n).core.mem.readQ = s.core.mem.readQ := by
  obtain ⟨_, _, _, _, _, h⟩ := s.rasLog_logOnly t c src die unit ctx a d n
  rw [h]
  exact ⟨rfl, rfl⟩

/-- A TU that could not be read is marked, and no read is begun for it. -/
theorem markTu_marks (s : State) (tu : Nat) : smem tu (s.markTu tu).core.mem.marked = true ∧ (s.markTu tu).core.mem.readQ = s.core.mem.readQ
    ∧ (smem tu s.core.mem.marked = false → (s.markTu tu).flagBit ftlInt 0 = true) := by
  unfold State.markTu
  split
  · rename_i h
    exact ⟨h, rfl, fun h' => by simp [h] at h'⟩
  · extract_lets _ _ u
    obtain ⟨u, hu⟩ : ∃ v, v = u := ⟨_, rfl⟩
    have hm : u.core.mem = { s.core.mem with marked := sins tu s.core.mem.marked } := by
      rw [hu]
      exact State.raise_mem _ _ _
    have hb : u.flagBit ftlInt 0 = true := by
      rw [hu]
      exact State.flagBit_raise _ _ _
    rw [← hu]
    obtain ⟨h1, h2⟩ := rasLog_regs u 0x12 1 0 4 0xFFFF 0xFFFF tu 0 1
    have hf := (u.rasLog_bitsSet 0x12 1 0 4 0xFFFF 0xFFFF tu 0 1).flagBit hb
    have hr := Recovers.beginRecovery (u.rasLog 0x12 1 0 4 0xFFFF 0xFFFF tu 0 1) tu
    obtain ⟨_, _, _, _, _, _, _, _, hrest⟩ := hr.rest
    refine ⟨?_, ?_, fun _ => hr.regs.flagBit (by decide) (by decide) hf⟩
    · rw [hrest]
      dsimp only
      rw [h1, hm, smem_sins]
      simp
    · rw [hrest]
      dsimp only
      rw [h2, hm]

/-! A recovery's program -/

/-- What the flash tier holds, marks, recovers and programs is the same. -/
def SameFlash (s t : State) : Prop := t.core.mem.flash = s.core.mem.flash ∧ t.core.mem.marked = s.core.mem.marked
  ∧ t.core.mem.recovering = s.core.mem.recovering ∧ t.core.mem.progQ = s.core.mem.progQ

theorem SameFlash.trans {s t u : State} (h : SameFlash s t) (k : SameFlash t u) : SameFlash s u :=
  ⟨k.1.trans h.1, k.2.1.trans h.2.1, k.2.2.1.trans h.2.2.1, k.2.2.2.trans h.2.2.2⟩

theorem SameFlash.of_mem {s t : State} (h : t.core.mem = s.core.mem) : SameFlash s t := by simp [SameFlash, h]

theorem SameFlash.hbmWrite (s : State) (a : Nat) (bs : List Byte) (c : Nat) : SameFlash s (s.hbmWrite a bs c) := by
  obtain ⟨_, _, _, h⟩ := s.hbmWrite_rest a bs c
  rw [h]
  exact ⟨rfl, rfl, rfl, rfl⟩

theorem SameFlash.bump (s : State) (o n : Nat) : SameFlash s (s.bump o n) := ⟨rfl, rfl, rfl, rfl⟩

theorem SameFlash.raise (s : State) (o i : Nat) : SameFlash s (s.raise o i) := .of_mem (State.raise_mem s o i)

theorem SameFlash.raiseIf (s : State) (p : Bool) (o i : Nat) : SameFlash s (s.raiseIf p o i) := by
  unfold State.raiseIf
  split
  · exact .raise s o i
  · exact .of_mem rfl

theorem SameFlash.programmed (s : State) : SameFlash s s.programmed := by
  have wear (w : Nat) : SameFlash s { s with core.mem.wear := w } := ⟨rfl, rfl, rfl, rfl⟩
  exact ((((wear _).trans (.bump ..)).trans (.bump ..)).trans (.bump ..)).trans (.raiseIf ..)

theorem SameFlash.of_logOnly {s t : State} (h : LogOnly s t) : SameFlash s t := by
  obtain ⟨_, _, _, _, _, h⟩ := h
  rw [h]
  exact ⟨rfl, rfl, rfl, rfl⟩

theorem SameFlash.ftlSettle (s : State) : SameFlash s s.ftlSettle := by
  unfold State.ftlSettle
  split <;> exact ⟨rfl, rfl, rfl, rfl⟩

theorem SameFlash.setPool (s : State) (k : Nat) (p : PoolTu) : SameFlash s (s.setPool k p) := ⟨rfl, rfl, rfl, rfl⟩

/-- What the completion of a program does to the pool. -/
def State.poolHeals (s : State) (tu : Nat) (bs : List Byte) : State :=
  match mget s.core.mem.pool (2 * tu) with
  | some p => if p.resident && p.poisonPin then (s.hbmWrite (s.poolDpa p.stack p.index) bs).setPool (2 * tu) { p with poisonPin := false } else s
  | none => s

theorem SameFlash.poolHeals (s : State) (tu : Nat) (bs : List Byte) : SameFlash s (s.poolHeals tu bs) := by
  unfold State.poolHeals
  split
  · split
    · exact (SameFlash.hbmWrite s _ bs _).trans (.setPool ..)
    · exact .of_mem rfl
  · exact .of_mem rfl

/-- The end of a recovery: its event, and the flash tier as it was. -/
theorem recovered_flash (s : State) (tu : Nat) (bs : List Byte) :
    ∃ t, t = ((((s.programmed.poolHeals tu bs).bump (ftlBase + 0x130) 1).raise ftlInt 1).rasLog 0x12 0 0 4 0xFFFF 0xFFFF tu 0 1).ftlSettle
      ∧ SameFlash s t ∧ t.flagBit ftlInt 1 = true := by
  have h := ((SameFlash.programmed s).trans (.poolHeals s.programmed tu bs)).trans (.bump _ (ftlBase + 0x130) 1)
  obtain ⟨u, hu⟩ : ∃ u, u = (s.programmed.poolHeals tu bs).bump (ftlBase + 0x130) 1 := ⟨_, rfl⟩
  rw [← hu] at h ⊢
  have hv := h.trans (.raise u ftlInt 1)
  have hb : (u.raise ftlInt 1).flagBit ftlInt 1 = true := State.flagBit_raise _ _ _
  obtain ⟨v, hv'⟩ : ∃ v, v = u.raise ftlInt 1 := ⟨_, rfl⟩
  rw [← hv'] at hv hb ⊢
  exact ⟨_, rfl, (hv.trans (.of_logOnly (v.rasLog_logOnly ..))).trans (.ftlSettle _),
    (Recovers.ftlSettle _).regs.flagBit (by decide) (by decide) ((v.rasLog_bitsSet 0x12 0 0 4 0xFFFF 0xFFFF tu 0 1).flagBit hb)⟩

/-! DISCARD -/

theorem memRead_filter (m : Mem) (p : Nat → Bool) (a : Nat) : memRead (m.filter (fun c => p c.1)) a = if p a then memRead m a else memDefault := by
  induction m with
  | nil => simp [memRead]
  | cons c m ih =>
    obtain ⟨b, x⟩ := c
    by_cases hb : b = a
    · subst hb
      cases hp : p b <;> simp [hp, memRead, ih]
    · cases hp : p b <;> simp [hp, memRead, hb, ih]

/-- A command of the flash tier that ends with a status. -/
theorem ftlDone_result (s : State) (code : Nat) : (mgetD (s.ftlDone code).core.cmds 4 {}).result = resultOf code := by
  simp [State.ftlDone]

/-- What DISCARD of a range makes of the flash tier. -/
theorem discard_range {s : State} (hb : s.cmdBusy 4 = false) (h : s.reg (fldFtlArg 0) + s.reg (fldFtlArg 1) ≤ s.flashTus) :
    (mgetD s.discard.core.cmds 4 {}).result = 0
    ∧ (∀ b, s.reg (fldFtlArg 0) ≤ b / tuBytes → b / tuBytes < s.reg (fldFtlArg 0) + s.reg (fldFtlArg 1) → memRead s.discard.core.mem.flash b = 0)
    ∧ (∀ b, (b / tuBytes < s.reg (fldFtlArg 0) ∨ s.reg (fldFtlArg 0) + s.reg (fldFtlArg 1) ≤ b / tuBytes) →
        memRead s.discard.core.mem.flash b = memRead s.core.mem.flash b)
    ∧ (∀ u, s.reg (fldFtlArg 0) ≤ u → u < s.reg (fldFtlArg 0) + s.reg (fldFtlArg 1) → smem u s.discard.core.mem.marked = false) := by
  unfold State.discard
  rw [if_neg (by simp [hb])]
  obtain ⟨a, ha⟩ : ∃ a, a = s.reg (fldFtlArg 0) := ⟨_, rfl⟩
  obtain ⟨n, hn⟩ : ∃ n, n = s.reg (fldFtlArg 1) := ⟨_, rfl⟩
  rw [← ha, ← hn] at h ⊢
  have hle : ¬ a + n > (s.startCmd 4 1 0).flashTus := not_lt.2 h
  simp only [hle, if_false]
  refine ⟨ftlDone_result _ 0, fun b h1 h2 => ?_, fun b hb => ?_, fun u h1 h2 => ?_⟩
  · refine (memRead_filter s.core.mem.flash (fun c => decide (c / tuBytes < a) || decide (a + n ≤ c / tuBytes)) b).trans (if_neg ?_)
    simp
    omega
  · refine (memRead_filter s.core.mem.flash (fun c => decide (c / tuBytes < a) || decide (a + n ≤ c / tuBytes)) b).trans (if_pos ?_)
    simpa using hb
  · refine smem_filter_out (l := s.core.mem.marked) ?_
    simp
    omega

/-- Settles O16: the flash tier's events, each by what it makes of the marks, the bytes and the command. -/
theorem flashEvents : Obligations.FlashEvents := by
  intro s tu
  refine ⟨fun hl htu => ⟨?_, ?_⟩, fun bs hl hq hr => ?_, fun hl hro => ?_, fun hd hb => ⟨⟨fun h => ?_, fun h => ?_⟩, fun hm hr => ?_⟩⟩
  · obtain ⟨h1, h2, h3⟩ := markTu_marks { s with core.mem.readQ := s.core.mem.readQ.filter (· ≠ tu) } tu
    refine answers_live_at hl (t := State.markTu _ tu) ((if_neg (not_le.2 htu)).trans (if_pos rfl)) ⟨h1, ?_, h3⟩
    show tu ∉ (State.markTu _ tu).core.mem.readQ
    rw [h2]
    simp
  · refine answers_live_at hl (t := { s with core.mem.readQ := s.core.mem.readQ.filter (· ≠ tu) }) ((if_neg (not_le.2 htu)).trans (if_neg Bool.false_ne_true))
      ⟨rfl, by simp, rfl⟩
  · obtain ⟨t, ht, ⟨hfl, hm, hrec, hpq⟩, hev⟩ := recovered_flash { s with
      core.mem.progQ := []
      core.mem.flash := memWrites s.core.mem.flash (tu * tuBytes) bs
      core.mem.marked := sdel tu s.core.mem.marked
      core.mem.recovering := sdel tu s.core.mem.recovering } tu bs
    refine answers_live_at hl (t := t) ?_ ⟨hfl, ?_, ?_, hpq, hev⟩
    · simp only [hq, List.find?_cons, decide_true, List.erase_cons_head, hr, Bool.not_true, Bool.false_eq_true, if_false, ht]
      rfl
    · exact (congrArg (smem tu) hm).trans (smem_sdel_same ..)
    · exact (congrArg (smem tu) hrec).trans (smem_sdel_same ..)
  · refine answers_live hl ?_
    rw [if_neg (by simp [hro])]
    exact ⟨State.raise_mem _ _ _, State.flagBit_raise _ _ _⟩
  · exact answers_dispatching hd (discard_range hb h)
  · refine answers_dispatching_at hd (t := (s.startCmd 4 1 0).ftlDone 0xC) ?_ ⟨ftlDone_result _ 0xC, rfl⟩
    unfold State.discard
    rw [if_neg (by simp [hb])]
    exact if_pos h
  · refine answers_dispatching_at hd (t := (s.startCmd 4 2 0).ftlSettle) ?_ ?_
    · unfold State.recoverAll
      rw [if_neg (by simp [hb])]
      simp only [hm, List.filter_nil, List.foldl_nil]
    · have hs : (s.startCmd 4 2 0).ftlSettle = { s.startCmd 4 2 0 with
          core.cmds := mupd (s.startCmd 4 2 0).core.cmds 4 {} (fun c => { c with busy := false, result := 0 }) } :=
        if_pos (by simp [State.startCmd, hr])
      rw [hs]
      exact ⟨by simp, by simp, rfl⟩

end Sys2Proof.Machine
end

section
/-! PROOF. Identity, evidence, the security state and the end of a life (16_bedrock R388-R401). -/
namespace Sys2Proof.Machine
open State

theorem answers_bedrock {f : State → State} {s : State} {p : State → Prop} (h : s.bedrockOn = true) (hp : p { s with core := (f s).core }) :
    Answers (liftCore (whenBedrock f) s) p := answers_core (by rwa [whenBedrock, guardBy_pos f h])

theorem answers_bedrock_at {f : State → State} {s t : State} {p : State → Prop} (h : s.bedrockOn = true) (ht : f s = t)
    (hp : p { s with core := t.core }) : Answers (liftCore (whenBedrock f) s) p := answers_bedrock h (by rwa [ht])

@[simp] theorem State.cmdDone_sec (s : State) (k code int bit : Nat) : (s.cmdDone k code int bit).core.sec = s.core.sec := State.raise_sec _ _ _

/-! Signatures -/

/-- What a response handed to its path leaves of the identity: what waits and the next index. -/
theorem give_sec (s : State) (path : Nat) (x : Nat × List Byte) : (s.give_ path x).core.sec.queue = s.core.sec.queue
    ∧ (s.give_ path x).core.sec.next = s.core.sec.next ∧ (path ≠ 0 → mget (s.give_ path x).core.sec.resp path = some x) := by
  unfold State.give_
  dsimp only
  split
  · rw [State.secDone, State.cmdDone_sec]
    exact ⟨rfl, rfl, fun h => absurd ‹_› h⟩
  · exact ⟨rfl, rfl, fun _ => mget_mput_same _ _ _⟩

theorem signAll_nil {s : State} (h : s.core.sec.queue = []) (n : Nat) : s.signAll n = s := by
  cases n with
  | zero => rfl
  | succ n =>
    unfold State.signAll
    rw [h]

/-- The state in which the response of a signed request is handed out. -/
def State.signs (s : State) : State := { s with core.sec.queue := [], core.sec.next := s.core.sec.next + 1 }.bump (secBase + 0x200) 1

/-- One request that waits and finds an index is signed. -/
theorem signAll_one {s : State} {r : SigReq} (he : s.exhausted = false) (hq : s.core.sec.queue = [r]) (hn : s.core.sec.next < s.core.sec.blkEnd) (n : Nat) :
    s.signAll (n + 1) = s.signs.give_ r.path (s.signedResponse r) := by
  have hn' : ¬ s.core.sec.next ≥ s.core.sec.blkEnd := not_le.2 hn
  refine Eq.trans ?_ (signAll_nil ((give_sec s.signs r.path (s.signedResponse r)).1) n)
  rw [State.signAll, hq]
  dsimp only
  rw [if_neg (by simp [he]), if_neg hn']
  rfl

/-- A request that finds an index and nothing before it is signed at once. -/
theorem requestSig_signs {s : State} {r : SigReq} (he : s.exhausted = false) (hq : s.core.sec.queue = []) (hn : s.core.sec.next < s.core.sec.blkEnd) :
    s.requestSig r = ({ s with core.sec.queue := [r] } : State).signs.give_ r.path (({ s with core.sec.queue := [r] } : State).signedResponse r) := by
  have hu := signAll_one (s := { s with core.sec.queue := [r] }) (r := r) he rfl hn 8
  unfold State.requestSig
  rw [if_neg (by simp [he]), if_neg (by simp [hq]), hq]
  exact hu

/-- The same, by what it changes of the identity. -/
theorem requestSig_takes {s : State} {r : SigReq} (he : s.exhausted = false) (hq : s.core.sec.queue = []) (hn : s.core.sec.next < s.core.sec.blkEnd) :
    (s.requestSig r).core.sec.next = s.core.sec.next + 1 ∧ (s.requestSig r).core.sec.queue = []
    ∧ (r.path ≠ 0 → mget (s.requestSig r).core.sec.resp r.path = some (s.signedResponse r)) := by
  obtain ⟨h1, h2, h3⟩ := give_sec ({ s with core.sec.queue := [r] } : State).signs r.path (({ s with core.sec.queue := [r] } : State).signedResponse r)
  rw [requestSig_signs he hq hn]
  exact ⟨h2, h1, h3⟩

theorem isPath_pos {p : Nat} (h : isPath p = true) : p ≠ 0 := by
  rintro rfl
  simp [isPath] at h

theorem identityIndices : Says.IdentityIndices := by
  intro s hon
  refine ⟨fun path payload hp hl hz he hq hn => ?_, fun path payload hp hl hz he hq hn => ?_, fun payload he hq hn => ?_, fun payload he => ?_,
    fun path hp => ?_, fun hl hw hb hi => ?_, fun hl hw hq => ?_⟩
  · obtain ⟨h1, h2, h3⟩ := requestSig_takes (r := ⟨path, 2, payload⟩) he hq hn
    refine answers_bedrock_at hon (t := s.requestSig ⟨path, 2, payload⟩) ?_ ⟨h1, (congrArg (Option.map (·.1)) (h3 (isPath_pos hp))).trans rfl, h2⟩
    rw [if_pos hp]
    exact if_pos (by simp [hl, hz])
  · obtain ⟨h1, h2, h3⟩ := requestSig_takes (r := ⟨path, 3, payload⟩) he hq hn
    refine answers_bedrock_at hon (t := s.requestSig ⟨path, 3, payload⟩) ?_ ⟨h1, (congrArg (Option.map (·.1)) (h3 (isPath_pos hp))).trans rfl⟩
    rw [if_pos hp]
    exact if_pos (by simp [hl, hz])
  · obtain ⟨h1, h2, h3⟩ := requestSig_takes (r := ⟨3, 4, payload⟩) he hq hn
    exact answers_bedrock hon ⟨h1, h3 (show (3 : Nat) ≠ 0 by decide)⟩
  · refine answers_bedrock_at hon (t := (s.raise secInt 3).refuse 3 2) (if_pos he) ⟨?_, State.flagBit_raise _ _ _, mget_mput_same _ _ _⟩
    show (s.raise secInt 3).core.sec.next = s.core.sec.next
    rw [State.raise_sec]
  · obtain ⟨h1, h2, h3⟩ := give_sec s path (0x81, s.identityResponse)
    exact answers_bedrock_at hon (t := s.give_ path (0x81, s.identityResponse)) (if_pos hp) ⟨h3 (isPath_pos hp), h2⟩
  · simp only [exec, execIndexReserve]
    rw [liftCore_goes, if_pos]
    simp [hl, hw]
    omega
  · simp only [exec, execIndexRecordWritten]
    refine answers_core ?_
    rw [if_pos (by simp [hl, hw]), signAll_nil (by exact hq)]
    exact ⟨rfl, rfl, rfl, rfl⟩

/-! The end of a life (R388) -/

/-- What an interrupted program leaves open. -/
theorem settleProg_rest (s : State) : ∃ free flash, s.settleProg = { s with core.free := free, core.mem.flash := flash } := by
  unfold State.settleProg
  generalize s.core.mem.progQ = l
  induction l generalizing s with
  | nil => exact ⟨_, _, rfl⟩
  | cons w l ih =>
    rw [List.foldl_cons]
    split
    · obtain ⟨_, _, h⟩ := ih { s with core.free := s.core.free + 1 }
      exact ⟨_, _, h⟩
    · obtain ⟨_, _, h⟩ := ih { s with core.free := s.core.free + 1, core.mem.flash := memWrites s.core.mem.flash (w.1 * tuBytes) w.2 }
      exact ⟨_, _, h⟩

theorem settleIdx_rest (s : State) : ∃ free i, s.settleIdx = { s with core.free := free, core.sec.idxRec := i } := by
  unfold State.settleIdx
  split <;> exact ⟨_, _, rfl⟩

/-- The state of start-up in which a life begins: the pins and what holds the rails are kept. -/
def rebooted (b : Boot) (cause : Nat) (phase : Phase) : Boot :=
  { phase := phase, cause := cause, pwrEn := b.pwrEn, perst := b.perst, tripN := b.tripN, hard := b.hard, trip := b.trip, inputLost := b.inputLost,
    deferred := b.deferred }

/-- What a new life keeps and begins with. -/
structure Reborn (s t : State) (cause : Nat) (phase : Phase) : Prop where
  ft : t.ft = {}
  fuse : t.fuse = s.fuse
  boot : t.core.boot = rebooted s.core.boot cause phase
  qm : t.core.qm = {}
  mmu : t.core.mmu = {}
  hbm : t.core.mem.hbm = []
  host : t.core.mem.host = s.core.mem.host
  bootArea : t.core.sec.bootArea = s.core.sec.bootArea

theorem newLife_reborn (s : State) (cause : Nat) (rails : Bool) (phase : Phase) : Reborn s (s.newLife cause rails phase) cause phase := by
  obtain ⟨_, _, h1⟩ := settleProg_rest s
  obtain ⟨_, _, h2⟩ := settleIdx_rest s.settleProg
  unfold State.newLife
  rw [h2, h1]
  exact ⟨rfl, rfl, rfl, rfl, rfl, rfl, rfl, rfl⟩

/-- The RAS latch of a reset that keeps the rails up, and of one that does not. -/
theorem newLife_ras (s : State) (cause : Nat) (phase : Phase) : (s.newLife cause true phase).core.ras.v = s.core.ras.v
    ∧ (s.newLife cause true phase).core.ras.fatal = (s.core.ras.fatal || s.core.ras.stop) ∧ (s.newLife cause false phase).core.ras = {} := by
  obtain ⟨_, _, h1⟩ := settleProg_rest s
  obtain ⟨_, _, h2⟩ := settleIdx_rest s.settleProg
  unfold State.newLife
  rw [h2, h1]
  exact ⟨rfl, rfl, rfl⟩

theorem resetModule_reborn (s : State) (cause : Nat) : Reborn s (s.resetModule cause) cause (if s.core.boot.perst || s.core.boot.trip then .rails else .rom) :=
  newLife_reborn ..

/-! SEC commands (R401) -/

/-- A SEC command that has ended. -/
theorem secDone_done (s : State) (code : Nat) : (mgetD (s.secDone code).core.cmds 3 {}).result = resultOf code
    ∧ (mgetD (s.secDone code).core.cmds 3 {}).busy = false ∧ (s.secDone code).flagBit secInt 0 = true := by
  refine ⟨?_, ?_, State.cmdDone_flagBit _ _ _ _ _⟩ <;> rw [State.secDone, State.cmdDone_cmd]

theorem secDone_sec (s : State) (code : Nat) : (s.secDone code).core.sec = s.core.sec := State.cmdDone_sec _ _ _ _ _

theorem extend_gives {s u : State} {code : Nat} (hb : s.cmdBusy 3 = false)
    (h : (if bits (s.reg ⟨secBase + 0x28, 0, 64, 0⟩) 0 3 < 4 then (s.begun 3 0x10, 0xC)
      else if s.core.sec.log.length ≥ logHost then ((s.begun 3 0x10).raise secInt 4, 0xE)
      else ((s.begun 3 0x10).extend (bits (s.reg ⟨secBase + 0x28, 0, 64, 0⟩) 0 3) (memReads s.core.sec.data 0 64), 0)) = (u, code)) :
    s.secExtend = u.secDone code := by
  unfold State.secExtend State.secCmd
  exact runCmd_gives hb h

theorem secCommands : Says.SecCommands := by
  intro s hon hb
  obtain ⟨a, ha⟩ : ∃ a, a = s.reg ⟨secBase + 0x28, 0, 64, 0⟩ := ⟨_, rfl⟩
  dsimp only
  rw [← ha]
  refine ⟨?_, fun he hq hn => ⟨?_, fun hlog => ?_⟩, fun hlog => ?_, fun hr hlen => ?_, fun hr => ?_, fun hr hlen => ?_, fun hk => ?_, fun hk => ?_⟩
  · obtain ⟨u, hu⟩ : ∃ u, u = ((s.begun 3 1).putSecData s.identityResponse).setReg ⟨secBase + 0x30, 0, 64, 0⟩ s.identityResponse.length := ⟨_, rfl⟩
    have hs : u.core.sec = { s.core.sec with data := memWrites s.core.sec.data 0 (fitTo 16384 s.identityResponse) } := by
      rw [hu]
      rfl
    refine answers_bedrock_at hon (t := u.secDone 0) (by rw [hu, State.secGetIdentity, State.secCmd, runCmd_idle hb]; rfl) ⟨secDone_done u 0, ?_, ?_⟩
    · exact (congrArg Sec.data (secDone_sec u 0)).trans (by rw [hs])
    · exact (congrArg Sec.next (secDone_sec u 0)).trans (by rw [hs])
  · obtain ⟨r, hr⟩ : ∃ r : SigReq, r = ⟨0, 2, memReads s.core.sec.data 0 36⟩ := ⟨_, rfl⟩
    have hg := requestSig_signs (s := s.startCmd 3 2 0) (r := r) he hq hn
    have hpath : r.path = 0 := by rw [hr]
    obtain ⟨h1, -, -⟩ := requestSig_takes (s := s.startCmd 3 2 0) (r := r) he hq hn
    refine answers_bedrock_at hon (t := (s.startCmd 3 2 0).requestSig r) ?_ ⟨?_, h1⟩
    · rw [hr]
      exact if_neg (by simp [hb])
    · rw [hg, hpath]
      exact secDone_done _ 0
  · obtain ⟨h1, -, -⟩ := requestSig_takes (s := s.startCmd 3 3 0) (r := ⟨0, 3, leBytes 4 a⟩) he hq hn
    refine answers_bedrock_at hon (t := (s.startCmd 3 3 0).requestSig ⟨0, 3, leBytes 4 a⟩) ?_ h1
    unfold State.secGetLog
    rw [← ha, if_neg (by simp [hb]), if_neg (by simp [hlog])]
  · refine answers_bedrock_at hon (t := (s.begun 3 3).secDone 0xC) ?_ ⟨secDone_done _ 0xC, secDone_sec _ _⟩
    unfold State.secGetLog
    rw [← ha, if_neg (by simp [hb]), if_pos (by simp [hlog])]
    exact runCmd_idle hb ..
  · obtain ⟨u, hu⟩ : ∃ u, u = (s.begun 3 0x10).extend (bits a 0 3) (memReads s.core.sec.data 0 64) := ⟨_, rfl⟩
    have hs := secDone_sec u 0
    refine answers_bedrock_at hon (t := u.secDone 0) (extend_gives hb ?_) ⟨secDone_done u 0, ?_, fun r hne => ?_⟩
    · rw [← ha, if_neg (not_lt.2 hr), if_neg (not_le.2 hlen), hu]
    · refine (congrArg Sec.log hs).trans ?_
      rw [hu]
      rfl
    · refine (congrArg (fun x : Sec => fitTo 64 (mgetD x.meas r [])) hs).trans ?_
      rw [hu]
      exact congrArg (fitTo 64) (mgetD_mput_ne _ _ _ hne)
  · refine answers_bedrock_at hon (t := (s.begun 3 0x10).secDone 0xC) (extend_gives hb ?_) ⟨secDone_done _ 0xC, secDone_sec _ _⟩
    rw [← ha, if_pos hr]
  · refine answers_bedrock_at hon (t := ((s.begun 3 0x10).raise secInt 4).secDone 0xE) (extend_gives hb ?_) ⟨secDone_done _ 0xE, ?_, ?_⟩
    · rw [← ha, if_neg (not_lt.2 hr), if_pos hlen]
    · exact (secDone_sec _ _).trans (State.raise_sec _ _ _)
    · exact (State.raise_bitsSet _ (ks := [8 * secInt + 0]) (by simp)).flagBit (State.flagBit_raise _ _ _)
  · obtain ⟨hft, -, hboot, hqm, -, hhbm, hhost, harea⟩ := resetModule_reborn s 5
    obtain ⟨t, ht⟩ : ∃ t, t = s.resetModule 5 := ⟨_, rfl⟩
    rw [← ht] at hft hboot hqm hhbm hhost harea
    refine ⟨{ s with ft := t.ft, core := t.core }, ?_, ?_, ?_, hft, hqm, hhbm, hhost, harea⟩
    · show liftTime _ s = _
      rw [liftTime_goes, whenBedrock, guardBy_pos _ hon, State.secReset, if_neg (by simp [hb]), ← ha, if_pos hk, ht]
    · rw [hboot]
      rfl
    · rw [hboot, rebooted]
      split <;> exact Phase.noConfusion
  · refine ⟨{ s with ft := ((s.begun 3 0x20).secDone 0xC).ft, core := ((s.begun 3 0x20).secDone 0xC).core }, ?_, secDone_done _ 0xC, ?_, secDone_sec _ _⟩
    · show liftTime _ s = _
      have h : s.secCmd 0x20 (fun s => (s, 0xC)) = (s.begun 3 0x20).secDone 0xC := runCmd_idle hb ..
      rw [liftTime_goes, whenBedrock, guardBy_pos _ hon, State.secReset, if_neg (by simp [hb]), ← ha, if_neg hk, h]
    · exact State.raise_ft _ _ _

/-! The security state (R380, R394) -/

/-- A change of the security state, while M3 is open and the log has room for more than the closing event. -/
theorem secChange_extends {s : State} (hc : s.core.sec.m3closed = false) (hl : s.core.sec.log.length + 1 < logCap) : ∃ d, s.secChange = s.extend 3 d := by
  refine ⟨digest (Config.secState s.core.host.ideIo s.core.host.ideCm s.core.sec.roEn), ?_⟩
  unfold State.secChange
  rw [if_neg (by simp [hc]; omega), if_neg (by omega)]

theorem extend_rest (s : State) (r : Nat) (d : List Byte) : ∃ meas e, s.extend r d = { s with
    core.sec.meas := meas, core.sec.log := s.core.sec.log ++ [e] } := ⟨_, _, rfl⟩

theorem meas_extend_ne (s : State) {r k : Nat} (d : List Byte) (h : k ≠ r) : (s.extend r d).meas k = s.meas k :=
  congrArg (fitTo 64) (mgetD_mput_ne _ _ _ h)

theorem securityState : Says.SecurityState := by
  intro s hl hon hc hlog
  refine ⟨fun io cm hne => ?_, ?_, fun hro => ?_, fun hro => ?_, answers_bedrock hon ⟨rfl, rfl⟩, fun proto type len payload h => ?_,
    fun proto type len payload h hp => ?_⟩
  · obtain ⟨v, hv⟩ : ∃ v : State, v = { s with core.host.ideIo := io, core.host.ideCm := cm } := ⟨_, rfl⟩
    obtain ⟨d, hd⟩ := secChange_extends (s := v) (by rw [hv]; exact hc) (by rw [hv]; exact hlog)
    obtain ⟨_, _, hx⟩ := extend_rest v 3 d
    refine answers_bedrock_at hon (t := v.extend 3 d) ?_ ⟨?_, ?_, ?_, fun r hr => ?_⟩
    · rw [← hd, hv]
      refine if_neg ?_
      have hl' : ({ s with core.host.ideIo := io, core.host.ideCm := cm } : State).live = true := hl
      simp only [hl', Bool.not_true, Bool.or_false, Bool.and_eq_true, decide_eq_true_eq]
      tauto
    · rw [hx, hv]
    · rw [hx, hv]
    · rw [hx, hv]
      simp
    · refine (meas_extend_ne v d hr).trans ?_
      rw [hv]
      rfl
  · show liftCore _ s = .next s
    rw [liftCore_goes, whenBedrock, guardBy_pos _ hon, if_pos (by simp)]
  · obtain ⟨v, hv⟩ : ∃ v : State, v = { s with core.sec.roEn := true } := ⟨_, rfl⟩
    obtain ⟨d, hd⟩ := secChange_extends (s := v) (by rw [hv]; exact hc) (by rw [hv]; exact hlog)
    obtain ⟨_, _, hx⟩ := extend_rest v 3 d
    refine answers_live_at hl (t := v.extend 3 d) ?_ ⟨?_, ?_⟩
    · rw [← hd, hv]
      unfold State.setRoEn
      rw [if_neg (by simp [hc, hro]), if_neg (by omega)]
    · rw [hx, hv]
    · rw [hx, hv]
      simp
  · show liftCore _ s = .next s
    rw [liftCore_goes, whenLive_pos _ hl, State.setRoEn, if_pos (by simp [hro])]
  · show liftCore _ s = _
    rw [liftCore_goes, whenBedrock, guardBy_pos _ hon, if_pos h]
  · show liftCore _ s = _
    rw [liftCore_goes, whenBedrock, guardBy_pos _ hon, if_neg (not_lt.2 h), if_neg (by omega)]
    dsimp only
    rw [if_neg (by omega)]

/-- Settles O48: signatures take indices one by one, SEC commands end by themselves, and M3 records the security state. -/
theorem security : Obligations.Security := ⟨identityIndices, secCommands, securityState⟩

end Sys2Proof.Machine
end

section
/-! PROOF. Start-up stages, power, heat and management (16_bedrock R384-R387, 19_power R431-R438). -/
namespace Sys2Proof.Machine
open State

/-! Start-up -/

/-- A module in its ROM stage with HOST_PERST_N asserted. -/
def heldInRom : State := { core := { boot := { phase := .rom, perst := true } } }

/-- STARTUP_FAILURE waits for the pin: it changes nothing. -/
theorem heldInRom_startupFailure : exec (.startupFailure 1 0) heldInRom = .next heldInRom := rfl

/-- Refutes O49: failure 1 in the ROM stage is stated without the release of HOST_PERST_N, which holds start-up. -/
theorem not_pinsAndStartup : ¬ Obligations.PinsAndStartup := by
  rintro ⟨-, stages, -⟩
  obtain ⟨-, -, -, -, failure, -⟩ := stages heldInRom rfl
  obtain ⟨t, ht, hp, -⟩ := failure 1 0 (.inl ⟨rfl, rfl⟩)
  rw [heldInRom_startupFailure] at ht
  cases ht
  exact absurd hp (by decide)

/-! Caps (R431) -/

theorem answers_marl {f : State → State} {s : State} {p : State → Prop} (h : s.marlOn = true) (hp : p { s with core := (f s).core }) :
    Answers (liftCore (whenMarl f) s) p := answers_core (by rwa [whenMarl, guardBy_pos f h])

theorem State.pwrEvent_rest (s : State) (i : Nat) : ∃ regs irq, s.pwrEvent i = { s with core.regs := regs, core.irq := irq } := by
  unfold State.pwrEvent
  split
  · exact ⟨_, _, rfl⟩
  · exact s.raise_core _ _

/-- Every cap in force lies at 600 W or above. -/
theorem caps_floor (s : State) : ∀ c ∈ s.caps, 600 ≤ c.1 := by
  have on (w src : Nat) : ∀ c ∈ (if w = 0 then [] else [(max 600 w, src)] : List (Nat × Nat)), 600 ≤ c.1 := by
    intro c hc
    split at hc
    · simp at hc
    · rw [List.mem_singleton] at hc
      rw [hc]
      exact le_max_left _ _
  intro c hc
  simp only [State.caps, List.mem_append] at hc
  rcases hc with (((h | h) | h) | h) | h
  · exact on _ _ c h
  · exact on _ _ c h
  · exact on _ _ c h
  · exact on _ _ c h
  · split at h
    · rw [List.mem_singleton] at h
      rw [h]
      exact le_max_left _ _
    · simp at h

/-- The least of a list of caps and a first one: no more than any, and no less than what bounds all. -/
theorem foldl_least (l : List (Nat × Nat)) (m : Nat × Nat) (b : Nat) (hm : b ≤ m.1) (hl : ∀ c ∈ l, b ≤ c.1) :
    (l.foldl (fun m c => if c.1 < m.1 then c else m) m).1 ≤ m.1 ∧ b ≤ (l.foldl (fun m c => if c.1 < m.1 then c else m) m).1
    ∧ ∀ c ∈ l, (l.foldl (fun m c => if c.1 < m.1 then c else m) m).1 ≤ c.1 := by
  induction l generalizing m with
  | nil => exact ⟨le_rfl, hm, by simp⟩
  | cons c l ih =>
    rw [List.foldl_cons]
    have hc := hl c (List.mem_cons_self ..)
    have hl' : ∀ x ∈ l, b ≤ x.1 := fun x hx => hl x (List.mem_cons_of_mem _ hx)
    split
    · rename_i hlt
      obtain ⟨h1, h2, h3⟩ := ih c hc hl'
      refine ⟨h1.trans hlt.le, h2, fun x hx => ?_⟩
      rcases List.mem_cons.1 hx with rfl | hx
      · exact h1
      · exact h3 x hx
    · rename_i hlt
      obtain ⟨h1, h2, h3⟩ := ih m hm hl'
      refine ⟨h1, h2, fun x hx => ?_⟩
      rcases List.mem_cons.1 hx with rfl | hx
      · exact h1.trans (not_lt.1 hlt)
      · exact h3 x hx

theorem effCap_bounds (s : State) : s.effCap.1 ≤ s.pwrLimit ∧ 600 ≤ s.effCap.1 ∧ ∀ c ∈ s.caps, s.effCap.1 ≤ c.1 := by
  refine foldl_least s.caps (s.pwrLimit, 0) 600 ?_ (caps_floor s)
  unfold State.pwrLimit
  split
  · decide
  · split <;> decide

/-! PACE_STEP (R432) -/

/-- What a step of pacing leaves: the duty and the alert, by the cap. -/
theorem paceStep_gives {s : State} (h : s.marlOn = true) (p : Nat) : ∃ regs irq, exec (.paceStep p) s = .next { s with
    core.regs := regs, core.irq := irq, core.pwr := { s.core.pwr with
      duty := if s.effCap.1 < p ∧ 1 < s.core.pwr.duty then s.core.pwr.duty - 1
        else if 100 * p < 98 * s.effCap.1 ∧ s.core.pwr.duty < 64 then s.core.pwr.duty + 1 else s.core.pwr.duty,
      alertDuty := s.core.pwr.alertDuty && decide (s.effCap.1 ≤ p) } } := by
  show ∃ regs irq, liftCore _ s = _
  rw [liftCore_goes, whenMarl, guardBy_pos _ h]
  dsimp only
  generalize hcap : s.effCap.1 = cap
  generalize hd : s.core.pwr.duty = d
  by_cases hp : p < cap
  · have h1 : ¬ (cap < p ∧ 1 < d) := by omega
    have h1' : ¬ (decide (p > cap) && decide (d > 1)) = true := by simpa using h1
    have hle : decide (cap ≤ p) = false := decide_eq_false (by omega)
    simp only [if_pos hp, if_neg h1, if_neg h1', hle, Bool.and_false]
    by_cases h2 : 100 * p < 98 * cap ∧ d < 64
    · have h2' : (decide (100 * p < 98 * cap) && decide (d < 64)) = true := by simpa using h2
      simp only [if_pos h2, if_pos h2']
      exact ⟨_, _, rfl⟩
    · have h2' : ¬ (decide (100 * p < 98 * cap) && decide (d < 64)) = true := by simpa using h2
      simp only [if_neg h2, if_neg h2']
      exact ⟨_, _, rfl⟩
  · have hle : decide (cap ≤ p) = true := decide_eq_true (by omega)
    have h2 : ¬ (100 * p < 98 * cap ∧ d < 64) := by omega
    have h2' : ¬ (decide (100 * p < 98 * cap) && decide (d < 64)) = true := by simpa using h2
    simp only [if_neg hp, if_neg h2, if_neg h2', hle, Bool.and_true]
    by_cases h1 : cap < p ∧ 1 < d
    · have h1' : (decide (p > cap) && decide (d > 1)) = true := by simpa using h1
      simp only [if_pos h1, if_pos h1']
      split
      · obtain ⟨_, _, he⟩ := State.pwrEvent_rest { s with core.pwr.duty := d - 1 } 3
        exact ⟨_, _, by rw [he]⟩
      · exact ⟨_, _, rfl⟩
    · have h1' : ¬ (decide (p > cap) && decide (d > 1)) = true := by simpa using h1
      simp only [if_neg h1, if_neg h1']
      subst hd
      exact ⟨_, _, rfl⟩

theorem dutyFloor_gives {s : State} (h : s.marlOn = true) (hd : s.core.pwr.duty = 1) :
    exec .dutyFloorTimeout s = .next { s with core.pwr.alertDuty := true } := by
  show liftCore _ s = _
  rw [liftCore_goes, whenMarl, guardBy_pos _ h, if_pos hd]

theorem dutyFollowsPower : Says.DutyFollowsPower := by
  intro s p h h1 h64
  refine ⟨?_, fun hd => ⟨_, dutyFloor_gives h hd, by simp [State.alert], hd⟩⟩
  obtain ⟨regs, irq, he⟩ := paceStep_gives h p
  refine ⟨_, he, ?_⟩
  dsimp only
  refine ⟨?_, ?_, fun a b => if_pos ⟨a, b⟩, fun a b => ?_, fun a b => ?_, fun a => ?_, rfl, rfl⟩
  · split
    · omega
    · split <;> omega
  · split
    · omega
    · split <;> omega
  · rw [if_neg (by omega), if_pos ⟨a, b⟩]
  · rw [if_neg (by omega), if_neg (by omega)]
  · simp [a]

/-! Pacing entries and the management endpoint (R433, R437, R438) -/

theorem scheduled_rest (s : State) : ∃ u, s.scheduled = { s with core.unsync := u } ∧ ((s.ft.lock = .locked ∨ s.ft.lock = .holdover) → u = s.core.unsync) := by
  unfold State.scheduled
  split
  · exact ⟨_, rfl, fun h => by simp [*] at h⟩
  · exact ⟨_, rfl, fun h => by simp [*] at h⟩
  · exact ⟨_, rfl, fun _ => rfl⟩

/-- The entry that triggers first sets its cap and is disarmed. -/
theorem paceEntry_gives {s : State} {n : Nat} {e : Pace} (ht : s.timing = true) (hf : firstDue s.now s.core.pwr.entries = some (n, e)) :
    ∃ t unsync regs irq, exec (.paceEntryTrigger n) s = .next t ∧ t = { s with
        core.unsync := unsync, core.regs := regs, core.irq := irq
        core.pwr := { s.core.pwr with pace := e.w, entries := mput s.core.pwr.entries n { e with armed := false } } }
      ∧ t.counter (pwrBase + 0x118) = (s.counter (pwrBase + 0x118) + 1) % 2 ^ 64
      ∧ ((s.ft.lock = .locked ∨ s.ft.lock = .holdover) → unsync = s.core.unsync) := by
  obtain ⟨u, hu, hlock⟩ := scheduled_rest s
  obtain ⟨v, hv⟩ : ∃ v : State, v = { s with
    core.unsync := u, core.pwr.entries := mput s.core.pwr.entries n { e with armed := false }, core.pwr.pace := e.w } := ⟨_, rfl⟩
  obtain ⟨regs, irq, hr⟩ := State.pwrEvent_rest (v.bump (pwrBase + 0x118) 1) 4
  have hc : ((v.bump (pwrBase + 0x118) 1).pwrEvent 4).counter (pwrBase + 0x118) = (s.counter (pwrBase + 0x118) + 1) % 2 ^ 64 := by
    have hb : (v.bump (pwrBase + 0x118) 1).counter (pwrBase + 0x118) = (s.counter (pwrBase + 0x118) + 1) % 2 ^ 64 := by
      rw [State.counter_bump_same, hv]
      rfl
    unfold State.pwrEvent
    split
    · exact hb
    · rw [State.counter_raise _ _ _ (by decide), hb]
  refine ⟨(v.bump (pwrBase + 0x118) 1).pwrEvent 4, u, regs, irq, ?_, ?_, hc, hlock⟩
  · simp only [exec, execPaceEntryTrigger]
    rw [liftCore_goes, State.paceTrigger, whenTiming, guardBy_pos _ ht]
    simp only [hf, ne_eq, not_true_eq_false, if_false, hu]
    rw [← hv, hr, hv]
    rfl
  · rw [hr, hv]
    rfl

theorem answers_managed_at {f : State → State} {s t : State} (h : s.managed = true) (ht : f s = t) :
    liftCore (whenManaged f) s = .next { s with core := t.core } := by
  rw [liftCore_goes, whenManaged, guardBy_pos f h, ht]

theorem setEffecter_takes {s : State} (h : s.managed = true) {w : Nat} (hw : w = 0 ∨ (600 ≤ w ∧ w ≤ s.pwrLimit)) :
    exec (.pldmSetEffecter w) s = .next { s with core.pwr.oob := w, core.pwr.mctp := some .success } :=
  answers_managed_at h (t := { s with core.pwr.oob := w, core.pwr.mctp := some .success }) (if_pos (by simpa using hw))

theorem setEffecter_refuses {s : State} (h : s.managed = true) {w : Nat} (h0 : w ≠ 0) (hw : w < 600 ∨ s.pwrLimit < w) :
    exec (.pldmSetEffecter w) s = .next { s with core.pwr.mctp := some .invalidInput } :=
  answers_managed_at h (t := { s with core.pwr.mctp := some .invalidInput }) (if_neg (by simp [h0]; omega))

theorem sensorRead_value {s : State} (h : s.managed = true) {id : Nat} {v : Int} (hv : s.sensorValue id = some v) :
    exec (.pldmSensorRead id) s = .next { s with core.pwr.mctp := some (.value v) } :=
  answers_managed_at h (t := { s with core.pwr.mctp := some (.value v) }) (by simp only [hv]; rfl)

theorem sensorRead_none {s : State} (h : s.managed = true) {id : Nat} (hv : s.sensorValue id = none) :
    exec (.pldmSensorRead id) s = .next { s with core.pwr.mctp := some .invalidInput } :=
  answers_managed_at h (t := { s with core.pwr.mctp := some .invalidInput }) (by simp only [hv]; rfl)

theorem mctpControl_gives {s : State} (h : s.managed = true) (e : Nat) :
    exec (.mctpControl e) s = .next { s with core.pwr.eid := e % 256, core.pwr.mctp := some .success } :=
  answers_managed_at h (t := { s with core.pwr.eid := e % 256, core.pwr.mctp := some .success }) rfl

theorem capsAndPacing : Says.CapsAndPacing := by
  intro s
  refine ⟨effCap_bounds s, fun n e ht hf => ?_, fun h w hw => ⟨_, setEffecter_takes h hw, rfl, rfl⟩,
    fun h w h0 hw => ⟨_, setEffecter_refuses h h0 hw, rfl, rfl⟩, fun h id v hv => ⟨_, sensorRead_value h hv, rfl⟩,
    fun h e => ⟨_, mctpControl_gives h e, rfl, rfl⟩⟩
  obtain ⟨t, u, regs, irq, he, hr, hc, hlock⟩ := paceEntry_gives ht hf
  refine ⟨t, he, by rw [hr], ?_, hc, fun hl => ?_⟩
  · rw [hr]
    exact mget_mput_same ..
  · rw [hr]
    exact hlock hl

/-! Heat (R434, R435) -/

theorem liftTime_marl {f : State → State} {s t : State} (h : s.marlOn = true) (ht : f s = t) :
    liftTime (whenMarl f) s = .next { s with ft := t.ft, core := t.core } := by
  rw [liftTime_goes, whenMarl, guardBy_pos f h, ht]

/-- The reading of a sensor: 0 where its stack is absent. -/
def State.sensed (s : State) (k : Nat) (t : Int) : Int := if 5 ≤ k ∧ k ≤ 12 ∧ s.stackPresent (k - 5) = false then 0 else t

/-- What one reading changes: its sensor, with the level that the reading gives. -/
theorem senseOne_rest (s : State) (k : Nat) (t : Int) : ∃ regs irq ev x, (s.senseOne k t).1 = { s with
      core.regs := regs, core.irq := irq, core.pwr := { s.core.pwr with sensors := mput s.core.pwr.sensors k x, events := ev } }
    ∧ x.t = s.sensed k t ∧ (¬ (5 ≤ k ∧ k ≤ 12) → x.level = levelAt k t (mgetD s.core.pwr.sensors k {}).level) := by
  unfold State.senseOne
  extract_lets absent t' old n c1 p1 u1 up down c2 p2 u2 u3 u4
  have hx : t' = s.sensed k t := by
    unfold t' absent State.sensed
    simp only [Bool.and_eq_true, decide_eq_true_eq, Bool.not_eq_true', and_assoc]
  have hn (hk : ¬ (5 ≤ k ∧ k ≤ 12)) : n = levelAt k t old.level := by
    have ha : absent = false := by
      unfold absent
      simp only [Bool.and_eq_false_iff, decide_eq_false_iff_not]
      omega
    unfold n t'
    rw [ha]
    rfl
  have step (v : State) (l i : Nat) : ∃ regs irq, (if up l then v.pwrEvent i else v) = { v with core.regs := regs, core.irq := irq } := by
    split
    · exact v.pwrEvent_rest i
    · exact ⟨_, _, rfl⟩
  obtain ⟨r1, q1, h1⟩ := step u2 1 1
  obtain ⟨r2, q2, h2⟩ := step u3 2 2
  refine ⟨r2, q2, u2.core.pwr.events, { t := t', max := max old.max t', level := n }, ?_, hx, hn⟩
  show u4 = _
  rw [show u4 = { u3 with core.regs := r2, core.irq := q2 } from h2, show u3 = { u2 with core.regs := r1, core.irq := q1 } from h1]

/-- A reading below TRIP does not trip. -/
theorem senseOne_below {s : State} {k : Nat} {t : Int} (h : t < 8 * (levelsOf k).2.2) : (s.senseOne k t).2 = false := by
  unfold State.senseOne
  extract_lets absent t' old n c1 p1 u1 up down c2 p2 u2 u3 u4
  show up 3 = false
  unfold up
  by_cases hold : old.level < 3
  · suffices hn : ¬ 3 ≤ n by simp [hn]
    unfold n
    split
    · decide
    · have ht' : t' = t := if_neg ‹_›
      rw [ht']
      unfold levelAt
      extract_lets l holds
      have h3 : holds 3 l.2.2 = false := by
        unfold holds
        simp
        constructor
        · exact h
        · omega
      rw [h3]
      simp only [Bool.false_eq_true, if_false]
      split
      · decide
      · split <;> decide
  · simp [hold]

/-- Readings of the sensors from number i on. -/
def State.senseAll (s : State) (i : Nat) (l : List Int) (b : Bool) : State × Bool :=
  (l.zipIdx i).foldl (fun (a : State × Bool) x =>
    let b := a.1.senseOne x.2 x.1
    (b.1, a.2 || b.2)) (s, b)

/-- What the readings change, and that none below TRIP trips. -/
theorem senseAll_rest (l : List Int) : ∀ (i : Nat) (s : State) (b : Bool), ∃ regs irq ev m, (s.senseAll i l b).1 = { s with
      core.regs := regs, core.irq := irq, core.pwr := { s.core.pwr with sensors := m, events := ev } }
    ∧ (∀ k, k < i → mget m k = mget s.core.pwr.sensors k)
    ∧ (∀ k v, l[k]? = some v → (mgetD m (i + k) {}).t = s.sensed (i + k) v)
    ∧ ((∀ k v, l[k]? = some v → v < 8 * (levelsOf (i + k)).2.2) → (s.senseAll i l b).2 = b) := by
  induction l with
  | nil => exact fun i s b => ⟨_, _, _, _, rfl, fun _ _ => rfl, fun k v h => by simp at h, fun _ => rfl⟩
  | cons t l ih =>
    intro i s b
    obtain ⟨r1, q1, e1, x, h1, hx, -⟩ := senseOne_rest s i t
    obtain ⟨r2, q2, e2, m, h2, hlow, hat, htrip⟩ := ih (i + 1) (s.senseOne i t).1 (b || (s.senseOne i t).2)
    have hstep : s.senseAll i (t :: l) b = (s.senseOne i t).1.senseAll (i + 1) l (b || (s.senseOne i t).2) := by
      simp [State.senseAll, List.zipIdx_cons]
    rw [hstep]
    refine ⟨r2, q2, e2, m, by rw [h2, h1], fun k hk => ?_, fun k v hv => ?_, fun hall => ?_⟩
    · rw [hlow k (by omega), h1]
      exact mget_mput_ne _ _ (by omega)
    · cases k with
      | zero =>
        obtain rfl : t = v := by simpa using hv
        have hm : mget m i = some x := by
          rw [hlow i (by omega), h1]
          exact mget_mput_same ..
        simp [mgetD, hm, hx]
      | succ k =>
        have := hat k v (by simpa using hv)
        rw [h1] at this
        rw [show i + (k + 1) = i + 1 + k by omega]
        exact this
    · rw [htrip fun k v hv => ?_, senseOne_below (k := i) (hall 0 t rfl), Bool.or_false]
      have := hall (k + 1) v (by simpa using hv)
      rwa [show i + (k + 1) = i + 1 + k by omega] at this

/-- The state with the input and the rails that THERMAL_SAMPLE records. -/
def State.metered (s : State) (vin watts : Nat) (rails : List Nat) : State :=
  { s with core.pwr.vin := vin % 65536, core.pwr.watts := watts % 65536, core.pwr.vinLow := decide (vin < 4000),
           core.pwr.rails := rails.zipIdx.map (fun x => (x.2, x.1)) }

/-- The readings that THERMAL_SAMPLE takes. -/
def State.sampled (s : State) (temps : List Int) (vin watts : Nat) (rails : List Nat) : State × Bool :=
  (s.metered vin watts rails).senseAll 0 (temps.take 16) false

/-- A sample that does not trip: the readings, with the thermal cap of a module that has come to THROTTLE. -/
theorem thermalSample_gives {s : State} (h : s.marlOn = true) {temps : List Int} {vin watts : Nat} {rails : List Nat} {u : State}
    (hu : s.sampled temps vin watts rails = (u, false)) : ∃ regs th al, exec (.thermalSample temps vin watts rails) s = .next { s with
      ft := u.ft, core := { u.core with regs := regs, pwr := { u.core.pwr with therm := th, alertTherm := al } } }
    ∧ (u.throttled = true → s.throttled = false → th = some (watts % 65536, 0) ∧ al = true) := by
  have tail (v : State) : ∃ regs, (if u.throttled then (v.bump (pwrBase + 0x108) (watts % 65536)).bump (pwrBase + 0x110) 1
      else v.bump (pwrBase + 0x108) (watts % 65536)) = { v with core.regs := regs } := by
    split <;> exact ⟨_, rfl⟩
  have capped : ∃ th al, (if u.throttled && (!s.throttled || u.core.pwr.therm.isNone && !u.core.boot.trip)
        then { u with core.pwr.therm := some (watts % 65536, 0), core.pwr.alertTherm := true }
        else if !u.throttled then { u with core.pwr.therm := none, core.pwr.alertTherm := false } else u)
      = { u with core.pwr.therm := th, core.pwr.alertTherm := al }
      ∧ (u.throttled = true → s.throttled = false → th = some (watts % 65536, 0) ∧ al = true) := by
    split
    · exact ⟨_, _, rfl, fun _ _ => ⟨rfl, rfl⟩⟩
    · rename_i hc
      have hno : u.throttled = true → s.throttled = false → False := fun h1 h2 => hc (by simp [h1, h2])
      split
      · exact ⟨_, _, rfl, fun h1 h2 => (hno h1 h2).elim⟩
      · exact ⟨_, _, rfl, fun h1 h2 => (hno h1 h2).elim⟩
  obtain ⟨th, al, hcap, hth⟩ := capped
  obtain ⟨regs, htail⟩ := tail { u with core.pwr.therm := th, core.pwr.alertTherm := al }
  refine ⟨regs, th, al, (liftTime_marl h (t := { u with core := { u.core with
    regs := regs, pwr := { u.core.pwr with therm := th, alertTherm := al } } }) ?_), hth⟩
  dsimp only
  unfold State.sampled State.senseAll State.metered at hu
  rw [hu]
  dsimp only
  rw [hcap, htail]
  rfl

theorem thermalCapStep_gives {s : State} (h : s.marlOn = true) {w n : Nat} (ht : s.core.pwr.therm = some (w, n)) (hot : s.throttled = true) :
    exec .thermalCapStep s = .next { s with core.pwr.therm := some (w, n + 1) } := by
  show liftCore _ s = _
  rw [liftCore_goes, whenMarl, guardBy_pos _ h]
  simp only [ht, hot, if_true]

theorem hardThermal_gives {s : State} (h : s.marlOn = true) : ∃ t, exec .hardThermal s = .next t ∧ t.core.boot.phase = .off ∧ t.core.boot.hard = true
    ∧ t.core.boot.tripN = true ∧ t.ft = {} ∧ t.core.mem.hbm = [] ∧ t.fuse = s.fuse := by
  obtain ⟨v, hv⟩ : ∃ v : State, v = { s with core.boot.tripN := true, core.boot.hard := true, core.boot.trip := false } := ⟨_, rfl⟩
  obtain ⟨hft, -, hboot, -, -, hhbm, -, -⟩ := newLife_reborn v 1 false .off
  refine ⟨{ s with ft := v.powerOff.ft, core := v.powerOff.core }, liftTime_marl h (t := v.powerOff) (by rw [hv]), ?_, ?_, ?_, hft, hhbm, rfl⟩
  · exact congrArg Boot.phase hboot
  · exact (congrArg Boot.hard hboot).trans (by rw [hv]; rfl)
  · exact (congrArg Boot.tripN hboot).trans (by rw [hv]; rfl)

theorem tripRestart_gives {s : State} (ht : s.core.boot.trip = true) (hc : s.throttled = false) (hp : s.core.boot.phase ≠ .off) :
    exec .tripRestart s = .next { s with
      core.boot.trip := false,
      core.boot.tripN := false,
      core.boot.phase := if s.core.boot.phase = .rails ∧ s.core.boot.perst = false then .rom else s.core.boot.phase } := by
  simp only [exec, execTripRestart, liftTime_goes, ht, hc, Bool.not_true, Bool.or_self, Bool.false_eq_true, if_false, hp, Bool.and_eq_true, decide_eq_true_eq, Bool.not_eq_true']

theorem tripRestart_hot {s : State} (hc : s.throttled = true) : exec .tripRestart s = .next s := by
  simp only [exec, execTripRestart, liftTime_goes, hc, Bool.or_true, if_true]

theorem thermalLevels : Says.ThermalLevels := by
  intro s
  refine ⟨fun t0 vin watts h hs h1 h2 => ?_, fun w n h ht hot => ⟨_, thermalCapStep_gives h ht hot, rfl, rfl⟩, fun h => ?_, fun ht hc hp hpe => ?_,
    fun hc => tripRestart_hot hc⟩
  · obtain ⟨v, hv⟩ : ∃ v, v = s.metered vin watts [] := ⟨_, rfl⟩
    obtain ⟨regs, irq, ev, x, hx, hxt, hxl⟩ := senseOne_rest v 0 t0
    have hsens : v.core.pwr.sensors = [] := by rw [hv]; exact hs
    have hlevel : x.level = 2 := by
      rw [hxl (by omega), hsens]
      unfold levelAt
      simp [levelsOf, mgetD]
      split_ifs <;> omega
    have hu : s.sampled [t0] vin watts [] = ((v.senseOne 0 t0).1, false) := by
      have hb : (v.senseOne 0 t0).2 = false := senseOne_below (by simp [levelsOf]; omega)
      rw [← hb]
      unfold State.sampled
      rw [← hv]
      simp [State.senseAll]
    obtain ⟨rg, th, al, he, hth⟩ := thermalSample_gives h hu
    have hhot : (v.senseOne 0 t0).1.throttled = true := by
      rw [hx]
      simp [State.throttled, hsens, mput, hlevel]
    obtain ⟨rfl, rfl⟩ := hth hhot (by simp [State.throttled, hs])
    refine ⟨_, he, ?_⟩
    rw [hx, hsens, hv]
    refine ⟨?_, ?_, rfl, ?_, rfl, rfl⟩
    · simp [mput, mgetD, mget, hxt, State.sensed]
    · simp [mput, mgetD, mget, hlevel]
    · simp [State.alert]
  · obtain ⟨t, he, h1, h2, h3, h4, -, -⟩ := hardThermal_gives h
    exact ⟨t, he, h1, h2, h3, h4⟩
  · exact ⟨_, tripRestart_gives ht hc (by rw [hp]; exact Phase.noConfusion), rfl, rfl, if_pos ⟨hp, hpe⟩⟩

theorem powerCommandsComplete : Says.PowerCommandsComplete := by
  intro s
  refine ⟨fun h => ⟨mctpControl_gives h, fun id v hv => sensorRead_value h hv, fun id hv => sensorRead_none h hv, fun w hw => setEffecter_takes h hw,
    fun w h0 hw => setEffecter_refuses h h0 hw⟩, fun h => ⟨fun p => ?_, fun hd => dutyFloor_gives h hd, fun temps vin watts rails hall => ?_,
      fun w n ht hot => thermalCapStep_gives h ht hot, hardThermal_gives h⟩, fun n e ht hf => ?_, fun ht hc => ⟨fun hp => tripRestart_gives ht hc hp,
        fun hp hpe hen => ?_⟩⟩
  · obtain ⟨regs, irq, he⟩ := paceStep_gives h p
    exact ⟨_, he, rfl, rfl, rfl, rfl, rfl⟩
  · obtain ⟨v, hv⟩ : ∃ v, v = s.metered vin watts rails := ⟨_, rfl⟩
    obtain ⟨r, q, e, m, hm, -, hat, htrip⟩ := senseAll_rest (temps.take 16) 0 v false
    have hu : s.sampled temps vin watts rails = ((v.senseAll 0 (temps.take 16) false).1, false) := by
      have hb := htrip fun k x hx => by
        rw [Nat.zero_add]
        exact hall k x hx
      rw [State.sampled, ← hv]
      exact Prod.ext rfl hb
    obtain ⟨rg, th, al, he, -⟩ := thermalSample_gives h hu
    refine ⟨_, he, ?_⟩
    rw [hm, hv]
    refine ⟨rfl, rfl, fun k x hx => ?_, rfl, rfl, rfl, rfl⟩
    have := hat k x hx
    rw [Nat.zero_add, hv] at this
    exact this
  · obtain ⟨t, u, regs, irq, he, hr, -, -⟩ := paceEntry_gives ht hf
    refine ⟨t, he, ?_⟩
    rw [hr]
    exact ⟨rfl, rfl, rfl, rfl⟩
  · obtain ⟨v, hv⟩ : ∃ v : State, v = { s with core.boot.trip := false, core.boot.tripN := false } := ⟨_, rfl⟩
    obtain ⟨hft, -, hboot, -⟩ := newLife_reborn v 6 false .rails
    refine ⟨{ s with ft := (v.startRails 6).ft, core := (v.startRails 6).core }, ?_, congrArg Boot.phase hboot, congrArg Boot.cause hboot, hft⟩
    simp only [exec, execTripRestart, liftTime_goes, ht, hc, Bool.not_true, Bool.or_self, Bool.false_eq_true, if_false, hp, if_true, hpe, hen, hv]

/-- Settles O50: the duty, the caps, the sensors and the endpoint, each command by what it changes. -/
theorem powerAndHeat : Obligations.PowerAndHeat := ⟨powerCommandsComplete, dutyFollowsPower, capsAndPacing, thermalLevels⟩

end Sys2Proof.Machine
end

section
/-! PROOF. Counters, sampling and the ledger (14_progress R360, R361, 18_performance_counters R417-R426). -/
namespace Sys2Proof.Machine
open State

/-! Gathers (R419-R422) -/

/-- A list of no counters is read and latched at once. -/
theorem gatherList_empty {s : State} {g : Gather} (hg : s.core.pmc.gather = some g) (hi : g.ids = none) (hn : g.n = 0) :
    ∃ u, Accessed s u ∧ s.gatherList = { u with core.pmc.gather := some { g with ids := some [], first := s.now } } := by
  refine ⟨s.vtouch g.ctx g.list (4 * g.n) false false, Accessed.vtouch .., ?_⟩
  simp only [State.gatherList, hg, hi, Option.isSome_none, Bool.false_eq_true, if_false, hn, if_true, List.range_zero, List.map_nil, State.latchDue,
    Option.getD_some, List.zipIdx_nil, List.foldl_nil]

theorem gatherList_read {s : State} {g : Gather} (hg : s.core.pmc.gather = some g) (hi : g.ids = some []) : s.gatherList = s := by
  simp [State.gatherList, hg, hi]

theorem latchDue_empty {s : State} {g : Gather} (hg : s.core.pmc.gather = some g) (hi : g.ids = some []) : s.latchDue = s := by
  simp only [State.latchDue, hg, hi, Option.getD_some, List.zipIdx_nil, List.foldl_nil]
  show { s with core.pmc.gather := some { g with ids := some [] } } = s
  rw [← hi, ← hg]

theorem Gather.last_empty {g : Gather} (h : g.ids = some []) : g.last = g.first := by simp [Gather.last, h, nsOf]

/-- A gather of no counters begins with its list read. -/
theorem beginDump_empty {s : State} (h : s.reg fldListN = 0) (c : Nat) (demand : Bool) (instant : Nat) :
    ∃ (u : State) (g : Gather), u.core.pmc.lastInstant = s.core.pmc.lastInstant ∧ s.beginDump c demand instant = { u with core.pmc.gather := some g } ∧ g.ids = some []
      ∧ g.ctx = c ∧ g.demand = demand ∧ g.instant = instant ∧ g.unsync = s.unsynced ∧ g.last = s.now := by
  unfold State.beginDump
  extract_lets g
  obtain ⟨u, hu, he⟩ := gatherList_empty (s := { s with core.pmc.gather := some g }) (g := g) rfl rfl (by simp [g, h])
  obtain ⟨_, _, _, _, _, _, _, _, hr⟩ := hu.rest
  exact ⟨u, { g with ids := some [], first := s.now }, by rw [hr], he, rfl, rfl, rfl, rfl, rfl, Gather.last_empty rfl⟩

/-- A gather of no counters whose record can be written ends with it. -/
theorem gatherDone_writes {s : State} {c : Nat} {g : Gather} (hl : s.live = true) (ho : s.pmcOwner = some c) (hg : s.core.pmc.gather = some g)
    (hc : g.ctx = c) (hn : g.n = 0) (hi : g.ids = some []) (hf : g.first ≤ s.now) (hd : s.core.pmc.demandPend = none)
    (hv : s.vcheck c (g.dump + 64 * (s.core.pmc.idx % 2 ^ g.k)) 64 true false = .none) :
    Answers (exec .pmcGatherDone s) (fun t => t.core.pmc.gather = none ∧ t.core.pmc.seq = (s.core.pmc.seq + 1) % 65536
      ∧ t.core.pmc.idx = (s.core.pmc.idx + 1) % 2 ^ (g.k + 1) ∧ t.flagBit pmcInt 0 = true) := by
  subst hc
  obtain ⟨a, ha⟩ : ∃ a, a = g.dump + dumpSlot 0 * (s.core.pmc.idx % 2 ^ g.k) := ⟨_, rfl⟩
  have hlen : (s.dumpRecord g).length = 64 := by simp [State.dumpRecord, hn, leBytes_length]
  have hslot : dumpSlot 0 = 64 := by decide
  have hvc : s.vcheck g.ctx a (s.dumpRecord g).length true false = .none := by rw [hlen, ha, hslot]; exact hv
  obtain ⟨u, hu⟩ : ∃ u, u = s.vput g.ctx a (s.dumpRecord g) false := ⟨_, rfl⟩
  obtain ⟨v, hv'⟩ : ∃ v : State, v = { u with core.pmc.gather := none, core.pmc.idx := (u.core.pmc.idx + 1) % 2 ^ (g.k + 1), core.pmc.seq := (u.core.pmc.seq + 1) % 65536, core.pmc.missed := 0, core.pmc.step := false } := ⟨_, rfl⟩
  have hup : u.core.pmc = s.core.pmc := by
    obtain ⟨_, _, _, _, _, _, _, _, h⟩ := (Accessed.vput s g.ctx a (s.dumpRecord g) false wqData).rest
    rw [hu, h]
  obtain ⟨w, hw⟩ : ∃ w, w = (v.bump (pmcBase + 0x100) 1).raise pmcInt 0 := ⟨_, rfl⟩
  have hwp : w.core.pmc = v.core.pmc := by
    obtain ⟨_, _, h⟩ := State.raise_core (v.bump (pmcBase + 0x100) 1) pmcInt 0
    rw [hw, h]
    rfl
  have hnext : w.nextGather = { w with core.pmc.demandPend := none } := by
    have h1 : w.core.pmc.gather = none := by rw [hwp, hv']
    have h2 : w.core.pmc.demandPend = none := by rw [hwp, hv']; exact (congrArg Pmc.demandPend hup).trans hd
    simp only [State.nextGather, h1, h2, Option.isSome_none, Bool.false_eq_true, if_false]
  have hb : w.flagBit pmcInt 0 = true := by
    rw [hw]
    exact State.flagBit_raise ..
  refine answers_live_at hl (t := { w with core.pmc.demandPend := none }) ?_ ⟨?_, ?_, ?_, hb⟩
  · simp only [gatherList_read hg hi, hg, hi, Option.isNone_some, Gather.last_empty hi, Bool.false_or, decide_eq_true_eq, not_lt.2 hf, if_false, ho, ne_eq,
      not_true_eq_false, latchDue_empty hg hi, Option.getD_some, hn, ← ha, hvc, ← hu]
    rw [← hnext, hw, hv']
  · show w.core.pmc.gather = none
    rw [hwp, hv']
  · show w.core.pmc.seq = _
    rw [hwp, hv']
    show (u.core.pmc.seq + 1) % 65536 = _
    rw [hup]
  · show w.core.pmc.idx = _
    rw [hwp, hv']
    show (u.core.pmc.idx + 1) % 2 ^ (g.k + 1) = _
    rw [hup]

/-- The multiple of the dump interval that FT has come to last (R421). -/
def State.dumpTime (s : State) : Nat :=
  s.now / (1000 * (if s.reg fldInterval < 10 then 10 else s.reg fldInterval)) * (1000 * (if s.reg fldInterval < 10 then 10 else s.reg fldInterval))

/-- What the instant of a dump begins. -/
theorem dumpInstant_due {s : State} {c : Nat} (hl : s.live = true) (ho : s.pmcOwner = some c) (hi : s.reg fldInterval ≠ 0)
    (hlast : s.core.pmc.lastInstant < s.dumpTime) : ∃ unsync, s.dumpInstant =
      (if s.core.pmc.gather.isSome then
        ({ s with core.unsync := unsync, core.pmc.lastInstant := s.dumpTime, core.pmc.missed := sat 65535 (s.core.pmc.missed + 1) }.bump (pmcBase + 0x108) 1).raise pmcInt 2
      else ({ s with core.unsync := unsync, core.pmc.lastInstant := s.dumpTime } : State).beginDump c false s.dumpTime) := by
  obtain ⟨u, hu, -⟩ := scheduled_rest s
  have hdue : ¬ (decide (s.reg fldInterval = 0) || decide (s.dumpTime ≤ s.core.pmc.lastInstant)) = true := by
    simp only [Bool.or_eq_true, decide_eq_true_eq, not_or, not_le]
    exact ⟨hi, hlast⟩
  refine ⟨u, ?_⟩
  rw [State.dumpInstant, whenLive_pos _ hl]
  simp only [ho]
  refine (if_neg hdue).trans ?_
  rw [hu]
  rfl

theorem counterReads : Says.CounterReads := by
  intro s hd
  have hl := State.live_of_dispatching hd
  refine ⟨answers_dispatching hd ⟨rfl, rfl⟩, fun c ho hg hn => ?_, fun ho => ?_, fun c g ho hg hc hn hi hf hp hv => gatherDone_writes hl ho hg hc hn hi hf hp hv,
    fun c g ho hg hi hlast => ?_, fun c ho hg hi hlast hn => ?_, fun q hq => ?_⟩
  · obtain ⟨u, g, -, he, h1, h2, h3, h4, -, h6⟩ := beginDump_empty hn c true s.now
    refine answers_dispatching_at hd (t := { u with core.pmc.gather := some g }) ?_ ⟨g, rfl, h1, h2, h3, h4, h6⟩
    simp only [State.demandGather, ho, hg, Option.isSome_none, Bool.false_eq_true, if_false]
    exact he
  · show liftCore _ s = .next s
    rw [liftCore_goes, whenDispatching_pos _ hd]
    simp only [State.demandGather, ho]
  · obtain ⟨u, hu⟩ := dumpInstant_due hl ho hi hlast
    rw [hg, Option.isSome_some, if_pos rfl] at hu
    simp only [exec, execDumpInstant]
    refine answers_core ?_
    rw [hu]
    refine ⟨?_, State.flagBit_raise .., ?_⟩
    · obtain ⟨_, _, h⟩ := State.raise_core (State.bump { s with
        core.unsync := u, core.pmc.lastInstant := s.dumpTime, core.pmc.missed := sat 65535 (s.core.pmc.missed + 1) } (pmcBase + 0x108) 1) pmcInt 2
      rw [h]
      exact hg
    · exact (State.counter_raise _ _ _ (by decide)).trans (State.counter_bump_same ..)
  · obtain ⟨w, hw⟩ := dumpInstant_due hl ho hi hlast
    rw [hg, Option.isSome_none, if_neg Bool.false_ne_true] at hw
    obtain ⟨u, g, hlast', he, h1, h2, h3, h4, h5, h6⟩ :=
      beginDump_empty (s := { s with core.unsync := w, core.pmc.lastInstant := s.dumpTime }) hn c false s.dumpTime
    simp only [exec, execDumpInstant]
    refine answers_core ?_
    rw [hw, he]
    exact ⟨hlast', g, rfl, h1, h2, h3, h4, h5, h6⟩
  · show liftCore _ s = .next s
    rw [liftCore_goes, whenDispatching_pos _ hd, if_neg (not_le.2 hq)]

/-! Sampling (R425) -/

theorem rngDraws_reload (s : State) (g : Nat) (h4 : 4 ≤ s.reg fldSampP) (h24 : s.reg fldSampP ≤ 24) :
    2 ^ (s.reg fldSampP - 1) ≤ (s.reload g).1 ∧ (s.reload g).1 < 3 * 2 ^ (s.reg fldSampP - 1) := by
  have hp : max 4 (min 24 (s.reg fldSampP)) = s.reg fldSampP := by omega
  unfold State.reload
  rw [hp]
  dsimp only
  obtain ⟨p, hp'⟩ : ∃ p, s.reg fldSampP = p + 1 := ⟨s.reg fldSampP - 1, by omega⟩
  rw [hp', Nat.add_sub_cancel]
  generalize (rngDraws (rngSeed g) 2).1.getD 0 0 + 65536 * (rngDraws (rngSeed g) 2).1.getD 1 0 = x
  have hx : x % 2 ^ (p + 1) < 2 ^ (p + 1) := Nat.mod_lt _ (Nat.two_pow_pos _)
  have h2 : 2 ^ (p + 1) = 2 * 2 ^ p := by rw [Nat.pow_succ, Nat.mul_comm]
  exact ⟨Nat.le_add_right _ _, by omega⟩

theorem sampleDispatch : Says.SampleDispatch := by
  intro s q k seq hd hc h4 h24
  refine ⟨fun ctx => ?_, fun hk => ?_⟩
  · have hcount : (mgetD (s.countDispatch k q seq ctx).core.pmc.kc k {}).count = (s.reload (mgetD s.core.pmc.kc k {}).gen).1 := by
      unfold State.countDispatch
      rw [if_neg (not_lt.2 hc)]
      dsimp only
      split <;> simp [State.updKc, State.bump]
    rw [hcount]
    exact rngDraws_reload s _ h4 h24
  · subst hk
    have he : exec (.sampleCountdown q) s = exec (.instructionDispatch q) s := by
      show liftCore _ s = liftCore _ s
      rw [liftCore_goes, liftCore_goes, whenDispatching_pos _ hd, whenDispatching_pos _ hd, if_pos hc]
    refine ⟨he, fun hm => he.trans ?_⟩
    show liftCore _ s = .next s
    rw [liftCore_goes, whenDispatching_pos _ hd, State.dispatch, if_pos (by simp [hm])]

/-! The ledger (R360, R361) -/

theorem answers_glb_at {f : State → State} {s t : State} {p : State → Prop} (h : s.glbOn = true) (ht : f s = t) (hp : p { s with core := t.core }) :
    Answers (liftCore (guardBy State.glbOn f) s) p := answers_core (by rwa [guardBy_pos f h, ht])

theorem doSnap_idle {s : State} (h : s.core.ldg.busy = false) : s.doSnap = s.ldgSnap := if_neg (by simp [h])

theorem heldUnits_take (s : State) (c i n : Nat) (h : s.heldUnits c i + n < 2 ^ 48) : (s.take c i n).heldUnits c i = s.heldUnits c i + n := by
  simp only [State.heldUnits, State.take, mgetD_mupd_same, Ldg.heldOf] at *
  omega

theorem heldUnits_give (s : State) (c i n : Nat) (h : n ≤ s.heldUnits c i) : (s.give c i n).heldUnits c i = s.heldUnits c i - n := by
  simp only [State.heldUnits, State.give, mgetD_mupd_same, Ldg.heldOf] at *
  omega

/-- A row that ends by raising a bit of a state that differs in its core alone. -/
theorem core_raise {s u : State} (hf : u.fuse = s.fuse) (ht : u.ft = s.ft) (hp : u.pending = s.pending) (o i : Nat) :
    { s with core := (u.raise o i).core } = u.raise o i := by
  obtain ⟨_, _, h⟩ := u.raise_core o i
  rw [h, ← hf, ← ht, ← hp]

/-- What the end of a check leaves of the class at fault. -/
def State.faults (s : State) (k c i : Nat) : State := { s with core.ldg.kind := k, core.ldg.cls := c, core.ldg.inst_ := i }

/-- The end of a check that finds no class at fault. -/
theorem ledgerCheckDone_none {s : State} (ht : s.timing = true) (hb : s.core.ldg.busy = true)
    (hf : s.core.ldg.snap.find? (fun e => s.core.ldg.failure e.1 e.2 ≠ 0) = none) :
    exec .ledgerCheckDone s = .next (State.raise { s with core.ldg.busy := false } ldgInt 0) := by
  simp only [exec, execLedgerCheckDone]
  rw [liftCore_goes, guardBy_pos _ ht, if_neg (by simp [hb]), hf]
  exact congrArg Host.Outcome.next (core_raise (u := { s with core.ldg.busy := false }) rfl rfl rfl _ _)

/-- The end of a check whose first class at fault is that of key. -/
theorem ledgerCheckDone_some {s : State} {key : Nat} {x : Ldg} {k c i : Nat} (ht : s.timing = true) (hb : s.core.ldg.busy = true)
    (hf : s.core.ldg.snap.find? (fun e => s.core.ldg.failure e.1 e.2 ≠ 0) = some (key, x))
    (hk : s.core.ldg.failure key x = k) (hc : key / 65536 = c) (hi : key % 65536 = i) :
    exec .ledgerCheckDone s = .next ((State.faults (State.raise { s with core.ldg.busy := false } ldgInt 0) k c i).raise ldgInt 1) := by
  simp only [exec, execLedgerCheckDone]
  rw [liftCore_goes, guardBy_pos _ ht, if_neg (by simp [hb]), hf]
  simp only [hk, hc, hi]
  exact congrArg Host.Outcome.next (core_raise (u := State.faults (State.raise { s with core.ldg.busy := false } ldgInt 0) k c i)
    (State.raise_fuse ..) (State.raise_ft ..) (State.raise_pending ..) _ _)

/-- A check that finds no class at fault ends with success. -/
theorem ledgerCheckDone_clean {s : State} (ht : s.timing = true) (hb : s.core.ldg.busy = true)
    (hall : ∀ e ∈ s.core.ldg.snap, s.core.ldg.failure e.1 e.2 = 0) :
    Answers (exec .ledgerCheckDone s) (fun t => t.core.ldg = { s.core.ldg with busy := false } ∧ t.flagBit ldgInt 0 = true ∧ t.flagBit ldgInt 1 = s.flagBit ldgInt 1) := by
  have hnone : s.core.ldg.snap.find? (fun e => s.core.ldg.failure e.1 e.2 ≠ 0) = none := by
    rw [List.find?_eq_none]
    intro e he
    simp [hall e he]
  refine ⟨_, ledgerCheckDone_none ht hb hnone, ?_⟩
  refine ⟨State.raise_ldg _ _ _, State.flagBit_raise .., ?_⟩
  have hr : (State.raise { s with core.ldg.busy := false } ldgInt 0).reg ⟨ldgInt, 1, 1, 0⟩ = s.reg ⟨ldgInt, 1, 1, 0⟩ := State.reg_raise _ (by decide)
  exact congrArg (fun v => decide (v = 1)) hr

/-- What a check's end says of a class at fault is there to be read, and LDG_FAIL is raised. -/
theorem State.faults_raise (u : State) (k c i : Nat) : ((u.faults k c i).raise ldgInt 1).core.ldg = { u.core.ldg with kind := k, cls := c, inst_ := i } :=
  State.raise_ldg (u.faults k c i) ldgInt 1

/-- A check that finds a class at fault ends with that class. -/
theorem ledgerCheckDone_faults {s : State} {key : Nat} {x : Ldg} {rest : List (Nat × Ldg)} (ht : s.timing = true) (hb : s.core.ldg.busy = true)
    (hs : s.core.ldg.snap = (key, x) :: rest) (hf : s.core.ldg.failure key x ≠ 0) :
    Answers (exec .ledgerCheckDone s) (fun t => t.core.ldg.busy = false ∧ t.core.ldg.kind = s.core.ldg.failure key x
      ∧ t.core.ldg.cls = key / 65536 ∧ t.core.ldg.inst_ = key % 65536 ∧ t.flagBit ldgInt 1 = true) := by
  have hfind : s.core.ldg.snap.find? (fun e => s.core.ldg.failure e.1 e.2 ≠ 0) = some (key, x) := by
    rw [hs]
    exact List.find?_cons_of_pos (by simp [hf])
  generalize hk : s.core.ldg.failure key x = k
  generalize hc : key / 65536 = c
  generalize hi : key % 65536 = i
  obtain ⟨u, hu⟩ : ∃ u, u = State.raise { s with core.ldg.busy := false } ldgInt 0 := ⟨_, rfl⟩
  have hbusy : u.core.ldg.busy = false := by rw [hu, State.raise_ldg]
  have ho := ledgerCheckDone_some ht hb hfind hk hc hi
  rw [← hu] at ho
  refine ⟨_, ho, ?_, ?_, ?_, ?_, State.flagBit_raise ..⟩ <;> rw [State.faults_raise]
  exact hbusy

theorem ledgerCounts : Says.LedgerCounts := by
  intro s hg
  have ht : s.timing = true := by
    have := hg
    simp only [State.glbOn, Bool.and_eq_true] at this
    exact this.1
  refine ⟨heldUnits_take s, heldUnits_give s, fun hb => ⟨?_, ?_⟩, fun hb => ⟨?_, ?_⟩, ledgerCheckDone_clean ht, fun key x rest => ledgerCheckDone_faults ht⟩
  · exact answers_glb_at hg (doSnap_idle hb) ⟨rfl, hb, rfl⟩
  · exact answers_glb_at hg (if_neg (by simp [hb])) ⟨rfl, rfl, rfl⟩
  · show liftCore _ s = .next s
    rw [liftCore_goes, guardBy_pos _ hg, State.doSnap, if_pos hb]
  · show liftCore _ s = .next s
    rw [liftCore_goes, guardBy_pos _ hg, State.doCheck, if_pos hb]

/-- Settles O52: reads, gathers and dumps, the countdown of a core, and the ledger's counts. -/
theorem counting : Obligations.Counting := ⟨counterReads, sampleDispatch, ledgerCounts⟩

end Sys2Proof.Machine
end

section
/-! PROOF. The tile pool in HBM: what a miss takes, how a fill lands, and how an eviction ends (O44; 09_memory_tiers_and_tile_pool R219-R222). -/
namespace Sys2Proof.Machine

open State

/-! What leaves the tiers' bytes and the pool's entries alone -/

/-- Two states with the same pool entries and the same bytes in every tier. -/
def SameTiers (s t : State) : Prop := t.core.mem.pool = s.core.mem.pool ∧ t.core.mem.hbm = s.core.mem.hbm
  ∧ t.core.mem.flash = s.core.mem.flash ∧ t.core.mem.host = s.core.mem.host

theorem SameTiers.trans {s t u : State} (h : SameTiers s t) (k : SameTiers t u) : SameTiers s u := by
  obtain ⟨hp, hh, hf, ho⟩ := h
  obtain ⟨kp, kh, kf, ko⟩ := k
  exact ⟨kp.trans hp, kh.trans hh, kf.trans hf, ko.trans ho⟩

theorem SameTiers.of_mem {s t : State} (h : t.core.mem = s.core.mem) : SameTiers s t := by simp [SameTiers, h]

theorem SameTiers.bump (s : State) (o n : Nat) : SameTiers s (s.bump o n) := ⟨rfl, rfl, rfl, rfl⟩

theorem SameTiers.raise (s : State) (o i : Nat) : SameTiers s (s.raise o i) := .of_mem (State.raise_mem s o i)

theorem SameTiers.raiseIf (s : State) (p : Bool) (o i : Nat) : SameTiers s (s.raiseIf p o i) := by
  unfold State.raiseIf
  split
  · exact .raise s o i
  · exact .of_mem rfl

theorem SameTiers.programmed (s : State) : SameTiers s s.programmed := by
  have wear (w : Nat) : SameTiers s { s with core.mem.wear := w } := ⟨rfl, rfl, rfl, rfl⟩
  exact ((((wear _).trans (.bump ..)).trans (.bump ..)).trans (.bump ..)).trans (.raiseIf ..)

theorem SameTiers.ftlSettle (s : State) : SameTiers s s.ftlSettle := by
  unfold State.ftlSettle
  split <;> exact ⟨rfl, rfl, rfl, rfl⟩

theorem SameTiers.endRecovery (s : State) (tu : Nat) : SameTiers s (s.endRecovery tu) := by
  have less (r : List Nat) (q : List (Nat × List Byte)) : SameTiers s { s with core.mem.recovering := r, core.mem.progQ := q } := ⟨rfl, rfl, rfl, rfl⟩
  unfold State.endRecovery
  split
  · exact (less _ _).trans (.ftlSettle _)
  · exact .of_mem rfl

theorem SameTiers.invPass (s : State) (f : InvWait → InvWait) : SameTiers s (s.invPass f) := ⟨rfl, rfl, rfl, rfl⟩

/-- A write to a tier that is not read-only: its bytes change and nothing else of the tiers. -/
theorem flashWrite_tiers {s : State} (h : s.core.mem.flashRo = false) (a : Nat) (bs : List Byte) :
    SameTiers { s with core.mem.flash := memWrites s.core.mem.flash a bs } (s.flashWrite a bs) := by
  have unmark (u : State) (c : Bool) (m : List Nat) : SameTiers u (if c then { u with core.mem.marked := m } else u) := by
    split <;> exact ⟨rfl, rfl, rfl, rfl⟩
  simp only [State.flashWrite, h, Bool.false_eq_true, if_false]
  exact (((SameTiers.endRecovery _ _).trans (unmark _ _ _)).trans (.bump ..)).trans (.programmed _)

/-- The same beside what does not touch memory. -/
theorem flashWrite_of_mem {s u : State} (hu : u.core.mem = s.core.mem) (h : s.core.mem.flashRo = false) (a : Nat) (bs : List Byte) :
    (u.flashWrite a bs).core.mem.pool = s.core.mem.pool ∧ (u.flashWrite a bs).core.mem.flash = memWrites s.core.mem.flash a bs := by
  obtain ⟨kp, -, kf, -⟩ := flashWrite_tiers (s := u) (by rw [hu, h]) a bs
  have hp : u.core.mem.pool = s.core.mem.pool := congrArg Memory.pool hu
  have hf : u.core.mem.flash = s.core.mem.flash := congrArg Memory.flash hu
  rw [← hp, ← hf]
  exact ⟨kp, kf⟩

/-! A miss -/

/-- An entry that nothing is known of. -/
theorem poolEntry_absent {s : State} {key : Nat} (h : mget s.core.mem.pool key = none) (k ctx : Nat) :
    (s.poolEntry key k ctx).resident = false ∧ (s.poolEntry key k ctx).filling = false ∧ (s.poolEntry key k ctx).stack = k := by
  simp [State.poolEntry, mgetD, h]

/-- A miss below the quota takes the lowest free pool TU. -/
theorem takeFrom_free {s : State} {ctx k i : Nat} (hq : s.residentOf ctx < s.resQuota ctx) (hf : firstFree (s.poolTus k) (s.poolUsed k) = some i) :
    s.takeFrom ctx k (s.resQuota ctx) = .free i := by
  simp only [State.takeFrom, hf]
  exact if_neg (by simp; omega)

theorem lowCheck_mem (s : State) (k b : Nat) : (s.lowCheck k b).core.mem = s.core.mem := by
  unfold State.lowCheck State.raiseIf
  split
  · exact State.raise_mem ..
  · rfl

theorem lowCheck_counter (s : State) (k b : Nat) {p : Nat} (h : p ≠ hifBase + 0x130) : (s.lowCheck k b).counter p = s.counter p := by
  unfold State.lowCheck State.raiseIf
  split
  · exact State.counter_raise _ _ _ h
  · rfl

/-- A miss that may begin its fill at once. -/
theorem poolMiss_fills {s : State} {ctx va key k i : Nat} (w : Bool) (hk : mget s.core.mem.pool key = none) (hq : s.residentOf ctx < s.resQuota ctx)
    (hf : firstFree (s.poolTus k) (s.poolUsed k) = some i) (hroom : (s.poolEntry key k ctx).t1 = false ∨ s.flashRoom = true) :
    (∃ x, mget (s.poolMiss ctx va key k w).core.mem.pool key = some x ∧ x.index = i ∧ x.filling = true ∧ x.resident = false ∧ x.owner = ctx ∧ x.stack = k)
    ∧ (s.poolMiss ctx va key k w).counter (memBase k + 0x118) = (s.counter (memBase k + 0x118) + 1) % 2 ^ 64
    ∧ (s.poolMiss ctx va key k w).core.mem.hbm = s.core.mem.hbm := by
  obtain ⟨hres, hfill, hst⟩ := poolEntry_absent hk k ctx
  have ht := takeFrom_free hq hf
  have hbase : memBase k + 0x118 ≠ hifBase + 0x130 := by simp only [memBase, hifBase]; omega
  have hwait : ((s.poolEntry key k ctx).t1 && !s.flashRoom) = false := by
    obtain h | h := hroom <;> simp [h]
  have hclaim : ∃ u, s.claim ctx key k w = .ok u := ⟨_, by simp only [State.claim, hres, hfill, ht]; rfl⟩
  obtain ⟨u, hclaim⟩ := hclaim
  simp only [State.poolMiss, hres, hfill, hwait, hclaim, State.takeTu, ht, Bool.false_eq_true, if_false]
  rw [lowCheck_mem, lowCheck_counter _ _ _ hbase]
  split
  · exact ⟨⟨_, mget_mput_same .., rfl, rfl, rfl, rfl, hst⟩, State.counter_bump_same s _ 1, rfl⟩
  · exact ⟨⟨_, mget_mput_same .., rfl, rfl, rfl, rfl, hst⟩, State.counter_bump_same s _ 1, rfl⟩

/-! A fill lands -/

theorem memReads_getElem (m : Mem) : ∀ (n a i : Nat) (h : i < (memReads m a n).length), (memReads m a n)[i] = memRead m (a + i) := by
  intro n
  induction n with
  | zero => exact fun a i h => absurd h (Nat.not_lt_zero i)
  | succ n ih =>
    intro a i h
    cases i with
    | zero => rfl
    | succ i =>
      simp only [memReads, List.getElem_cons_succ]
      rw [ih, Nat.add_assoc, Nat.add_comm 1 i]

/-- One write over a TU's bytes. -/
theorem written_one {p : PoolTu} {off : Nat} {bs l : List Byte} (h : p.writes = [(off, bs)]) : p.written l = l.take off ++ bs ++ l.drop (off + bs.length) := by
  simp [PoolTu.written, h]

/-- What follows the bytes of a fill leaves the tiers' bytes alone. -/
theorem filled_tiers (s : State) (l : List Nat) (c : Bool) (o i p n key : Nat) :
    SameTiers s (((State.raiseIf { s with core.mem.badLines := l } c o i).bump p n).tuDone key) := by
  have line : SameTiers s { s with core.mem.badLines := l } := ⟨rfl, rfl, rfl, rfl⟩
  exact ((line.trans (.raiseIf ..)).trans (.bump ..)).trans (.invPass ..)

/-- A fill from a flash TU that carries no mark: the bytes that lie in the pool TU, and its entry. -/
theorem fillFrom_lands {s : State} {key : Nat} {p : PoolTu} (ht : p.t1 = true) (hm : s.flashMarked (p.home * tuBytes) = false) :
    (s.fillFrom key p).core.mem.hbm = memWrites s.core.mem.hbm (s.poolDpa p.stack p.index) (p.written (memReads s.core.mem.flash (p.home * tuBytes) tuBytes))
    ∧ (s.fillFrom key p).core.mem.flash = s.core.mem.flash
    ∧ ∃ x, mget (s.fillFrom key p).core.mem.pool key = some x ∧ x.resident = true ∧ x.filling = false
      ∧ x.dirty = (p.dirty || !p.writes.isEmpty) ∧ x.index = p.index := by
  obtain ⟨cnt, live, wq, hw⟩ := s.hbmWrite_rest (s.poolDpa p.stack p.index) (p.written (memReads s.core.mem.flash (p.home * tuBytes) tuBytes)) wqData
  simp only [State.fillFrom, ht, hm, Bool.true_and, Bool.false_and, Bool.true_or, if_true, Bool.false_eq_true, if_false, List.foldl_nil]
  refine ⟨(filled_tiers ..).2.1.trans ?_, (filled_tiers ..).2.2.1.trans ?_, _, mget_mput_same .., rfl, rfl, rfl, rfl⟩ <;> rw [hw]

theorem poolFills : Says.PoolFills := by
  intro s key p
  refine ⟨fun ctx va w l k i hd hx hl hk hq hf hroom => ?_, fun hlive hk hfill ht hread hm hwf => ?_⟩
  · refine answers_dispatching_at hd (t := s.poolMiss ctx va key k w) ?_ (poolMiss_fills w hk hq hf hroom)
    simp only [hx, hl]
  · obtain ⟨hh, hf, hp⟩ := fillFrom_lands (key := key) ht hm
    refine answers_live_at hlive (t := s.fillFrom key p) ?_ ⟨hp, fun hw i hi => ?_, fun off bs hw hb i hi => ?_, hf⟩
    · have hr : s.core.mem.readQ.contains p.home = false := by simpa using hread
      simp only [hk, hfill, hr, Bool.and_false, Bool.not_false, Bool.and_true, if_true]
    · have hb : p.written (memReads s.core.mem.flash (p.home * tuBytes) tuBytes) = memReads s.core.mem.flash (p.home * tuBytes) tuBytes := by
        simp [PoolTu.written, hw]
      rw [hh, hb, memRead_memWrites_in _ _ _ _ hwf (by rwa [memReads_length]), memReads_getElem]
    · have hlen : (memReads s.core.mem.flash (p.home * tuBytes) tuBytes).length = tuBytes := memReads_length ..
      have hlt : off + i < (p.written (memReads s.core.mem.flash (p.home * tuBytes) tuBytes)).length := by
        rw [written_one hw, List.length_append, List.length_append, List.length_take, hlen]
        omega
      rw [hh, Nat.add_assoc, memRead_memWrites_in _ _ _ _ hwf hlt]
      simp only [written_one hw]
      rw [List.getElem_append_left (by simp; omega), List.getElem_append_right (by simp)]
      simp [hlen, Nat.min_eq_left (by omega : off ≤ tuBytes)]

/-! Evictions -/

/-- The only entry of the pool, where it may be evicted, is the one that the evictor takes. -/
theorem evictor_single {s : State} {key : Nat} {p : PoolTu} (hp : s.core.mem.pool = [(key, p)]) (hc : p.candidate = true)
    (hn : s.poolFree p.stack + s.evicting p.stack < (s.wm p.stack).2) :
    s.evictor p.stack s.core.mem.pool.length = if p.dirty then s.startWb key p else s.freeTu key p := by
  have he : s.evictee p.stack (fun _ => true) = some (key, p) := by simp [State.evictee, hp, hc]
  have h1 : s.core.mem.pool.length = 0 + 1 := by rw [hp]; rfl
  rw [h1, State.evictor, if_neg (by omega), he]
  rfl

/-- Freeing a TU without pins takes its entry away. -/
theorem freeTu_gone {s : State} {key : Nat} {p : PoolTu} (h : p.pin = 0) :
    mget (s.freeTu key p).core.mem.pool key = none ∧ (s.freeTu key p).core.mem.hbm = s.core.mem.hbm := by
  simp only [State.freeTu, h, if_true]
  exact ⟨mget_mdel_same .., rfl⟩

/-- A whole TU without poisoned lines written home to a flash tier that takes it. -/
theorem writeHome_flash {s : State} {p : PoolTu} (ht : p.t1 = true) (hro : s.core.mem.flashRo = false)
    (hbad : ∀ l ∈ s.core.mem.badLines, ¬ (s.poolDpa p.stack p.index ≤ l * 64 ∧ l * 64 < s.poolDpa p.stack p.index + tuBytes)) :
    (s.writeHome p).core.mem.pool = s.core.mem.pool
    ∧ (s.writeHome p).core.mem.flash = memWrites s.core.mem.flash (p.home * tuBytes) (memReads s.core.mem.hbm (s.poolDpa p.stack p.index) tuBytes) := by
  have hnone : s.core.mem.badLines.filter (fun l => decide (s.poolDpa p.stack p.index ≤ l * 64) && decide (l * 64 < s.poolDpa p.stack p.index + tuBytes)) = [] := by
    rw [List.filter_eq_nil_iff]
    intro l hl
    simpa using hbad l hl
  simp only [State.writeHome, ht, if_true, hnone, List.isEmpty_nil]
  generalize memReads s.core.mem.hbm (s.poolDpa p.stack p.index) tuBytes = bs
  generalize p.home * tuBytes = a
  exact flashWrite_of_mem (s := s) (u := (s.bump (memBase p.stack + 0x138) 1).bump (memBase p.stack + 0x100) tuBytes) rfl hro a bs

theorem State.setPool_pool (s : State) (key : Nat) (p : PoolTu) : (s.setPool key p).core.mem.pool = mput s.core.mem.pool key p := rfl

theorem State.setPool_flash (s : State) (key : Nat) (p : PoolTu) : (s.setPool key p).core.mem.flash = s.core.mem.flash := rfl

/-- The begin of a write-back to a flash tier that takes it. -/
theorem startWb_flash {s : State} {key : Nat} {p : PoolTu} (ht : p.t1 = true) (hro : s.core.mem.flashRo = false)
    (hbad : ∀ l ∈ s.core.mem.badLines, ¬ (s.poolDpa p.stack p.index ≤ l * 64 ∧ l * 64 < s.poolDpa p.stack p.index + tuBytes)) :
    (s.startWb key p).core.mem.pool = mput s.core.mem.pool key { p with wb := true, evict := true, again := false, refused := false, old := [] }
    ∧ (s.startWb key p).core.mem.flash = memWrites s.core.mem.flash (p.home * tuBytes) (memReads s.core.mem.hbm (s.poolDpa p.stack p.index) tuBytes) := by
  have hh : s.homeRefuses p = false := by simp [State.homeRefuses, ht, hro]
  have hw : s.startWb key p = (s.writeHome p).setPool key { p with wb := true, evict := true, again := false, refused := false, old := [] } := by
    unfold State.startWb
    rw [hh]
    dsimp only
    simp only [ht, Bool.true_or, if_true, Bool.false_eq_true, if_false]
  obtain ⟨hp, hf⟩ := writeHome_flash ht hro hbad
  rw [hw, State.setPool_pool, State.setPool_flash, hp, hf]
  exact ⟨rfl, rfl⟩

/-- A refused write-back keeps the TU, with an image pin, and raises WB_ERR. -/
theorem refuseWb_keeps (s : State) (key : Nat) (p : PoolTu) : ((s.refuseWb key p).tuDone key).flagBit (memInt p.stack) 2 = true
    ∧ mget ((s.refuseWb key p).tuDone key).core.mem.pool key = some { p with imagePin := true, wb := false, evict := false } := by
  have hf (u : State) : (u.tuDone key).flagBit (memInt p.stack) 2 = u.flagBit (memInt p.stack) 2 := rfl
  have hm (u : State) : (u.tuDone key).core.mem = u.core.mem := rfl
  rw [hf, hm, State.refuseWb, State.raise_mem, State.setPool_pool]
  exact ⟨State.flagBit_raise _ _ _, mget_mput_same ..⟩

theorem evictionFrees : Says.EvictionFrees := by
  intro s key p
  refine ⟨fun hd hp hc hst hlow hn => ?_, fun k hlow hon => ?_, fun hlive hk hwb => ?_⟩
  · have hon : (s.stackPresent p.stack && (decide (s.poolFree p.stack < (s.wm p.stack).1)
        || s.core.mem.evOn.contains p.stack && decide (s.poolFree p.stack < (s.wm p.stack).2))) = true := by
      have h2 : s.poolFree p.stack < (s.wm p.stack).2 := by omega
      obtain h | h := hlow <;> simp only [hst, h, h2, decide_true, Bool.true_and, Bool.true_or, Bool.or_true]
    have run : Answers (exec (.evictorRun p.stack) s) (fun t => ∃ on, t.core.mem = { (if p.dirty then s.startWb key p else s.freeTu key p).core.mem with evOn := on }) :=
      answers_dispatching_at hd (if_pos hon) (by rw [evictor_single hp hc hn]; exact ⟨_, rfl⟩)
    obtain ⟨t, ht, on, h⟩ := run
    refine ⟨fun hcl => ⟨t, ht, ?_⟩, fun hdi ht1 hro hbad => ⟨t, ht, ?_⟩⟩
    · have hpin : p.pin = 0 := by
        simp only [PoolTu.candidate, Bool.and_eq_true, decide_eq_true_eq] at hc
        omega
      dsimp only
      rw [h, if_neg (by simp [hcl])]
      exact (freeTu_gone hpin).1
    · obtain ⟨hpool, hflash⟩ := startWb_flash (key := key) ht1 hro hbad
      rw [h, if_pos hdi]
      exact ⟨hpool.trans (by simp [hp, mput]), hflash⟩
  · have hoff : (s.stackPresent k && (decide (s.poolFree k < (s.wm k).1) || s.core.mem.evOn.contains k && decide (s.poolFree k < (s.wm k).2))) = false := by
      have hc : s.core.mem.evOn.contains k = false := by simpa using hon
      have hl : decide (s.poolFree k < (s.wm k).1) = false := by simp [hlow]
      simp only [hc, hl, Bool.false_and, Bool.or_self, Bool.and_false]
    have hdel : sdel k s.core.mem.evOn = s.core.mem.evOn := List.filter_eq_self.mpr fun x hx => by
      have : x ≠ k := fun h => hon (h ▸ hx)
      simp [this]
    show liftCore _ s = .next s
    rw [liftCore_goes]
    cases hd : s.dispatching with
    | false => rw [show whenDispatching _ s = s from guardBy_neg _ hd]
    | true =>
      rw [whenDispatching_pos _ hd]
      dsimp only
      rw [hoff, if_neg (by simp), hdel]
  · refine ⟨fun hr ha he hpin => ?_, fun hr ha => ?_, fun hr => ?_, fun hr ht ho => ?_⟩
    · refine answers_live_at hlive (t := (s.tuDone key).freeTu key { p with wb := false, old := [] }) ?_ (freeTu_gone hpin)
      simp only [hk, hwb, hr, ha, he, Bool.not_true, Bool.or_false, Bool.false_eq_true, if_false, if_true]
    · refine answers_live_at hlive (t := (s.tuDone key).setPool key { p with wb := false, evict := false, again := false, old := [] }) ?_ (mget_mput_same ..)
      simp only [hk, hwb, hr, ha, Bool.not_true, Bool.or_false, Bool.false_eq_true, if_false, if_true]
    · refine answers_live_at hlive (t := (s.refuseWb key { p with refused := false, old := [] }).tuDone key) ?_ (refuseWb_keeps s key _)
      simp only [hk, hwb, hr, Bool.not_true, Bool.and_false, Bool.or_false, Bool.false_eq_true, if_false, if_true]
    · have hold : p.old.isEmpty = false := by simpa using ho
      refine answers_live_at hlive (t := ((s.undoWb key p).refuseWb key { p with refused := false, old := [] }).tuDone key) ?_ ?_
      · simp only [hk]
        rw [if_neg (by simp [hwb, ht]), if_neg (by simp [hr])]
      · obtain ⟨hb, hp⟩ := refuseWb_keeps (s.undoWb key p) key { p with refused := false, old := [] }
        refine ⟨hb, ?_, by rw [hp, hr]⟩
        exact (congrArg Memory.host (State.raise_mem ..)).trans (if_neg (by simp [hold]))

/-- Settles O44: misses, fills and evictions. -/
theorem poolMoves : Obligations.PoolMoves := ⟨poolFills, evictionFrees⟩

end Sys2Proof.Machine
end

section
/-! PROOF. The host link, records acknowledged, and the window on device memory (O45, O46; 15_host R362-R381). -/
namespace Sys2Proof.Machine
open State

/-! Nothing that waits -/

/-- Where no record waits, trying them again changes nothing. -/
theorem retryRecords_nothing {s : State} (hq : ∀ e ∈ s.core.qm.queues, e.2.held = []) (hc : ∀ e ∈ s.core.mmu.ctxs, e.2.errWait = [])
    (hk : s.core.mmu.killRecs = []) : s.retryRecords = s := by
  have h1 : s.core.qm.queues.filter (fun e => !e.2.held.isEmpty && !s.core.mmu.faults.any (fun f => f.2.rings.contains e.1)) = [] :=
    List.filter_eq_nil_iff.mpr fun e he => by simp [hq e he]
  have h2 : s.core.mmu.ctxs.filter (fun e => !e.2.errWait.isEmpty) = [] := List.filter_eq_nil_iff.mpr fun e he => by simp [hc e he]
  have h3 : { s with core.mmu.killRecs := [] } = s := by rw [← hk]
  simp only [State.retryRecords, h1, hk, List.foldl_nil, h3, h2]

/-! The link -/

/-- The bits that the loss of the link raises. -/
def downBits : List Nat := [8 * hifInt + 1, 8 * hifInt + 3]

/-- Two states that differ in what the loss of the link touches: registers, interrupts, the fetches in flight, host memory, the pool, the
invalidations that wait and the records at the host. -/
def Unlinked (s t : State) : Prop := (∃ regs irq ses host pool mmu out, t = { s with
  core.regs := regs, core.irq := irq, core.ses := ses, core.mem.host := host, core.mem.pool := pool, core.mmu := mmu, core.host.cacheOut := out })
  ∧ BitsSet downBits s t

theorem Unlinked.refl (s : State) : Unlinked s s := ⟨⟨_, _, _, _, _, _, _, rfl⟩, .refl _ s⟩

theorem Unlinked.trans {s t u : State} (h : Unlinked s t) (k : Unlinked t u) : Unlinked s u := by
  obtain ⟨⟨_, _, _, _, _, _, _, rfl⟩, hb⟩ := h
  obtain ⟨⟨_, _, _, _, _, _, _, rfl⟩, kb⟩ := k
  exact ⟨⟨_, _, _, _, _, _, _, rfl⟩, hb.trans kb⟩

theorem Unlinked.raise (s : State) {i : Nat} (h : 8 * hifInt + i ∈ downBits) : Unlinked s (s.raise hifInt i) := by
  obtain ⟨_, _, hr⟩ := s.raise_core hifInt i
  exact ⟨⟨_, _, _, _, _, _, _, hr⟩, State.raise_bitsSet s h⟩

theorem Unlinked.bump (s : State) (o n : Nat) : Unlinked s (s.bump o n) := ⟨⟨_, _, _, _, _, _, _, rfl⟩, .of_csr rfl⟩

theorem Unlinked.foldl {α : Type} {f : State → α → State} (hf : ∀ s x, Unlinked s (f s x) ∧ (f s x).core.host.cacheOut = s.core.host.cacheOut) :
    ∀ (l : List α) (s : State), Unlinked s (l.foldl f s) ∧ (l.foldl f s).core.host.cacheOut = s.core.host.cacheOut
  | [], s => ⟨.refl s, rfl⟩
  | x :: l, s => by
    obtain ⟨h, hc⟩ := Unlinked.foldl hf l (f s x)
    exact ⟨(hf s x).1.trans h, hc.trans (hf s x).2⟩

theorem loseReads_unlinked (s : State) (p : Nat → Nat → Bool) : Unlinked s (s.loseReads p) := ⟨⟨_, _, _, _, _, _, _, rfl⟩, .of_csr rfl⟩

/-- Nothing is left of the records at the host. -/
theorem loseWrites_unlinked (s : State) : Unlinked s s.loseWrites ∧ s.loseWrites.core.host.cacheOut = [] := by
  have lost (m : Mem) : Unlinked s ({ s with core.mem.host := m, core.host.cacheOut := [] }.invPass (fun i => { i with lines := 0 })) :=
    ⟨⟨_, _, _, _, _, _, _, rfl⟩, .of_csr rfl⟩
  unfold State.loseWrites
  dsimp only
  split
  · rename_i h
    exact ⟨.refl s, List.isEmpty_iff.mp h⟩
  · exact ⟨((lost _).trans (.bump ..)).trans (.raise _ (by decide)), congrArg HostIf.cacheOut (State.raise_host _ _ _)⟩

/-- One write-back of the pool that the link has lost. -/
def State.loseBack (s : State) (key : Nat) (p : PoolTu) : State := ((s.undoWb key p).bump (hifBase + 0x138) 1).raise hifInt 1

theorem loseBack_unlinked (s : State) (key : Nat) (p : PoolTu) : Unlinked s (s.loseBack key p)
    ∧ (s.loseBack key p).core.host.cacheOut = s.core.host.cacheOut := by
  have undone : ∃ host pool, s.undoWb key p = { s with core.mem.host := host, core.mem.pool := pool } := ⟨_, _, rfl⟩
  obtain ⟨host, pool, h⟩ := undone
  unfold State.loseBack
  rw [h, State.raise_host]
  have lost : Unlinked s { s with core.mem.host := host, core.mem.pool := pool } := ⟨⟨_, _, _, _, _, _, _, rfl⟩, .of_csr rfl⟩
  exact ⟨(lost.trans (.bump ..)).trans (.raise _ (by decide)), rfl⟩

theorem loseBacks_unlinked (s : State) : Unlinked s s.loseBacks ∧ s.loseBacks.core.host.cacheOut = s.core.host.cacheOut :=
  Unlinked.foldl (f := fun s (e : Nat × PoolTu) => s.loseBack e.1 e.2) (fun s e => loseBack_unlinked s e.1 e.2) _ s

theorem hostLinkMoves : Says.HostLinkMoves := by
  intro s ht
  refine ⟨fun hup => ?_, fun hdown => ?_, fun rate width flit lopt cxl cache mem ho hph hdown => ?_, fun hup => ?_, fun hfr hl => ?_⟩
  · simp only [exec, execHostLinkDown]
    refine answers_core ?_
    rw [if_neg (by simp [ht, hup])]
    obtain ⟨u, hu, hur⟩ : ∃ u, u = State.raise { s with core.host.linkUp := false } hifInt 3
        ∧ ∃ regs irq, u = { s with core.host.linkUp := false, core.regs := regs, core.irq := irq } :=
      ⟨_, rfl, State.raise_core { s with core.host.linkUp := false } hifInt 3⟩
    have hb : u.flagBit hifInt 3 = true := by rw [hu]; exact State.flagBit_raise _ _ _
    rw [← hu]
    obtain ⟨hw, hwc⟩ := loseWrites_unlinked (u.loseReads (fun _ _ => true))
    obtain ⟨hk, hkc⟩ := loseBacks_unlinked (u.loseReads (fun _ _ => true)).loseWrites
    have hall := ((loseReads_unlinked u (fun _ _ => true)).trans hw).trans hk
    obtain ⟨⟨_, _, _, _, _, _, _, h⟩, hbits⟩ := hall
    obtain ⟨_, _, hur⟩ := hur
    refine ⟨?_, hkc.trans hwc, hbits.flagBit hb, ?_, ?_⟩ <;> dsimp only <;> rw [h, hur]
  · simp only [exec, execHostLinkDown, liftCore_goes]
    rw [if_pos (by simp [hdown])]
  · simp only [exec, execHostLinkUp]
    refine answers_core ?_
    rw [if_neg (by simp [ht, ho, hph, hdown])]
    have hrec : (decide (s.core.boot.phase ≠ .recovery)) = true := by simp [hph]
    refine ⟨?_, ?_, ?_, ?_, ?_, State.flagBit_raise _ _ _, State.raise_mem _ _ _⟩ <;> dsimp only <;> rw [State.raise_host] <;> simp only [hrec, Bool.and_true]
  · simp only [exec, execIdeIntegrityFailure]
    refine answers_core ?_
    rw [if_pos (by simp [ht, hup])]
    exact ⟨State.flagBit_raise _ hifInt 4, State.raise_host _ hifInt 4, State.raise_qm _ hifInt 4, State.raise_mem _ hifInt 4⟩
  · exact answers_live_at hl rfl ⟨rfl, rfl, rfl⟩

/-! Records -/

theorem State.sendVector_rest (s : State) (v : Nat) : ∃ cnt irq, s.sendVector v = { s with core.regs.cnt := cnt, core.irq := irq } := by
  unfold State.sendVector
  split
  · exact ⟨_, _, rfl⟩
  · split
    · exact ⟨_, _, rfl⟩
    · obtain ⟨_, _, h⟩ := s.sendNow_rest v
      exact ⟨_, _, h⟩

/-- The oldest record leaves the host's list, and invalidations wait for one line less. -/
def State.acked (s : State) (rest : List CacheWr) : State :=
  { s with core.host.cacheOut := rest }.invPass (fun i => { i with lines := i.lines - 1 })

theorem acked_invs (s : State) (rest : List CacheWr) :
    (s.acked rest).core.mmu.invDone + (s.acked rest).core.mmu.invs.length = s.core.mmu.invDone + s.core.mmu.invs.length := by
  have h := List.length_eq_length_filter_add (l := s.core.mmu.invs.map (fun i => { i with lines := i.lines - 1 })) InvWait.owed
  rw [List.length_map] at h
  show s.core.mmu.invDone + _ + _ = _
  simp only [State.acked, State.invPass]
  omega

/-- One acknowledgement: the oldest record, then its interrupt. -/
theorem cacheDone_one {s : State} {w : CacheWr} {rest : List CacheWr} (h : s.core.host.cacheOut = w :: rest) :
    s.cacheDone 1 = match w.vector with
      | some v => (s.acked rest).sendVector v
      | none => s.acked rest := by
  simp only [State.cacheDone, h]
  rfl

theorem recordsAcknowledged : Says.RecordsAcknowledged := by
  intro s w rest hl ho hq hc hk
  have hinv := acked_invs s rest
  have hrest : (s.cacheDone 1).core.host.cacheOut = rest ∧ (s.cacheDone 1).core.mem = s.core.mem ∧ (s.cacheDone 1).core.qm = s.core.qm
      ∧ (s.cacheDone 1).core.mmu = (s.acked rest).core.mmu := by
    rw [cacheDone_one ho]
    split
    · rename_i v _
      obtain ⟨_, _, h⟩ := (s.acked rest).sendVector_rest v
      rw [h]
      exact ⟨rfl, rfl, rfl, rfl⟩
    · exact ⟨rfl, rfl, rfl, rfl⟩
  obtain ⟨hout, hmem, hqm, hmmu⟩ := hrest
  have hretry : (s.cacheDone 1).retryRecords = s.cacheDone 1 :=
    retryRecords_nothing (by rw [hqm]; exact hq) (by rw [hmmu]; exact hc) (by rw [hmmu]; exact hk)
  refine answers_live_at hl (t := s.cacheDone 1) hretry ⟨hout, hmem, ?_, ?_, fun v hv hf hm hb => ?_, fun hv => ?_⟩
  · dsimp only
    rw [hmmu]
    rfl
  · dsimp only
    rw [hmmu]
    exact hinv
  · dsimp only
    rw [cacheDone_one ho, hv]
    dsimp only
    rw [sendVector_sends (s := s.acked rest) hf hm hb]
    obtain ⟨_, _, h⟩ := (s.acked rest).sendNow_rest v
    rw [h]
    exact mgetD_mupd_same ..
  · dsimp only
    rw [cacheDone_one ho, hv]
    rfl

/-- Settles O45: the link's moves and the records acknowledged. -/
theorem linkAndRecords : Obligations.LinkAndRecords := ⟨hostLinkMoves, recordsAcknowledged⟩

/-! The window -/

/-- A host's read with its data, its poison and its place in the filter. -/
def State.hostGets (s : State) (a : Nat) (cached x : Bool) : State :=
  { s with core.host.rdData := memReads s.core.mem.hbm a 64, core.host.rdBad := s.hbmPoison a 64,
           core.host.filter := if cached then mput s.core.host.filter (a / 64) x else s.core.host.filter }

theorem State.hbmTouch_rest (s : State) (a n : Nat) : ∃ regs irq, s.hbmTouch a n = { s with core.regs := regs, core.irq := irq } := by
  unfold State.hbmTouch State.raiseIf
  split
  · obtain ⟨_, _, h⟩ := (s.bump (memBase (a / 2 ^ 37) + 0x100) n).raise_core (memInt (a / 2 ^ 37)) 0
    exact ⟨_, _, h⟩
  · exact ⟨_, _, rfl⟩

/-- A read that is served at once. -/
theorem windowRead_served {s : State} {a : Nat} {cached : Bool} (x : Bool)
    (h : cached = false ∨ mhas s.core.host.filter (a / 64) = true ∨ (s.filterOf (a / 2 ^ 37)).length < filterCap) :
    ∃ regs irq, s.windowRead a cached x = { s.hostGets a cached x with core.regs := regs, core.irq := irq } := by
  have hfree : (cached && !mhas s.core.host.filter (a / 64) && decide ((s.filterOf (a / 2 ^ 37)).length ≥ filterCap)) = false := by
    obtain h | h | h := h
    · simp [h]
    · simp [h]
    · have : decide ((s.filterOf (a / 2 ^ 37)).length ≥ filterCap) = false := decide_eq_false (by omega)
      simp only [this, Bool.and_false]
  obtain ⟨_, _, ht⟩ := ((s.hostGets a cached x).bump (hifBase + 0x118) 64).hbmTouch_rest a 64
  unfold State.windowRead
  dsimp only
  rw [hfree, if_neg (by simp)]
  exact ⟨_, _, ht⟩

/-- A read of the host reaches its line. -/
theorem hostMemRead_runs {s : State} {off a : Nat} {cached x : Bool} {p : State → Prop} (hl : s.live = true) (hup : s.core.host.linkUp = true)
    (hw : s.winDpa (off / 64 * 64) = some a) (h : p { s with core := (s.windowRead a cached x).core }) : Answers (exec (.hostMemRead off cached x) s) p := by
  refine answers_live_at hl ?_ h
  simp only [hw, hup]
  exact if_neg (by simp)

/-- The bytes that lie at an aligned line after a write of 64 bytes to it, and its mark. -/
theorem hostMemWrite_line {s : State} {a : Nat} {d : List Byte} (ha : a % 64 = 0) (hd : d.length = 64) (hwf : memWf s.core.mem.hbm = true) :
    memReads (memWrites s.core.mem.hbm a d) a 64 = d
    ∧ (s.core.mem.badLines.filter (fun l => !(decide (a ≤ l * 64) && decide (l * 64 + 64 ≤ a + d.length)))).any
        (fun l => decide (l * 64 < a + 64) && decide (a < l * 64 + 64)) = false := by
  constructor
  · have := memReads_eq_of_forall (m := memWrites s.core.mem.hbm a d) (bs := d) (a := a) (fun i h => memRead_memWrites_in d _ _ _ hwf h)
    rwa [hd] at this
  · rw [List.any_eq_false]
    intro l hl
    simp only [List.mem_filter, Bool.not_eq_true', Bool.and_eq_false_iff, decide_eq_false_iff_not] at hl
    simp only [Bool.and_eq_true, decide_eq_true_eq, not_and]
    omega

theorem windowReadBack : Says.WindowReadBack := by
  intro s off a d hl hup hw ha hd hwf
  obtain ⟨cnt, live, wq, hrest⟩ := s.hbmWrite_rest a d wqData
  have hrun (poison : Bool) {p : State → Prop} (h : p { s with core := (if poison then
      { ((s.hbmWrite a d).bump (hifBase + 0x120) 64) with core.mem.badLines := sins (a / 64) (s.hbmWrite a d).core.mem.badLines }
      else (s.hbmWrite a d).bump (hifBase + 0x120) 64).core }) : Answers (exec (.hostMemWrite off d poison) s) p := by
    refine answers_live_at hl ?_ h
    simp only [hw, hup, hd]
    exact if_neg (by simp)
  have read (t : State) (htl : t.live = true) (hh : t.core.host = s.core.host) (hline : memReads t.core.mem.hbm a 64 = d) (hclean : t.hbmPoison a 64 = false) :
      Answers (exec (.hostMemRead off false false) t) (fun u => u.core.host.rdData = d ∧ u.core.host.rdBad = false ∧ u.core.mem = t.core.mem
        ∧ u.core.host.filter = s.core.host.filter) := by
    obtain ⟨_, _, h⟩ := windowRead_served (s := t) (a := a) (cached := false) false (.inl rfl)
    refine hostMemRead_runs htl (by rw [hh, hup]) (by rw [← hw, State.winDpa, State.winDpa, hh]) ?_
    rw [h]
    refine ⟨hline, hclean, rfl, ?_⟩
    show t.core.host.filter = s.core.host.filter
    rw [hh]
  refine ⟨hrun false ?_, hrun true ?_, fun x => ?_, fun x hroom => ?_⟩
  · rw [if_neg (by simp), hrest]
    refine ⟨fun b hb => memRead_memWrites_out _ _ _ _ (by omega), rfl, rfl, ?_⟩
    obtain ⟨hline, hclean⟩ := hostMemWrite_line ha hd hwf
    refine read _ hl rfl hline hclean
  · rw [if_pos rfl]
    refine List.any_eq_true.mpr ⟨a / 64, mem_sins_self _ _, ?_⟩
    simp only [Bool.and_eq_true, decide_eq_true_eq]
    omega
  · obtain ⟨_, _, h⟩ := windowRead_served (s := s) (a := a) (cached := false) x (.inl rfl)
    refine hostMemRead_runs hl hup hw ?_
    rw [h]
    exact ⟨⟨rfl, rfl, rfl, rfl⟩, rfl⟩
  · obtain ⟨_, _, h⟩ := windowRead_served (s := s) (a := a) (cached := true) x (.inr hroom)
    refine hostMemRead_runs hl hup hw ?_
    rw [h]
    exact ⟨⟨rfl, rfl, rfl, rfl⟩, mget_mput_same ..⟩

/-- A line that leaves the filter makes room for another of its stack. -/
theorem filterOf_less {s : State} {line k : Nat} (hm : mhas s.core.host.filter line = true) (hk : line / 2 ^ 31 = k) :
    ((mdel s.core.host.filter line).filter (fun e => e.1 / 2 ^ 31 = k)).length < (s.core.host.filter.filter (fun e => e.1 / 2 ^ 31 = k)).length := by
  have hin : ∃ e ∈ s.core.host.filter, e.1 = line := by
    revert hm
    generalize s.core.host.filter = m
    intro hm
    induction m with
    | nil => cases hm
    | cons e m ih =>
      obtain ⟨j, b⟩ := e
      by_cases hj : j = line
      · exact ⟨(j, b), List.mem_cons_self, hj⟩
      · have : mhas m line = true := by simpa [mhas, mget, hj] using hm
        obtain ⟨e, he, hl⟩ := ih this
        exact ⟨e, List.mem_cons_of_mem _ he, hl⟩
  obtain ⟨e, he, rfl⟩ := hin
  have hcomm : (mdel s.core.host.filter e.1).filter (fun x => decide (x.1 / 2 ^ 31 = k))
      = (s.core.host.filter.filter (fun x => decide (x.1 / 2 ^ 31 = k))).filter (fun x => x.1 != e.1) := by
    rw [mdel, List.filter_filter, List.filter_filter]
    exact List.filter_congr fun x _ => Bool.and_comm _ _
  rw [hcomm]
  refine List.length_filter_lt_length_iff_exists.mpr ⟨e, ?_, by simp⟩
  exact List.mem_filter.mpr ⟨he, by simpa using hk⟩

/-- A response takes its snoop away and leaves the filter as it says. -/
def State.snoopEnds (s : State) (line : Nat) (filter : Map Bool) : State :=
  { s with core.host.bisnp := mdel s.core.host.bisnp line, core.host.filter := filter }

/-- A response where no read and no record waits. -/
theorem birsp_runs {s : State} {line : Nat} {inv keep : Bool} {p : State → Prop} (hl : s.live = true) (hb : mget s.core.host.bisnp line = some inv)
    (hq : ∀ e ∈ s.core.qm.queues, e.2.held = []) (hx : ∀ e ∈ s.core.mmu.ctxs, e.2.errWait = []) (hk : s.core.mmu.killRecs = [])
    (hr : s.core.host.rdWait = [])
    (h : p (s.snoopEnds line (if keep && !inv then mput s.core.host.filter line false else mdel s.core.host.filter line))) : Answers (exec (.birsp line keep) s) p := by
  obtain ⟨u, hu⟩ : ∃ u, u = s.snoopEnds line (if keep && !inv then mput s.core.host.filter line false else mdel s.core.host.filter line) := ⟨_, rfl⟩
  have hserve : u.serveReads = u := by
    have hw : u.core.host.rdWait = [] := by rw [hu]; exact hr
    have h0 : { u with core.host.rdWait := [] } = u := by rw [← hw]
    simp only [State.serveReads, hw, List.foldl_nil]
    exact h0
  have hretry : u.retryRecords = u := by
    rw [hu]
    exact retryRecords_nothing hq hx hk
  refine answers_live_at hl (t := u) ?_ ?_
  · simp only [hb]
    have : u.serveReads.retryRecords = u := by rw [hserve, hretry]
    rw [hu] at this ⊢
    exact this
  · rw [hu]
    exact h

theorem windowCommit : Says.WindowCommit := by
  intro s hl
  refine ⟨fun frames hc hm => ?_, fun frames hc => ?_, fun line inv hb hq hx hk => ⟨fun hr => ?_, fun hi hr => ?_, fun a x hr hm hs hne hn => ?_⟩⟩
  · refine answers_live_at hl (if_neg (by simp [hc, hm])) ?_
    refine ⟨rfl, rfl, ?_, fun a ha => ?_, rfl⟩
    · simp only [List.length_take]
      omega
    · have hmem := List.mem_of_mem_take ha
      rw [List.mem_eraseDups, List.mem_filter] at hmem
      exact hmem.2
  · show liftCore _ s = .next s
    rw [liftCore_goes, whenLive_pos _ hl, if_pos (by simp [hc])]
  · exact birsp_runs hl hb hq hx hk hr ⟨mget_mdel_same .., mget_mdel_same .., rfl⟩
  · exact birsp_runs hl hb hq hx hk hr (by rw [hi]; exact mget_mput_same ..)
  · obtain ⟨u, hu⟩ : ∃ u, u = { s.snoopEnds line (mdel s.core.host.filter line) with core.host.rdWait := [] } := ⟨_, rfl⟩
    have hroom : (u.filterOf (a / 2 ^ 37)).length < filterCap := by
      have hlt := filterOf_less hm hs
      have hn' := hn
      simp only [State.filterOf, List.length_map] at hn' ⊢
      rw [hu]
      exact Nat.lt_of_lt_of_le hlt hn'
    obtain ⟨_, _, hread⟩ := windowRead_served (s := u) (a := a) (cached := true) x (.inr (.inr hroom))
    have hserve : (s.snoopEnds line (mdel s.core.host.filter line)).serveReads = u.windowRead a true x := by
      have hw : (s.snoopEnds line (mdel s.core.host.filter line)).core.host.rdWait = [(a, x)] := hr
      simp only [State.serveReads, hw, List.foldl_cons, List.foldl_nil]
      rw [hu]
    have hretry : (u.windowRead a true x).retryRecords = u.windowRead a true x := by
      rw [hread, hu]
      exact retryRecords_nothing hq hx hk
    refine answers_live_at hl (t := u.windowRead a true x) ?_ ?_
    · simp only [hb]
      exact (congrArg State.retryRecords hserve).trans hretry
    · rw [hread, hu]
      exact ⟨rfl, rfl, mget_mput_same .., (mget_mput_ne _ _ hne).trans (mget_mdel_same ..)⟩

/-- Settles O46: the window's lines, its commitment, and its filter. -/
theorem hostWindow : Obligations.HostWindow := ⟨windowReadBack, windowCommit⟩

end Sys2Proof.Machine
end

section
/-! PROOF. Host translation, contexts and pre-emption (O13, O14, O41; 10_translation R234-R260, 15_host R377, R378). -/
namespace Sys2Proof.Machine
open State

/-! ATS, page requests and their end (R242, R243, R377, R378) -/

/-- No record of any kind waits. -/
structure NoRecordsWait (s : State) : Prop where
  held : ∀ e ∈ s.core.qm.queues, e.2.held = []
  err : ∀ e ∈ s.core.mmu.ctxs, e.2.errWait = []
  kill : s.core.mmu.killRecs = []

theorem NoRecordsWait.retry {s : State} (h : NoRecordsWait s) : s.retryRecords = s := retryRecords_nothing h.held h.err h.kill

/-- Two states with the same queues, contexts and records of the killed. -/
theorem NoRecordsWait.congr {s t : State} (h : NoRecordsWait s) (hq : t.core.qm.queues = s.core.qm.queues) (hc : t.core.mmu.ctxs = s.core.mmu.ctxs)
    (hk : t.core.mmu.killRecs = s.core.mmu.killRecs) : NoRecordsWait t :=
  ⟨by rw [hq]; exact h.held, by rw [hc]; exact h.err, by rw [hk]; exact h.kill⟩

/-- A refused page where no record waits. -/
theorem refusePage_nothing {s : State} (h : NoRecordsWait s) (c page cause : Nat) :
    s.refusePage c page cause = { s with core.mmu.refused := s.core.mmu.refused ++ [(c, page, cause)] } :=
  NoRecordsWait.retry (s := { s with core.mmu.refused := s.core.mmu.refused ++ [(c, page, cause)] }) (h.congr rfl rfl rfl)

/-- Every request of a list refused. -/
theorem refuseAll {s : State} (h : NoRecordsWait s) : ∀ l : List PageReq, ∃ refused,
    l.foldl (fun s p => s.refusePage p.ctx p.addr 6) s = { s with core.mmu.refused := refused }
    ∧ (∀ x ∈ s.core.mmu.refused, x ∈ refused) ∧ ∀ p ∈ l, (p.ctx, p.addr, 6) ∈ refused := by
  intro l
  induction l generalizing s with
  | nil => exact ⟨_, rfl, fun x hx => hx, fun p hp => nomatch hp⟩
  | cons p l ih =>
    rw [List.foldl_cons, refusePage_nothing h]
    obtain ⟨refused, hr, hold, hnew⟩ := ih (s := { s with core.mmu.refused := s.core.mmu.refused ++ [(p.ctx, p.addr, 6)] }) (h.congr rfl rfl rfl)
    refine ⟨refused, hr, fun x hx => hold x (List.mem_append_left _ hx), fun y hy => ?_⟩
    cases hy with
    | head => exact hold _ (List.mem_append_right _ List.mem_cons_self)
    | tail _ hy => exact hnew y hy

/-- An invalidation ends at once or waits: either way it is counted once. -/
theorem invPass_counts (s : State) (l : List InvWait) (n : Nat) (h : l.length = n) :
    let t := State.invPass { s with core.mmu.invs := l } id
    t.core.mmu.invDone + t.core.mmu.invs.length = s.core.mmu.invDone + n := by
  have := List.length_eq_length_filter_add (l := l) InvWait.owed
  simp only [State.invPass, List.map_id, id_eq]
  omega

/-- A page request group made of the host. -/
def State.requested (s : State) (p : PageReq) : State :=
  { s with core.mmu.prg := s.core.mmu.prg ++ [p], core.mmu.prgNext := (p.index + 1) % 512 }.bump (mmuBase + 0x120) 1

/-- The newest entry stays in the cache. -/
theorem mem_atcFill (a : List AtcEntry) (x : AtcEntry) : x ∈ (a ++ [x]).drop (a.length + 1 - atcSize) := by
  rw [List.drop_append_of_le_length (by simp only [atcSize]; omega)]
  exact List.mem_append_right _ List.mem_cons_self

/-- A completion with a translation. -/
theorem atsCompletion_fills {s : State} {ctx addr host : Nat} {w : Bool} {r : AtsReq} {l : List AtcEntry} (hl : s.live = true)
    (hr : s.core.mmu.ats.find? (fun r => r.ctx = ctx && r.page = addr / 4096) = some r) (hw : NoRecordsWait s)
    (hfill : (s.core.mmu.atc ++ [(⟨r.pasid, addr / 4096, host / 4096, w⟩ : AtcEntry)]).drop (s.core.mmu.atc.length + 1 - atcSize) = l) :
    Answers (exec (.atsCompletion ctx addr host w true) s) (fun t => t.core.mmu.atc = l ∧ t.core.mmu.ats = s.core.mmu.ats.erase r) := by
  refine answers_live_at hl (t := { s with core.mmu.ats := s.core.mmu.ats.erase r, core.mmu.atc := l }) ?_ ⟨rfl, rfl⟩
  simp only [hr, if_true, hfill]
  exact NoRecordsWait.retry (hw.congr rfl rfl rfl)

/-- A page that ATS refuses where PRI may be used. -/
theorem pageRequest_asks {s : State} {c page pasid : Nat} {w : Bool} (hf : (s.ctx c).flag 1 = true) (hp : s.core.mmu.priOn = true)
    (hn : s.core.mmu.prg.length < s.core.mmu.priAlloc) : s.pageRequest c page pasid w = s.requested ⟨c, page, w, s.core.mmu.prgNext, s.now, pasid⟩ := by
  unfold State.pageRequest
  rw [if_neg (by simp [hf]), if_neg (by simp [hp]), if_neg (by omega)]
  rfl

/-- Settles O14: completions, page requests and invalidations. -/
theorem hostTranslation : Obligations.HostTranslation := by
  intro s hl hq hc hk
  have hw : NoRecordsWait s := ⟨hq, hc, hk⟩
  refine ⟨fun ctx addr host w r hr => ⟨?_, fun hf hp hn => ?_⟩, fun p hp => ⟨?_, ?_, fun ht hnow => ?_⟩, ?_, fun pasid page n => ?_⟩
  · obtain ⟨t, ht, hatc, hats⟩ := atsCompletion_fills (host := host) (w := w) hl hr hw rfl
    exact ⟨t, ht, hatc ▸ mem_atcFill _ _, hats⟩
  · refine answers_live_at hl (t := State.requested { s with core.mmu.ats := s.core.mmu.ats.erase r } ⟨ctx, addr / 4096, w, s.core.mmu.prgNext, s.now, r.pasid⟩) ?_ ⟨rfl, rfl⟩
    simp only [hr]
    exact (if_neg (by simp)).trans (pageRequest_asks (s := { s with core.mmu.ats := s.core.mmu.ats.erase r }) hf hp hn)
  · have hfind : s.core.mmu.prg.find? (fun x => x.index = p.index && x.pasid = p.pasid) = some p := by simp [hp]
    refine answers_live_at hl (t := { s with core.mmu.prg := s.core.mmu.prg.erase p }) ?_ ⟨by simp [hp], rfl⟩
    simp only [hfind, if_true]
    exact NoRecordsWait.retry (hw.congr rfl rfl rfl)
  · have hfind : s.core.mmu.prg.find? (fun x => x.index = p.index && x.pasid = p.pasid) = some p := by simp [hp]
    have href := refusePage_nothing (s := { s with core.mmu.prg := s.core.mmu.prg.erase p }) (hw.congr rfl rfl rfl) p.ctx p.addr 6
    refine answers_live_at hl ?_ (h := ?_) (t := State.refusePage { s with core.mmu.prg := s.core.mmu.prg.erase p } p.ctx p.addr 6)
    · simp only [hfind]
      exact if_neg (by simp)
    · rw [href]
      exact ⟨by simp [hp], List.mem_append_right _ List.mem_cons_self⟩
  · have hfind : s.core.mmu.prg.find? (fun x => x.index = p.index) = some p := by simp [hp]
    have href := refusePage_nothing (s := { s with core.mmu.prg := s.core.mmu.prg.erase p }) (hw.congr rfl rfl rfl) p.ctx p.addr 6
    refine answers_live_at hl ?_ (h := ?_) (t := State.refusePage { s with core.mmu.prg := s.core.mmu.prg.erase p } p.ctx p.addr 6)
    · simp only [hfind]
      exact if_pos (by simp [ht, hnow])
    · rw [href]
      exact ⟨by simp [hp], List.mem_append_right _ List.mem_cons_self⟩
  · obtain ⟨refused, hr, -, hnew⟩ := refuseAll (s := { s with core.mmu.prg := [], core.mmu.priOn := false }) (hw.congr rfl rfl rfl) s.core.mmu.prg
    exact answers_live_at hl hr ⟨rfl, rfl, hnew⟩
  · refine answers_live_at hl rfl ⟨fun e he => ?_, ?_⟩
    · have := (List.mem_filter.mp he).2
      simp only [Bool.not_eq_true', Bool.and_eq_false_iff, decide_eq_false_iff_not] at this
      omega
    · exact (invPass_counts { s with core.mmu.atc := s.core.mmu.atc.filter (fun t => !(t.pasid = pasid && decide (page ≤ t.page) && decide (t.page < page + n))) }
        (s.core.mmu.invs ++ [_]) (s.core.mmu.invs.length + 1) (by simp)).trans (Nat.add_assoc ..).symm

/-! The commands on contexts (R234-R236, R254-R260) -/

/-- A context's entry written to the table: memory, with the counters of a write. -/
theorem State.ctxWrite_rest (s : State) (c : Nat) : ∃ cnt live mem, s.ctxWrite c = { s with core.regs.cnt := cnt, core.ldg.live := live, core.mem := mem } := by
  unfold State.ctxWrite
  dsimp only
  split
  · obtain ⟨_, _, _, h⟩ := s.hbmWrite_rest (s.reg fldCtxtBase + 128 * c) (leBytes 128 (s.ctx c).word) wqData
    exact ⟨_, _, _, h⟩
  · exact ⟨_, _, _, rfl⟩

/-- The end of a command of the MMU block. -/
theorem mmuCmd_ends {s u : State} {op code : Nat} {f : State → State × Nat} (hb : s.cmdBusy 1 = false) (hf : f (s.begun 1 op) = (u, code))
    (hc : u.core.cmds = (s.begun 1 op).core.cmds) :
    ∃ t, s.mmuCmd op f = t ∧ mgetD t.core.cmds 1 {} = { op := op, busy := false, result := resultOf code } ∧ t.flagBit mmuInt 3 = true
      ∧ t.core.qm = u.core.qm ∧ t.core.mmu = u.core.mmu ∧ t.core.mem = u.core.mem ∧ ∀ g : Fld, g.key ≠ 8 * mmuInt + 3 → t.reg g = u.reg g :=
  ⟨_, runCmd_gives hb hf, cmdDone_begun hc .., u.cmdDone_flagBit .., u.cmdDone_qm .., u.cmdDone_mmu .., u.cmdDone_mem .., fun _ h => u.cmdDone_reg _ _ h⟩

/-- The row of a command of the MMU block. -/
theorem answers_mmuCmd {g : State → State} {s u : State} {op code : Nat} {f : State → State × Nat} {p : State → Prop} (hd : s.dispatching = true)
    (hb : s.cmdBusy 1 = false) (hg : g s = s.mmuCmd op f) (hf : f (s.begun 1 op) = (u, code)) (hc : u.core.cmds = (s.begun 1 op).core.cmds)
    (h : ∀ t : State, mgetD t.core.cmds 1 {} = { op := op, busy := false, result := resultOf code } → t.flagBit mmuInt 3 = true
      → t.core.qm = u.core.qm → t.core.mmu = u.core.mmu → t.core.mem = u.core.mem → (∀ g : Fld, g.key ≠ 8 * mmuInt + 3 → t.reg g = u.reg g) → p t) :
    Answers (liftCore (whenDispatching g) s) p := by
  obtain ⟨t, ht, hcmd, hflag, hqm, hmmu, hmem, hreg⟩ := mmuCmd_ends hb hf hc
  exact answers_dispatching_at hd (hg.trans ht) (h _ hcmd hflag hqm hmmu hmem hreg)

theorem ctx_of_mmu {s t : State} (h : t.core.mmu = s.core.mmu) (c : Nat) : t.ctx c = s.ctx c := by simp only [State.ctx, h]

theorem State.begun_cmdData (s : State) (k op base n : Nat) : (s.begun k op).cmdData base n = s.cmdData base n := by
  induction n with
  | zero => rfl
  | succ n ih => rw [State.cmdData, State.cmdData, ih, State.begun_reg]

theorem State.begun_cmdEntry (s : State) (k op : Nat) : (s.begun k op).cmdEntry = s.cmdEntry := s.begun_cmdData k op mmuBase 32

theorem State.begun_cmdCtx (s : State) (k op : Nat) : (s.begun k op).cmdCtx = s.cmdCtx := rfl

theorem State.begun_entryBad (s : State) (k op c d : Nat) : (s.begun k op).entryBad c d = s.entryBad c d := rfl

theorem contextCommands : Says.ContextCommands := by
  intro s hd hb c d done
  -- a change of the context's entry, written to the table
  have written (op : Nat) {g : State → State} {f : State → State × Nat} (x : Ctx) (hg : g s = s.mmuCmd op f)
      (hf : f (s.begun 1 op) = (({ s.begun 1 op with core.mmu.ctxs := mput s.core.mmu.ctxs c x }).ctxWrite c, 0)) :
      Answers (liftCore (whenDispatching g) s) (fun t => done t 0 ∧ t.ctx c = x ∧ ∀ b, b ≠ c → t.ctx b = s.ctx b) := by
    obtain ⟨cnt, live, mem, hw⟩ := State.ctxWrite_rest { s.begun 1 op with core.mmu.ctxs := mput s.core.mmu.ctxs c x } c
    rw [hw] at hf
    refine answers_mmuCmd hd hb hg hf rfl fun t hcmd hflag hqm hmmu _ _ => ⟨⟨?_, ?_, hflag, hqm⟩, ?_, fun b hbc => ?_⟩
    · rw [hcmd]; rfl
    · rw [hcmd]
    · exact (ctx_of_mmu hmmu c).trans (mgetD_mput_same ..)
    · exact (ctx_of_mmu hmmu b).trans (mgetD_mput_ne _ _ _ hbc)
  -- a refusal
  have refused (op : Nat) {g : State → State} {f : State → State × Nat} (hg : g s = s.mmuCmd op f) (hf : f (s.begun 1 op) = (s.begun 1 op, 0xC)) :
      Answers (liftCore (whenDispatching g) s) (fun t => done t 0x8C ∧ t.core.mmu = s.core.mmu ∧ t.core.mem = s.core.mem) :=
    answers_mmuCmd hd hb hg hf rfl fun t hcmd hflag hqm hmmu hmem _ => ⟨⟨by rw [hcmd]; rfl, by rw [hcmd], hflag, hqm⟩, hmmu, hmem⟩
  refine ⟨fun hc0 hfree hbad => ?_, fun hno => ?_, fun hu hbad hsus => ?_, fun hu hact hpas => ?_, ?_⟩
  · refine written 1 _ rfl ?_
    have hgo : (decide (c = 0) || decide ((s.ctx c).st ≠ .free) || s.entryBad c d) = false := by simp [hc0, hfree, hbad]
    simp only [State.begun_cmdCtx, State.begun_cmdEntry, State.begun_entryBad, State.begun_ctx]
    exact if_neg (Bool.eq_false_iff.1 hgo)
  · refine refused 1 rfl ?_
    have hgo : (decide (c = 0) || decide ((s.ctx c).st ≠ .free) || s.entryBad c d) = true := by
      obtain h | h := hno <;> simp [h]
    simp only [State.begun_cmdCtx, State.begun_cmdEntry, State.begun_entryBad, State.begun_ctx]
    exact if_pos hgo
  · refine written 2 _ rfl ?_
    have hgo (x : Bool) : (!s.ctxUsable c || s.entryBad c d || !x && decide ((s.ctx c).st ≠ .suspended)) = false := by simp [hu, hbad, hsus]
    simp only [State.begun_cmdCtx, State.begun_cmdEntry, State.begun_entryBad, State.begun_ctx, State.begun_ctxUsable]
    exact if_neg (Bool.eq_false_iff.1 (hgo _))
  · have hgo (x : Bool) : (!s.ctxUsable c || s.entryBad c d || !(decide (bits (entryKept d) 32 20 = bits (s.ctx c).entry 32 20) && x)
        && decide ((s.ctx c).st ≠ .suspended)) = true := by simp [hpas, hact]
    obtain ⟨t, ht, hdone, hmmu, -⟩ := refused 2 (g := State.ctxModify) rfl (by
      simp only [State.begun_cmdCtx, State.begun_cmdEntry, State.begun_entryBad, State.begun_ctx, State.begun_ctxUsable]
      exact if_pos (hgo _))
    exact ⟨t, ht, hdone, hmmu⟩
  · obtain ⟨csr, hr⟩ := putData_rest (s.begun 1 3) mmuBase (s.ctx c).word 32
    have hf : (fun s : State => (s.putData mmuBase (s.ctx s.cmdCtx).word 32, 0)) (s.begun 1 3) = ((s.begun 1 3).putData mmuBase (s.ctx c).word 32, 0) := rfl
    refine answers_mmuCmd (g := State.ctxRead) hd hb rfl hf (by rw [hr]) fun t hcmd hflag hqm hmmu hmem hreg => ⟨⟨by rw [hcmd]; rfl, by rw [hcmd], hflag, ?_⟩, ?_, ?_, fun i hi => ?_⟩
    · rw [hqm, hr]
      rfl
    · rw [hmmu, hr]
      rfl
    · rw [hmem, hr]
      rfl
    · rw [hreg _ (by simp only [Fld.key, fldData, mmuInt]; omega)]
      exact putData_reg _ _ _ 32 i hi

/-! CTX_KILL and CTX_DESTROY -/

theorem State.ownerKilled_qm (s : State) (c : Nat) : (s.ownerKilled c).core.qm = s.core.qm := by
  unfold State.ownerKilled
  split
  · rfl
  · dsimp only
    split
    · rfl
    · exact State.raise_qm _ _ _

/-- What step 4 leaves of a context in the flags and the TLBs. -/
theorem killMemory_clean (s : State) (c : Nat) : (∀ e ∈ (s.killMemory c).core.mmu.tlb, e.ctx ≠ c) ∧ ∀ b, mget (s.killMemory c).core.qm.owner b ≠ some c := by
  refine ⟨fun e he => ?_, fun b hb => ?_⟩
  · simpa using (List.mem_filter.mp he).2
  · simpa using (List.mem_filter.mp (mem_of_mget hb)).2

/-- A killed queue loses its slot and all but its descriptor. -/
def State.dropQueue (s : State) (q : Nat) : State :=
  (s.freeSlot q).updQueue q (fun x => { desc := x.desc, home := x.home, crTail := x.crTail, crHead := x.crHead })

theorem dropQueue_disables (s : State) (q : Nat) : ((s.dropQueue q).queue q).st = .disabled
    ∧ (∀ p, (s.queue p).st = .disabled → ((s.dropQueue q).queue p).st = .disabled)
    ∧ (s.dropQueue q).core.mmu = s.core.mmu ∧ (s.dropQueue q).core.qm.owner = s.core.qm.owner := by
  have hfree : ∃ slots queues, s.freeSlot q = { s with core.qm.slots := slots, core.qm.queues := queues }
      ∧ ∀ p, p ≠ q → (s.freeSlot q).queue p = s.queue p := by
    unfold State.freeSlot
    split
    · exact ⟨_, _, rfl, fun _ _ => rfl⟩
    · exact ⟨_, _, rfl, fun p hp => State.queue_updQueue_ne _ _ hp⟩
  obtain ⟨_, _, hf, hne⟩ := hfree
  have hsame : ((s.dropQueue q).queue q).st = .disabled := by
    rw [State.dropQueue, State.queue_updQueue_same]
  refine ⟨hsame, fun p hp => ?_, ?_, ?_⟩
  · by_cases h : p = q
    · rw [h]
      exact hsame
    · have : (s.dropQueue q).queue p = (s.freeSlot q).queue p := State.queue_updQueue_ne _ _ h
      rw [this, hne p h]
      exact hp
  · show (s.freeSlot q).core.mmu = _
    rw [hf]
  · show (s.freeSlot q).core.qm.owner = _
    rw [hf]

theorem dropQueues_disables (qs : List Nat) : ∀ s : State, (∀ q ∈ qs, ((qs.foldl State.dropQueue s).queue q).st = .disabled)
    ∧ (∀ p, (s.queue p).st = .disabled → ((qs.foldl State.dropQueue s).queue p).st = .disabled)
    ∧ (qs.foldl State.dropQueue s).core.mmu = s.core.mmu ∧ (qs.foldl State.dropQueue s).core.qm.owner = s.core.qm.owner := by
  induction qs with
  | nil => exact fun s => ⟨fun q hq => (nomatch hq), fun _ h => h, rfl, rfl⟩
  | cons q qs ih =>
    intro s
    obtain ⟨hq, hkeep, hmmu, hown⟩ := dropQueue_disables s q
    obtain ⟨ihq, ihkeep, ihmmu, ihown⟩ := ih (s.dropQueue q)
    refine ⟨fun p hp => ?_, fun p hp => ihkeep p (hkeep p hp), ihmmu.trans hmmu, ihown.trans hown⟩
    cases hp with
    | head => exact ihkeep q hq
    | tail _ hp => exact ihq p hp

/-- How a sweep ends: the context's memory is swept, its queues are dropped, and it is KILLED with its event. -/
theorem sweep_ends (s : State) (c : Nat) : ∃ u : State, s.sweep c =
    ((((s.queuesOf c).foldl State.dropQueue (u.killMemory c)).updCtx c (fun x => { x with st := .killed })).asReclaimed s).raise mmuInt 1 := by
  have hqs : ((s.updCtx c (fun x => { x with st := .killing })).ownerKilled c).queuesOf c = s.queuesOf c := by
    simp only [State.queuesOf, State.ownerKilled_qm]
    rfl
  unfold State.sweep
  dsimp only
  rw [hqs]
  exact ⟨_, rfl⟩

/-- What a sweep leaves of the context. -/
theorem sweep_kills (s : State) (c : Nat) : ((s.sweep c).ctx c).st = .killed ∧ (s.sweep c).flagBit mmuInt 1 = true
    ∧ (∀ q ∈ s.queuesOf c, ((s.sweep c).queue q).st = .disabled) ∧ (∀ b, mget (s.sweep c).core.qm.owner b ≠ some c)
    ∧ ∀ e ∈ (s.sweep c).core.mmu.tlb, e.ctx ≠ c := by
  obtain ⟨u, hu⟩ := sweep_ends s c
  obtain ⟨htlb, hown⟩ := killMemory_clean u c
  obtain ⟨hq, -, hmmu, hqown⟩ := dropQueues_disables (s.queuesOf c) (u.killMemory c)
  obtain ⟨v, hv⟩ : ∃ v, v = (s.queuesOf c).foldl State.dropQueue (u.killMemory c) := ⟨_, rfl⟩
  rw [← hv] at hu hq hmmu hqown
  have hqm : (s.sweep c).core.qm = v.core.qm := by rw [hu, State.raise_qm]; rfl
  have hmm : (s.sweep c).core.mmu = (v.updCtx c (fun x => { x with st := .killed })).core.mmu := by rw [hu, State.raise_mmu]; rfl
  refine ⟨?_, ?_, fun q h => ?_, fun b => ?_, fun e he => ?_⟩
  · rw [ctx_of_mmu hmm, State.ctx_updCtx_same]
  · rw [hu]
    exact State.flagBit_raise _ _ _
  · rw [State.queue_congr (congrArg Qmg.queues hqm)]
    exact hq q h
  · rw [hqm, hqown]
    exact hown b
  · rw [hmm] at he
    exact htlb e (hmmu ▸ he)

/-- What the end of a command leaves, beside its own result and event. -/
theorem cmdDone_keeps (s : State) (k code : Nat) {int bit i : Nat} (h : s.flagBit int i = true) : (s.cmdDone k code int bit).flagBit int i = true :=
  (State.raise_bitsSet (ks := [8 * int + bit]) { s with core.cmds := mupd s.core.cmds k {} (fun c => { c with busy := false, result := resultOf code } ) }
    List.mem_cons_self).flagBit h

theorem killAndDestroy : Says.KillAndDestroy := by
  intro s hd hb c
  have refused (h : (decide ((s.ctx c).st ≠ .killed) || decide ((s.ctx c).infl + s.recordsLeft c ≠ 0)) = true) :
      Answers (exec .ctxDestroy s) (fun t => t.core.mmu = s.core.mmu ∧ (mgetD t.core.cmds 1 {}).result = 0x8C) :=
    answers_mmuCmd (g := State.ctxDestroy) (u := s.begun 1 5) (code := 0xC) hd hb rfl (if_pos h) rfl fun t hcmd _ _ hmmu _ _ => ⟨hmmu, by rw [hcmd]; rfl⟩
  refine ⟨fun hu => ?_, fun hk hi hr => ?_, fun hno => refused ?_⟩
  · have hq0 : (s.begun 1 4).queuesOf c = s.queuesOf c := rfl
    obtain ⟨hst, hflag, hqs, hown, htlb⟩ := sweep_kills (s.begun 1 4) c
    obtain ⟨cnt, live, mem, hw⟩ := ((s.begun 1 4).sweep c).ctxWrite_rest c
    have hun : (!(s.begun 1 4).ctxUsable c) = false := by rw [State.begun_ctxUsable, hu]; rfl
    have hrun : s.ctxKill = (((s.begun 1 4).sweep c).ctxWrite c).cmdDone 1 0 mmuInt 3 := by
      unfold State.ctxKill State.mmuCmd
      refine runCmd_gives hb ?_
      exact if_neg (Bool.eq_false_iff.1 hun)
    obtain ⟨v, hv⟩ : ∃ v, v = (s.begun 1 4).sweep c := ⟨_, rfl⟩
    rw [← hv] at hst hflag hqs hown htlb hw hrun
    have hvw : (v.ctxWrite c).core.mmu = v.core.mmu ∧ (v.ctxWrite c).core.qm = v.core.qm ∧ (v.ctxWrite c).flagBit mmuInt 1 = v.flagBit mmuInt 1 := by
      rw [hw]
      exact ⟨rfl, rfl, rfl⟩
    obtain ⟨hmmu, hqm, hfl⟩ := hvw
    have hmmu' := ((v.ctxWrite c).cmdDone_mmu 1 0 mmuInt 3).trans hmmu
    have hqm' := ((v.ctxWrite c).cmdDone_qm 1 0 mmuInt 3).trans hqm
    refine answers_dispatching_at hd hrun ⟨?_, ?_, ?_, fun q hq => ?_, fun b => ?_, ?_⟩
    · exact (congrArg Ctx.st (ctx_of_mmu hmmu' c)).trans hst
    · exact cmdDone_keeps _ 1 0 (hfl.trans hflag)
    · exact congrArg Cmd.result (State.cmdDone_cmd ..)
    · exact (congrArg Queue.st (State.queue_congr (congrArg Qmg.queues hqm') q)).trans (hqs q hq)
    · dsimp only
      rw [hqm']
      exact hown b
    · dsimp only
      rw [hmmu']
      exact htlb
  · have hgo : (decide ((s.ctx c).st ≠ .killed) || decide ((s.ctx c).infl + s.recordsLeft c ≠ 0)) = false := by simp [hk, hi, hr]
    obtain ⟨v, hv⟩ : ∃ v, v = ((s.begun 1 5).fencedFor c).foldl (fun s p => s.releasePart p.1 p.2) (s.begun 1 5) := ⟨_, rfl⟩
    obtain ⟨cnt, live, mem, hw⟩ := State.ctxWrite_rest { v with core.mmu.ctxs := mdel v.core.mmu.ctxs c } c
    have hrun : s.ctxDestroy = (State.ctxWrite { v with core.mmu.ctxs := mdel v.core.mmu.ctxs c } c).cmdDone 1 0 mmuInt 3 := by
      unfold State.ctxDestroy State.mmuCmd
      refine runCmd_gives hb ?_
      rw [hv]
      exact if_neg (Bool.eq_false_iff.1 hgo)
    have hctx (b : Nat) : ((State.ctxWrite { v with core.mmu.ctxs := mdel v.core.mmu.ctxs c } c).cmdDone 1 0 mmuInt 3).ctx b
        = mgetD (mdel v.core.mmu.ctxs c) b {} := ctx_of_mmu (s := { v with core.mmu.ctxs := mdel v.core.mmu.ctxs c }) (by rw [State.cmdDone_mmu, hw]) b
    refine answers_dispatching_at hd hrun ⟨?_, ?_, fun hnone b hbc => ?_⟩
    · exact (hctx c).trans (by simp [mgetD])
    · exact congrArg Cmd.result (State.cmdDone_cmd ..)
    · have hvs : v = s.begun 1 5 := by
        have h0 : (s.begun 1 5).fencedFor c = [] := hnone
        rw [hv, h0, List.foldl_nil]
      refine (hctx b).trans ?_
      rw [hvs]
      simp only [mgetD, mget_mdel_ne _ hbc, State.ctx, State.begun_mmu]
  · obtain h | h | h := hno
    · simp [h]
    · simp; omega
    · simp; omega

/-- Settles O41: the commands on contexts, their end and their refusals. -/
theorem contextLife : Obligations.ContextLife := ⟨contextCommands, killAndDestroy⟩

/-! PREEMPT and RESUME (R249, R253) -/

/-- What stands at a slot that no RCE has. -/
theorem freeGather_of_cls {s : State} {r : SlotRef} (h : r.cls ≠ 7) : s.freeGather r = s := by
  unfold State.freeGather
  split
  · exact if_neg (by simp [h])
  · rfl

/-- A queue taken off what it waits for. -/
def State.unwait (s : State) (q : Nat) : State :=
  { (s.withdraw q).endStall q with core.qm.waiters := ((s.withdraw q).endStall q).core.qm.waiters.filter (fun w => w.q ≠ q) }

theorem State.unwait_rest (s : State) (q : Nat) : ∃ cnt waiters notes, s.unwait q = { s with
    core.regs.cnt := cnt, core.qm.waiters := waiters, core.qm.notes := notes } := by
  unfold State.unwait State.endStall
  dsimp only
  split <;> exact ⟨_, _, _, rfl⟩

/-- A slot's share is taken out. -/
def State.emptied (s : State) (r : SlotRef) : State :=
  { s with core.qm.eiq := mdel s.core.qm.eiq (slotKey r) }.give 8 (eiqPart r) (mgetD s.core.qm.eiq (slotKey r) []).length

/-- What a unit held is kept for its queue. -/
def State.kept (s : State) (q : Nat) (x : SavedUnit) : State :=
  { s with core.saved := mput s.core.saved q x,
           core.pmc.kc := s.core.pmc.kc.map (fun (k : Nat × KcSample) => match k.2.live with
             | some x => if x.1 = q then (k.1, { k.2 with preempted := true }) else k
             | none => k) }

/-- A queue that has left its slot with its share. -/
def Queue.vacated (x : Queue) (l : List Entry) (r : SlotRef) : Queue :=
  { x with saved := l, st := .preempted, was := x.st, errPend := x.errPend || x.st = QState.error, left := some r, stopping := false,
           aside := x.aside <|> x.stalled, stalled := none, stall := 0, cur := x.cur.map (fun c => { c with waitFt := none }) }

/-- The slot is free, and the time that the pre-emption took is counted. -/
def State.unslotted (s : State) (q : Nat) : State :=
  let t := s.now - s.core.mmu.preemptFt
  let s := (s.freeSlot q).bump (mmuBase + 0x130) 1
  let s := s.setCounter (mmuBase + 0x138) (max (s.counter (mmuBase + 0x138)) t)
  s.setReg (fldArg mmuBase 1) (max (s.arg mmuBase 1) t)

theorem vacate_eq {s : State} {q : Nat} {r : SlotRef} (hs : (s.queue q).slot = some r) : s.vacate q =
    ((State.kept ((((s.freeGather r).unwait q).emptied r).saveUnit q r).1 q ((((s.freeGather r).unwait q).emptied r).saveUnit q r).2).updQueue q
      (fun x => x.vacated (mgetD ((s.freeGather r).unwait q).core.qm.eiq (slotKey r) []) r)).unslotted q := by
  unfold State.vacate
  simp only [hs]
  rfl

/-- A queue's slot is freed and nothing else of any queue changes. -/
theorem unslotted_rest (s : State) (q : Nat) : (∃ csr cnt slots queues, s.unslotted q = { s with
      core.regs.csr := csr, core.regs.cnt := cnt, core.qm.slots := slots, core.qm.queues := queues })
    ∧ ((s.unslotted q).queue q) = { s.queue q with slot := none } ∧ ∀ e ∈ (s.unslotted q).core.qm.queues, e.1 = q ∨ e ∈ s.core.qm.queues := by
  have hfree : (∃ slots queues, s.freeSlot q = { s with core.qm.slots := slots, core.qm.queues := queues })
      ∧ ((s.freeSlot q).queue q) = { s.queue q with slot := none } ∧ ∀ e ∈ (s.freeSlot q).core.qm.queues, e.1 = q ∨ e ∈ s.core.qm.queues := by
    unfold State.freeSlot
    split
    · rename_i h
      exact ⟨⟨_, _, rfl⟩, by rw [← h], fun e he => .inr he⟩
    · refine ⟨⟨_, _, rfl⟩, State.queue_updQueue_same .., fun e he => ?_⟩
      exact (mem_mput he).imp_left (fun h => congrArg Prod.fst h)
  obtain ⟨⟨_, _, h⟩, hq, he⟩ := hfree
  have hsame : (s.unslotted q).core.qm = (s.freeSlot q).core.qm := rfl
  refine ⟨?_, (State.queue_congr (congrArg Qmg.queues hsame) q).trans hq, by rw [hsame]; exact he⟩
  unfold State.unslotted
  dsimp only
  rw [h]
  exact ⟨_, _, _, _, rfl⟩

theorem State.hbmAside_rest (s : State) (q n c : Nat) (bs : List Byte) : ∃ cnt live mem, (s.hbmAside q n c bs).1 = { s with
    core.regs.cnt := cnt, core.ldg.live := live, core.mem := mem } := by
  unfold State.hbmAside
  split
  · exact ⟨_, _, _, rfl⟩
  · rename_i p _
    dsimp only
    split
    · rename_i a _
      obtain ⟨_, _, _, h⟩ := State.hbmWrite_rest { s with core.mem.aside := s.core.mem.aside ++ [({ q := q, place := p, n := n, ctx := c } : Aside)] } a bs wqData
      exact ⟨_, _, _, h⟩
    · exact ⟨_, _, _, rfl⟩

/-- An MVU gives up what it holds. -/
theorem saveUnit_mvu (s : State) (q : Nat) {r : SlotRef} (h : r.cls = 4) : ∃ cnt live mem, (s.saveUnit q r).1 = { s.setMvu r.unit {} with
    core.regs.cnt := cnt, core.ldg.live := live, core.mem := mem } := by
  have hu : (s.saveUnit q r).1 = ((s.setMvu r.unit {}).hbmAside (s.quarterOf 4 r.unit) mvuSpans (s.queue q).ctx (s.mvu r.unit).image).1 := by
    unfold State.saveUnit
    rw [if_neg (by omega), if_pos h]
  rw [hu]
  generalize (s.mvu r.unit).image = bs
  exact State.hbmAside_rest ..

/-- The queue of an MVU leaves its slot: what it and its slot hold then. -/
theorem vacate_mvu {s : State} {q : Nat} {r : SlotRef} (hs : (s.queue q).slot = some r) (hc : r.cls = 4) :
    (((s.vacate q).queue q).st = .preempted ∧ ((s.vacate q).queue q).slot = none ∧ ((s.vacate q).queue q).left = some r
      ∧ ((s.vacate q).queue q).saved = mgetD s.core.qm.eiq (slotKey r) [] ∧ ((s.vacate q).queue q).stopping = false)
    ∧ (∀ e ∈ (s.vacate q).core.qm.queues, e.1 = q ∨ e ∈ s.core.qm.queues) ∧ mget (s.vacate q).core.qm.eiq (slotKey r) = none
    ∧ (s.vacate q).mvu r.unit = {} ∧ (s.vacate q).core.cmds = s.core.cmds := by
  obtain ⟨_, _, _, hw⟩ := s.unwait_rest q
  obtain ⟨u, hu⟩ : ∃ u, u = (s.unwait q).emptied r := ⟨_, rfl⟩
  obtain ⟨_, _, _, hm⟩ := saveUnit_mvu u q hc
  have hl : mgetD (s.unwait q).core.qm.eiq (slotKey r) [] = mgetD s.core.qm.eiq (slotKey r) [] := by rw [hw]
  have huq : u.core.qm.queues = s.core.qm.queues ∧ u.core.qm.eiq = mdel s.core.qm.eiq (slotKey r) ∧ u.core.cmds = s.core.cmds := by
    rw [hu, State.emptied, hw]
    exact ⟨rfl, rfl, rfl⟩
  obtain ⟨huq, hue, huc⟩ := huq
  have hvac := vacate_eq hs
  rw [freeGather_of_cls (by omega), ← hu, hl] at hvac
  obtain ⟨v, hv⟩ : ∃ v, v = (State.kept (u.saveUnit q r).1 q (u.saveUnit q r).2).updQueue q (fun x => x.vacated (mgetD s.core.qm.eiq (slotKey r) []) r) := ⟨_, rfl⟩
  rw [← hv] at hvac
  have hvq : v.queue q = (s.queue q).vacated (mgetD s.core.qm.eiq (slotKey r) []) r := by
    rw [hv, State.queue_updQueue_same]
    refine congrArg (fun x : Queue => x.vacated _ r) (State.queue_congr ?_ q)
    show (u.saveUnit q r).1.core.qm.queues = _
    rw [hm, ← huq]
    rfl
  have hvr : (∀ e ∈ v.core.qm.queues, e.1 = q ∨ e ∈ s.core.qm.queues) ∧ v.core.qm.eiq = mdel s.core.qm.eiq (slotKey r)
      ∧ v.mvu r.unit = {} ∧ v.core.cmds = s.core.cmds := by
    rw [hv]
    refine ⟨fun e he => (mem_mput he).imp (fun h => congrArg Prod.fst h) fun h => ?_, ?_, ?_, ?_⟩
    · rw [← huq]
      have : (State.kept (u.saveUnit q r).1 q (u.saveUnit q r).2).core.qm.queues = u.core.qm.queues := by
        show (u.saveUnit q r).1.core.qm.queues = _
        rw [hm]
        rfl
      rw [← this]
      exact h
    · show (u.saveUnit q r).1.core.qm.eiq = _
      rw [hm]
      exact hue
    · show (u.saveUnit q r).1.mvu r.unit = _
      rw [hm]
      exact State.mvu_setMvu_same u r.unit {}
    · show (u.saveUnit q r).1.core.cmds = _
      rw [hm]
      exact huc
  obtain ⟨hvqs, hve, hvm, hvc⟩ := hvr
  obtain ⟨⟨_, _, _, _, h⟩, hqueue, hqueues⟩ := unslotted_rest v q
  rw [hvac]
  refine ⟨?_, fun e he => ?_, ?_, ?_, ?_⟩
  · rw [hqueue, hvq]
    exact ⟨rfl, rfl, rfl, rfl, rfl⟩
  · obtain h | h := hqueues e he
    · exact .inl h
    · exact hvqs e h
  · rw [h]
    show mget v.core.qm.eiq (slotKey r) = none
    rw [hve]
    exact mget_mdel_same ..
  · rw [h]
    exact hvm
  · rw [h]
    exact hvc

/-- A PREEMPT that waits for no queue ends, and a context with nothing bound is SUSPENDED. -/
theorem settlePreempt_ends {u : State} {c : Nat} (ha : (mgetD u.core.cmds 1 {}).arg = c) (hn : ∀ x ∈ u.boundOf c, (u.queue x.1).stopping = false) :
    ∃ v : State, u.settlePreempt = (v.raise mmuInt 2).cmdDone 1 0 mmuInt 3 ∧ v.core.qm = u.core.qm ∧ v.core.mvus = u.core.mvus
      ∧ (u.boundOf c = [] → (v.ctx c).st = .suspended) := by
  have hstay : ∀ l : List (Nat × SlotRef), (∀ x ∈ l, (u.queue x.1).stopping = false) →
      l.foldl (fun s x => if (s.queue x.1).stopping && !s.mustFinish x.2 then s.vacate x.1 else s) u = u := by
    intro l
    induction l with
    | nil => exact fun _ => rfl
    | cons x l ih =>
      intro h
      rw [List.foldl_cons, if_neg (by simp [h x List.mem_cons_self])]
      exact ih fun y hy => h y (List.mem_cons_of_mem _ hy)
  have hany : (u.boundOf c).any (fun x => (u.queue x.1).stopping) = false := List.any_eq_false.mpr fun x hx => by simp [hn x hx]
  unfold State.settlePreempt
  dsimp only
  rw [ha, hstay _ hn, hany, if_neg (by simp)]
  by_cases hb : (u.boundOf c).isEmpty = true
  · rw [if_pos hb]
    obtain ⟨_, _, _, hw⟩ := (u.updCtx c (fun x => { x with st := .suspended })).ctxWrite_rest c
    refine ⟨_, rfl, by rw [hw]; rfl, by rw [hw]; rfl, fun _ => ?_⟩
    rw [ctx_of_mmu (s := u.updCtx c (fun x => { x with st := .suspended })) (by rw [hw]), State.ctx_updCtx_same]
  · rw [if_neg hb]
    exact ⟨_, rfl, rfl, rfl, fun h => absurd (by rw [h]; rfl) hb⟩

/-- With no unit that is vacated nothing that feeds one is suspended. -/
theorem suspendFeeds_none (s : State) : s.suspendFeeds [] [] = s := by
  have hns : (s.core.streams.filter (fun e => ([] : List (Nat × Nat)).contains (e.2.slot.unit, e.2.slot.slot))).map (·.1) = [] := by simp
  unfold State.suspendFeeds
  dsimp only
  rw [hns]
  rfl

/-- PREEMPT of a whole ACTIVE context, with no engine and no SE among its slots. -/
theorem preempt_runs {s : State} {l : List (Nat × SlotRef)} (hb : s.cmdBusy 1 = false) (ha : (s.ctx s.cmdCtx).st = .active)
    (hall : (s.arg mmuBase 0).testBit 16 = true) (hl : s.boundOf s.cmdCtx = l) (hcls : ∀ x ∈ l, x.2.cls = 4) : ∃ u : State,
    s.preempt = (l.foldl (fun s x => s.stopQueue x.1) u).settlePreempt ∧ (mgetD u.core.cmds 1 {}).arg = s.cmdCtx ∧ u.core.qm = s.core.qm
      ∧ u.core.mvus = s.core.mvus := by
  have h1 : l.filterMap (fun x => if x.2.cls ≤ 3 && ((s.ope x.2.unit).part x.2.slot).fence = 0 then some (x.2.unit, x.2.slot) else none) = [] :=
    List.filterMap_eq_nil_iff.mpr fun x hx => if_neg (by simp [hcls x hx])
  have h2 : l.filterMap (fun x => if x.2.cls = 6 then some (x.2.unit, x.2.slot) else none) = [] :=
    List.filterMap_eq_nil_iff.mpr fun x hx => if_neg (by simp [hcls x hx])
  have h3 (f : Nat × SlotRef → Bool) : l.filter (fun x => true || f x) = l := List.filter_eq_self.mpr fun _ _ => rfl
  have hact : decide ((s.ctx s.cmdCtx).st ≠ .active) = false := by simp [ha]
  refine ⟨{ (s.startCmd 1 6 s.cmdCtx).setReg (fldArg mmuBase 1) 0 with core.mmu.preemptFt := s.now }, ?_, ?_, rfl, rfl⟩
  · unfold State.preempt
    dsimp only
    rw [hall, hl, if_neg (by simp), if_neg (by simp [ha]), if_neg (by simp [hb]), h3]
    refine congrArg (fun u : State => (l.foldl (fun s x => s.stopQueue x.1) u).settlePreempt) ?_
    refine Eq.trans ?_ (suspendFeeds_none _)
    exact congr (congrArg _ h1) h2
  · exact congrArg Cmd.arg (mgetD_mput_same ..)

/-- What a PREEMPT of the context ends with. -/
theorem preempted_ends {v : State} : ((v.raise mmuInt 2).cmdDone 1 0 mmuInt 3).core.qm = v.core.qm
    ∧ (∀ c, ((v.raise mmuInt 2).cmdDone 1 0 mmuInt 3).ctx c = v.ctx c) ∧ (∀ n, ((v.raise mmuInt 2).cmdDone 1 0 mmuInt 3).mvu n = v.mvu n)
    ∧ ((v.raise mmuInt 2).cmdDone 1 0 mmuInt 3).flagBit mmuInt 2 = true
    ∧ (mgetD ((v.raise mmuInt 2).cmdDone 1 0 mmuInt 3).core.cmds 1 {}).result = 0 := by
  have hm : ((v.raise mmuInt 2).cmdDone 1 0 mmuInt 3).core.mvus = v.core.mvus := by
    obtain ⟨_, _, h1⟩ := (v.raise mmuInt 2).cmdDone_rest 1 0 mmuInt 3
    obtain ⟨_, _, h2⟩ := v.raise_core mmuInt 2
    rw [h1, h2]
  exact ⟨by simp, fun c => ctx_of_mmu (by simp) c, fun n => by simp only [State.mvu, hm], cmdDone_keeps _ 1 0 (State.flagBit_raise ..),
    congrArg Cmd.result (State.cmdDone_cmd ..)⟩

/-- A PREEMPTED queue waits for its slot again. -/
def State.resumeQueue (s : State) (q : Nat) : State := s.updQueue q (fun x => { x with st := .ready, readyFt := s.now })

/-- Queues of a list become READY, and no other changes. -/
theorem resumed_queues (qs : List Nat) : ∀ s : State, (∀ q, q ∈ qs → ((qs.foldl State.resumeQueue s).queue q).st = .ready)
    ∧ (∀ q, (s.queue q).st = .ready → ((qs.foldl State.resumeQueue s).queue q).st = .ready)
    ∧ (∀ q, q ∉ qs → (qs.foldl State.resumeQueue s).queue q = s.queue q)
    ∧ (qs.foldl State.resumeQueue s).core.mmu = s.core.mmu := by
  induction qs with
  | nil => exact fun s => ⟨fun q hq => (nomatch hq), fun _ h => h, fun _ _ => rfl, rfl⟩
  | cons p qs ih =>
    intro s
    have hp : ((s.resumeQueue p).queue p).st = .ready := by rw [State.resumeQueue, State.queue_updQueue_same]
    have hne {q : Nat} (h : q ≠ p) : (s.resumeQueue p).queue q = s.queue q := State.queue_updQueue_ne _ _ h
    obtain ⟨hin, hkeep, hout, hmmu⟩ := ih (s.resumeQueue p)
    refine ⟨fun q hq => ?_, fun q hq => ?_, fun q hq => ?_, hmmu⟩
    · cases hq with
      | head => exact hkeep p hp
      | tail _ h => exact hin q h
    · by_cases h : q = p
      · rw [h]
        exact hkeep p hp
      · exact hkeep q (by rw [hne h]; exact hq)
    · rw [List.mem_cons, not_or] at hq
      exact (hout q hq.2).trans (hne hq.1)

/-- PREEMPTED queues of a context. -/
def State.preemptedOf (s : State) (c : Nat) : List Nat := (s.core.qm.queues.filter (fun e => e.2.ctx = c && decide (e.2.st = .preempted))).map (·.1)

theorem resume_runs {s : State} (hb : s.cmdBusy 1 = false) (hs : (s.ctx s.cmdCtx).st = .suspended) : ∃ v : State,
    s.resume = ((s.preemptedOf s.cmdCtx).foldl State.resumeQueue v).cmdDone 1 0 mmuInt 3 ∧ v.core.qm = s.core.qm ∧ (v.ctx s.cmdCtx).st = .active := by
  obtain ⟨v, hv⟩ : ∃ v, v = ((s.begun 1 7).updCtx s.cmdCtx (fun x => { x with st := .active })).ctxWrite s.cmdCtx := ⟨_, rfl⟩
  obtain ⟨_, _, _, hw⟩ := ((s.begun 1 7).updCtx s.cmdCtx (fun x => { x with st := .active })).ctxWrite_rest s.cmdCtx
  have hvq : v.core.qm = s.core.qm := by
    rw [hv, hw]
    rfl
  have hvm : v.core.mmu = ((s.begun 1 7).updCtx s.cmdCtx (fun x => { x with st := .active })).core.mmu := by rw [hv, hw]
  refine ⟨v, ?_, hvq, by rw [ctx_of_mmu hvm, State.ctx_updCtx_same]⟩
  have hgo : decide ((s.ctx s.cmdCtx).st ≠ .suspended) = false := by simp [hs]
  have hl : s.preemptedOf s.cmdCtx = v.preemptedOf s.cmdCtx := by simp only [State.preemptedOf, hvq]
  rw [hl, hv]
  unfold State.resume State.mmuCmd
  refine runCmd_gives hb ?_
  exact if_neg (by simp only [State.begun_ctx, State.begun_cmdCtx]; simp [hs])

/-- Settles O13: a PREEMPT of what needs no engine, and RESUME. -/
theorem preemptAndResume : Obligations.PreemptAndResume := by
  intro s hd hb c
  refine ⟨fun ha hall hnone => ?_, fun q r ha hall hone hcls hslot => ?_, fun hsus => ?_, fun hsus => ?_⟩
  · obtain ⟨u, hrun, harg, hqm, -⟩ := preempt_runs hb ha hall hnone (fun x hx => nomatch hx)
    have hbound : u.boundOf c = [] := by rw [← hnone]; simp only [State.boundOf, hqm]
    obtain ⟨v, hv, -, -, hst⟩ := settlePreempt_ends harg (fun x hx => by rw [hbound] at hx; exact nomatch hx)
    obtain ⟨-, hctx, -, hflag, hres⟩ := preempted_ends (v := v)
    exact answers_dispatching_at hd (hrun.trans hv) ⟨(congrArg Ctx.st (hctx c)).trans (hst hbound), hflag, hres⟩
  · obtain ⟨u, hrun, harg, hqm, -⟩ := preempt_runs hb ha hall hone (fun x hx => by rw [List.mem_singleton.mp hx]; exact hcls)
    have huq : (u.queue q).slot = some r := by rw [State.queue_congr (congrArg Qmg.queues hqm), hslot]
    have hstop : u.stopQueue q = u.vacate q := by
      unfold State.stopQueue
      simp only [huq, State.mustFinish, hcls]
      rfl
    obtain ⟨⟨hst, hsl, hleft, hsaved, hstopping⟩, hqs, heiq, hmvu, hcmds⟩ := vacate_mvu huq hcls
    have hnostop : ∀ x ∈ (u.vacate q).boundOf c, ((u.vacate q).queue x.1).stopping = false := by
      intro x hx
      obtain ⟨e, he, hex⟩ := List.mem_filterMap.mp hx
      have hkey : x.1 = e.1 := by
        revert hex
        split
        · split
          · rintro ⟨rfl⟩
            rfl
          · exact fun h => nomatch h
        · exact fun h => nomatch h
      have hq : x.1 = q := by
        obtain h | h := hqs e he
        · exact hkey.trans h
        · rw [hqm] at h
          have hin : x ∈ s.boundOf c := List.mem_filterMap.mpr ⟨e, h, hex⟩
          rw [hone, List.mem_singleton] at hin
          exact congrArg Prod.fst hin
      rw [hq]
      exact hstopping
    obtain ⟨v, hv, hvqm, hvm, -⟩ := settlePreempt_ends (u := u.vacate q) (by rw [hcmds]; exact harg) hnostop
    obtain ⟨hqm', -, hmvu', -, -⟩ := preempted_ends (v := v)
    have hall' : s.preempt = (v.raise mmuInt 2).cmdDone 1 0 mmuInt 3 := by
      rw [hrun, List.foldl_cons, List.foldl_nil, hstop, hv]
    have hqm2 := hqm'.trans hvqm
    have hq2 := State.queue_congr (congrArg Qmg.queues hqm2) q
    refine answers_dispatching_at hd hall' ⟨?_, ?_, ?_, ?_, ?_, ?_⟩
    · exact (congrArg Queue.st hq2).trans hst
    · exact (congrArg Queue.slot hq2).trans hsl
    · exact (congrArg Queue.left hq2).trans hleft
    · exact (congrArg Queue.saved hq2).trans (by rw [hsaved, hqm])
    · dsimp only
      rw [hqm2]
      exact heiq
    · refine (hmvu' r.unit).trans ?_
      rw [← hmvu]
      simp only [State.mvu, hvm]
  · obtain ⟨v, hv, hvq, hact⟩ := resume_runs hb hsus
    obtain ⟨hin, -, hout, hmmu⟩ := resumed_queues (s.preemptedOf c) v
    have hstill (q : Nat) : v.queue q = s.queue q := State.queue_congr (congrArg Qmg.queues hvq) q
    have hq2 (q : Nat) : (((s.preemptedOf c).foldl State.resumeQueue v).cmdDone 1 0 mmuInt 3).queue q = ((s.preemptedOf c).foldl State.resumeQueue v).queue q :=
      State.queue_congr (congrArg Qmg.queues (State.cmdDone_qm ..)) q
    refine answers_dispatching_at hd hv ⟨?_, congrArg Cmd.result (State.cmdDone_cmd ..), fun q hqc hqs => ?_, fun q hq => ?_⟩
    · refine (congrArg Ctx.st (ctx_of_mmu (s := v) ?_ c)).trans hact
      exact (State.cmdDone_mmu ..).trans hmmu
    · refine (congrArg Queue.st (hq2 q)).trans (hin q ?_)
      obtain ⟨e, he, hek, hev⟩ : ∃ e ∈ s.core.qm.queues, e.1 = q ∧ e.2 = s.queue q := by
        cases hg : mget s.core.qm.queues q with
        | none =>
          have : s.queue q = {} := by simp only [State.queue, mgetD, hg, Option.getD_none]
          rw [this] at hqs
          exact nomatch hqs
        | some x => exact ⟨(q, x), mem_of_mget hg, rfl, by simp only [State.queue, mgetD, hg, Option.getD_some]⟩
      refine List.mem_map.mpr ⟨e, List.mem_filter.mpr ⟨he, ?_⟩, hek⟩
      rw [hev]
      simp [hqc, hqs]
    · refine (hq2 q).trans ((hout q fun hmem => ?_).trans (hstill q))
      obtain ⟨e, he, hek⟩ := List.mem_map.mp hmem
      obtain ⟨hin, hc⟩ := List.mem_filter.mp he
      simp only [Bool.and_eq_true, decide_eq_true_eq] at hc
      obtain h | h := hq e hin hek
      · exact h hc.2
      · exact h hc.1
  · refine answers_mmuCmd (g := State.resume) (u := s.begun 1 7) (code := 0xC) hd hb rfl ?_ rfl fun t hcmd _ hqm hmmu _ _ => ⟨hqm, hmmu, by rw [hcmd]; rfl⟩
    exact if_pos hsus

end Sys2Proof.Machine
end

section
/-! PROOF. The translation cache, the end of faults, and FENCE_DUMP (O42, O43; 10_translation R240-R248, R258). -/
namespace Sys2Proof.Machine
open State

/-! TLB_INV (R241) -/

theorem Recorded.refuseWb (s : State) (key : Nat) (p : PoolTu) : Recorded s (s.refuseWb key p) :=
  (Recorded.of_accessed (.setPool s key _)).trans (.raise _ (Accessed.memInt_int _) (by decide))

/-- What becomes of a TU that no longer leads anywhere. -/
def State.dropTu (s : State) (key : Nat) (p : PoolTu) : State :=
  if p.resident && p.dirty && !p.poisonPin && !(p.wb && !p.again && !p.refused) then
    if s.homeRefuses p then s.refuseWb key { p with refused := false } else (s.writeHome p).freeTu key p
  else if p.resident || p.filling then s.freeTu key p
  else { s with core.mem.pool := mdel s.core.mem.pool key }

theorem Recorded.dropTu (s : State) (key : Nat) (p : PoolTu) : Recorded s (s.dropTu key p) := by
  unfold State.dropTu
  split
  · split
    · exact .refuseWb s key _
    · exact (Recorded.writeHome s p).trans (.of_accessed (.freeTu _ key p))
  · split
    · exact .of_accessed (.freeTu s key p)
    · exact .of_accessed (.ofMem s _)

theorem Recorded.dropPooled (s : State) (key : Nat) (p : PoolTu) : Recorded s (s.dropPooled key p) := by
  have hfill : Recorded s (if p.filling && !p.writes.isEmpty then s.fillFrom key p else s) := by
    split
    · exact .of_accessed (.fillFrom s key p)
    · exact .refl s
  exact hfill.trans (.dropTu _ key _)

/-- The end of a TLB_INV, where nothing keeps it from ending, leaves the queues and the TLBs alone. -/
theorem settleInv_keeps (s : State) : s.settleInv.core.qm = s.core.qm ∧ s.settleInv.core.mmu.tlb = s.core.mmu.tlb := by
  unfold State.settleInv
  split
  · exact ⟨rfl, rfl⟩
  · rename_i x _
    split
    · exact ⟨rfl, rfl⟩
    · have h := Recorded.foldl (fun s (e : Nat × PoolTu) => Recorded.dropPooled s e.1 e.2) (s.unmapped x.ctx x.first x.pages) s
      dsimp only
      split
      · rw [State.cmdDone_qm, State.cmdDone_mmu]
        exact ⟨h.qm, h.tlb⟩
      · exact ⟨h.qm, h.tlb⟩

/-! TABLE_WALK (R240) -/

/-- The entry just filled is there. -/
theorem mem_tlbFill_self (l : List TlbEntry) (e : TlbEntry) : e ∈ tlbFill l e := List.mem_append_right _ List.mem_cons_self

/-- A fill of another TLB takes nothing away. -/
theorem mem_tlbFill_other {l : List TlbEntry} {e x : TlbEntry} (h : x ∈ l) (hne : x.tlb ≠ e.tlb) : x ∈ tlbFill l e := by
  have hkeep : x ∈ l.filter (fun t => !(t.tlb = e.tlb && t.ctx = e.ctx && decide (t.page * t.size < e.page * e.size + e.size)
      && decide (e.page * e.size < t.page * t.size + t.size))) := List.mem_filter.mpr ⟨h, by simp [hne]⟩
  refine List.mem_append_left _ ?_
  dsimp only
  split
  · exact (List.mem_eraseP_of_neg (by simp [hne])).mpr hkeep
  · exact hkeep

/-- An entry of a table lies in the table's stack. -/
theorem entry_stack {t i : Nat} (h : t * 4096 / 2 ^ 37 < 8) (hi : i < 512) : (t * 4096 + 8 * i) / 2 ^ 37 < 8 := by
  have hpow : (2 : Nat) ^ 37 = 4096 * 2 ^ 25 := by norm_num
  have hpage : (t * 4096 + 8 * i) / 4096 = t * 4096 / 4096 := by omega
  rwa [hpow, ← Nat.div_div_eq_div_mul, hpage, Nat.div_div_eq_div_mul, ← hpow]

/-- A walk reads tables of the module's stacks. -/
theorem walkReads_stack (s : State) (va : Nat) : ∀ (fuel level table : Nat), s.dpaOk (table * 4096) = true →
    ∀ a ∈ s.walkReads va fuel level (table * 4096), a / 2 ^ 37 < 8 := by
  intro fuel
  induction fuel with
  | zero => exact fun _ _ _ a ha => nomatch ha
  | succ fuel ih =>
    intro level table hok a ha
    have hidx : levelIndex level va < 512 := by
      unfold levelIndex
      split
      · exact Nat.lt_of_lt_of_le (Nat.mod_lt _ (by decide)) (by decide)
      · exact Nat.mod_lt _ (by decide)
    rw [State.walkReads] at ha
    obtain h | h := List.mem_cons.mp ha
    · have hk : table * 4096 / 2 ^ 37 < 8 := by
        simp only [State.dpaOk, State.stackPresent, Bool.and_eq_true, decide_eq_true_eq] at hok
        exact hok.1.1
      rw [h]
      exact entry_stack hk hidx
    · split at h
      · rename_i hn
        simp only [Bool.and_eq_true, State.nonLeafOk] at hn
        exact ih _ _ hn.2.2 a h
      · exact nomatch h

theorem hbmTouch_counter (s : State) {a : Nat} (n : Nat) (h : a / 2 ^ 37 < 8) : (s.hbmTouch a n).counter (mmuBase + 0x100) = s.counter (mmuBase + 0x100) := by
  have hb : (s.bump (memBase (a / 2 ^ 37) + 0x100) n).counter (mmuBase + 0x100) = s.counter (mmuBase + 0x100) :=
    State.counter_bump_ne _ _ (by simp only [mmuBase, memBase]; omega)
  unfold State.hbmTouch State.raiseIf
  split
  · exact (State.counter_raise _ _ _ (by decide)).trans hb
  · exact hb

theorem touches_counter (l : List Nat) : ∀ s : State, (∀ a ∈ l, a / 2 ^ 37 < 8) →
    (l.foldl (fun s a => s.hbmTouch a 8) s).counter (mmuBase + 0x100) = s.counter (mmuBase + 0x100) := by
  induction l with
  | nil => exact fun _ _ => rfl
  | cons a l ih =>
    intro s h
    rw [List.foldl_cons, ih _ fun b hb => h b (List.mem_cons_of_mem _ hb)]
    exact hbmTouch_counter s 8 (h a List.mem_cons_self)

/-- A walk is counted once, and changes neither memory nor the MMU. -/
theorem countWalk_counts (s : State) (c va : Nat) : (s.countWalk c va).counter (mmuBase + 0x100) = (s.counter (mmuBase + 0x100) + 1) % 2 ^ 64
    ∧ ∃ regs irq, s.countWalk c va = { s with core.regs := regs, core.irq := irq } := by
  have touched (l : List Nat) : ∀ s : State, ∃ regs irq, l.foldl (fun s a => s.hbmTouch a 8) s = { s with core.regs := regs, core.irq := irq } := by
    induction l with
    | nil => exact fun s => ⟨_, _, rfl⟩
    | cons a l ih =>
      intro s
      obtain ⟨_, _, h⟩ := s.hbmTouch_rest a 8
      obtain ⟨_, _, k⟩ := ih (s.hbmTouch a 8)
      exact ⟨_, _, by rw [List.foldl_cons, k, h]⟩
  have hcount : ((s.bump (mmuBase + 0x100) 1).bump (mmuBase + 0x108) 1).counter (mmuBase + 0x100) = (s.counter (mmuBase + 0x100) + 1) % 2 ^ 64 := by
    rw [State.counter_bump_ne _ _ (by decide), State.counter_bump_same]
  unfold State.countWalk
  dsimp only
  split
  · rename_i hok
    obtain ⟨_, _, h⟩ := touched (((s.bump (mmuBase + 0x100) 1).bump (mmuBase + 0x108) 1).walkReads va 5 0
      (((s.bump (mmuBase + 0x100) 1).bump (mmuBase + 0x108) 1).ctx c).root) ((s.bump (mmuBase + 0x100) 1).bump (mmuBase + 0x108) 1)
    refine ⟨(touches_counter _ _ ?_).trans hcount, _, _, h⟩
    exact walkReads_stack _ va 5 0 _ hok
  · exact ⟨hcount, _, _, rfl⟩

theorem SameSpace.walk {s t : State} (h : SameSpace s t) (c va : Nat) : t.walk c va = s.walk c va := by
  have hr : (t.ctx c).root = (s.ctx c).root := by simp only [Ctx.root, h.entry]
  simp only [State.walk, hr, h.dpaOk, h.walkFrom (h.entry c)]

/-- The entry that a walk caches in a TLB. -/
def leafEntry (c va level e k : Nat) : TlbEntry := ⟨c, va / leafSize level e, leafSize level e, e, k⟩

/-- A walked leaf in the TLBs of its unit and its quarter. -/
def State.cacheLeaf (s : State) (who : Walker) (va level e q : Nat) : State :=
  { s with core.mmu.tlb := tlbFill (tlbFill s.core.mmu.tlb (leafEntry who.ctx va level e q)) (leafEntry who.ctx va level e (unitTlb who.unit)) }

/-- What a walk leaves, by what it finds. -/
def State.walked (s : State) (who : Walker) (va q : Nat) : Except Nat (Nat × Nat) → State
  | .error _ => s
  | .ok (level, e) => s.cacheLeaf who va level e q

/-- A miss in the quarter's TLB walks the table. -/
theorem tableWalk_misses {s : State} {who : Walker} {va : Nat} (hd : s.dispatching = true) (hc : who.ctx ≠ 0) (hst : (s.ctx who.ctx).st ≠ .free)
    (hit : s.tlbHit (s.tlbQuarter who.unit) who.ctx va = none) {r : Except Nat (Nat × Nat)} (hw : s.walk who.ctx va = r) {p : State → Prop}
    (h : ∀ u, u = s.countWalk who.ctx va → p (u.walked who va (s.tlbQuarter who.unit) r)) : Answers (exec (.tableWalk who va) s) p := by
  have hgo : (decide (who.ctx = 0) || decide ((s.ctx who.ctx).st = .free)) = false := by simp [hc, hst]
  obtain ⟨-, _, _, hrest⟩ := countWalk_counts s who.ctx va
  have hwalk : (s.countWalk who.ctx va).walk who.ctx va = r := (SameSpace.walk (.of_mmu (by rw [hrest]) (by rw [hrest]) (by rw [hrest])) _ _).trans hw
  refine answers_dispatching_at hd (t := (s.countWalk who.ctx va).walked who va (s.tlbQuarter who.unit) r) ?_ ?_
  · dsimp only
    rw [hgo, if_neg (by simp), hit]
    dsimp only
    split
    · rename_i k hk
      obtain rfl := hwalk.symm.trans hk
      rfl
    · rename_i level e hk
      obtain rfl := hwalk.symm.trans hk
      rfl
  · have := h _ rfl
    cases r with
    | error k =>
      dsimp only [State.walked] at this ⊢
      rw [hrest] at this ⊢
      exact this
    | ok x =>
      dsimp only [State.walked, State.cacheLeaf] at this ⊢
      rw [hrest] at this ⊢
      exact this

theorem translationCache : Says.TranslationCache := by
  intro s hd
  refine ⟨fun hb => ?_, fun who va hc hst => ⟨fun t hit => ?_, fun level e hit hw => ?_, fun k hit hw => ?_⟩⟩
  · obtain ⟨u, hu⟩ : ∃ u, s.tlbInv = State.settleInv u ∧ u.core.qm = s.core.qm ∧ u.core.mmu.tlb = s.core.mmu.tlb.filter (fun t =>
        !(t.ctx = bits (s.arg mmuBase 0) 0 12 && meetsRange (bits (s.arg mmuBase 1) 12 44 * 4096) (bits (s.arg mmuBase 0) 32 32) (t.page * t.size) t.size)) := by
      unfold State.tlbInv
      rw [if_neg (by simp [hb])]
      exact ⟨_, rfl, rfl, rfl⟩
    obtain ⟨hrun, huq, hut⟩ := hu
    obtain ⟨hq, ht⟩ := settleInv_keeps u
    have htlb := ht.trans hut
    refine answers_dispatching_at hd hrun ⟨fun e he => ?_, fun e he hout => ?_, hq.trans huq⟩
    · rw [show State.core { s with core := u.settleInv.core } = u.settleInv.core from rfl, htlb] at he
      obtain ⟨hin, hp⟩ := List.mem_filter.mp he
      exact ⟨hin, by rwa [Bool.not_eq_true', ← Bool.not_eq_true, Bool.and_eq_true, decide_eq_true_eq] at hp⟩
    · dsimp only
      rw [htlb]
      exact List.mem_filter.mpr ⟨he, by rwa [Bool.not_eq_true', ← Bool.not_eq_true, Bool.and_eq_true, decide_eq_true_eq]⟩
  · have hgo : (decide (who.ctx = 0) || decide ((s.ctx who.ctx).st = .free)) = false := by simp [hc, hst]
    show liftCore _ s = _
    rw [liftCore_goes, whenDispatching_pos _ hd]
    dsimp only
    rw [hgo, if_neg (by simp), hit]
  · refine tableWalk_misses hd hc hst hit hw fun u hu => ?_
    obtain ⟨hcount, _, _, hrest⟩ := countWalk_counts s who.ctx va
    rw [← hu] at hcount hrest
    have hne : s.tlbQuarter who.unit ≠ unitTlb who.unit := by
      have : s.tlbQuarter who.unit < 4 := Nat.mod_lt _ (by decide)
      simp only [unitTlb]
      omega
    refine ⟨mem_tlbFill_self _ _, mem_tlbFill_other (mem_tlbFill_self _ _) hne, hcount, ?_, ?_⟩ <;> dsimp only [State.walked, State.cacheLeaf] <;> rw [hrest]
  · refine tableWalk_misses hd hc hst hit hw fun u hu => ?_
    obtain ⟨hcount, _, _, hrest⟩ := countWalk_counts s who.ctx va
    rw [← hu] at hcount hrest
    refine ⟨hcount, ?_, ?_⟩ <;> dsimp only [State.walked] <;> rw [hrest]

/-! The end of a fault (R248) -/

/-- With no bucket and no RCE slot at a fault nothing of the collective engines changes. -/
theorem rceResolved_nothing {s : State} {fid : Nat} {abort : Bool} (hb : ∀ b ∈ s.core.rce.buckets, b.2.fid ≠ some fid)
    (hx : ∀ x ∈ s.core.rce.slots, x.fid ≠ some fid) : s.rceResolved fid abort = s := by
  have h1 : s.core.rce.buckets.filter (fun b => b.2.fid = some fid) = [] := List.filter_eq_nil_iff.mpr fun b h => by simpa using hb b h
  have h2 : s.core.rce.slots.filter (fun x => x.fid = some fid) = [] := List.filter_eq_nil_iff.mpr fun x h => by simpa using hx x h
  have h3 : s.core.rce.slots.map (fun x => if x.fid = some fid then { x with fid := none } else x) = s.core.rce.slots :=
    (List.map_congr_left fun x h => if_neg (hx x h)).trans (List.map_id _)
  unfold State.rceResolved
  dsimp only
  rw [h1, h2, h3]
  rfl

/-- A fault's identifier is free again. -/
theorem endFault_rest (s : State) (fid : Nat) (f : PageFault) : ∃ live refused, s.endFault fid f = { s with
    core.mmu.faults := mdel s.core.mmu.faults fid, core.ldg.live := live, core.mmu.refused := refused } := by
  unfold State.endFault
  dsimp only
  split <;> exact ⟨_, _, rfl⟩

/-- No instruction of this number stands at a fault. -/
def Freed (s : State) (x : Nat × Nat) : Prop := ∀ i, (s.queue x.1).inst x.2 = some i → i.fid = none

/-- An instruction that stopped at a fault goes on. -/
def State.unstop (s : State) (x : Nat × Nat) : State := s.updInst x.1 x.2 (fun i => { i with fid := none })

theorem unstop_frees (s : State) (x : Nat × Nat) : Freed (s.unstop x) x ∧ ∀ y, Freed s y → Freed (s.unstop x) y := by
  have hinst (y : Nat × Nat) (h : y.1 = x.1) : ((s.unstop x).queue y.1).inst y.2
      = ((s.queue x.1).inst y.2).map (fun i => if i.seq = x.2 then { i with fid := none } else i) := by
    rw [h, State.unstop, State.updInst, State.queue_updQueue_same, Queue.updFl]
    exact Queue.inst_map (fun i => by split <;> rfl) y.2
  have hfree (y : Nat × Nat) (h : y.1 = x.1) (hy : y.2 = x.2 ∨ Freed s y) : Freed (s.unstop x) y := by
    intro i hi
    rw [hinst y h] at hi
    obtain ⟨j, hj, rfl⟩ := Option.map_eq_some_iff.mp hi
    have hseq : j.seq = y.2 := by simpa using List.find?_some hj
    split
    · rfl
    · rename_i hne
      obtain hy | hy := hy
      · exact absurd (hseq.trans hy) hne
      · exact hy j (by rw [h]; exact hj)
  refine ⟨hfree x rfl (.inl rfl), fun y hy => ?_⟩
  by_cases h : y.1 = x.1
  · exact hfree y h (.inr hy)
  · intro i hi
    rw [State.unstop, State.updInst, State.queue_updQueue_ne _ _ h] at hi
    exact hy i hi

theorem unstops_free (l : List (Nat × Nat)) : ∀ s : State, (∀ x ∈ l, Freed (l.foldl State.unstop s) x) ∧ (∀ y, Freed s y → Freed (l.foldl State.unstop s) y)
    ∧ (∃ queues, l.foldl State.unstop s = { s with core.qm.queues := queues }) := by
  induction l with
  | nil => exact fun s => ⟨fun x hx => (nomatch hx), fun _ h => h, _, rfl⟩
  | cons x l ih =>
    intro s
    obtain ⟨hx, hkeep⟩ := unstop_frees s x
    obtain ⟨hin, hk, _, hr⟩ := ih (s.unstop x)
    refine ⟨fun y hy => ?_, fun y hy => hk y (hkeep y hy), _, hr⟩
    cases hy with
    | head => exact hk x hx
    | tail _ h => exact hin y h

/-- Queues whose ring fetch stopped at a fault: nothing in flight changes. -/
theorem refetches_keep (fid : Nat) (l : List Nat) : ∀ s : State, (∀ y, Freed s y → Freed (l.foldl (fun s q => s.refetch fid q) s) y)
    ∧ ∃ queues, l.foldl (fun s q => s.refetch fid q) s = { s with core.qm.queues := queues } := by
  induction l with
  | nil => exact fun s => ⟨fun _ h => h, _, rfl⟩
  | cons q l ih =>
    intro s
    obtain ⟨hk, _, hr⟩ := ih (s.refetch fid q)
    have hfl (p : Nat) : ((s.refetch fid q).queue p).fl = (s.queue p).fl := by
      by_cases h : p = q
      · rw [h, State.refetch, State.queue_updQueue_same]
        split <;> rfl
      · rw [State.refetch, State.queue_updQueue_ne _ _ h]
    refine ⟨fun y hy => hk y fun i hi => hy i ?_, _, hr⟩
    rwa [Queue.inst, hfl] at hi

/-- RETRY of a fault that no ring and nothing of a collective engine stands at. -/
theorem retryFault_frees {s : State} {fid : Nat} {f : PageFault} (hr : f.rings = []) (hb : ∀ b ∈ s.core.rce.buckets, b.2.fid ≠ some fid)
    (hx : ∀ x ∈ s.core.rce.slots, x.fid ≠ some fid) (hg : ∀ j ∈ s.core.rce.gathers, ∀ x ∈ f.stopped, j.e.is x.1 x.2 = false) :
    mget (s.retryFault fid f).core.mmu.faults fid = none ∧ (∀ x ∈ f.stopped, Freed (s.retryFault fid f) x) ∧ (s.retryFault fid f).core.mem = s.core.mem := by
  obtain ⟨_, _, h1⟩ := endFault_rest s fid f
  obtain ⟨hin, -, _, h2⟩ := unstops_free f.stopped (s.endFault fid f)
  obtain ⟨hkeep, _, h3⟩ := refetches_keep fid f.fetches (f.stopped.foldl State.unstop (s.endFault fid f))
  have streams (l : List Nat) : ∀ s : State, ∃ streams, l.foldl (fun s n => s.setStream n { s.stream n with fid := none }) s = { s with core.streams := streams } := by
    induction l with
    | nil => exact fun s => ⟨_, rfl⟩
    | cons n l ih =>
      intro s
      obtain ⟨_, h⟩ := ih (s.setStream n { s.stream n with fid := none })
      exact ⟨_, h⟩
  obtain ⟨u, hu⟩ : ∃ u, u = f.fetches.foldl (fun s q => s.refetch fid q) (f.stopped.foldl State.unstop (s.endFault fid f)) := ⟨_, rfl⟩
  rw [← hu] at h3 hkeep
  obtain ⟨_, h4⟩ := streams f.streams u
  obtain ⟨v, hv⟩ : ∃ v, v = (f.streams.foldl (fun s n => s.setStream n { s.stream n with fid := none }) u).backsResolved fid false := ⟨_, rfl⟩
  have hvr : v.core.rce = s.core.rce ∧ v.core.mmu.faults = mdel s.core.mmu.faults fid ∧ v.core.qm.queues = u.core.qm.queues ∧ v.core.mem = s.core.mem := by
    rw [hv, h4, h3, h2, h1]
    exact ⟨rfl, rfl, rfl, rfl⟩
  obtain ⟨hrce, hfaults, hqueues, hmem⟩ := hvr
  have hres : v.rceResolved fid false = v := rceResolved_nothing (by rw [hrce]; exact hb) (by rw [hrce]; exact hx)
  have hgath : v.core.rce.gathers.filter (fun j => f.stopped.any (fun x => j.e.is x.1 x.2)) = [] := by
    rw [hrce]
    exact List.filter_eq_nil_iff.mpr fun j hj => by simpa using fun a b h => hg j hj (a, b) h
  have hall : s.retryFault fid f = v := by
    unfold State.retryFault
    dsimp only
    rw [show (f.stopped.foldl (fun s x => s.updInst x.1 x.2 (fun i => { i with fid := none })) (s.endFault fid f)) = f.stopped.foldl State.unstop (s.endFault fid f) from rfl,
      ← hu, ← hv, hres, hgath, hr]
    rfl
  rw [hall, hfaults, hmem]
  refine ⟨mget_mdel_same .., fun x hx i hi => ?_, rfl⟩
  exact hkeep x (hin x hx) i (by rw [← State.queue_congr hqueues]; exact hi)

/-! An instruction aborted at a fault -/

theorem mget_mapVals {α β : Type} (m : Map α) (f : α → β) (k : Nat) : mget (m.map (fun e => (e.1, f e.2))) k = (mget m k).map f := by
  induction m with
  | nil => rfl
  | cons e m ih =>
    obtain ⟨j, a⟩ := e
    by_cases h : j = k
    · simp [mget, h]
    · simpa [mget, h] using ih

/-- What is done to the instruction of a number in the queue's list of those in flight. -/
def SameFl (s t : State) : Prop := ∀ p, (t.queue p).fl = (s.queue p).fl

theorem SameFl.trans {s t u : State} (h : SameFl s t) (k : SameFl t u) : SameFl s u := fun p => (k p).trans (h p)

theorem SameFl.of_queues {s t : State} (h : t.core.qm.queues = s.core.qm.queues) : SameFl s t := fun p => congrArg Queue.fl (State.queue_congr h p)

theorem SameFl.setQueue {s : State} {q : Nat} {x : Queue} (h : x.fl = (s.queue q).fl) : SameFl s (s.setQueue q x) := by
  intro p
  by_cases hp : p = q
  · rw [hp, State.queue_setQueue_same, h]
  · rw [State.queue_setQueue_ne _ _ hp]

theorem SameFl.inst {s t : State} (h : SameFl s t) (q seq : Nat) : (t.queue q).inst seq = (s.queue q).inst seq := by
  simp only [Queue.inst, h q]

theorem quashShare_fl (s : State) (q seq : Nat) : SameFl s (s.quashShare q seq) ∧ (s.quashShare q seq).core.mmu = s.core.mmu
    ∧ (s.quashShare q seq).core.rce = s.core.rce := by
  have h : SameFl s (s.setQueue q { s.queue q with saved := (s.queue q).saved.filter (fun e => !e.is q seq) }) := .setQueue rfl
  unfold State.quashShare
  dsimp only
  split
  · exact ⟨h, rfl, rfl⟩
  · split
    · exact ⟨h, rfl, rfl⟩
    · exact ⟨h.trans (.of_queues rfl), rfl, rfl⟩

theorem quashOpe_rest (s : State) (q seq : Nat) : ∃ opes live, s.quashOpe q seq = { s with core.opes := opes, core.ldg.live := live } := by
  have hfold (f : State → Nat × Ope → State) (hf : ∀ s x, ∃ opes live, f s x = { s with core.opes := opes, core.ldg.live := live }) (l : List (Nat × Ope)) :
      ∀ s : State, ∃ opes live, l.foldl f s = { s with core.opes := opes, core.ldg.live := live } := by
    induction l with
    | nil => exact fun s => ⟨_, _, rfl⟩
    | cons x l ih =>
      intro s
      obtain ⟨_, _, h⟩ := hf s x
      obtain ⟨_, _, k⟩ := ih (f s x)
      exact ⟨_, _, by rw [List.foldl_cons, k, h]⟩
  exact hfold _ (fun s x => ⟨_, _, rfl⟩) _ s

/-- An instruction that closes no bucket is forgotten: what is in flight stays, and no fault comes to be. -/
theorem quash_keeps {s : State} {q seq : Nat} (hc : s.closingOf q seq = []) : SameFl s (s.quash q seq)
    ∧ (∀ fid, mget s.core.mmu.faults fid = none → mget (s.quash q seq).core.mmu.faults fid = none)
    ∧ (s.quash q seq).core.rce.buckets = s.core.rce.buckets ∧ (s.quash q seq).core.rce.slots = s.core.rce.slots := by
  obtain ⟨hfl, hmmu, hrce⟩ := quashShare_fl s q seq
  obtain ⟨_, _, hope⟩ := quashOpe_rest (s.quashShare q seq) q seq
  obtain ⟨u, hu⟩ : ∃ u, u = (s.quashShare q seq).quashOpe q seq := ⟨_, rfl⟩
  rw [← hu] at hope
  have hur : SameFl s u ∧ u.core.mmu = s.core.mmu ∧ u.core.rce = s.core.rce :=
    ⟨hfl.trans (.of_queues (by rw [hope])), by rw [hope]; exact hmmu, by rw [hope]; exact hrce⟩
  obtain ⟨hufl, hummu, hurce⟩ := hur
  have hq : s.quash q seq = { u.quashUnits q seq with core.qm.waiters := (u.quashUnits q seq).core.qm.waiters.filter (fun w => !(w.q = q && w.seq = some seq)) } := by
    unfold State.quash
    rw [hc, ← hu]
    rfl
  rw [hq]
  refine ⟨hufl.trans (.of_queues rfl), fun fid h => ?_, show u.core.rce.buckets = _ by rw [hurce], show u.core.rce.slots = _ by rw [hurce]⟩
  refine (mget_mapVals u.core.mmu.faults (fun f => { f with stopped := f.stopped.filter (· ≠ (q, seq)) }) fid).trans ?_
  rw [hummu, h]
  rfl

/-- The GATHERs of an instruction end without it. -/
theorem endGathers_rest (l : List GatherJob) : ∀ s : State, ∃ gathers ggrants live, l.foldl (fun s j => s.endGather j) s = { s with
    core.rce.gathers := gathers, core.rce.ggrants := ggrants, core.ldg.live := live } := by
  induction l with
  | nil => exact fun s => ⟨_, _, _, rfl⟩
  | cons j l ih =>
    intro s
    obtain ⟨_, _, _, h⟩ := ih (s.endGather j)
    exact ⟨_, _, _, h⟩

theorem State.finishWith_rest (s : State) (q seq code detail : Nat) : ∃ queues, s.finishWith q seq code detail = { s with core.qm.queues := queues } := ⟨_, rfl⟩

/-- An instruction without a job of an SE and without a bucket that it closes, aborted at a fault: it is done, with the outcome, and nothing of it
stands at a fault. -/
theorem abortInst_ends {s : State} {q seq : Nat} (addr : Nat) (hj : s.jobOf q seq = none) (hc : s.closingOf q seq = []) :
    (∀ i, ((s.abortInst q seq addr).queue q).inst seq = some i → i.done = true ∧ mhas i.outs 7 = true)
    ∧ (∀ fid, mget s.core.mmu.faults fid = none → mget (s.abortInst q seq addr).core.mmu.faults fid = none)
    ∧ (s.abortInst q seq addr).core.rce.buckets = s.core.rce.buckets ∧ (s.abortInst q seq addr).core.rce.slots = s.core.rce.slots := by
  obtain ⟨_, _, _, hg⟩ := endGathers_rest (s.core.rce.gathers.filter (fun j => j.e.is q seq)) s
  obtain ⟨u, hu⟩ : ∃ u, u = (s.core.rce.gathers.filter (fun j => j.e.is q seq)).foldl (fun s j => s.endGather j) s := ⟨_, rfl⟩
  rw [← hu] at hg
  have hab : s.abortInst q seq addr = (u.finishWith q seq 7 addr).quash q seq := by
    unfold State.abortInst
    rw [hj, hu]
  obtain ⟨_, hf⟩ := u.finishWith_rest q seq 7 addr
  have hclos : (u.finishWith q seq 7 addr).closingOf q seq = [] := by
    rw [← hc, hf, hg]
    rfl
  obtain ⟨hfl, hfault, hb, hs⟩ := quash_keeps hclos
  rw [hab]
  refine ⟨fun i hi => ?_, fun fid h => hfault fid ?_, ?_, ?_⟩
  · rw [hfl.inst, inst_finishWith] at hi
    obtain ⟨j, -, rfl⟩ := Option.map_eq_some_iff.mp hi
    exact ⟨rfl, by simp [InFlight.out, mhas]⟩
  · rw [hf, hg]
    exact h
  · rw [hb, hf, hg]
  · rw [hs, hf, hg]

theorem faultsEnd : Says.FaultsEnd := by
  intro s fid f hd hf hr hb hx
  have hl : s.live = true := by
    have := hd
    simp only [State.dispatching, Bool.and_eq_true] at this
    exact this.1
  refine ⟨fun hbusy hfid h16 hg => ?_, fun q seq hst hsa hfe hstr hj hc ht hnow => ?_, fun hlt => ?_⟩
  · obtain ⟨hgone, hfree, hmem⟩ := retryFault_frees (s := s.begun 1 9) (fid := fid) hr hb hx hg
    have hrun : s.faultResolve = ((s.begun 1 9).retryFault fid f).cmdDone 1 0 mmuInt 3 := by
      unfold State.faultResolve State.mmuCmd
      refine runCmd_gives hbusy ?_
      simp only [State.begun_arg, State.begun_mmu, hfid, hf, h16]
      rfl
    obtain ⟨u, hu⟩ : ∃ u, u = (s.begun 1 9).retryFault fid f := ⟨_, rfl⟩
    rw [← hu] at hgone hfree hmem hrun
    refine answers_dispatching_at hd hrun ⟨?_, congrArg Cmd.result (State.cmdDone_cmd ..), fun x hxs i hi => hfree x hxs i ?_, (u.cmdDone_mem 1 0 mmuInt 3).trans hmem⟩
    · dsimp only
      rw [State.cmdDone_mmu]
      exact hgone
    · rw [← State.queue_congr (congrArg Qmg.queues (u.cmdDone_qm 1 0 mmuInt 3))]
      exact hi
  · obtain ⟨_, _, h1⟩ := endFault_rest s fid f
    obtain ⟨u, hu⟩ : ∃ u, u = s.endFault fid f := ⟨_, rfl⟩
    rw [← hu] at h1
    have hur : u.jobOf q seq = none ∧ u.closingOf q seq = [] ∧ u.stoppedAt fid q seq = true ∧ mget u.core.mmu.faults fid = none
        ∧ u.core.rce.buckets = s.core.rce.buckets ∧ u.core.rce.slots = s.core.rce.slots := by
      rw [h1]
      exact ⟨hj, hc, hsa, mget_mdel_same .., rfl, rfl⟩
    obtain ⟨huj, huc, hus, huf, hub, hux⟩ := hur
    obtain ⟨hdone, hfault, hab, has⟩ := abortInst_ends f.addr huj huc
    have hres : ((u.abortInst q seq f.addr).backsResolved fid true).rceResolved fid true = (u.abortInst q seq f.addr).backsResolved fid true :=
      rceResolved_nothing (by show ∀ b ∈ (u.abortInst q seq f.addr).core.rce.buckets, _; rw [hab, hub]; exact hb)
        (by show ∀ b ∈ (u.abortInst q seq f.addr).core.rce.slots, _; rw [has, hux]; exact hx)
    have hrun : s.abortFault fid f = (u.abortInst q seq f.addr).backsResolved fid true := by
      unfold State.abortFault
      dsimp only
      rw [hst, hfe, hstr, hr, ← hu, List.foldl_cons, List.foldl_nil, List.foldl_nil, List.foldl_nil, List.foldl_nil, if_pos hus, hres]
    refine answers_live_at hl (t := (u.abortInst q seq f.addr).backsResolved fid true) ?_ ⟨hfault fid huf, hdone⟩
    simp only [hf]
    rw [if_pos (by simp [ht, hnow]), hrun]
  · show liftCore _ s = .next s
    rw [liftCore_goes, whenLive_pos _ hl]
    simp only [hf]
    rw [if_neg (by simp; omega)]

/-- Settles O42: the translation cache, walks, and the end of faults. -/
theorem walksAndFaults : Obligations.WalksAndFaults := ⟨translationCache, faultsEnd⟩

end Sys2Proof.Machine
end

section
/-! PROOF. Dispatch of a unit's instruction and setting it aside (O39; 06_programs_queues_flags R139, R141). -/
namespace Sys2Proof.Machine
open State

/-! Into the share (R139 step 6, R141) -/

theorem State.stampHead_queue (s : State) (r : SlotRef) (p : Nat) : ∃ fl, (s.stampHead r).queue p = { s.queue p with fl := fl } := by
  unfold State.stampHead
  split
  · exact ⟨_, rfl⟩
  · obtain ⟨g, -, h⟩ := stamped_updInst s _ _ p (f := fun i => { i with ift := i.ift <|> some s.now, frz0 := if r.cls ≤ 3 then s.counter (opeBase r.unit + 0x108) else 0 })
      fun i => ⟨_, _, rfl⟩
    exact ⟨_, h⟩

/-- An entry that finds room goes to the end of its share. -/
theorem intoEiq_enters {s : State} {q : Nat} {r : SlotRef} {e : Entry} (hr : (s.queue q).slot = some r)
    (hl : (mgetD s.core.qm.eiq (slotKey r) []).length < shareOf (s.queue q).cls) :
    mgetD (s.intoEiq q e).core.qm.eiq (slotKey r) [] = mgetD s.core.qm.eiq (slotKey r) [] ++ [e]
      ∧ (∃ fl, (s.intoEiq q e).queue q = { s.queue q with fl := fl }) ∧ (s.intoEiq q e).core.mem = s.core.mem := by
  obtain ⟨u, hu⟩ : ∃ u, u = { s with core.qm.eiq := mput s.core.qm.eiq (slotKey r) (mgetD s.core.qm.eiq (slotKey r) [] ++ [e]) }.take 8 (eiqPart r) 1 := ⟨_, rfl⟩
  have h : s.intoEiq q e = u.stampHead r := by
    unfold State.intoEiq
    dsimp only
    rw [hr, hu]
    exact if_pos hl
  have hq : u.queue q = s.queue q := by rw [hu]; rfl
  obtain ⟨_, ht⟩ := u.stampHead_rest r
  obtain ⟨fl, hfl⟩ := u.stampHead_queue r q
  refine ⟨?_, ⟨fl, by rw [h, hfl, hq]⟩, by rw [h, ht, hu]; rfl⟩
  rw [h, ht, hu]
  exact mgetD_mput_same ..

/-- An entry that finds none stalls its core. -/
theorem intoEiq_stalls {s : State} {q : Nat} {r : SlotRef} {e : Entry} (hr : (s.queue q).slot = some r)
    (hl : shareOf (s.queue q).cls ≤ (mgetD s.core.qm.eiq (slotKey r) []).length) :
    s.intoEiq q e = s.updQueue q (fun x => { x with stalled := some e, stall := s.now }) := by
  unfold State.intoEiq
  dsimp only
  rw [hr]
  exact if_neg (Nat.not_lt.2 hl)

/-! The launch of a unit's instruction -/

theorem State.countDispatch_rest (s : State) (k q n c : Nat) : ∃ kc cnt, s.countDispatch k q n c = { s with core.pmc.kc := kc, core.regs.cnt := cnt } := by
  unfold State.countDispatch
  dsimp only
  split
  · exact ⟨_, _, rfl⟩
  · split <;> exact ⟨_, _, rfl⟩

/-- A unit's instruction i in flight, under an automatic tag and counted by its core's sampling. -/
def State.fly (s : State) (q : Nat) (i : InFlight) (tag : Nat) : State :=
  let x := (s.queue q).advance false
  let s := s.setQueue q { x with st := .bound, nextSeq := (s.queue q).nextSeq + 1, reserved := x.reserved + 1, fl := x.fl ++ [i] }
  ((((s.updCtx x.ctx (fun k => { k with tagNext := tag + 1 })).bump (qmgBase + 0x100) 1).take 6 0 1).take 7 q 1).countDispatch (kcOf x q) q i.seq x.ctx

theorem State.fly_rest (s : State) (q : Nat) (i : InFlight) (tag : Nat) :
    (s.fly q i tag).queue q = { s.queue q with st := .bound, cur := none, fl := (s.queue q).fl ++ [i], nextSeq := (s.queue q).nextSeq + 1,
                                               reserved := (s.queue q).reserved + 1, fetch := ((s.queue q).fetch + 1) % (s.queue q).rmod }
      ∧ (s.fly q i tag).core.qm.eiq = s.core.qm.eiq := by
  unfold State.fly
  obtain ⟨_, _, h⟩ := State.countDispatch_rest _ (kcOf ((s.queue q).advance false) q) q i.seq ((s.queue q).advance false).ctx
  dsimp only
  rw [h]
  exact ⟨State.queue_setQueue_same .., rfl⟩

/-- A unit's instruction with an automatic tag is in flight before it goes to its share. -/
theorem launch_unit {s : State} {q tag : Nat} {c : Cur} (ha : s.autoTag (s.queue q).ctx = some tag) (hcr : (s.queue q).crFree ≠ 0)
    (ht : iTag c.raw = 0xFFFF) (hc : opControl (iOp c.raw) = false) :
    ∃ i, s.launch q c = (s.fly q i tag).intoEiq q ⟨q, (s.queue q).nextSeq, c.raw, (s.queue q).ctx, ixSums c.raw (s.queue q).c⟩ := by
  have htf : s.tagFor (s.queue q).ctx c.raw = some tag := by simp [tagFor, ht, ha]
  have hop : decide (iOp c.raw = 0x0F) = false := by
    simp only [decide_eq_false_iff_not]
    intro h
    rw [h] at hc
    exact absurd hc (by decide)
  unfold State.launch
  simp only [htf, hcr, ht, hc, hop, if_true, if_false, Bool.false_eq_true]
  exact ⟨{ seq := (s.queue q).nextSeq, tag := tag, op := _, fn := _, sig := _, mode := _, unit := _, prog := _, ft := _, dft := s.now, deadline := _ }, rfl⟩

/-- A fetched instruction without a wait is launched. -/
theorem Fetched.launches {s v : State} {q raw : Nat} (hv : Fetched s v q raw) (hhdr : firstBad (s.headerBad (s.queue q) raw) = none)
    (hcur : (v.queue q).cur = some { raw := raw, ft := s.now }) (hw : refMode (iWait raw) = 0) :
    v.runCur q = (v.updQueue q (fun x => { x with cur := some (Cur.start raw s.now) })).launch q (Cur.start raw s.now) := by
  rw [hv.runCur_evalWait hhdr hcur]
  simp [State.evalWait, Cur.start, hw]

/-! What decides whether an access stops -/

/-- States whose memories, tables and host are the same: an access stops in both where it stops in one. -/
structure Alike (s t : State) : Prop where
  fuse : t.fuse = s.fuse
  ft : t.ft = s.ft
  mem : t.core.mem = s.core.mem
  mmu : t.core.mmu = s.core.mmu
  host : t.core.host = s.core.host
  reg : ∀ o, t.reg o = s.reg o

namespace Alike
variable {s t : State}

theorem refl (s : State) : Alike s s := ⟨rfl, rfl, rfl, rfl, rfl, fun _ => rfl⟩

theorem trans {u : State} (h : Alike s t) (k : Alike t u) : Alike s u :=
  ⟨k.fuse.trans h.fuse, k.ft.trans h.ft, k.mem.trans h.mem, k.mmu.trans h.mmu, k.host.trans h.host, fun o => (k.reg o).trans (h.reg o)⟩

theorem space (h : Alike s t) : SameSpace s t :=
  ⟨h.fuse, h.mem, by rw [h.mmu], by rw [h.mmu], by rw [h.mmu], fun c => by simp only [State.ctx, h.mmu]⟩

theorem setPool (h : Alike s t) (key : Nat) (p : PoolTu) : Alike (s.setPool key p) (t.setPool key p) :=
  ⟨h.fuse, h.ft, by simp only [State.setPool, h.mem], h.mmu, h.host, h.reg⟩

/-- A TU of the pool is claimed alike. -/
theorem claim (h : Alike s t) (c key k : Nat) (w : Bool) : (∃ e, s.claim c key k w = .error e ∧ t.claim c key k w = .error e)
    ∨ ∃ u v, s.claim c key k w = .ok u ∧ t.claim c key k w = .ok v ∧ Alike u v := by
  have hp : t.poolEntry key k c = s.poolEntry key k c := by simp only [State.poolEntry, h.mem]
  have hq : t.resQuota c = s.resQuota c := by simp only [State.resQuota, h.mmu]
  have hn : t.now = s.now := by simp only [State.now, h.ft]
  have ha : t.ageClass = s.ageClass := by funext k p; simp only [State.ageClass, hn, h.reg]
  have ho : t.olderOf = s.olderOf := by funext k a b; simp only [State.olderOf, ha]
  have hv : t.evictee = s.evictee := by funext k f; simp only [State.evictee, h.mem, ho]
  have he : ∀ k f, t.takeEvict k f = s.takeEvict k f := fun k f => by unfold State.takeEvict; rw [h.mem, hv]
  have ht : ∀ q, t.takeFrom c k q = s.takeFrom c k q := by
    intro q
    unfold State.takeFrom State.residentOf State.poolTus State.poolUsed
    rw [h.mem, he, he]
  unfold State.claim
  dsimp only
  rw [hp, hq, ht, h.mem]
  split
  · exact .inr ⟨_, _, rfl, rfl, h⟩
  · split
    · split
      · exact .inl ⟨_, rfl, rfl⟩
      · exact .inr ⟨_, _, rfl, rfl, h⟩
    · refine .inr ⟨_, _, rfl, rfl, ?_⟩
      rw [hn]
      exact h.setPool _ _
    · split
      · exact .inl ⟨_, rfl, rfl⟩
      · refine .inr ⟨_, _, rfl, rfl, ?_⟩
        rw [hn]
        exact ⟨h.fuse, h.ft, rfl, h.mmu, h.host, h.reg⟩

theorem checkPiece (h : Alike s t) {a b : State} (k : Alike a b) (c : Nat) (w se : Bool) (p : Nat × Nat) :
    (t.checkPiece b c w se p).1 = (s.checkPiece a c w se p).1 ∧ Alike (s.checkPiece a c w se p).2 (t.checkPiece b c w se p).2 := by
  have hs : ∀ a, t.snooped a p.2 w = s.snooped a p.2 w := fun a => by simp only [State.snooped, h.host]
  unfold State.checkPiece
  rw [h.space.xlate]
  cases s.xlate c p.1 w se with
  | fault _ => exact ⟨rfl, k⟩
  | ats _ => exact ⟨rfl, k⟩
  | ok l =>
    dsimp only
    simp only [hs, h.mem]
    split
    · split <;> exact ⟨rfl, k⟩
    · exact ⟨rfl, k⟩
    · rcases k.claim c _ _ w with ⟨e, ha, hb⟩ | ⟨u, v, ha, hb, huv⟩
      · rw [ha, hb]
        cases e <;> exact ⟨rfl, k⟩
      · rw [ha, hb]
        exact ⟨rfl, huv⟩
    · exact ⟨rfl, k⟩

theorem vcheck (h : Alike s t) (c a n : Nat) (w se : Bool) : t.vcheck c a n w se = s.vcheck c a n w se := by
  have key : ∀ (l : List (Nat × Nat)) (st : Stop) (a b : State), Alike a b →
      (l.foldl (fun (acc : Stop × State) p => match acc.1 with
        | .none => t.checkPiece acc.2 c w se p
        | _ => acc) (st, b)).1
      = (l.foldl (fun (acc : Stop × State) p => match acc.1 with
        | .none => s.checkPiece acc.2 c w se p
        | _ => acc) (st, a)).1 := by
    intro l
    induction l with
    | nil => exact fun _ _ _ _ => rfl
    | cons p l ih =>
      intro st a b hab
      rw [List.foldl_cons, List.foldl_cons]
      cases st with
      | none =>
        obtain ⟨hst, hp⟩ := h.checkPiece hab c w se p
        dsimp only
        rw [show t.checkPiece b c w se p = ((s.checkPiece a c w se p).1, (t.checkPiece b c w se p).2) from Prod.ext hst rfl]
        exact ih _ _ _ hp
      | _ => exact ih _ _ _ hab
  unfold State.vcheck
  rw [h.space.cut]
  exact key _ _ _ _ h

end Alike

/-! The fetch -/

/-- An entry that its context may read is fetched, and nothing but what a read of memory may change does. -/
theorem fetchNext_gets {s : State} {q : Nat} (hv : s.vcheck (s.queue q).ctx (s.queue q).fetchAt 64 false false = .none)
    (hp : (s.vget (s.queue q).ctx (s.queue q).fetchAt 64 false).2 = false) :
    s.fetchNext q = ((s.vtouch (s.queue q).ctx (s.queue q).fetchAt 64 false false).updQueue q (fun x => x.fetched
      { raw := leNat (s.vget (s.queue q).ctx (s.queue q).fetchAt 64 false).1, ft := s.now })).runCur q := by
  have hn : (s.vtouch (s.queue q).ctx (s.queue q).fetchAt 64 false false).now = s.now := by
    obtain ⟨⟨_, _, _, _, _, _, _, _, h⟩, -⟩ := Accessed.vtouch s (s.queue q).ctx (s.queue q).fetchAt 64 false false
    rw [h]
  unfold State.fetchNext
  simp only [hv, hp, hn, Bool.false_eq_true, if_false]

theorem fetched_entry (w : State) (q raw ft : Nat) : Fetched w (w.updQueue q (fun x => x.fetched { raw := raw, ft := ft })) q raw :=
  ⟨⟨_, by rw [queue_updQueue_same, Queue.fetched_instr]⟩, fun _ h => tagsOf_updQueue rfl rfl rfl h, w.core.qm.turn, _, rfl⟩

theorem dispatch_fetches {s : State} {q : Nat} (hmay : s.mayDispatch q = true) (hcur : (s.queue q).cur = none) (hav : (s.queue q).avail = true) :
    s.dispatch q = (s.tookTurn q).fetchNext q := by
  obtain ⟨turn, ht⟩ := s.tookTurn_turn q
  have hq : (s.tookTurn q).queue q = s.queue q := by rw [ht]; rfl
  simp [State.dispatch, hmay, hq, hcur, hav]

/-- Settles half of O39: dispatch of a unit's instruction. -/
theorem dispatchFillsShare : Says.DispatchFillsShare := by
  intro s q r x a raw e share hd hmay hcur hav hsl hvc hvg hhdr hc hw ht haut hcr c hcmd
  obtain ⟨turn, htt⟩ := s.tookTurn_turn q
  obtain ⟨v, hvdef⟩ : ∃ v, v = s.tookTurn q := ⟨_, rfl⟩
  rw [htt] at hvdef
  have hvq : v.queue q = x := by rw [hvdef]; rfl
  have hvn : v.now = s.now := by rw [hvdef]
  have hva : (v.queue q).fetchAt = a := by rw [hvq]; rfl
  have hal : Alike s v := by rw [hvdef]; exact ⟨rfl, rfl, rfl, rfl, rfl, fun _ => rfl⟩
  have hvraw : leNat (v.vget (v.queue q).ctx (v.queue q).fetchAt 64 false).1 = raw := by rw [hva, hvq, hvdef]; rfl
  have hfetch := fetchNext_gets (s := v) (q := q) (by rw [hva, hvq]; exact (hal.vcheck ..).trans hvc)
    (by rw [hva, hvq, hvdef]; exact hvg)
  obtain ⟨w, hwdef⟩ : ∃ w, w = v.vtouch (v.queue q).ctx (v.queue q).fetchAt 64 false false := ⟨_, rfl⟩
  have hacc : Accessed v w := hwdef ▸ .vtouch ..
  rw [← hwdef, hvraw] at hfetch
  obtain ⟨⟨_, _, _, _, _, _, _, _, hwr⟩, -⟩ := id hacc
  have hwq : w.queue q = x := by rw [hwr]; exact hvq
  have hwa : (w.autoTag x.ctx).isSome = true := by rw [hwr, hvdef]; exact haut
  have hwe : w.core.qm.eiq = s.core.qm.eiq := by rw [hwr, hvdef]
  have hwh : firstBad (w.headerBad (w.queue q) raw) = none := by rw [hwq, hwr, hvdef]; exact hhdr
  have hwn : w.now = v.now := by rw [hwr]
  have hst : Fetched w _ q raw := fetched_entry w q raw v.now
  have hrun := hst.launches hwh (by rw [queue_updQueue_same, hwn]; rfl) hw
  obtain ⟨z, hz⟩ : ∃ z, z = (w.updQueue q (fun x => x.fetched { raw := raw, ft := v.now })).updQueue q (fun x => { x with cur := some (Cur.start raw w.now) }) := ⟨_, rfl⟩
  have hzf : Fetched w z q raw := hz ▸ hst.updCur (Cur.start raw w.now)
  rw [← hz] at hrun
  obtain ⟨⟨c0, hzq⟩, hztags, _, _, hzr⟩ := hzf
  have hne : ¬ iOp raw = 0x0F := by
    intro h
    rw [h] at hc
    exact absurd hc (by decide)
  rw [if_neg hne, hwq] at hzq
  have hzx : z.ctx x.ctx = w.ctx x.ctx := by rw [hzr]; rfl
  have hztag : (z.autoTag x.ctx).isSome = true := autoTag_mono hzx (by rw [hwq] at hztags; exact hztags) hwa
  obtain ⟨tag, htag⟩ := Option.isSome_iff_exists.1 hztag
  obtain ⟨i, hlaunch⟩ := launch_unit (s := z) (q := q) (tag := tag) (c := Cur.start raw w.now) (by rw [hzq]; exact htag)
    (by rw [hzq]; exact hcr) ht hc
  obtain ⟨huq, hue⟩ := z.fly_rest q i tag
  obtain ⟨u, hu⟩ : ∃ u, u = z.fly q i tag := ⟨_, rfl⟩
  rw [← hu] at hlaunch huq hue
  have hue' : u.core.qm.eiq = s.core.qm.eiq := by rw [hue, hzr]; exact hwe
  rw [hzq] at huq hlaunch
  have hgo : s.dispatch q = u.intoEiq q e := by
    rw [dispatch_fetches hmay hcur hav, htt, ← hvdef, hfetch, hrun]
    exact hlaunch
  have hus : (u.queue q).slot = some r := by rw [huq]; exact hsl
  have hucls : (u.queue q).cls = x.cls := by rw [huq]; rfl
  have hready := ready_of_mayDispatch hmay
  have hstall : x.stalled = none := by
    simp only [State.ready, Bool.and_eq_true] at hready
    obtain ⟨⟨⟨⟨⟨⟨⟨-, hs⟩, -⟩, -⟩, -⟩, -⟩, -⟩, -⟩ := hready
    exact Option.isNone_iff_eq_none.1 hs
  have hend : (fun t : State => (t.queue q).fetch = (x.fetch + 1) % x.rmod ∧ (t.queue q).nextSeq = x.nextSeq + 1 ∧ (t.queue q).reserved = x.reserved + 1
      ∧ (share.length < shareOf x.cls → mgetD t.core.qm.eiq (slotKey r) [] = share ++ [e] ∧ (t.queue q).stalled = none)
      ∧ (shareOf x.cls ≤ share.length → mgetD t.core.qm.eiq (slotKey r) [] = share ∧ (t.queue q).stalled = some e)) { s with core := (u.intoEiq q e).core } := by
    rcases Nat.lt_or_ge share.length (shareOf x.cls) with hl | hl
    · obtain ⟨heiq, ⟨fl, hqq⟩, -⟩ := intoEiq_enters (s := u) (q := q) (e := e) hus (by rw [hue', hucls]; exact hl)
      have hqq' : State.queue { s with core := (u.intoEiq q e).core } q = { u.queue q with fl := fl } := hqq
      dsimp only
      rw [hqq', huq, heiq, hue']
      exact ⟨rfl, rfl, rfl, fun _ => ⟨rfl, hstall⟩, fun h => absurd h (Nat.not_le.2 hl)⟩
    · have hqq := intoEiq_stalls (s := u) (q := q) (e := e) hus (by rw [hue', hucls]; exact hl)
      have hqq' : State.queue { s with core := (u.intoEiq q e).core } q = { u.queue q with stalled := some e, stall := u.now } := by
        rw [hqq]
        exact (State.queue_congr (s := u.updQueue q (fun x => { x with stalled := some e, stall := u.now })) rfl q).trans (State.queue_updQueue_same ..)
      dsimp only
      rw [hqq', huq, hqq]
      refine ⟨rfl, rfl, rfl, fun h => absurd h (Nat.not_lt.2 hl), fun _ => ⟨?_, rfl⟩⟩
      show mgetD u.core.qm.eiq _ _ = _
      rw [hue']
  rcases hcmd with rfl | ⟨rfl, hk⟩
  · exact answers_dispatching_at hd hgo hend
  · refine answers_dispatching_at hd ?_ hend
    rw [if_pos hk, hgo]

/-! Setting aside (R141) -/

theorem State.endStall_rest (s : State) (q : Nat) : ∃ cnt, s.endStall q = { s with core.regs.cnt := cnt } := by
  unfold State.endStall
  dsimp only
  split <;> exact ⟨_, rfl⟩

/-- Settles half of O39: setting aside. -/
theorem setAsideMoves : Says.SetAsideMoves := by
  intro s q e r hd
  refine ⟨fun hst hf => ?_, fun hst hf => ?_, fun hwho hsl hroom => ?_⟩
  · show liftCore _ s = .next s
    rw [liftCore_goes, whenDispatching_pos _ hd]
    simp only [hst, hf]
    rfl
  · refine answers_dispatching_at hd (t := ((s.updQueue q (fun x => { x with stalled := none, stall := 0, aside := some e })).bump (qmgBase + 0x108)
      (max 1 (s.reg fldStallMax))).bump (qmgBase + 0x110) 1) ?_ ⟨?_, ?_, rfl, rfl⟩
    · simp only [hst, hf]
      rfl
    · exact (State.queue_congr (s := s.updQueue q (fun x => { x with stalled := none, stall := 0, aside := some e })) rfl q).trans (State.queue_updQueue_same ..)
    · exact (State.counter_bump_same ..).trans (by rw [State.counter_bump_ne _ _ (by decide)]; rfl)
  · have hwho' : ((s.queue q).aside <|> (s.queue q).stalled) = some e := by
      rcases hwho with h | ⟨h, h'⟩
      · rw [h]; rfl
      · rw [h, h']; rfl
    have hfull : s.shareFull q = false := by
      simp only [State.shareFull, hsl, decide_eq_false_iff_not, Nat.not_le]
      exact hroom
    obtain ⟨u, hu⟩ : ∃ u, u = (s.endStall q).setQueue q { s.queue q with aside := none, stalled := none, stall := 0 } := ⟨_, rfl⟩
    obtain ⟨_, hes⟩ := s.endStall_rest q
    have huq : u.queue q = { s.queue q with aside := none, stalled := none, stall := 0 } := by rw [hu]; exact State.queue_setQueue_same ..
    have hue : u.core.qm.eiq = s.core.qm.eiq ∧ u.core.mem = s.core.mem := by rw [hu, hes]; exact ⟨rfl, rfl⟩
    obtain ⟨heiq, ⟨fl, hqq⟩, hmem⟩ := intoEiq_enters (s := u) (q := q) (r := r) (e := e) (by rw [huq]; exact hsl) (by rw [huq, hue.1]; exact hroom)
    refine answers_dispatching_at hd (t := u.intoEiq q e) ?_ ⟨by show mgetD (u.intoEiq q e).core.qm.eiq _ _ = _; rw [heiq, hue.1], ?_, ?_, hmem.trans hue.2⟩
    · dsimp only
      split
      · rename_i h
        obtain rfl := Option.some.inj (hwho'.symm.trans h)
        rw [hfull, hu]
        rfl
      · rename_i h
        exact (h r e hsl hwho').elim
    · show ((u.intoEiq q e).queue q).aside = none
      rw [hqq, huq]
    · show ((u.intoEiq q e).queue q).stalled = none
      rw [hqq, huq]

/-- Settles O39: a unit's instruction goes from its ring to its share, or stalls its core and is set aside. -/
theorem dispatchAndShare : Obligations.DispatchAndShare := ⟨dispatchFillsShare, setAsideMoves⟩

end Sys2Proof.Machine
end

section
/-! PROOF. The row port starts an operation (O21; 04_ope R87, R91-R98). -/
namespace Sys2Proof.Machine
open State

theorem mput_mput {α : Type} (m : Map α) (k : Nat) (a b : α) : mput (mput m k a) k b = mput m k b := by
  induction m with
  | nil => simp [mput]
  | cons x m ih =>
    obtain ⟨j, c⟩ := x
    rcases Nat.lt_trichotomy k j with h | rfl | h
    · simp [mput, h]
    · simp [mput]
    · have h1 : ¬ k < j := by omega
      have h2 : ¬ k = j := by omega
      simp [mput, h1, h2, ih]

theorem State.setOpe_setOpe (s : State) (n : Nat) (o x : Ope) : (s.setOpe n o).setOpe n x = s.setOpe n x := by
  simp only [State.setOpe, mput_mput]

/-! Which operation starts -/

/-- The engine's entry put in its place once more: nothing of the engine changes. -/
def State.reOpe (s : State) (n : Nat) : State := s.setOpe n (s.ope n)

theorem State.ope_reOpe (s : State) (n k : Nat) : (s.reOpe n).ope k = s.ope k := by
  by_cases h : k = n
  · rw [h]
    exact s.ope_setOpe_same n _
  · exact s.ope_setOpe_ne _ h

/-- With empty drain buffers nothing is filled again and nothing is sent. -/
theorem refill_pump_nothing {s : State} {n : Nat} (hd : (s.ope n).drains = []) (hb : (s.ope n).back = []) (hs : ∀ x ∈ (s.ope n).staged, x.part ≠ 4) :
    (s.refill n).pumpDrains n = s.reOpe n := by
  have hgone : (s.ope n).staged.filter (fun x => decide (x.part = 4)) = [] := by
    rw [List.filter_eq_nil_iff]
    exact fun x hx => by simpa using hs x hx
  have hstay : (s.ope n).staged.filter (fun x => decide (x.part ≠ 4)) = (s.ope n).staged := by
    rw [List.filter_eq_self]
    exact fun x hx => by simpa using hs x hx
  have hopen : ({ s.ope n with staged := (s.ope n).staged } : Ope) = s.ope n := rfl
  have hback : ({ s.ope n with back := [] } : Ope) = s.ope n := by rw [← hb]
  have hr : s.refill n = s.reOpe n := by
    unfold State.refill
    dsimp only
    rw [hgone, List.foldl_nil, hstay, hopen, State.ope_setOpe_same, hb, List.foldl_nil, hback, State.setOpe_setOpe]
    rfl
  rw [hr]
  unfold State.pumpDrains
  rw [State.ope_reOpe, hd]
  rfl

theorem mayStart_reOpe (s : State) (n k : Nat) (older : List (Nat × Entry)) (x : Nat × Entry) : (s.reOpe k).mayStart n older x = s.mayStart n older x := by
  have hl : (s.reOpe k).linesHeld n = s.linesHeld n := by simp only [State.linesHeld, State.ope_reOpe]
  have hf : ∀ p, (s.reOpe k).freeLines n p = s.freeLines n p := fun p => by simp only [State.freeLines, State.ope_reOpe, hl]
  have hi : (s.reOpe k).imgHeld = s.imgHeld := rfl
  have hq : (s.reOpe k).queue = s.queue := rfl
  unfold State.mayStart
  rw [State.ope_reOpe, hf, hi, hq]

theorem pickRow_reOpe (s : State) (n k : Nat) : ∀ l older, (s.reOpe k).pickRow n older l = s.pickRow n older l
  | [], _ => rfl
  | x :: l, older => by simp only [State.pickRow, mayStart_reOpe, pickRow_reOpe s n k l]

/-- What the row port picks may start. -/
theorem pickRow_mayStart {s : State} {n : Nat} {x : Nat × Entry} : ∀ {l older}, s.pickRow n older l = some x → ∃ older, s.mayStart n older x = true
  | [], _, h => by simp [State.pickRow] at h
  | y :: l, older, h => by
    unfold State.pickRow at h
    split at h
    · rename_i hy
      cases h
      exact ⟨_, hy⟩
    · exact pickRow_mayStart h

/-- An operation that may start works on a partition that is not fenced, for an instruction in flight that does not stand at a fault. -/
theorem mayStart_free {s : State} {n : Nat} {older : List (Nat × Entry)} {x : Nat × Entry} (h : s.mayStart n older x = true) :
    ((s.ope n).part x.1).fence = 0 ∧ ∃ i, (s.queue x.2.q).inst x.2.seq = some i ∧ i.fid = none := by
  simp only [State.mayStart, Bool.and_eq_true, decide_eq_true_eq] at h
  obtain ⟨⟨⟨⟨hf, hfree⟩, -⟩, -⟩, -⟩ := h
  refine ⟨hf, ?_⟩
  cases hi : (s.queue x.2.q).inst x.2.seq with
  | none => rw [hi] at hfree; exact absurd hfree (by decide)
  | some i => rw [hi] at hfree; exact ⟨i, rfl, Option.isNone_iff_eq_none.1 hfree⟩

/-! What an operation that has done its work leaves -/

/-- t is s as the row port leaves it behind an operation of e on engine n: the operation no longer waits there. -/
structure LeftPort (n : Nat) (e : Entry) (s t : State) : Prop where
  rest : ∃ work opes, t = { s with core.pmc.work := work, core.opes := opes }
  ope : t.ope n = { s.ope n with pend := (s.ope n).pend.filter (fun y => !(y.2.q = e.q && y.2.seq = e.seq)) }

/-- An operation that its start finishes leaves the row port. -/
theorem rowPortStart_done {s : State} {n p : Nat} {e : Entry} {errs : List OpeErr} (hd : (s.ope n).drains = []) (hb : (s.ope n).back = [])
    (hs : ∀ x ∈ (s.ope n).staged, x.part ≠ 4) (hp : s.pickRow n [] (s.ope n).pend = some (p, e)) (ht : Done ((s.reOpe n).startRow n p e errs) e) :
    LeftPort n e ((s.reOpe n).startRow n p e errs) (s.rowPortStart n errs) := by
  obtain ⟨t, htd⟩ : ∃ t, t = (s.reOpe n).startRow n p e errs := ⟨_, rfl⟩
  rw [← htd] at ht ⊢
  obtain ⟨k, hk⟩ : ∃ k, k = if e.op = 0x13 then 1 else shapeCells e.shape / 128 := ⟨_, rfl⟩
  have hrun : s.rowPortStart n errs = (t.worked ⟨0, n, p⟩ k).setOpe n
      { t.ope n with pend := (t.ope n).pend.filter (fun y => !(y.2.q = e.q && y.2.seq = e.seq)) } := by
    unfold State.rowPortStart
    dsimp only
    rw [refill_pump_nothing hd hb hs, State.ope_reOpe, pickRow_reOpe, hp]
    dsimp only
    rw [← htd, ← hk]
    cases hi : (t.queue e.q).inst e.seq with
    | none => rfl
    | some i =>
      simp only [ht i hi, Bool.not_true, Bool.false_and, Bool.false_eq_true, if_false]
      rfl
  rw [hrun]
  exact ⟨⟨_, _, rfl⟩, State.ope_setOpe_same ..⟩

/-- The state that a row-port operation begins in: queues and memory as they stand, and the engine. -/
theorem answers_rowPortStart {s t : State} {n : Nat} {e : Entry} {P : State → Prop} (hl : s.live = true) (hlp : LeftPort n e t (s.rowPortStart n []))
    (h : ∀ u : State, u.core.qm = t.core.qm → u.core.mem = t.core.mem →
      u.ope n = { t.ope n with pend := (t.ope n).pend.filter (fun y => !(y.2.q = e.q && y.2.seq = e.seq)) } → P u) :
    Answers (exec (.rowPortOpStart n []) s) P := by
  have he : s.opeErrors n [] = s := by
    unfold State.opeErrors
    split <;> rfl
  have hrun : (s.opeErrors n []).rowPortStart n [] = s.rowPortStart n [] := by rw [he]
  obtain ⟨v, hv⟩ : ∃ v, v = s.rowPortStart n [] := ⟨_, rfl⟩
  rw [← hv] at hlp hrun
  obtain ⟨⟨_, _, hr⟩, ho⟩ := hlp
  exact answers_live_at hl hrun (h { s with core := v.core } (by rw [hr]) (by rw [hr]) ho)

/-! Notes on an instruction, and its end -/

theorem State.noteCount_rest (s : State) (e : Entry) (c k : Nat) : ∃ queues, s.noteCount e c k = { s with core.qm.queues := queues } := by
  unfold State.noteCount
  split <;> exact ⟨_, rfl⟩

theorem State.loaded_rest (s : State) (e : Entry) (t : Tile) : ∃ queues, s.loaded e t = { s with core.qm.queues := queues } := by
  obtain ⟨_, h⟩ := s.noteCount_rest e 1 (t.countBit 2)
  unfold State.loaded
  rw [h]
  exact ⟨_, rfl⟩

theorem State.tileOutcomes_rest (s : State) (e : Entry) (t : Tile) : ∃ queues, s.tileOutcomes e t = { s with core.qm.queues := queues } := by
  unfold State.tileOutcomes
  obtain ⟨_, h⟩ := s.noteCount_rest e 1 (t.countBit 2)
  rw [h]
  obtain ⟨_, k⟩ := State.noteCount_rest { s with core.qm.queues := _ } e 2 (t.countBit 0)
  rw [k]
  exact ⟨_, rfl⟩

theorem holdTile_held {s : State} {n p k sh : Nat} {a32 : Bool} {tl : Tile} (h : mget ((s.ope n).part p).tiles k = some tl) :
    s.holdTile n p k a32 sh = (s, tl) := by
  unfold State.holdTile
  dsimp only
  rw [h]

@[simp] theorem State.part_setTile (s : State) (n p k : Nat) (tl : Tile) :
    ((s.setTile n p k tl).ope n).part p = { (s.ope n).part p with tiles := mput ((s.ope n).part p).tiles k tl } := by
  unfold State.setTile
  rw [State.ope_setOpe_same, Ope.part_setPart_same]

@[simp] theorem State.part_freeTile (s : State) (n p k : Nat) :
    ((s.freeTile n p k).ope n).part p = { (s.ope n).part p with tiles := mdel ((s.ope n).part p).tiles k } := by
  unfold State.freeTile
  rw [State.ope_setOpe_same, Ope.part_setPart_same]

@[simp] theorem State.drains_freeTile (s : State) (n p k : Nat) : ((s.freeTile n p k).ope n).drains = (s.ope n).drains := by
  unfold State.freeTile
  rw [State.ope_setOpe_same]
  rfl

theorem pinImage_accessed (s : State) (c a len : Nat) : Accessed s (s.pinImage c a len) := by
  unfold State.pinImage
  generalize List.range (ceilDiv len tuBytes) = l
  induction l generalizing s with
  | nil => exact .refl s
  | cons i l ih =>
    rw [List.foldl_cons]
    refine Accessed.trans ?_ (ih _)
    split
    · split
      · exact .setPool ..
      · exact .refl s
    · exact .refl s

/-! An image that its access lets through -/

/-- The image of an ACCDR that goes to memory is written, and leaves the drain buffer. -/
theorem sendDrain_writes {s : State} {n : Nat} {d : DrainImg} {i : InFlight} (hk : destKind d.e.dest = 0) (ho : d.e.op ≠ 0x41)
    (hi : (s.queue d.e.q).inst d.e.seq = some i) (hf : i.fid = none) (hv : s.vcheck d.e.ctx (destAddr d.e.dest) d.bytes.length true false = .none) :
    Done (s.sendDrain n d) d.e
      ∧ (s.sendDrain n d).core.mem = ((s.vput d.e.ctx (destAddr d.e.dest) d.bytes false).pinImage d.e.ctx (destAddr d.e.dest) d.bytes.length).core.mem
      ∧ (s.sendDrain n d).ope n = { s.ope n with drains := (s.ope n).drains.erase d } := by
  obtain ⟨u, hu⟩ : ∃ u, u = (s.vput d.e.ctx (destAddr d.e.dest) d.bytes false).pinImage d.e.ctx (destAddr d.e.dest) d.bytes.length := ⟨_, rfl⟩
  obtain ⟨⟨_, _, _, _, _, _, _, _, hur⟩, -⟩ : Accessed s u := hu ▸ (Accessed.vput s ..).trans (pinImage_accessed ..)
  obtain ⟨_, ht⟩ := u.tileOutcomes_rest d.e d.tile
  have hrun : s.sendDrain n d = ((((u.tileOutcomes d.e d.tile).dropDrain n d).bump (opeBase n + 0x180) d.bytes.length).moved d.e.q d.e.seq
      d.bytes.length).finish d.e.q d.e.seq := by
    unfold State.sendDrain
    dsimp only
    rw [if_neg (not_not.2 hk), hi]
    dsimp only
    rw [hf, hv, if_neg ho, hu]
    rfl
  rw [hrun, ht]
  refine ⟨done_finish _ _, by rw [← hu]; rfl, ?_⟩
  refine (State.ope_setOpe_same _ n _).trans ?_
  rw [hur]
  rfl

/-- The state in which an image d of an engine with empty drain buffers is sent: it stands there alone, and its half-slots are freed unless they are
kept. -/
def State.draining (s : State) (n : Nat) (d : DrainImg) (keep : Bool) : State :=
  let u := (s.setOpe n { s.ope n with drains := [d] }).take 9 n d.units
  if keep then u else u.freeTile n d.part d.e.tile

theorem State.draining_rest (s : State) (n : Nat) (d : DrainImg) (keep : Bool) :
    (∃ opes ldg, s.draining n d keep = { s with core.opes := opes, core.ldg := ldg }) ∧ ((s.draining n d keep).ope n).drains = [d]
      ∧ (∃ l, ((s.draining n d keep).ope n).part d.part = { (s.ope n).part d.part with tiles := l }
        ∧ mget l d.e.tile = if keep then mget ((s.ope n).part d.part).tiles d.e.tile else none) := by
  obtain ⟨u, hu⟩ : ∃ u, u = (s.setOpe n { s.ope n with drains := [d] }).take 9 n d.units := ⟨_, rfl⟩
  have huo : u.ope n = { s.ope n with drains := [d] } := by rw [hu]; exact State.ope_setOpe_same ..
  have hd : s.draining n d keep = if keep then u else u.freeTile n d.part d.e.tile := by rw [hu]; rfl
  rw [hd]
  cases keep with
  | true => exact ⟨⟨_, _, hu⟩, by rw [if_pos rfl, huo], _, by rw [if_pos rfl, huo]; rfl, rfl⟩
  | false =>
    refine ⟨⟨_, _, by rw [hu]; rfl⟩, ?_, mdel ((s.ope n).part d.part).tiles d.e.tile, ?_, mget_mdel_same _ _⟩
    · exact (State.drains_freeTile ..).trans (by rw [huo])
    · exact (State.part_freeTile ..).trans (by rw [huo]; rfl)

theorem startDrain_sends {s : State} {n p : Nat} {e : Entry} {keep : Bool} {tl : Tile} (hd : (s.ope n).drains = [])
    (htl : mget ((s.ope n).part p).tiles e.tile = some tl) (hk : destKind e.dest = 0) (hf : ((s.ope n).part p).fence = 0) :
    let d : DrainImg := { part := p, e := e, tile := tl, bytes := imageOf tl s.now (s.genAt e.ctx (destAddr e.dest)) (s.epochOf e.ctx),
                          units := imageUnits e.a32 e.shape }
    (s.reOpe n).startDrain n p e keep = (s.draining n d keep).sendDrain n d := by
  intro d
  obtain ⟨-, hdr, l, hpart, -⟩ := s.draining_rest n d keep
  have hrun : (s.reOpe n).startDrain n p e keep = (s.draining n d keep).pumpDrains n := by
    unfold State.startDrain
    dsimp only
    rw [holdTile_held (s := s.reOpe n) (tl := tl) (by rw [State.ope_reOpe]; exact htl), if_pos hk, State.ope_reOpe, hd, List.nil_append, State.reOpe,
      State.setOpe_setOpe]
    rfl
  rw [hrun]
  unfold State.pumpDrains
  rw [hdr, List.filter_cons_of_pos (by rw [hpart]; exact decide_eq_true hf), List.filter_nil, List.foldl_cons, List.foldl_nil]

theorem finished_has {s : State} {e : Entry} {c d : Nat} {i : InFlight} (h : ((s.finishWith e.q e.seq c d).queue e.q).inst e.seq = some i) :
    i.done = true ∧ mhas i.outs c = true := by
  rw [inst_finishWith] at h
  obtain ⟨j, -, rfl⟩ := Option.map_eq_some_iff.1 h
  exact ⟨rfl, j.out_has c d false⟩

/-- Settles O21: what each operation of the row port leaves where its start finishes it. -/
theorem rowPortStarts : Obligations.RowPortStarts := by
  intro s n p e hl hd hb hs hp left q held
  obtain ⟨older, hmay⟩ := pickRow_mayStart hp
  obtain ⟨hfence, i, hinst, hfid⟩ := mayStart_free hmay
  obtain ⟨w, hw⟩ : ∃ w, w = s.reOpe n := ⟨_, rfl⟩
  have hwo : w.ope n = s.ope n := by rw [hw]; exact s.ope_reOpe n n
  have hwm : w.core.mem = s.core.mem := by rw [hw]; rfl
  have hwq : w.opeQuarter n = q := by rw [hw]; rfl
  have hpk : w.parkHeld (w.opeQuarter n) e.place e.spans = s.parkHeld q e.place e.spans := by
    unfold State.parkHeld
    rw [hwm, hwq]
  have hclash : (w.ope n).clash p e (fun _ => true) = held := by rw [hwo]
  have hleft : ∀ {t u : State}, Done t e → u.core.qm = t.core.qm →
      u.ope n = { t.ope n with pend := (t.ope n).pend.filter (fun y => !(y.2.q = e.q && y.2.seq = e.seq)) } → left u := by
    intro t u ht hqm ho
    refine ⟨fun j hj => ht j (by rw [← hj, State.queue_congr (congrArg Qmg.queues hqm)]), fun y hy => ?_⟩
    rw [ho] at hy
    have hne := (List.mem_filter.1 hy).2
    simp only [Bool.not_eq_true', Bool.and_eq_false_iff, decide_eq_false_iff_not] at hne
    exact not_and_or.2 hne
  refine ⟨fun hheld => ?_, fun hheld hop => ?_, fun tl hheld htl => ⟨fun hop hpark => ?_, fun hop hpark => ?_, ?_⟩⟩
  · have hrun : w.startRow n p e [] = w.finishWith e.q e.seq 0xC (badDetail (16, 0xA)) := if_pos (hclash.trans hheld)
    have hdone : Done (w.startRow n p e []) e := by rw [hrun]; exact fun j hj => (finished_has hj).1
    refine answers_rowPortStart hl (rowPortStart_done hd hb hs hp (hw ▸ hdone)) fun u hqm hmem ho => ?_
    rw [← hw, hrun] at hqm hmem ho
    refine ⟨hleft (by rw [← hrun]; exact hdone) hqm ho, fun j hj => ?_, ?_, hmem.trans hwm⟩
    · rw [State.queue_congr (congrArg Qmg.queues hqm)] at hj
      exact (finished_has hj).2
    · rw [ho, ← hwo]
      rfl
  · obtain ⟨x, hx⟩ : ∃ x, x = w.setOpe n ((w.ope n).setPart p { (w.ope n).part p with
        clean := ((w.ope n).part p).clean.filter (fun h => !(halves e.tile e.a32).contains h) }) := ⟨_, rfl⟩
    have hxp : ((x.ope n).part p).tiles = ((s.ope n).part p).tiles := by rw [hx, State.ope_setOpe_same, Ope.part_setPart_same, hwo]
    have hrun : w.startRow n p e [] = (x.setTile n p e.tile (Tile.zero e.a32 e.shape)).finish e.q e.seq := by
      unfold State.startRow
      rw [hclash, hheld, hop, hx]
      rfl
    have hdone : Done (w.startRow n p e []) e := by rw [hrun]; exact done_finish _ _
    refine answers_rowPortStart hl (rowPortStart_done hd hb hs hp (hw ▸ hdone)) fun u hqm hmem ho => ?_
    rw [← hw] at hqm hmem ho
    have hpart : ((u.ope n).part p).tiles = mput ((s.ope n).part p).tiles e.tile (Tile.zero e.a32 e.shape) := by
      have h := x.part_setTile n p e.tile (Tile.zero e.a32 e.shape)
      rw [hxp] at h
      rw [ho, hrun]
      exact congrArg OPart.tiles h
    refine ⟨hleft hdone hqm ho, ?_, fun k hk => ?_, hmem.trans ?_⟩
    · rw [hpart]
      exact mget_mput_same ..
    · rw [hpart]
      exact mget_mput_ne _ _ hk
    · rw [hrun, ← hwm, hx]
      rfl
  · have hrun : w.startRow n p e [] = ((((w.parkPut (w.opeQuarter n) e.place e.ctx tl (imageOf tl w.now 0 (w.epochOf e.ctx))).freeTile n p e.tile).moved e.q e.seq
        (imageOf tl w.now 0 (w.epochOf e.ctx)).length).loaded e tl) := by
      unfold State.startRow
      rw [hclash, hheld, hop]
      show w.startAccpk n p e = _
      unfold State.startAccpk
      dsimp only
      rw [holdTile_held (s := w) (tl := tl) (by rw [hwo]; exact htl)]
      exact if_neg (Bool.eq_false_iff.1 (hpk.trans hpark))
    have hdone : Done (w.startRow n p e []) e := by rw [hrun]; exact done_finish _ _
    obtain ⟨z, hz⟩ : ∃ z, z = w.parkPut (w.opeQuarter n) e.place e.ctx tl (imageOf tl w.now 0 (w.epochOf e.ctx)) := ⟨_, rfl⟩
    rw [← hz] at hrun
    have hzo : z.ope n = s.ope n := by rw [hz]; exact hwo
    obtain ⟨_, hload⟩ := ((z.freeTile n p e.tile).moved e.q e.seq (imageOf tl w.now 0 (w.epochOf e.ctx)).length).loaded_rest e tl
    rw [hload] at hrun
    refine answers_rowPortStart hl (rowPortStart_done hd hb hs hp (hw ▸ hdone)) fun u hqm hmem ho => ?_
    rw [← hw] at hqm hmem ho
    have hmem' : u.core.mem = z.core.mem := by rw [hmem, hrun]; rfl
    refine ⟨hleft hdone hqm ho, ?_, ?_, ?_, ?_⟩
    · have h := z.part_freeTile n p e.tile
      rw [hzo] at h
      rw [ho, hrun]
      exact (congrArg (fun y : OPart => mget y.tiles e.tile) h).trans (mget_mdel_same ..)
    · rw [hmem', hz, ← hwq]
      exact mget_mput_same ..
    · rw [hmem', hz, ← hwm]
      rfl
    · rw [hmem', hz, ← hwm]
      rfl
  · have hrun : w.startRow n p e [] = w.finishWith e.q e.seq 0xC (badDetail (20, 0xA)) := by
      unfold State.startRow
      rw [hclash, hheld, hop]
      exact if_pos (hpk.trans hpark)
    have hdone : Done (w.startRow n p e []) e := by rw [hrun]; exact fun j hj => (finished_has hj).1
    refine answers_rowPortStart hl (rowPortStart_done hd hb hs hp (hw ▸ hdone)) fun u hqm hmem ho => ?_
    rw [← hw, hrun] at hqm hmem ho
    refine ⟨hleft (by rw [← hrun]; exact hdone) hqm ho, fun j hj => ?_, ?_, hmem.trans hwm⟩
    · rw [State.queue_congr (congrArg Qmg.queues hqm)] at hj
      exact (finished_has hj).2
    · rw [ho, ← htl, ← hwo]
      rfl
  · intro img d u v hop hk hv
    have hvd : v = s.draining n d (e.mod 0) := rfl
    obtain ⟨⟨_, _, hrest⟩, hdr, l, hpart, htiles⟩ := s.draining_rest n d (e.mod 0)
    rw [← hvd] at hrest hdr hpart
    have halike : Alike s v := by rw [hrest]; exact ⟨rfl, rfl, rfl, rfl, rfl, fun _ => rfl⟩
    have hrun : w.startRow n p e [] = v.sendDrain n d := by
      unfold State.startRow
      rw [hclash, hheld, hop, hw]
      exact startDrain_sends hd htl hk hfence
    obtain ⟨hdone, hsm, hso⟩ := sendDrain_writes (s := v) (n := n) (d := d) (i := i) hk (by show e.op ≠ _; rw [hop]; decide)
      (by rw [hrest]; exact hinst) hfid ((halike.vcheck ..).trans hv)
    rw [← hrun] at hdone hsm hso
    refine answers_rowPortStart hl (rowPortStart_done hd hb hs hp (hw ▸ hdone)) fun z hqm hmem ho => ?_
    rw [← hw] at hqm hmem ho
    rw [hso, hdr] at ho
    refine ⟨hleft hdone hqm (by rw [ho, hso, hdr]), by rw [ho]; simp, ?_, hmem.trans hsm⟩
    rw [ho]
    have h := htiles
    rw [htl] at h
    exact (congrArg (fun y : OPart => mget y.tiles e.tile) hpart).trans h

end Sys2Proof.Machine
end

section
/-! PROOF. GRP_SET and GRP_CLR (O25; 13_collectives R312, R343). -/
namespace Sys2Proof.Machine
open State

/-- What a command of the RCEs that ends leaves: its code in RESULT, and of engines and memory what stood there. -/
theorem rceDone_ends (s : State) (code : Nat) :
    (mgetD (s.cmdDone 2 code rceMint 0).core.cmds 2 {}).result = resultOf code ∧ (s.cmdDone 2 code rceMint 0).core.rce = s.core.rce
      ∧ (s.cmdDone 2 code rceMint 0).core.mem = s.core.mem := by
  obtain ⟨_, _, h⟩ := s.cmdDone_rest 2 code rceMint 0
  exact ⟨by rw [State.cmdDone_cmd], by rw [h], by rw [h]⟩

/-- A GRP_SET whose table has been read, or that is refused, ends with its code. -/
theorem grpSet_ends {s u : State} {code : Nat} {P : State → Prop} (hd : s.dispatching = true) (hb : s.cmdBusy 2 = false)
    (hr : (s.startCmd 2 1 0).grpRead = (u, code, .none))
    (h : ∀ t : State, t.core.rce = u.core.rce → t.core.mem = u.core.mem → (mgetD t.core.cmds 2 {}).result = resultOf code → P t) :
    Answers (exec .grpSet s) P := by
  obtain ⟨hres, hrce, hmem⟩ := rceDone_ends u code
  refine answers_dispatching_at hd (t := u.cmdDone 2 code rceMint 0) ?_ (h _ hrce hmem hres)
  unfold State.grpSet
  rw [hb, if_neg (by decide)]
  unfold State.grpSettle
  rw [hr]

/-- Settles O25: GRP_SET with a good table, with one behind a fault and with a bad channel, and GRP_CLR. -/
theorem groupCommands : Obligations.GroupCommands := by
  intro s hd hb gc n c a s0 h u m rank eps w result
  have hargs : s0.grpArgs = (gc, n, c, a) := rfl
  refine ⟨fun hgc hv hm0 hm hrank hv2 htab => ?_, fun k x hgc hv => ?_, fun hgc => ?_, fun hbk hga => ?_⟩
  · obtain ⟨g, hg⟩ : ∃ g : Group, g = ⟨c, m, rank, eps.getD ((rank + m - 1) % m) 0, eps.getD ((rank + 1) % m) 0, 0⟩ := ⟨_, rfl⟩
    have hread : s0.grpRead = ({ w with core.rce.groups := mput w.core.rce.groups (16 * n + gc) g }, 0, .none) := by
      have hbad : (decide (m = 0) || decide (m > 8192) || decide (rank ≥ m)) = false := by
        simp only [Bool.or_eq_false_iff, decide_eq_false_iff_not]
        omega
      unfold State.grpRead
      rw [hargs]
      dsimp only
      rw [if_neg (Nat.not_lt.2 hgc), hv]
      dsimp only
      rw [if_neg (Bool.eq_false_iff.1 hbad), hv2]
      dsimp only
      rw [hg]
      exact if_neg (Bool.eq_false_iff.1 htab)
    obtain ⟨⟨_, _, _, _, _, _, _, _, hw⟩, -⟩ : Accessed s0 w := (Accessed.vtouch s0 ..).trans (.vtouch u ..)
    refine grpSet_ends hd hb hread fun t hrce hmem hres => ⟨?_, fun k hk => ?_, hres, hmem⟩
    · show mget t.core.rce.groups _ = _
      rw [hrce, ← hg]
      exact mget_mput_same ..
    · rw [hrce]
      refine (mget_mput_ne _ _ hk).trans ?_
      rw [hw]
      rfl
  · obtain ⟨hres, hrce, hmem⟩ := rceDone_ends s0 7
    refine answers_dispatching_at hd (t := s0.cmdDone 2 7 rceMint 0) ?_ ⟨hrce, hres, hmem⟩
    have hread : s0.grpRead = (s0, 7, .fault k x) := by
      unfold State.grpRead
      rw [hargs]
      dsimp only
      rw [if_neg (Nat.not_lt.2 hgc), hv]
    unfold State.grpSet
    rw [hb, if_neg (by decide)]
    unfold State.grpSettle
    rw [hread]
  · have hread : s0.grpRead = (s0, 0xC, .none) := by
      unfold State.grpRead
      rw [hargs]
      exact if_pos hgc
    exact grpSet_ends hd hb hread fun t hrce hmem hres => ⟨hrce, hres, hmem⟩
  · obtain ⟨v, hv⟩ : ∃ v, v = { s.begun 2 2 with core.rce.groups := mdel s.core.rce.groups (16 * n + gc) } := ⟨_, rfl⟩
    obtain ⟨hres, hrce, hmem⟩ := rceDone_ends v 0
    refine answers_dispatching_at hd (t := v.cmdDone 2 0 rceMint 0) ?_ ⟨?_, fun k hk => ?_, hres, hmem.trans (by rw [hv]; rfl)⟩
    · refine runCmd_gives hb ?_
      have hfree : (s.core.rce.buckets.any (fun b => b.2.rce = n && b.2.gc = gc) || s.core.rce.gathers.any (fun j => j.rce = n && j.gc = gc)) = false := by
        simp only [Bool.or_eq_false_iff, List.any_eq_false, Bool.and_eq_true, decide_eq_true_eq]
        exact ⟨hbk, hga⟩
      rw [hv]
      exact if_neg (Bool.eq_false_iff.1 hfree)
    · show mget (v.cmdDone 2 0 rceMint 0).core.rce.groups _ = _
      rw [hrce, hv]
      exact mget_mdel_same ..
    · show mget (v.cmdDone 2 0 rceMint 0).core.rce.groups _ = _
      rw [hrce, hv]
      exact mget_mdel_ne _ hk

end Sys2Proof.Machine
end

section
/-! PROOF. What a bucket's own work may change, and LATE_ABORT and FENCE_DUMP (O43; 13_collectives R317-R324, 08_streams R217, 10_translation R258). -/
namespace Sys2Proof.Machine
open State

/-! Work of the engines that leaves queues, engines and buckets alone -/

/-- t is s after work of the collective engines or a stream engine on memory and fabric: of queues, engines, streams and buckets nothing differs. -/
structure Served (s t : State) : Prop where
  rest : ∃ regs irq mmu mem ldg cmds host fab work, t = { s with
    core.regs := regs, core.irq := irq, core.mmu := mmu, core.mem := mem, core.ldg := ldg, core.cmds := cmds, core.host := host, core.fab := fab
    core.pmc.work := work }

namespace Served

theorem refl (s : State) : Served s s := ⟨_, _, _, _, _, _, _, _, _, rfl⟩

theorem trans {s t u : State} (h : Served s t) (g : Served t u) : Served s u := by
  obtain ⟨_, _, _, _, _, _, _, _, _, rfl⟩ := h
  obtain ⟨_, _, _, _, _, _, _, _, _, rfl⟩ := g
  exact ⟨_, _, _, _, _, _, _, _, _, rfl⟩

theorem foldl {α : Type} {f : State → α → State} (hf : ∀ s a, Served s (f s a)) (l : List α) (s : State) : Served s (l.foldl f s) := by
  induction l generalizing s with
  | nil => exact refl s
  | cons a l ih => exact (hf s a).trans (ih _)

theorem of_recorded {s t : State} (h : Recorded s t) : Served s t := by
  obtain ⟨_, _, _, _, _, _, _, h⟩ := h.rest
  exact ⟨_, _, _, _, _, _, _, s.core.fab, s.core.pmc.work, h⟩

theorem of_accessed {s t : State} (h : Accessed s t) : Served s t := of_recorded (.of_accessed h)

theorem of_posted {s t : State} (h : Posted s t) : Served s t := by
  obtain ⟨_, _, _, _, h⟩ := h.rest
  exact ⟨_, _, s.core.mmu, s.core.mem, _, s.core.cmds, s.core.host, _, s.core.pmc.work, h⟩

theorem worked (s : State) (r : SlotRef) (n : Nat) : Served s (s.worked r n) := ⟨_, _, _, _, _, _, _, _, _, rfl⟩

theorem bump (s : State) (o n : Nat) : Served s (s.bump o n) := ⟨_, _, _, _, _, _, _, _, _, rfl⟩

theorem raise (s : State) (o i : Nat) : Served s (s.raise o i) := by
  obtain ⟨_, _, h⟩ := s.raise_core o i
  exact ⟨_, _, _, _, _, _, _, _, s.core.pmc.work, h⟩

theorem eventIf (s : State) (p : Bool) (o i j : Nat) : Served s (if p then (s.bump o 1).raise i j else s) := by
  split
  · exact (bump ..).trans (raise ..)
  · exact refl s

theorem rce {s t : State} (h : Served s t) : t.core.rce = s.core.rce := by
  obtain ⟨_, _, _, _, _, _, _, _, _, rfl⟩ := h
  rfl

theorem qm {s t : State} (h : Served s t) : t.core.qm = s.core.qm := by
  obtain ⟨_, _, _, _, _, _, _, _, _, rfl⟩ := h
  rfl

theorem vput (s : State) (c a : Nat) (bs : List Byte) (se : Bool) (cap : Nat) : Served s (s.vput c a bs se cap) := of_accessed (.vput s c a bs se cap)

theorem vtouch (s : State) (c a n : Nat) (w se : Bool) : Served s (s.vtouch c a n w se) := of_accessed (.vtouch s c a n w se)

theorem touchSpans (s : State) (c : Nat) (l : List (Nat × Nat)) : Served s (s.touchSpans c l) :=
  foldl (f := fun s (p : Nat × Nat) => s.vtouch c p.1 p.2 false false) (fun s p => vtouch s c p.1 p.2 false false) l s

theorem touchBlk (s : State) (c a code n k : Nat) (se : Bool) : Served s (s.touchBlk c a code n k se) :=
  foldl (f := fun s (p : Nat × Nat) => s.vtouch c p.1 p.2 false se) (fun s p => vtouch s c p.1 p.2 false se) _ s

theorem putWord (s : State) (b : Bucket) (p n w : Nat) : Served s (s.putWord b p n w) := vput ..

theorem putBlk (s : State) (b : Bucket) (p n : Nat) (x : RBlk) (o q d : Bool) : Served s (s.putBlk b p n x o q d) := (vput ..).trans (putWord ..)

theorem mergeAt (s : State) (b : Bucket) (p n : Nat) (c : RBlk) (o q d : Bool) : Served s (s.mergeAt b p n c o q d) := by
  unfold State.mergeAt
  dsimp only
  exact ((((touchSpans s _ _).trans (putBlk ..)).trans ((worked ..).trans (bump _ (rceBase b.rce + 0x100) 1))).trans (eventIf ..)).trans (eventIf ..)

theorem lateBlk (s : State) (b : Bucket) (n : Nat) (c : RBlk) : Served s (s.lateBlk b n c) := by
  unfold State.lateBlk
  split
  · exact (mergeAt ..).trans ((bump ..).trans (raise ..))
  · exact (bump ..).trans (raise ..)

theorem markDone (s : State) (b : Bucket) (n : Nat) : Served s (s.markDone b n) := putWord ..

theorem sendGroup (s : State) (n gc type dest hdr x : Nat) (data : List Byte) (poison : Bool) : Served s (s.sendGroup n gc type dest hdr x data poison) :=
  (of_posted (.emit ..)).trans (bump ..)

theorem sendRun (s : State) (b : Bucket) (part final m succ : Nat) (r : Nat × Nat) : Served s (s.sendRun b part final m succ r) := by
  unfold State.sendRun
  exact ((foldl (fun s _ => touchSpans s _ _) _ s).trans (worked ..)).trans (sendGroup ..)

theorem raiseFault (s : State) (c a cause : Nat) (w : Bool) (who : Stopper) (q unit tag : Nat) : Served s (s.raiseFault c a cause w who q unit tag).1 :=
  of_recorded (.raiseFault ..)

theorem askFor (s : State) (c : Nat) (st : Stop) : Served s (s.askFor c st) := of_recorded (.askFor ..)

end Served

/-! A bucket's sends, merges and halts -/

/-- A bucket at work: what it has sent, where it stands at a fault, and what it has lost; with k, what it has sent stays. -/
def BktMoves (k : Prop) (f : Bucket → Bucket) : Prop := ∀ b, ∃ x y z, f b = { b with sent := x, fid := y, lost := z } ∧ (k → x = b.sent)

theorem BktMoves.id (k : Prop) : BktMoves k (fun b => b) := fun b => ⟨b.sent, b.fid, b.lost, rfl, fun _ => rfl⟩

theorem BktMoves.comp {k : Prop} {f g : Bucket → Bucket} (hf : BktMoves k f) (hg : BktMoves k g) : BktMoves k (fun b => g (f b)) := by
  intro b
  obtain ⟨x, y, z, h, hk⟩ := hf b
  obtain ⟨x', y', z', h', hk'⟩ := hg (f b)
  exact ⟨x', y', z', h'.trans (by rw [h]), fun q => (hk' q).trans (by rw [h]; exact hk q)⟩

/-- t is s after work of the collective engines' buckets: memory, translation, fabric and counts aside, only what buckets have sent and lost and the
faults they stand at differ; with k, what they have sent stays. -/
structure Pumped (k : Prop) (s t : State) : Prop where
  rest : ∃ regs irq mmu mem ldg cmds host fab work buckets, t = { s with
    core.regs := regs, core.irq := irq, core.mmu := mmu, core.mem := mem, core.ldg := ldg, core.cmds := cmds, core.host := host, core.fab := fab
    core.pmc.work := work, core.rce.buckets := buckets }
  bkt : ∀ n, ∃ f, BktMoves k f ∧ mget t.core.rce.buckets n = (mget s.core.rce.buckets n).map f
  mem : ∀ e ∈ t.core.rce.buckets, ∃ e0 ∈ s.core.rce.buckets, ∃ f, BktMoves k f ∧ e.2 = f e0.2

namespace Pumped
variable {k : Prop}

theorem refl (s : State) : Pumped k s s :=
  ⟨⟨_, _, _, _, _, _, _, _, _, _, rfl⟩, fun n => ⟨_, .id k, by simp⟩, fun e he => ⟨e, he, _, .id k, rfl⟩⟩

theorem trans {s t u : State} (h : Pumped k s t) (g : Pumped k t u) : Pumped k s u := by
  refine ⟨?_, fun n => ?_, fun e he => ?_⟩
  · obtain ⟨⟨_, _, _, _, _, _, _, _, _, _, rfl⟩, -⟩ := h
    obtain ⟨⟨_, _, _, _, _, _, _, _, _, _, rfl⟩, -⟩ := g
    exact ⟨_, _, _, _, _, _, _, _, _, _, rfl⟩
  · obtain ⟨f, hf, hs⟩ := h.bkt n
    obtain ⟨f', hf', ht⟩ := g.bkt n
    exact ⟨_, hf.comp hf', by rw [ht, hs, Option.map_map]; rfl⟩
  · obtain ⟨e1, he1, f', hf', ht⟩ := g.mem e he
    obtain ⟨e0, he0, f, hf, hs⟩ := h.mem e1 he1
    exact ⟨e0, he0, _, hf.comp hf', by rw [ht, hs]⟩

theorem foldl {α : Type} {f : State → α → State} (hf : ∀ s a, Pumped k s (f s a)) (l : List α) (s : State) : Pumped k s (l.foldl f s) := by
  induction l generalizing s with
  | nil => exact refl s
  | cons a l ih => exact (hf s a).trans (ih _)

/-- Work that leaves the buckets as they are. -/
theorem of_served {s t : State} (h : Served s t) : Pumped k s t := by
  obtain ⟨_, _, _, _, _, _, _, _, _, rfl⟩ := h
  exact ⟨⟨_, _, _, _, _, _, _, _, _, _, rfl⟩, fun n => ⟨_, .id k, by simp⟩, fun e he => ⟨e, he, _, .id k, rfl⟩⟩

theorem updBkt (s : State) (n : Nat) {f : Bucket → Bucket} (hf : BktMoves k f) : Pumped k s (s.updBkt n f) := by
  unfold State.updBkt
  split
  · rename_i b hb
    refine ⟨⟨_, _, _, _, _, _, _, _, _, _, rfl⟩, fun j => ?_, fun e he => ?_⟩
    · by_cases h : j = n
      · refine ⟨f, hf, ?_⟩
        rw [h, hb]
        exact mget_mput_same ..
      · refine ⟨_, .id k, ?_⟩
        rw [Option.map_id']
        exact mget_mput_ne _ _ h
    · rcases mem_mput he with rfl | he
      · exact ⟨_, mem_of_mget hb, f, hf, rfl⟩
      · exact ⟨e, he, _, .id k, rfl⟩
  · exact refl s

/-! The functions of a bucket's work -/

/-- One run that is not a final or a moved block leaves what the bucket has sent as it is. -/
theorem sendOne (s : State) (b : Bucket) (g : Group) (x : Nat × Nat × Nat) (hx : k → x.1 ≠ 1 ∧ x.1 ≠ 2) : Pumped k s (s.sendOne b g x) := by
  have hmark (h : x.1 = 1 ∨ x.1 = 2) (ks : List Nat) : BktMoves k (fun b => { b with sent := ks.foldl (fun a k => sins k a) b.sent }) :=
    fun b => ⟨_, b.fid, b.lost, rfl, fun q => absurd h (not_or.2 (hx q))⟩
  unfold State.sendOne
  dsimp only
  split
  · exact of_served ((Served.sendRun ..).trans (.foldl (fun s n => .markDone s b n) _ _))
  · rename_i h
    exact (of_served (.sendRun ..)).trans (updBkt _ _ (hmark (.inl h) _))
  · rename_i h
    exact (of_served ((Served.foldl (fun s _ => .touchSpans s _ _) _ s).trans (.sendGroup ..))).trans (updBkt _ _ (hmark (.inr h) _))
  · exact of_served (.foldl (fun s n => .mergeAt s b 2 n _ _ _ _) _ s)
  · refine of_served (.foldl (fun s n => ?_) _ s)
    split
    · exact .markDone ..
    · exact (Served.markDone ..).trans (.lateBlk ..)

theorem loseRun (s : State) (b : Bucket) (x : Nat × Nat × Nat) : Pumped k s (s.loseRun b x) :=
  (of_served ((Served.bump ..).trans (.raise ..))).trans (updBkt _ _ fun b => ⟨b.sent, b.fid, _, rfl, fun _ => rfl⟩)

theorem hold (s : State) (n fid : Nat) : Pumped k s (s.updBkt n (fun b => { b with fid := some fid })) :=
  updBkt _ _ fun b => ⟨b.sent, _, b.lost, rfl, fun _ => rfl⟩

theorem sendDue (b : Bucket) (g : Group) : ∀ (l : List (Nat × Nat × Nat)) (s : State), (k → ∀ x ∈ l, x.1 ≠ 1 ∧ x.1 ≠ 2) → Pumped k s (s.sendDue b g l)
  | [], s, _ => refl s
  | x :: l, s, hl => by
    have hx : k → x.1 ≠ 1 ∧ x.1 ≠ 2 := fun q => hl q x List.mem_cons_self
    have ih := fun s => sendDue b g l s fun q y hy => hl q y (List.mem_cons_of_mem _ hy)
    unfold State.sendDue
    split
    · exact (sendOne s b g x hx).trans (ih _)
    · exact (loseRun s b x).trans (ih _)
    · dsimp only
      split
      · exact ((of_served (.raiseFault ..)).trans (loseRun ..)).trans (ih _)
      · exact (of_served (.raiseFault ..)).trans (hold ..)
      · exact of_served (.raiseFault ..)
    · exact of_served (.askFor ..)

theorem ownFinals (s : State) (b : Bucket) (g : Group) : Pumped k s (s.ownFinals b g) := by
  unfold State.ownFinals
  split
  · refine sendDue b g _ s fun _ x hx => ?_
    unfold State.ownRuns at hx
    split at hx
    · obtain ⟨n, -, rfl⟩ := List.mem_map.1 hx
      exact ⟨show 3 ≠ 1 by decide, show 3 ≠ 2 by decide⟩
    · exact absurd hx List.not_mem_nil
  · exact refl s

theorem wordsHalt (s : State) (b : Bucket) (st : Stop) : Pumped k s (s.wordsHalt b st) := by
  unfold State.wordsHalt
  split
  · dsimp only
    split
    · exact (of_served (.raiseFault ..)).trans (hold ..)
    · exact (of_served (.raiseFault ..)).trans (updBkt _ _ fun b => ⟨b.sent, b.fid, _, rfl, fun _ => rfl⟩)
    · exact of_served (.raiseFault ..)
  · exact of_served (.askFor ..)

end Pumped

theorem Pumped.lateWaiting (s : State) (b : Bucket) : Pumped False s (s.lateWaiting b) := by
  unfold State.lateWaiting
  refine Pumped.trans (Pumped.trans ?_ (.updBkt _ _ fun b => ⟨_, b.fid, b.lost, rfl, False.elim⟩)) (.sendDue _ _ _ _ False.elim)
  split
  · exact .refl s
  · exact .of_served ((Served.bump ..).trans (.raise ..))

theorem Pumped.pump (s : State) (n : Nat) : Pumped False s (s.pump n) := by
  unfold State.pump
  split
  · exact .refl s
  · split
    · exact .refl s
    · split
      · exact .lateWaiting ..
      · split
        · exact .refl s
        · split
          · exact .lateWaiting ..
          · exact .sendDue _ _ _ _ False.elim

/-! The end of a bucket that does not close -/

/-- Does a bucket wait in its BCLOSE for this instruction? -/
def Bucket.closes (b : Bucket) (q seq : Nat) : Prop := b.st = .closing ∧ ∃ e, b.bclose = some e ∧ e.is q seq = true

theorem closingOf_nil (s : State) (q seq : Nat) : s.closingOf q seq = [] ↔ ∀ e ∈ s.core.rce.buckets, ¬ e.2.closes q seq := by
  unfold State.closingOf Bucket.closes
  rw [List.map_eq_nil_iff, List.filter_eq_nil_iff]
  refine forall₂_congr fun e _ => ?_
  cases h : e.2.bclose with
  | none => simp
  | some x => simp [and_comm]

theorem Pumped.closingOf {k : Prop} {s t : State} (h : Pumped k s t) {q seq : Nat} (hs : s.closingOf q seq = []) : t.closingOf q seq = [] := by
  rw [closingOf_nil] at hs ⊢
  intro e he
  obtain ⟨e0, he0, f, hf, hef⟩ := h.mem e he
  obtain ⟨_, _, _, hfe, -⟩ := hf e0.2
  rw [hef, hfe]
  exact hs e0 he0

theorem useGrant_rest (s : State) (b : Bucket) : ∃ grants, s.useGrant b = { s with core.rce.grants := grants } := by
  unfold State.useGrant
  split
  · exact ⟨_, rfl⟩
  · split
    · exact ⟨_, rfl⟩
    · split <;> exact ⟨_, rfl⟩

theorem mem_of_mem_mdel {α : Type} {m : Map α} {k : Nat} {e : Nat × α} (h : e ∈ mdel m k) : e ∈ m := by
  unfold mdel at h
  exact (List.mem_filter.1 h).1

theorem endBucket_closingOf {s : State} {b : Bucket} {q seq : Nat} (hs : s.closingOf q seq = []) : (s.endBucket b).closingOf q seq = [] := by
  obtain ⟨_, hg⟩ := useGrant_rest s b
  rw [closingOf_nil] at hs ⊢
  unfold State.endBucket
  rw [hg]
  intro e he
  split at he
  · rcases mem_mput he with rfl | he
    · exact fun h => absurd (show BktState.carry = .closing from h.1) (by decide)
    · exact hs e he
  · exact hs e (mem_of_mem_mdel he)

/-- The step of a bucket's settling that may complete its BCLOSE. -/
def State.bktClose (s : State) (n : Nat) : State :=
  match mget s.core.rce.buckets n with
  | some b => match b.st, b.bclose with
    | .closing, some e => if s.closeHeld e then s else s.tryClose b e
    | _, _ => s
  | none => s

/-- The step of a bucket's settling that may end it. -/
def State.bktEnd (s : State) (n : Nat) : State :=
  match mget s.core.rce.buckets n with
  | some b =>
    let g := s.bktGroup b
    if decide (b.st = .held) && (s.unsent b g).isEmpty && !s.owesPartials b g && !s.unacked b then s.endBucket b else s
  | none => s

theorem settleBkt_goes {s : State} {n : Nat} {b : Bucket} (hb : mget s.core.rce.buckets n = some b) (hst : b.st ≠ .carry) (hf : b.fid = none)
    (hw : s.wordsStop b = .none) : s.settleBkt n = (((s.ownFinals b (s.bktGroup b)).pump n).bktClose n).bktEnd n := by
  unfold State.settleBkt
  rw [hb]
  dsimp only
  rw [hf, hw, if_neg (by simp [hst]), if_neg (by simp)]
  rfl

theorem bktClose_nothing {s : State} {n : Nat} (hn : ∀ b, mget s.core.rce.buckets n = some b → b.st ≠ .closing) : s.bktClose n = s := by
  unfold State.bktClose
  split
  · rename_i b hb
    split
    · rename_i h _
      exact absurd h (hn b hb)
    · rfl
  · rfl

theorem bktEnd_closingOf {s : State} {n q seq : Nat} (hs : s.closingOf q seq = []) : (s.bktEnd n).closingOf q seq = [] := by
  unfold State.bktEnd
  split
  · dsimp only
    split
    · exact endBucket_closingOf hs
    · exact hs
  · exact hs

/-- A bucket that is not closing, settled: no bucket comes to wait for an instruction that none waits for. -/
theorem settleBkt_closingOf {s : State} {n q seq : Nat} (hn : ∀ b, mget s.core.rce.buckets n = some b → b.st ≠ .closing) (hs : s.closingOf q seq = []) :
    (s.settleBkt n).closingOf q seq = [] := by
  cases hb : mget s.core.rce.buckets n with
  | none =>
    unfold State.settleBkt
    rw [hb]
    exact hs
  | some b =>
    by_cases hrest : b.st = .carry ∨ b.fid ≠ none
    · unfold State.settleBkt
      rw [hb]
      dsimp only
      rw [if_pos (by simpa [Option.isSome_iff_ne_none] using hrest)]
      exact hs
    · obtain ⟨hst, hf⟩ := not_or.1 hrest
      by_cases hw : s.wordsStop b = .none
      · obtain ⟨t, ht⟩ : ∃ t, t = (s.ownFinals b (s.bktGroup b)).pump n := ⟨_, rfl⟩
        have hp : Pumped False s t := ht ▸ (Pumped.ownFinals ..).trans (.pump ..)
        obtain ⟨f, hm, hfb⟩ := hp.bkt n
        rw [settleBkt_goes hb hst (not_not.1 hf) hw, ← ht, bktClose_nothing]
        · exact bktEnd_closingOf (hp.closingOf hs)
        · intro b' hb'
          rw [hfb, hb] at hb'
          obtain ⟨_, _, _, hfe, -⟩ := hm b
          rw [← Option.some.inj hb', hfe]
          exact hn b hb
      · unfold State.settleBkt
        rw [hb]
        dsimp only
        rw [if_neg (by simpa [Option.isSome_iff_ne_none] using hrest), if_pos hw]
        exact (Pumped.wordsHalt (k := False) s b _).closingOf hs

/-! LATE_ABORT (R217) -/

theorem State.releaseFor_rce (s : State) (e : Entry) : (s.releaseFor e).core.rce = s.core.rce := by
  unfold State.releaseFor
  split
  · split <;> rfl
  · rfl

theorem closeUnread_closingOf {s : State} {q seq : Nat} (hs : s.closingOf q seq = []) : (s.closeUnread q seq).closingOf q seq = [] := by
  unfold State.closeUnread
  split
  · split
    · exact hs
    · split
      · rename_i b _
        refine settleBkt_closingOf (fun b' hb' => ?_) ?_
        · rw [← Option.some.inj ((mget_mput_same ..).symm.trans hb')]
          exact show BktState.held ≠ .closing by decide
        · rw [closingOf_nil] at hs ⊢
          intro e he
          rcases mem_mput he with rfl | he
          · exact fun h => absurd (show BktState.held = .closing from h.1) (by decide)
          · exact hs e he
      · exact hs
  · exact hs

theorem closingOf_congr {s t : State} (h : t.core.rce = s.core.rce) (q seq : Nat) : t.closingOf q seq = s.closingOf q seq := by
  simp only [State.closingOf, h]

/-- An instruction leaves the places before its share. -/
def State.unshare (s : State) (q seq : Nat) : State :=
  let s := if (s.queue q).stalled.any (fun e => e.is q seq) then s.endStall q else s
  s.updQueue q (fun x => { x with aside := x.aside.filter (fun e => !e.is q seq), stalled := x.stalled.filter (fun e => !e.is q seq) })

theorem State.unshare_rce (s : State) (q seq : Nat) : (s.unshare q seq).core.rce = s.core.rce := by
  obtain ⟨_, h⟩ := s.endStall_rest q
  unfold State.unshare
  split
  · rw [h]
    rfl
  · rfl

/-- The state in which an instruction that no job of an SE, GATHER or BCLOSE carries out is ended late. -/
def State.lateFreed (s : State) (q seq : Nat) : State :=
  match s.entryOf q seq with
  | some e => ((s.releaseFor e).closeUnread q seq).unshare q seq
  | none => (s.closeUnread q seq).unshare q seq

theorem lateFreed_closingOf {s : State} {q seq : Nat} (hs : s.closingOf q seq = []) : (s.lateFreed q seq).closingOf q seq = [] := by
  unfold State.lateFreed
  split
  · rename_i e _
    rw [closingOf_congr (State.unshare_rce ..)]
    exact closeUnread_closingOf (by rw [closingOf_congr (s.releaseFor_rce e), hs])
  · rw [closingOf_congr (State.unshare_rce ..)]
    exact closeUnread_closingOf hs

theorem abortLate_runs {s : State} {q : Nat} {i : InFlight} (hj : s.jobOf q i.seq = none) (hc : s.closingOf q i.seq = [])
    (hg : ∀ j ∈ s.core.rce.gathers, j.e.is q i.seq = false) :
    s.abortLate q i = ((s.lateFreed q i.seq).finishWith q i.seq 3 (s.nowAt (s.dieOf q) - i.deadline)).quash q i.seq := by
  have hgath : s.core.rce.gathers.find? (fun j => j.e.is q i.seq) = none := by
    rw [List.find?_eq_none]
    exact fun j hj => by rw [hg j hj]; decide
  unfold State.abortLate State.lateFreed
  dsimp only
  rw [hj, hgath]
  cases s.entryOf q i.seq with
  | none =>
    dsimp only
    rw [hc, List.foldl_nil]
    unfold State.unshare
    rfl
  | some e =>
    dsimp only
    rw [closingOf_congr (s.releaseFor_rce e), hc, List.foldl_nil]
    unfold State.unshare
    rfl

theorem State.scheduled_rest (s : State) : ∃ n, s.scheduled = { s with core.unsync := n } := by
  unfold State.scheduled
  split <;> exact ⟨_, rfl⟩

/-- Settles half of O43: instructions ended at their DEADLINE. -/
theorem deadlineAborts : Says.DeadlineAborts := by
  intro s q seq i hl hi
  have hseq : i.seq = seq := by simpa using List.find?_some hi
  refine ⟨fun hla hd0 hd hdone hctl heff hj hc hg => ?_, fun hno => ?_⟩
  · subst hseq
    obtain ⟨_, hsch⟩ := s.scheduled_rest
    obtain ⟨v, hv⟩ : ∃ v, v = s.scheduled := ⟨_, rfl⟩
    rw [← hv] at hsch
    have hvj : v.jobOf q i.seq = none := by rw [hsch]; exact hj
    have hvc : v.closingOf q i.seq = [] := by rw [hsch]; exact hc
    have hvg : ∀ j ∈ v.core.rce.gathers, j.e.is q i.seq = false := by rw [hsch]; exact hg
    obtain ⟨u, hu⟩ : ∃ u, u = (v.lateFreed q i.seq).finishWith q i.seq 3 (v.nowAt (v.dieOf q) - i.deadline) := ⟨_, rfl⟩
    have huc : u.closingOf q i.seq = [] := by
      obtain ⟨_, hf⟩ := (v.lateFreed q i.seq).finishWith_rest q i.seq 3 (v.nowAt (v.dieOf q) - i.deadline)
      rw [hu, closingOf_congr (s := v.lateFreed q i.seq) (by rw [hf])]
      exact lateFreed_closingOf hvc
    obtain ⟨hfl, -⟩ := quash_keeps huc
    have hrun : s.deadlineAbort q i.seq = u.quash q i.seq := by
      unfold State.deadlineAbort
      rw [whenLive_pos _ hl]
      dsimp only
      rw [hi]
      dsimp only
      rw [if_pos (by simp [hla, hd0, hd, hdone, hctl, heff]), ← hv, abortLate_runs hvj hvc hvg, hu]
    obtain ⟨w, hw⟩ : ∃ w, w = u.quash q i.seq := ⟨_, rfl⟩
    rw [← hw] at hrun hfl
    refine answers_core (f := fun s => s.deadlineAbort q i.seq) ?_
    rw [hrun]
    intro k hk
    have hk' : (u.queue q).inst i.seq = some k := (hfl.inst q i.seq).symm.trans hk
    rw [hu] at hk'
    obtain ⟨hkd, hko⟩ := finished_has (e := ⟨q, i.seq, 0, 0, []⟩) hk'
    exact ⟨hkd, Option.isSome_iff_ne_none.1 hko⟩
  · show liftCore _ s = .next s
    rw [liftCore_goes, whenLive_pos _ hl]
    dsimp only
    rw [hi]
    dsimp only
    rw [if_neg]
    simp only [Bool.and_eq_true, decide_eq_true_eq, Bool.not_eq_true']
    rintro ⟨⟨⟨⟨⟨hla, hd0⟩, hd⟩, hdone⟩, -⟩, -⟩
    rcases hno with h | h | h | h
    · exact absurd hla (by rw [h]; decide)
    · exact hd0 h
    · omega
    · exact absurd h (by rw [hdone]; decide)

/-! FENCE_DUMP (R258) -/

/-- t is s after writes to the host's memory: engines and HBM stay. -/
structure ToHost (s t : State) : Prop where
  rest : ∃ regs irq mem, t = { s with core.regs := regs, core.irq := irq, core.mem := mem }
  hbm : t.core.mem.hbm = s.core.mem.hbm

theorem ToHost.refl (s : State) : ToHost s s := ⟨⟨_, _, _, rfl⟩, rfl⟩

theorem ToHost.trans {s t u : State} (h : ToHost s t) (k : ToHost t u) : ToHost s u := by
  refine ⟨?_, k.hbm.trans h.hbm⟩
  obtain ⟨⟨_, _, _, rfl⟩, -⟩ := h
  obtain ⟨⟨_, _, _, rfl⟩, -⟩ := k
  exact ⟨_, _, _, rfl⟩

theorem ToHost.bump (s : State) (o m : Nat) : ToHost s (s.bump o m) := ⟨⟨_, _, s.core.mem, rfl⟩, rfl⟩

theorem ToHost.hostWrite (s : State) (a : Nat) (bs : List Byte) : ToHost s (s.hostWrite a bs) := by
  unfold State.hostWrite
  split
  · exact ⟨⟨_, _, _, rfl⟩, rfl⟩
  · obtain ⟨_, _, h⟩ := (s.bump (hifBase + 0x138) 1).raise_core (hifBase + 0x80) 1
    exact ⟨⟨_, _, s.core.mem, h⟩, by rw [h]; rfl⟩

/-- A partition's tiles go to the host's memory. -/
theorem dumpTiles_toHost (s : State) (n p a : Nat) : ToHost s (s.dumpTiles n p a).1 := by
  unfold State.dumpTiles
  generalize ((s.ope n).part p).tiles = l
  suffices h : ∀ (l : List (Nat × Tile)) (f : State × Nat × Nat → Nat × Tile → State × Nat × Nat),
      (∀ acc e, ToHost acc.1 (f acc e).1) → ∀ acc, ToHost acc.1 (l.foldl f acc).1 from
    h l _ (fun acc e => (ToHost.hostWrite ..).trans (.bump ..)) (s, 0, 0)
  intro l f hf
  induction l with
  | nil => exact fun acc => .refl _
  | cons e l ih => exact fun acc => (hf acc e).trans (ih _)

/-- FENCE_DUMP, as its block carries it out. -/
def State.dumped (s : State) : State × Nat :=
  let n := bits (s.arg mmuBase 0) 0 6
  let p := bits (s.arg mmuBase 0) 8 2
  if n ≥ s.opeCount then (s, 6)
  else if ((s.ope n).part p).fence = 0 then (s, 0xC)
  else
    let r := s.dumpTiles n p (bits (s.arg mmuBase 1) 14 50 * 16384)
    (r.1.setReg (fldArg mmuBase 1) r.2.1, 0)

theorem fenceDump_runs {s v : State} {code : Nat} (hb : s.cmdBusy 1 = false) (hf : (s.begun 1 0xA).dumped = (v, code)) :
    s.fenceDump = v.cmdDone 1 code mmuInt 3 := runCmd_gives (f := State.dumped) hb hf

/-- Settles half of O43: FENCE_DUMP. -/
theorem fenceDumpReads : Says.FenceDumpReads := by
  intro s hd hb n f
  obtain ⟨u, hu⟩ : ∃ u, u = s.begun 1 0xA := ⟨_, rfl⟩
  have hcmds : u.core.cmds = (s.begun 1 0xA).core.cmds := by rw [hu]
  have ends (v : State) (code : Nat) (hv : ToHost u v)
      (hrun : s.fenceDump = v.cmdDone 1 code mmuInt 3) (hcode : resultOf code = if s.opeCount ≤ n then 0x86 else if f = 0 then 0x8C else 0) :
      Answers (exec .fenceDump s) (fun t => t.core.opes = s.core.opes ∧ t.core.mem.hbm = s.core.mem.hbm ∧ t.flagBit mmuInt 3 = true
        ∧ (mgetD t.core.cmds 1 {}).result = (if s.opeCount ≤ n then 0x86 else if f = 0 then 0x8C else 0)) := by
    obtain ⟨⟨_, _, _, hv⟩, hm⟩ := hv
    obtain ⟨_, _, hdone⟩ := v.cmdDone_rest 1 code mmuInt 3
    have hvc : v.core.cmds = (s.begun 1 0xA).core.cmds := by rw [hv]; exact hcmds
    refine answers_dispatching_at hd hrun ⟨?_, ?_, v.cmdDone_flagBit 1 code mmuInt 3, ?_⟩
    · rw [hdone, hv, hu]
      rfl
    · rw [hdone]
      exact hm.trans (by rw [hu]; rfl)
    · show (mgetD (v.cmdDone 1 code mmuInt 3).core.cmds 1 {}).result = _
      rw [cmdDone_begun hvc]
      exact hcode
  by_cases hn : s.opeCount ≤ n
  · refine ends u 6 (.refl u) (fenceDump_runs hb ?_) (by rw [if_pos hn]; rfl)
    rw [hu]
    exact if_pos hn
  · by_cases hf : f = 0
    · refine ends u 0xC (.refl u) (fenceDump_runs hb ?_) (by rw [if_neg hn, if_pos hf]; rfl)
      rw [hu]
      exact (if_neg hn).trans (if_pos hf)
    · obtain ⟨r, hr⟩ : ∃ r, r = u.dumpTiles n (bits (s.arg mmuBase 0) 8 2) (bits (s.arg mmuBase 1) 14 50 * 16384) := ⟨_, rfl⟩
      have hdump : ToHost u r.1 := hr ▸ dumpTiles_toHost ..
      refine ends (r.1.setReg (fldArg mmuBase 1) r.2.1) 0 (hdump.trans ⟨⟨_, _, r.1.core.mem, rfl⟩, rfl⟩) (fenceDump_runs hb ?_) (by rw [if_neg hn, if_neg hf]; rfl)
      rw [hr, hu]
      exact (if_neg hn).trans (if_neg hf)

/-- Settles O43: LATE_ABORT and FENCE_DUMP. -/
theorem deadlineAndDump : Obligations.DeadlineAndDump := ⟨deadlineAborts, fenceDumpReads⟩

end Sys2Proof.Machine
end

section
/-! PROOF. The collective instructions and their rounds (O57; 13_collectives R314-R340, 07_tile R188). -/
namespace Sys2Proof.Machine
open State

/-! An instruction of an RCE that its head completes -/

theorem left_done {s x y t : State} {r : SlotRef} {e : Entry} (hx : x.core.qm.eiq = s.core.qm.eiq)
    (hy : y.core.qm.eiq = (x.popHead r).core.qm.eiq) (ht : t.core.qm = (y.finish e.q e.seq).core.qm) : Left s t r ∧ Done t e := by
  refine ⟨?_, fun i hi => done_finish y e i (by rw [← hi, State.queue_congr (congrArg Qmg.queues ht)])⟩
  have h := x.popHead_left r
  unfold Left at h ⊢
  rw [ht, ← hx, ← h, ← hy]
  rfl

theorem Pumped.qm {k : Prop} {s t : State} (h : Pumped k s t) : t.core.qm = s.core.qm := by
  obtain ⟨_, _, _, _, _, _, _, _, _, _, h⟩ := h.rest
  rw [h]

theorem BktMoves.weaken {k j : Prop} {f : Bucket → Bucket} (h : BktMoves k f) (hj : j → k) : BktMoves j f := by
  intro b
  obtain ⟨x, y, z, hf, hk⟩ := h b
  exact ⟨x, y, z, hf, fun q => hk (hj q)⟩

theorem Pumped.weaken {k j : Prop} {s t : State} (h : Pumped k s t) (hj : j → k) : Pumped j s t := by
  refine ⟨h.rest, fun n => ?_, fun e he => ?_⟩
  · obtain ⟨f, hf, hg⟩ := h.bkt n
    exact ⟨f, hf.weaken hj, hg⟩
  · obtain ⟨e0, he0, f, hf, hg⟩ := h.mem e he
    exact ⟨e0, he0, f, hf.weaken hj, hg⟩

theorem Pumped.grants {k : Prop} {s t : State} (h : Pumped k s t) : t.core.rce.grants = s.core.rce.grants := by
  obtain ⟨_, _, _, _, _, _, _, _, _, _, h⟩ := h.rest
  rw [h]

/-! Settling an open bucket -/

theorem grantFor_none {s : State} {b : Bucket} (h : mget s.core.rce.grants b.key = none) : s.grantFor b = none := by
  unfold State.grantFor
  rw [h]

theorem pump_nothing {s : State} {n : Nat} (h : ∀ b, mget s.core.rce.buckets n = some b → b.cut = false ∧ mget s.core.rce.grants b.key = none) : s.pump n = s := by
  unfold State.pump
  split
  · rfl
  · rename_i b hb
    obtain ⟨hc, hg⟩ := h b hb
    split
    · rfl
    · rw [hc, grantFor_none hg]
      rfl

theorem bktEnd_nothing {s : State} {n : Nat} (h : ∀ b, mget s.core.rce.buckets n = some b → b.st ≠ .held) : s.bktEnd n = s := by
  unfold State.bktEnd
  split
  · rename_i b hb
    have hst : decide (b.st = .held) = false := decide_eq_false (h b hb)
    dsimp only
    rw [hst, if_neg (by simp)]
  · rfl

/-- A bucket that stands at a fault, or whose record words a translation stops, does no work of its own. -/
theorem settleBkt_waits {k : Prop} {s : State} {n : Nat} {b : Bucket} (hb : mget s.core.rce.buckets n = some b) (h : b.fid ≠ none ∨ s.wordsStop b ≠ .none) :
    Pumped k s (s.settleBkt n) := by
  unfold State.settleBkt
  rw [hb]
  dsimp only
  split
  · exact .refl s
  · rename_i hno
    simp only [Bool.or_eq_true, decide_eq_true_eq, not_or, Bool.not_eq_true] at hno
    have hf : b.fid = none := by simpa using hno.2
    rw [if_pos (h.resolve_left (by rw [hf]; simp))]
    exact .wordsHalt s b _

/-- An open bucket that is settled stays open, and does its work; where it may send nothing, what it has sent stays. -/
theorem settleBkt_open {k : Prop} {s : State} {n : Nat} {b : Bucket} (hb : mget s.core.rce.buckets n = some b) (hst : b.st = .open_)
    (hk : k → b.cut = false ∧ mget s.core.rce.grants b.key = none) : Pumped k s (s.settleBkt n) := by
  by_cases h : b.fid ≠ none ∨ s.wordsStop b ≠ .none
  · exact settleBkt_waits hb h
  · obtain ⟨hf, hw⟩ := not_or.1 h
    have hfin : Pumped k s (s.ownFinals b (s.bktGroup b)) := .ownFinals ..
    have hpump : Pumped k s ((s.ownFinals b (s.bktGroup b)).pump n) := by
      by_cases hkk : k
      · rw [pump_nothing]
        · exact hfin
        · intro b' hb'
          obtain ⟨f, hm, hfb⟩ := hfin.bkt n
          rw [hfb, hb] at hb'
          obtain ⟨_, _, _, hfe, -⟩ := hm b
          rw [← Option.some.inj hb', hfe, hfin.grants]
          exact hk hkk
      · exact hfin.trans ((Pumped.pump ..).weaken fun q => hkk q)
    have hstays : ∀ b', mget ((s.ownFinals b (s.bktGroup b)).pump n).core.rce.buckets n = some b' → b'.st = .open_ := by
      intro b' hb'
      obtain ⟨f, hm, hfb⟩ := hpump.bkt n
      rw [hfb, hb] at hb'
      obtain ⟨_, _, _, hfe, -⟩ := hm b
      rw [← Option.some.inj hb', hfe]
      exact hst
    rw [settleBkt_goes hb (by rw [hst]; decide) (not_not.1 hf) (not_not.1 hw), bktClose_nothing fun b' hb' => by rw [hstays b' hb']; decide,
      bktEnd_nothing fun b' hb' => by rw [hstays b' hb']; decide]
    exact hpump

/-- An open bucket of a reduce-scatter that may send nothing rests as it is. -/
theorem settleBkt_rests {s : State} {n : Nat} {b : Bucket} (hb : mget s.core.rce.buckets n = some b) (hst : b.st = .open_) (hop : b.op = 0)
    (hc : b.cut = false) (hg : mget s.core.rce.grants b.key = none) (hw : s.wordsStop b = .none) : s.settleBkt n = s := by
  by_cases hf : b.fid = none
  · have hfin : s.ownFinals b (s.bktGroup b) = s := by
      unfold State.ownFinals State.ownRuns
      rw [hop, hf]
      rfl
    have hone : ∀ b', mget s.core.rce.buckets n = some b' → b' = b := fun b' hb' => Option.some.inj (hb'.symm.trans hb)
    rw [settleBkt_goes hb (by rw [hst]; decide) hf hw, hfin, pump_nothing fun b' hb' => by rw [hone b' hb']; exact ⟨hc, hg⟩,
      bktClose_nothing fun b' hb' => by rw [hone b' hb', hst]; decide, bktEnd_nothing fun b' hb' => by rw [hone b' hb', hst]; decide]
  · unfold State.settleBkt
    rw [hb]
    dsimp only
    rw [if_pos]
    simp [Option.isSome_iff_ne_none, hf]

theorem Pumped.get {k : Prop} {s t : State} (h : Pumped k s t) {n : Nat} {b : Bucket} (hb : mget s.core.rce.buckets n = some b) :
    ∃ x y z, mget t.core.rce.buckets n = some { b with sent := x, fid := y, lost := z } ∧ (k → x = b.sent) := by
  obtain ⟨f, hm, hfb⟩ := h.bkt n
  obtain ⟨x, y, z, hfe, hk⟩ := hm b
  exact ⟨x, y, z, by rw [hfb, hb, Option.map_some, hfe], hk⟩

/-! What a bucket's words stop at -/

theorem Alike.piecesStop {s t : State} (h : Alike s t) (c : Nat) (l : List (Nat × Nat)) (w se : Bool) : t.piecesStop c l w se = s.piecesStop c l w se := by
  have hv : t.vcheck = s.vcheck := by funext c a n w se; exact h.vcheck c a n w se
  unfold State.piecesStop
  rw [hv]

theorem Alike.wordsStop {s t : State} (h : Alike s t) (b : Bucket) : t.wordsStop b = s.wordsStop b := by
  unfold State.wordsStop
  rw [h.piecesStop]

/-! Rounds (R324, R326) -/

/-- A bucket that stands under its key. -/
theorem mget_setBkt {s : State} {b : Bucket} {n : Nat} (h : b.key = n) : mget (s.setBkt b).core.rce.buckets n = some b := by
  rw [← h]
  exact mget_mput_same ..

/-- Settles half of O57: rounds that pass and finals that are given up. -/
theorem roundsPass : Says.RoundsPass := by
  intro s id ep b hl hb hkey hst hlast hlate hclose hcut hgr
  have hpol : b.policy ≠ 0 := by
    unfold Bucket.policy
    rw [if_neg hclose]
    exact hlate
  obtain ⟨_, hsch⟩ := s.scheduled_rest
  obtain ⟨v, hv⟩ : ∃ v, v = s.scheduled := ⟨_, rfl⟩
  rw [← hv] at hsch
  have halike : ∀ c : Bucket, Alike s (v.setBkt c) := fun c => by rw [hsch]; exact ⟨rfl, rfl, rfl, rfl, rfl, fun _ => rfl⟩
  refine ⟨fun hp hop hnow hw => ?_, fun hnow => ?_, fun hop hgu hnow => ?_, fun hnow => ?_⟩
  · have hget : mget (v.setBkt { b with passed := true }).core.rce.buckets b.key = some { b with passed := true } := mget_setBkt rfl
    have hrest : (v.setBkt { b with passed := true }).settleBkt b.key = v.setBkt { b with passed := true } :=
      settleBkt_rests hget hst hop hcut (by rw [hsch]; exact hgr) ((halike _).wordsStop _ |>.trans hw)
    have hrun : s.roundClose id ep = v.setBkt { b with passed := true } := by
      unfold State.roundClose
      rw [whenLive_pos _ hl, hb]
      dsimp only
      rw [if_pos (by simp [hst, hp, hlast, hpol, hnow]), ← hv]
      exact hrest
    refine answers_core (f := fun s => s.roundClose id ep) ?_
    rw [hrun]
    exact ⟨hget, by rw [hsch]; rfl⟩
  · show liftCore _ s = .next s
    rw [liftCore_goes, whenLive_pos _ hl, hb]
    dsimp only
    rw [if_neg (by simp; omega)]
  · have hget : mget (v.setBkt { b with gaveUp := true }).core.rce.buckets b.key = some { b with gaveUp := true } := mget_setBkt rfl
    have hpum : Pumped True (v.setBkt { b with gaveUp := true }) ((v.setBkt { b with gaveUp := true }).settleBkt b.key) :=
      settleBkt_open hget hst fun _ => ⟨hcut, by rw [hsch]; exact hgr⟩
    obtain ⟨x, y, z, ht, hx⟩ := hpum.get hget
    have hrun : s.finalGrace id ep = (v.setBkt { b with gaveUp := true }).settleBkt b.key := by
      unfold State.finalGrace
      rw [whenLive_pos _ hl, hb]
      dsimp only
      rw [if_pos (by simp [hop, hst, hgu, hlast, hpol, hnow]), ← hv]
    refine answers_core (f := fun s => s.finalGrace id ep) ?_
    rw [hrun]
    exact ⟨y, z, ht.trans (by rw [hx trivial])⟩
  · show liftCore _ s = .next s
    rw [liftCore_goes, whenLive_pos _ hl, hb]
    dsimp only
    rw [if_neg (by simp; omega)]

/-! BOPEN (R314, R317) -/

/-- A step of a BOPEN behind the n blocks of a carry record: a record word is made empty, or a carried block merged. -/
def State.openWrite (s : State) (b : Bucket) (u : PutRun) (n : Nat) : State × PutRun :=
  if u.b < n + b.parts.length * b.nblk then
    (s.putWord b (b.parts.getD ((u.b - n) / max 1 b.nblk) 0) ((u.b - n) % max 1 b.nblk) 0x200, { u with b := u.b + 1 })
  else match u.carry[u.b - n - b.parts.length * b.nblk]? with
    | some x =>
      if x.1 < b.nblk then (s.mergeAt b 0 x.1 (rblkOf x.2.1 x.2.2) false false false, { u with b := u.b + 1 })
      else ((s.bump (rceBase b.rce + 0x120) 1).raise (rceInt b.rce) 1, { u with b := u.b + 1 })
    | none => (s, { u with b := u.b + 1 })

theorem Served.openWrite (s : State) (b : Bucket) (u : PutRun) (n : Nat) : Served s (s.openWrite b u n).1 := by
  unfold State.openWrite
  split
  · exact .putWord ..
  · split
    · split
      · exact .mergeAt ..
      · exact (Served.bump ..).trans (.raise ..)
    · exact .refl s

theorem Served.openOne (s : State) (b : Bucket) (u : PutRun) : Served s (s.openOne b u).1 := by
  unfold State.openOne
  cases s.keptCarry b with
  | none =>
    dsimp only
    split
    · exact .refl s
    · exact .openWrite s b u 0
  | some c =>
    dsimp only
    split
    · split
      · exact .refl s
      · exact .touchSpans ..
    · exact .openWrite s b u c.nblk

theorem Served.openRun (b : Bucket) : ∀ (n : Nat) (s : State) (u : PutRun), Served s (s.openRun b n u).1
  | 0, s, _ => .refl s
  | n + 1, s, u => by
    unfold State.openRun
    split
    · exact .refl s
    · split
      · exact (Served.openOne ..).trans (openRun b n _ _)
      · exact .refl s

/-- A bucket with no early GRANT that differs opens, and its instruction is done. -/
theorem openBkt_opens {s : State} {r : SlotRef} {e : Entry} {b : Bucket} (hst : b.st = .open_)
    (hg : ∀ g, mget s.core.rce.grants b.key = some g → g.nblk = b.nblk ∧ g.op = b.op) :
    Left s (s.openBkt r e b) r ∧ Done (s.openBkt r e b) e
      ∧ ∃ x y z, mget (s.openBkt r e b).core.rce.buckets b.key = some { b with sent := x, fid := y, lost := z } := by
  obtain ⟨u, hu⟩ : ∃ u, u = if mhas s.core.rce.buckets b.key then s else s.take 0xD 0 1 := ⟨_, rfl⟩
  have huq : u.core.qm = s.core.qm ∧ u.core.rce.grants = s.core.rce.grants := by
    rw [hu]
    split <;> exact ⟨rfl, rfl⟩
  have hearly : u.earlyGrant b = u.setBkt b := by
    unfold State.earlyGrant
    rw [huq.2]
    split
    · rename_i g h
      obtain ⟨h1, h2⟩ := hg g h
      rw [if_pos (by simp [h1, h2])]
    · rfl
  obtain ⟨v, hv⟩ : ∃ v, v = u.setBkt b := ⟨_, rfl⟩
  have hvb : mget v.core.rce.buckets b.key = some b := by rw [hv]; exact mget_setBkt rfl
  have hvq : v.core.qm = s.core.qm := by rw [hv]; exact huq.1
  obtain ⟨w, hw⟩ : ∃ w, w = if (v.bktGroup b).m > 1 then v.sendGroup b.rce b.gc 0x40 (v.bktGroup b).pred
      (groupHdr b.id b.epoch b.gc 0 b.close b.nblk 0 (v.bktGroup b).rank 0 b.op) 0 [] false else v := ⟨_, rfl⟩
  have hpw : Pumped False v w := by
    rw [hw]
    split
    · exact .of_served (.sendGroup ..)
    · exact .refl v
  obtain ⟨x, y, z, hwb, -⟩ := hpw.get hvb
  obtain ⟨q, hq⟩ : ∃ q, q = (w.popHead r).effect e.q e.seq := ⟨_, rfl⟩
  obtain ⟨_, _, hpop⟩ := w.popHead_rest r
  have hqe : q.core.qm.eiq = (w.popHead r).core.qm.eiq ∧ (q.finish e.q e.seq).core.rce = w.core.rce := by
    rw [hq, hpop]
    exact ⟨rfl, rfl⟩
  have hrun : s.openBkt r e b = (q.finish e.q e.seq).settleBkt b.key := by
    unfold State.openBkt
    dsimp only
    rw [← hu, hearly, ← hv, ← hw, hq]
  rw [← hqe.2] at hwb
  have hsettle : Pumped False (q.finish e.q e.seq) ((q.finish e.q e.seq).settleBkt b.key) := settleBkt_open hwb hst False.elim
  obtain ⟨x', y', z', hfin, -⟩ := hsettle.get hwb
  obtain ⟨hleft, hdone⟩ := left_done (s := s) (x := w) (by rw [hpw.qm, hvq]) hqe.1 hsettle.qm
  rw [hrun]
  exact ⟨hleft, hdone, x', y', z', hfin⟩

/-! BPUT and BCLOSE (R321, R330) -/

theorem Alike.of_queues {s t : State} (h : ∃ qm puts ldg, t = { s with core.qm := qm, core.rce.puts := puts, core.ldg := ldg }) : Alike s t := by
  obtain ⟨_, _, _, rfl⟩ := h
  exact ⟨rfl, rfl, rfl, rfl, rfl, fun _ => rfl⟩

/-- The end of an instruction at the head of a collective engine's slot: its marks, its place in the share and its end. -/
def State.headDone (s : State) (r : SlotRef) (e : Entry) (f g : State → State) : State := (g ((f s).popHead r)).finish e.q e.seq

/-- f changes only the queues. -/
structure OnQueues (f : State → State) : Prop where
  rest : ∀ s, ∃ queues, f s = { s with core.qm.queues := queues }

theorem OnQueues.comp {f g : State → State} (hf : OnQueues f) (hg : OnQueues g) : OnQueues (fun s => g (f s)) := by
  refine ⟨fun s => ?_⟩
  obtain ⟨_, h⟩ := hf.rest s
  obtain ⟨_, k⟩ := hg.rest (f s)
  exact ⟨_, k.trans (by rw [h])⟩

theorem headDone_rest {s : State} {r : SlotRef} {e : Entry} {f g : State → State} (hf : OnQueues f) (hg : OnQueues g) :
    (∃ qm ldg, s.headDone r e f g = { s with core.qm := qm, core.ldg := ldg })
      ∧ ∀ t : State, t.core.qm = (s.headDone r e f g).core.qm → Left s t r ∧ Done t e := by
  obtain ⟨_, h⟩ := hf.rest s
  obtain ⟨_, _, hp⟩ := (f s).popHead_rest r
  obtain ⟨_, k⟩ := hg.rest ((f s).popHead r)
  refine ⟨⟨(s.headDone r e f g).core.qm, (s.headDone r e f g).core.ldg, ?_⟩,
    fun t ht => left_done (x := f s) (y := g ((f s).popHead r)) (by rw [h]) (by rw [k]) ht⟩
  unfold State.headDone
  rw [k, hp, h]
  rfl

theorem OnQueues.none : OnQueues (fun s => s) := ⟨fun _ => ⟨_, rfl⟩⟩

theorem OnQueues.updInst (q n : Nat) (f : InFlight → InFlight) : OnQueues (fun s => s.updInst q n f) := ⟨fun _ => ⟨_, rfl⟩⟩

theorem OnQueues.noteCount (e : Entry) (c n : Nat) : OnQueues (fun s => s.noteCount e c n) := ⟨fun s => s.noteCount_rest e c n⟩

/-- One block put into an open reduce-scatter: it is merged into MAIN, and counted. -/
theorem putOne_merges {s : State} {e : Entry} {b : Bucket} {n : Nat} (hb : mget s.core.rce.buckets n = some b) (hop : b.op = 0)
    (hone : e.f 36 4 = 1) :
    let k := e.eff 2 32 32
    let x := s.readBlk e.ctx (e.eff 1 24 56) (e.f 20 1 % 16) 1 0 false
    let v := s.touchBlk e.ctx (e.eff 1 24 56) (e.f 20 1 % 16) 1 0 false
    let w := v.recWord b 0 k
    let d := { b with counted := sins k b.counted }
    b.ownLate (s.nowAt (b.rce / 4)) = false → doneBit w = false →
    (s.putOne n e 0).1 = (v.setBkt d).mergeAt b 0 k { toRsi x with count := b2n (!ownBit w && !b.counted.contains k) } true (partBit w) false := by
  intro k x v w d hlate hdone
  have hred : b.reduces = true := by
    unfold Bucket.reduces
    rw [hop]
    rfl
  have hnow : (v.setBkt d).nowAt (b.rce / 4) = s.nowAt (b.rce / 4) := by
    obtain ⟨_, _, _, _, _, _, _, _, _, hv⟩ := Served.touchBlk s e.ctx (e.eff 1 24 56) (e.f 20 1 % 16) 1 0 false
    show State.nowAt { s.touchBlk e.ctx (e.eff 1 24 56) (e.f 20 1 % 16) 1 0 false with core.rce.buckets := _ } _ = _
    rw [hv]
    rfl
  unfold State.putOne
  rw [hb]
  dsimp only
  rw [hone, if_pos hred]
  have hno : (b.ownLate ((v.setBkt d).nowAt (b.rce / 4)) || doneBit w) = false := by rw [hnow, hlate, hdone]; rfl
  exact congrArg Prod.fst (if_neg (Bool.eq_false_iff.1 hno))

/-- Settling a bucket of a reduce-scatter that is open and may send nothing, behind the end of an instruction at the head. -/
theorem headDone_settle {s : State} {r : SlotRef} {e : Entry} {f g : State → State} {n : Nat} {b : Bucket} (hf : OnQueues f) (hq : OnQueues g)
    (hb : mget s.core.rce.buckets n = some b) (hst : b.st = .open_) (hc : b.cut = false) (hg : mget s.core.rce.grants b.key = none) :
    Left s ((s.headDone r e f g).settleBkt n) r ∧ Done ((s.headDone r e f g).settleBkt n) e
      ∧ (∃ y z, mget ((s.headDone r e f g).settleBkt n).core.rce.buckets n = some { b with fid := y, lost := z })
      ∧ (b.op = 0 → s.wordsStop b = .none → ((s.headDone r e f g).settleBkt n).core.mem = s.core.mem
        ∧ mget ((s.headDone r e f g).settleBkt n).core.rce.buckets n = some b) := by
  obtain ⟨⟨_, _, hrest⟩, hends⟩ := headDone_rest (s := s) (r := r) (e := e) hf hq
  obtain ⟨u, hu⟩ : ∃ u, u = s.headDone r e f g := ⟨_, rfl⟩
  rw [← hu] at hrest hends ⊢
  have hub : mget u.core.rce.buckets n = some b := by rw [hrest]; exact hb
  have hug : mget u.core.rce.grants b.key = none := by rw [hrest]; exact hg
  have hp : Pumped True u (u.settleBkt n) := settleBkt_open hub hst fun _ => ⟨hc, hug⟩
  obtain ⟨x, y, z, hget, hx⟩ := hp.get hub
  obtain ⟨hleft, hdone⟩ := hends _ hp.qm
  refine ⟨hleft, hdone, ⟨y, z, hget.trans (by rw [hx trivial])⟩, fun hop hw => ?_⟩
  have halike : Alike s u := by rw [hrest]; exact ⟨rfl, rfl, rfl, rfl, rfl, fun _ => rfl⟩
  rw [settleBkt_rests hub hst hop hc hug ((halike.wordsStop b).trans hw)]
  exact ⟨by rw [hrest], hub⟩

/-- What a BPUT marks at its instruction before it is done. -/
def State.putMarks (s : State) (e : Entry) (c n late bad : Nat) : State :=
  (((s.effect e.q e.seq).moved e.q e.seq n).noteCount e c late).noteCount e 1 bad

theorem OnQueues.putMarks (e : Entry) (c n late bad : Nat) : OnQueues (fun s => s.putMarks e c n late bad) :=
  have effect : OnQueues (fun s => s.effect e.q e.seq) := ⟨fun _ => ⟨_, rfl⟩⟩
  have moved : OnQueues (fun s => s.moved e.q e.seq n) := ⟨fun _ => ⟨_, rfl⟩⟩
  ((effect.comp moved).comp (.noteCount e c late)).comp (.noteCount e 1 bad)

/-- A BPUT of one block runs to its end. -/
theorem bput_one {s m : State} {r : SlotRef} {e : Entry} {b : Bucket} (hfresh : ∀ p ∈ s.core.rce.puts, p.e ≠ e)
    (hb : mget s.core.rce.buckets (bktKey e.bucket e.bEpoch) = some b) (hone : e.f 36 4 = 1)
    (hstop : (s.spansStop e.ctx (blkPieces (e.eff 1 24 56) (e.f 20 1 % 16) 1 0) (s.putSpans b e 0)).1 = .none)
    (hm : (s.putOne (bktKey e.bucket e.bEpoch) e 0).1 = m) :
    ∃ f, OnQueues f ∧ s.bput r e = (State.headDone { m with core.rce.puts := m.core.rce.puts.filter (fun p => p.e ≠ e) } r e f (fun s => s)).settleBkt
      (bktKey e.bucket e.bEpoch) := by
  have hfind : s.core.rce.puts.find? (fun p => decide (p.e = e)) = none := by
    rw [List.find?_eq_none]
    exact fun p hp => by simpa using hfresh p hp
  obtain ⟨st, hst⟩ : ∃ st, s.spansStop e.ctx (blkPieces (e.eff 1 24 56) (e.f 20 1 % 16) 1 0) (s.putSpans b e 0) = (Stop.none, st) := ⟨_, Prod.ext hstop rfl⟩
  obtain ⟨o, ho⟩ : ∃ o, s.putOne (bktKey e.bucket e.bEpoch) e 0 = (m, o) := ⟨_, Prod.ext hm rfl⟩
  have hmany : s.putMany (bktKey e.bucket e.bEpoch) e 1 { e := e } = (m, { e := e, b := 1, late := b2n o.1, bad := b2n o.2 }, .none, true) := by
    unfold State.putMany
    rw [hb, hone]
    dsimp only
    rw [hst]
    dsimp only
    rw [ho]
    unfold State.putMany
    simp
  obtain ⟨n, hn⟩ : ∃ n, n = sumNat ((List.range 1).flatMap (fun i => (blkPieces 0 (e.f 20 1 % 16) (e.f 36 4) i).map (·.2))) := ⟨_, rfl⟩
  obtain ⟨c, hc⟩ : ∃ c, c = if b.hasCarry then 0xA else 9 := ⟨_, rfl⟩
  refine ⟨fun s => s.putMarks e c n (b2n o.1) (b2n o.2), OnQueues.putMarks e c n _ _, ?_⟩
  unfold State.bput
  rw [hone] at hn
  simp only [hfind, hb, hone, Option.getD_none, Nat.sub_zero, hmany]
  rw [← hn, ← hc]
  rfl


/-- A BCLOSE of a local round runs to its end. -/
theorem bclose_local {s : State} {r : SlotRef} {e : Entry} {b : Bucket} (hb : s.bktOf r e = some b) (hlast : b.last = false)
    (hstop : ∀ k, k < b.nblk → s.piecesStop b.ctx [b.wordSpan 0 k] true false = .none) :
    ∃ u g, Served s u ∧ OnQueues g ∧ s.bclose r e = (State.headDone (u.setBkt { b with round := b.round + 1 }) r e (fun s => s) g).settleBkt b.key := by
  have hfind : (List.range b.nblk).find? (fun k => decide (s.piecesStop b.ctx [b.wordSpan 0 k] true false ≠ .none)) = none := by
    rw [List.find?_eq_none]
    exact fun k hk => by simpa using hstop k (List.mem_range.1 hk)
  refine ⟨(List.range b.nblk).foldl (fun s k => let w := s.recWord b 0 k; if ownBit w then s.putWord b 0 k (w - 2 ^ 15) else s) s,
    fun s => s.note e.q e.seq 0 (bits (b.round + 1) 0 8) false, .foldl (fun s k => ?_) _ s, ⟨fun _ => ⟨_, rfl⟩⟩, ?_⟩
  · dsimp only
    split
    · exact .putWord ..
    · exact .refl s
  · unfold State.bclose
    rw [hb]
    dsimp only
    rw [hlast, if_neg (by decide), hfind]
    rfl

theorem Left.of_qm {s u t : State} {r : SlotRef} (h : Left u t r) (hq : u.core.qm = s.core.qm) : Left s t r := by
  unfold Left at *
  rw [h, hq]

/-- A BOPEN whose steps meet no stop opens its bucket. -/
theorem bopen_opens {s : State} {r : SlotRef} {e : Entry} {b : Bucket} (hbe : b = { rce := r.unit, slot := r.slot, q := e.q, ctx := e.ctx, id := e.bucket, epoch := e.bEpoch, gc := e.gc, op := e.f 20 1 % 4, late := e.f 21 1 % 4, ncontrib := e.f 22 2, stage := e.eff 1 24 56, nblk := e.f 32 4, thin := e.f 36 1, close := e.eff 2 40 64 })
    (hfresh : ∀ p ∈ s.core.rce.puts, p.e ≠ e) (hnone : mget s.core.rce.buckets b.key = none) (hroom : s.core.rce.buckets.length < 4096)
    (hrun : (s.openRun b (b.parts.length * b.nblk) { e := e }).2.2.1 = .none) :
    ∃ u : State, Served s { u with core.rce.puts := s.core.rce.puts } ∧ s.bopen r e = u.openBkt r e b := by
  have hfind : s.core.rce.puts.find? (fun p => decide (p.e = e)) = none := by
    rw [List.find?_eq_none]
    exact fun p hp => by simpa using hfresh p hp
  have hcarry : s.keptCarry b = none := by
    unfold State.keptCarry
    rw [hnone]
    rfl
  obtain ⟨m, u, w, hm⟩ : ∃ m u w, s.openRun b (b.parts.length * b.nblk) { e := e } = (m, u, Stop.none, w) :=
    ⟨_, _, _, Prod.ext rfl (Prod.ext rfl (Prod.ext hrun rfl))⟩
  have hserved : Served s m := by
    have h := Served.openRun b (b.parts.length * b.nblk) s { e := e }
    rw [hm] at h
    exact h
  have hroom' : ¬ s.core.rce.buckets.length ≥ 4096 := Nat.not_le.2 hroom
  refine ⟨{ m with core.rce.puts := m.core.rce.puts.filter (fun p => p.e ≠ e) }, ?_, ?_⟩
  · obtain ⟨_, _, _, _, _, _, _, _, _, h⟩ := hserved
    rw [h]
    exact ⟨_, _, _, _, _, _, _, _, _, rfl⟩
  · subst hbe
    unfold State.bopen
    simp only [hfind, Option.isNone_none, Bool.true_and, decide_eq_true_eq, hroom', if_false, hnone, hcarry, Nat.mul_zero, Nat.zero_add, Option.getD_none, hm]

/-! GATHER (R337) -/

/-- The instruction e has a GATHER in progress, under SEQ n. -/
def Gathering (e : Entry) (n : Nat) (t : State) : Prop :=
  (∃ j ∈ t.core.rce.gathers, j.e = e) ∧ ∀ j ∈ t.core.rce.gathers, j.e = e → j.seq = n

theorem Gathering.setGather {e : Entry} {n : Nat} {s : State} {j : GatherJob} (h : Gathering e n s) (he : j.e = e) (hn : j.seq = n) :
    Gathering e n (s.setGather j) := by
  obtain ⟨⟨k, hk, hke⟩, -⟩ := h
  refine ⟨⟨j, List.mem_map.2 ⟨k, hk, if_pos (hke.trans he.symm)⟩, he⟩, fun x hx hxe => ?_⟩
  obtain ⟨y, -, rfl⟩ := List.mem_map.1 hx
  by_cases hy : y.e = j.e
  · rw [if_pos hy]
    exact hn
  · rw [if_neg hy] at hxe
    exact absurd (hxe.trans he.symm) hy

/-- The groups stay, and the GATHER goes on or its instruction is done. -/
def GatherKept (e : Entry) (n : Nat) (s t : State) : Prop := t.core.rce.groups = s.core.rce.groups ∧ (Gathering e n t ∨ Done t e)

/-- A job of the same instruction under the same SEQ. -/
def GatherJob.alike (j k : GatherJob) : Prop := k.e = j.e ∧ k.seq = j.seq ∧ k.fin = j.fin

theorem GatherJob.alike.trans {j k l : GatherJob} (h : j.alike k) (g : k.alike l) : j.alike l :=
  ⟨g.1.trans h.1, g.2.1.trans h.2.1, g.2.2.trans h.2.2⟩

theorem pumpGather_keeps (s : State) (j : GatherJob) : Served s (s.pumpGather j).1 ∧ j.alike (s.pumpGather j).2 := by
  unfold State.pumpGather
  dsimp only
  split
  · exact ⟨.foldl (fun s x => .sendGroup ..) _ s, rfl, rfl, rfl⟩
  · exact ⟨.refl s, rfl, rfl, rfl⟩

theorem readOwn_keeps (g : Group) : ∀ (n : Nat) (s : State) (j : GatherJob), Served s (s.readOwn j g n).1 ∧ j.alike (s.readOwn j g n).2.1
  | 0, s, _ => ⟨.refl s, rfl, rfl, rfl⟩
  | n + 1, s, j => by
    unfold State.readOwn
    dsimp only
    split
    · exact ⟨(Served.touchBlk ..).trans (readOwn_keeps g n _ _).1, (readOwn_keeps g n _ _).2⟩
    · exact ⟨.refl s, rfl, rfl, rfl⟩

theorem writeTile_keeps (s : State) (j : GatherJob) (t : Nat) (ok : Bool) :
    (s.writeTile j t ok).1.core.rce = s.core.rce ∧ j.alike (s.writeTile j t ok).2 := by
  have h : Served s ((((j.tus s.now t ok).1.zipIdx).foldl (fun s x => s.vput j.e.ctx (j.tileAt t + tuBytes * x.2) x.1 false) s).bump
      (rceBase j.rce + 0x150) (j.tus s.now t ok).1.length) := (Served.foldl (fun s x => .vput ..) _ s).trans (.bump ..)
  exact ⟨h.rce, rfl, rfl, rfl⟩

theorem writeWhole_keeps : ∀ (l : List Nat) (s : State) (j : GatherJob), (s.writeWhole j l).1.core.rce = s.core.rce ∧ j.alike (s.writeWhole j l).2.1
  | [], _, _ => ⟨rfl, rfl, rfl, rfl⟩
  | t :: l, s, j => by
    unfold State.writeWhole
    split
    · exact writeWhole_keeps l s j
    · split
      · obtain ⟨h1, hj⟩ := writeTile_keeps s j t (!j.wrong.contains (t / j.tiles))
        obtain ⟨h2, hk⟩ := writeWhole_keeps l (s.writeTile j t (!j.wrong.contains (t / j.tiles))).1 (s.writeTile j t (!j.wrong.contains (t / j.tiles))).2
        exact ⟨h2.trans h1, hj.trans hk⟩
      · exact ⟨rfl, rfl, rfl, rfl⟩

theorem instStop_rce (s : State) (e : Entry) (unit : Nat) (w : Bool) (st : Stop) : (s.instStop e unit w st).core.rce = s.core.rce := by
  unfold State.instStop
  split
  · rfl
  · rename_i cause addr
    dsimp only
    generalize hr : s.raiseFault e.ctx addr cause w (.inst e.q e.seq) e.q unit _ = r
    have h : Served s r.1 := hr ▸ .raiseFault ..
    split
    · exact h.rce
    · exact h.rce
    · exact h.rce
  · exact (Served.askFor ..).rce

theorem popIf_rest (s : State) (r : SlotRef) (h e : Entry) : (s.popIf r h).core.rce = s.core.rce ∧ (Done s e → Done (s.popIf r h) e) := by
  have hpop : (s.popHead r).core.rce = s.core.rce ∧ (Done s e → Done (s.popHead r) e) := by
    obtain ⟨_, _, hp⟩ := s.popHead_rest r
    obtain ⟨g, hg, hq⟩ := s.popHead_queue r e.q
    refine ⟨by rw [hp], fun hd i hi => ?_⟩
    rw [hq, Queue.inst_map hg.seq] at hi
    obtain ⟨j, hj, rfl⟩ := Option.map_eq_some_iff.1 hi
    obtain ⟨_, _, h⟩ := hg j
    rw [h]
    exact hd j hj
  unfold State.popIf
  split
  · split
    · exact hpop
    · exact ⟨rfl, fun h => h⟩
  · exact ⟨rfl, fun h => h⟩

theorem gatherStop_keeps {s : State} {j : GatherJob} {e : Entry} {n : Nat} (h : Gathering e n s) (he : j.e = e) (hn : j.seq = n) (w : Bool) (st : Stop) :
    GatherKept e n s (s.gatherStop j w st) := by
  unfold State.gatherStop
  dsimp only
  generalize ht : (s.setGather j).instStop j.e _ w st = t
  have htr : t.core.rce = (s.setGather j).core.rce := ht ▸ instStop_rce ..
  have htg : Gathering e n t := by
    unfold Gathering
    rw [htr]
    exact h.setGather he hn
  have hgr : t.core.rce.groups = s.core.rce.groups := by rw [htr]; rfl
  split
  · rename_i i hi
    split
    · rename_i hdone
      obtain ⟨hrce, hd⟩ := popIf_rest (t.endGather j) _ j.e e
      refine ⟨by rw [hrce]; exact hgr, .inr (hd fun k hk => ?_)⟩
      have hk' : (t.queue j.e.q).inst j.e.seq = some k := by rw [he]; exact hk
      rw [← Option.some.inj (hi.symm.trans hk')]
      exact hdone
    · exact ⟨hgr, .inl htg⟩
  · exact ⟨hgr, .inl htg⟩

theorem gatherSlots_keeps {s : State} {e : Entry} {n : Nat} (h : Gathering e n s ∨ Done s e) : GatherKept e n s (s.gatherSlots e) := by
  unfold State.gatherSlots
  split
  · exact ⟨rfl, h⟩
  · rename_i j hj
    have hje : j.e = e := by simpa using List.find?_some hj
    exact ⟨rfl, h.imp (fun h => h.setGather (j := { j with slots := j.slots.filter j.busy }) hje (h.2 j (List.mem_of_find?_eq_some hj) hje)) fun h => h⟩

theorem GatherKept.of_rce {e : Entry} {n : Nat} {s u t : State} (h : GatherKept e n u t) (hu : u.core.rce = s.core.rce) : GatherKept e n s t :=
  ⟨h.1.trans (by rw [hu]), h.2⟩

/-- A GATHER whose tiles are all written finishes its instruction; what it has to send keeps it. -/
def State.gatherRest (s : State) (e : Entry) (j : GatherJob) (all : Bool) : State :=
  let s := if all && !j.fin then
      let s := s.setGather { j with fin := true }
      let s := match (s.queue e.q).slot with | some r => s.popIf r e | none => s
      (s.noteCount e 1 j.poisoned).finish e.q e.seq
    else s
  if all && j.sendq.isEmpty then s.endGather j else s

theorem gatherRest_keeps {s : State} {e : Entry} {j : GatherJob} {n : Nat} (hg : Gathering e n s) (hf : j.fin = false) (all : Bool) : GatherKept e n s (s.gatherRest e j all) := by
  unfold State.gatherRest
  rw [hf]
  cases all with
  | false => exact ⟨rfl, .inl hg⟩
  | true =>
    obtain ⟨u, hu⟩ : ∃ u, u = (match ((s.setGather { j with fin := true }).queue e.q).slot with
      | some r => (s.setGather { j with fin := true }).popIf r e | none => s.setGather { j with fin := true }) := ⟨_, rfl⟩
    have hur : u.core.rce.groups = s.core.rce.groups := by
      rw [hu]
      split
      · rw [(popIf_rest _ _ e e).1]
        rfl
      · rfl
    obtain ⟨_, hc⟩ := u.noteCount_rest e 1 j.poisoned
    have hdone : Done ((u.noteCount e 1 j.poisoned).finish e.q e.seq) e := done_finish _ e
    have hgr : ((u.noteCount e 1 j.poisoned).finish e.q e.seq).core.rce.groups = s.core.rce.groups := by
      rw [hc]
      exact hur
    dsimp only [Bool.not_false, Bool.and_true, if_true]
    rw [← hu, if_pos (show (true && !false) = true from rfl)]
    split
    · exact ⟨hgr, .inr hdone⟩
    · exact ⟨hgr, .inr hdone⟩

theorem runGather_keeps {s : State} {e : Entry} {j : GatherJob} {n : Nat} (hg : Gathering e n s)
    (hj : s.core.rce.gathers.find? (fun j => j.e = e) = some j) (hf : j.fin = false) : GatherKept e n s (s.runGather e) := by
  have hje : j.e = e := by simpa using List.find?_some hj
  have hn : j.seq = n := hg.2 j (List.mem_of_find?_eq_some hj) hje
  have carry {t : State} (h : t.core.rce = s.core.rce) : Gathering e n t := by
    unfold Gathering
    rw [h]
    exact hg
  unfold State.runGather
  rw [hj]
  dsimp only
  generalize ha : s.readOwn j (s.gGroup j) (j.nblk - j.own) = a
  obtain ⟨hs, hja⟩ : Served s a.1 ∧ j.alike a.2.1 := ha ▸ readOwn_keeps ..
  split
  · exact (gatherStop_keeps (carry hs.rce) (hja.1.trans hje) (hja.2.1.trans hn) ..).of_rce hs.rce
  · generalize hk : (if (decide (j.own < j.nblk) && decide ((s.gGroup j).m > 1)) = true then
      { a.2.1 with sendq := a.2.1.sendq ++ a.2.1.ownSends (s.gGroup j).rank } else a.2.1) = k
    have hjk : j.alike k := by
      rw [← hk]
      split <;> exact hja
    generalize hw : a.1.writeWhole k (List.range ((s.gGroup j).m * k.tiles)) = w
    obtain ⟨hws, hkw⟩ : w.1.core.rce = a.1.core.rce ∧ k.alike w.2.1 := hw ▸ writeWhole_keeps ..
    generalize hp : w.1.pumpGather w.2.1 = p
    obtain ⟨hps, hwp⟩ : Served w.1 p.1 ∧ w.2.1.alike p.2 := hp ▸ pumpGather_keeps ..
    obtain ⟨hpe, hpn, hpf⟩ : j.alike p.2 := (hjk.trans hkw).trans hwp
    have hrce : p.1.core.rce = s.core.rce := hps.rce.trans (hws.trans hs.rce)
    split
    · exact (gatherStop_keeps (carry hrce) (hpe.trans hje) (hpn.trans hn) ..).of_rce hrce
    · have hset : Gathering e n (p.1.setGather p.2) := (carry hrce).setGather (hpe.trans hje) (hpn.trans hn)
      have hrest := gatherRest_keeps hset (hpf.trans hf) (decide (p.2.written.length = (s.gGroup j).m * p.2.tiles))
      exact ⟨hrest.1.trans (by show p.1.core.rce.groups = _; rw [hrce]), hrest.2⟩

theorem settleGather_keeps {s : State} {e : Entry} {j : GatherJob} {n : Nat} (hg : Gathering e n s)
    (hj : s.core.rce.gathers.find? (fun j => j.e = e) = some j) (hf : j.fin = false) : GatherKept e n s (s.settleGather e) := by
  have hje : j.e = e := by simpa using List.find?_some hj
  have hn : j.seq = n := hg.2 j (List.mem_of_find?_eq_some hj) hje
  unfold State.settleGather
  rw [hj]
  dsimp only
  split
  · obtain ⟨hs, hpe, hpn, -⟩ := pumpGather_keeps s j
    have hset : Gathering e n ((s.pumpGather j).1.setGather (s.pumpGather j).2) := by
      refine Gathering.setGather ?_ (hpe.trans hje) (hpn.trans hn)
      unfold Gathering
      rw [hs.rce]
      exact hg
    obtain ⟨hgr, h⟩ := gatherSlots_keeps (.inl hset)
    exact ⟨hgr.trans (by show (s.pumpGather j).1.core.rce.groups = _; rw [hs.rce]), h⟩
  · obtain ⟨hgr, h⟩ := runGather_keeps hg hj hf
    obtain ⟨hgr', h'⟩ := gatherSlots_keeps h
    exact ⟨hgr'.trans hgr, h'⟩

/-- A GATHER that begins takes the next SEQ of its group. -/
theorem beginGather_takes {s : State} {r : SlotRef} {e : Entry} {g : Group} (hg : s.group r.unit e.gc = some g) (hfresh : ∀ j ∈ s.core.rce.gathers, j.e ≠ e) :
    (s.beginGather r e).group r.unit e.gc = some { g with seq := (g.seq + 1) % 2 ^ 32 }
      ∧ (Gathering e g.seq (s.beginGather r e) ∨ Done (s.beginGather r e) e) := by
  obtain ⟨j, hj, hje, hjn, hjf⟩ : ∃ j : GatherJob, j = { e := e, rce := r.unit, gc := e.gc, seq := g.seq, epoch := e.bEpoch, nfmt := e.gNfmt, wfmt := e.gWfmt, nblk := e.gBlks, dest := destAddr e.dest, wrong := ((s.core.rce.ggrants.filter (fun x => x.at_ = 16 * r.unit + e.gc && x.epoch = e.bEpoch && x.seq = g.seq)).filter (fun x => x.nblk ≠ e.gBlks || x.fmt ≠ e.gNfmt)).map (·.origin) }
      ∧ j.e = e ∧ j.seq = g.seq ∧ j.fin = false := ⟨_, rfl, rfl, rfl, rfl⟩
  obtain ⟨u, hu⟩ : ∃ u : State, u = { s with core.rce.groups := mput s.core.rce.groups (16 * r.unit + e.gc) { g with seq := (g.seq + 1) % 2 ^ 32 }, core.rce.gathers := s.core.rce.gathers ++ [j] } := ⟨_, rfl⟩
  obtain ⟨v, hv, hvs⟩ : ∃ v, v = (if g.m > 1 then u.sendGroup r.unit e.gc 0x43 g.pred (groupHdr 0 e.bEpoch e.gc g.seq 0 e.gBlks 0 g.rank e.gNfmt 0) 0 [] false else u)
      ∧ Served u v := by
    refine ⟨_, rfl, ?_⟩
    split
    · exact .sendGroup ..
    · exact .refl u
  have hgath : v.core.rce.gathers = s.core.rce.gathers ++ [j] := by rw [hvs.rce, hu]
  have hfind : v.core.rce.gathers.find? (fun j => j.e = e) = some j := by
    rw [hgath, List.find?_append, List.find?_eq_none.2 fun k hk => by simpa using hfresh k hk]
    simp [hje]
  have hall : Gathering e g.seq v := by
    refine ⟨⟨j, List.mem_of_find?_eq_some hfind, hje⟩, fun k hk hke => ?_⟩
    rw [hgath] at hk
    rcases List.mem_append.1 hk with hk | hk
    · exact absurd hke (hfresh k hk)
    · rw [List.mem_singleton.1 hk, hjn]
  obtain ⟨hgr, h⟩ := settleGather_keeps hall hfind hjf
  have hrun : s.beginGather r e = v.settleGather e := by
    unfold State.beginGather
    rw [hg]
    dsimp only
    rw [← hj, ← hu, ← hv]
  rw [hrun]
  refine ⟨?_, h⟩
  unfold State.group
  rw [hgr, hvs.rce, hu]
  exact mget_mput_same ..

/-! EPOCH (R334, R335) -/

/-- The state of a context that has moved to an epoch with nothing of another left there. -/
def State.epochMoved (s : State) (e : Entry) : State :=
  let s := (s.updCtx e.ctx (fun c => { c with epoch := e.bEpoch })).ctxWrite e.ctx
  { s with core.rce.groups := s.core.rce.groups.map (fun g => if g.2.ctx = e.ctx then (g.1, { g.2 with seq := 0 }) else g) }

theorem epochGo_moves {s : State} {r : SlotRef} {e : Entry} (hep : s.core.rce.epochs = []) (hold : s.oldEpoch e.ctx e.bEpoch = false) :
    s.epochGo r e = (((s.epochMoved e).popHead r).finish e.q e.seq) := by
  obtain ⟨u, hu⟩ : ∃ u, u = (s.updCtx e.ctx (fun c => { c with epoch := e.bEpoch })).ctxWrite e.ctx := ⟨_, rfl⟩
  obtain ⟨_, _, _, hur⟩ := (s.updCtx e.ctx (fun c => { c with epoch := e.bEpoch })).ctxWrite_rest e.ctx
  rw [← hu] at hur
  have hue : u.core.rce = s.core.rce ∧ u.core.ses = s.core.ses := by rw [hur]; exact ⟨rfl, rfl⟩
  obtain ⟨hrce, hses⟩ := hue
  have hnone : u.core.rce.buckets.filter (fun b => b.2.ctx = e.ctx && b.2.epoch ≠ e.bEpoch && decide (b.2.st = .carry)) = [] := by
    rw [hrce, List.filter_eq_nil_iff]
    intro b hb hc
    simp only [State.oldEpoch, Bool.or_eq_false_iff, List.any_eq_false] at hold
    simp only [Bool.and_eq_true] at hc
    exact hold.1.1 b hb (by simpa using hc.1)
  have hmoved : s.epochMoved e = { u with core.rce.groups := u.core.rce.groups.map (fun g => if g.2.ctx = e.ctx then (g.1, { g.2 with seq := 0 }) else g) } := by
    rw [hu]
    rfl
  obtain ⟨v, hv⟩ : ∃ v : State, v = { s.epochMoved e with core.rce.epochs := [(e, e.bEpoch)] } := ⟨_, rfl⟩
  have hvold : v.oldEpoch e.ctx e.bEpoch = false := by
    have hvr : v.core.rce.buckets = s.core.rce.buckets ∧ v.core.rce.gathers = s.core.rce.gathers ∧ v.core.ses = s.core.ses := by
      rw [hv, hmoved, ← hrce, ← hses]
      exact ⟨rfl, rfl, rfl⟩
    obtain ⟨h1, h2, h3⟩ := hvr
    unfold State.oldEpoch
    rw [h1, h2, h3]
    exact hold
  have hback : ({ v with core.rce.epochs := v.core.rce.epochs.filter (fun x => x.1 ≠ e) } : State) = s.epochMoved e := by
    have he : (s.epochMoved e).core.rce.epochs = [] := by rw [hmoved, ← hep, ← hrce]
    rw [hv]
    simp only [ne_eq, not_true_eq_false, decide_false, List.filter_cons_of_neg, Bool.false_eq_true, not_false_eq_true, List.filter_nil]
    rw [← he]
  have hstep : ({ u with core.rce.groups := u.core.rce.groups.map (fun g => if g.2.ctx = e.ctx then (g.1, { g.2 with seq := 0 }) else g), core.rce.epochs := u.core.rce.epochs ++ [(e, e.bEpoch)] } : State) = v := by
    rw [hv, hmoved]
    simp only [hrce, hep, List.nil_append]
  unfold State.epochGo
  dsimp only
  rw [hep, List.any_nil, if_neg Bool.false_ne_true, ← hu, hnone, List.foldl_nil, hstep, hvold,
    if_neg Bool.false_ne_true, hback]

/-- The checks of an instruction whose run has not begun are made. -/
theorem headOk_fresh {s : State} {r : SlotRef} {op : Nat} {bad : Entry → List Bad} {e : Entry} (h : HeadOk s r op bad e)
    (hfresh : ∀ p ∈ s.core.rce.puts, p.e ≠ e) : HeadOk s r op (fun e => if s.core.rce.puts.any (fun p => p.e = e) then [] else bad e) e := by
  have hany : s.core.rce.puts.any (fun p => decide (p.e = e)) = false := by
    rw [List.any_eq_false]
    exact fun p hp => by simpa using hfresh p hp
  obtain ⟨h1, h2, h3, h4, h5⟩ := h
  refine ⟨h1, h2, h3, ?_, h5⟩
  dsimp only
  rw [hany]
  exact h4

/-- Settles half of O57: the collective instructions. -/
theorem collectiveInstructions : Says.CollectiveInstructions := by
  intro s r e hd hh key fresh
  refine ⟨?_, fun b hb hkey hop hst hbc hcut hgr => ⟨?_, ?_⟩, ?_, ?_⟩
  · intro b hok hfresh hnone hroom hgrant hrun
    obtain ⟨u, hserved, hopen⟩ := bopen_opens rfl hfresh hnone hroom hrun
    have hrce := hserved.rce
    have hgr : u.core.rce.grants = s.core.rce.grants := by rw [← hrce]
    have huq : u.core.qm = s.core.qm := hserved.qm
    obtain ⟨hleft, hdone, hbkt⟩ := openBkt_opens (s := u) (r := r) (e := e) (b := b) rfl fun g hg => hgrant g (by rw [← hgr]; exact hg)
    obtain ⟨v, hv⟩ : ∃ v, v = u.openBkt r e b := ⟨_, rfl⟩
    rw [← hv] at hopen hleft hdone hbkt
    refine answers_dispatching_at hd (t := v) ?_ ⟨hleft.of_qm huq, hdone, hbkt⟩
    rw [hh, if_neg (by decide), atHead_ok _ (headOk_fresh hok hfresh), hopen]
  · intro k x v w d m hok hfresh hone hlate hdw hds hstop hms
    have hred : b.reduces = true := by
      unfold Bucket.reduces
      rw [hop]
      rfl
    have hspans : s.putSpans b e 0 = b.blkSpans 0 k := by
      unfold State.putSpans
      rw [if_pos hred]
      exact if_neg (Bool.eq_false_iff.1 (show (b.ownLate (s.nowAt (b.rce / 4)) || doneBit (s.recWord b 0 k)) = false by rw [hlate, hds]; rfl))
    have hput : (s.putOne key e 0).1 = m := putOne_merges hb hop hone hlate hdw
    obtain ⟨f, hf, hrun⟩ := bput_one (r := r) hfresh hb hone (by rw [hspans]; exact hstop) hput
    have hv : Served s v := .touchBlk ..
    have hm : Served (v.setBkt d) m := .mergeAt ..
    obtain ⟨u, hu⟩ : ∃ u : State, u = { m with core.rce.puts := m.core.rce.puts.filter (fun p => p.e ≠ e) } := ⟨_, rfl⟩
    have hmb : mget m.core.rce.buckets key = some d := by
      rw [hm.rce]
      exact mget_setBkt hkey
    have hmg : mget m.core.rce.grants d.key = none := by
      rw [hm.rce]
      show mget v.core.rce.grants b.key = none
      rw [hv.rce, hkey]
      exact hgr
    have halike : Alike m u := by rw [hu]; exact ⟨rfl, rfl, rfl, rfl, rfl, fun _ => rfl⟩
    obtain ⟨hleft, hdone, -, hrest⟩ := headDone_settle (s := u) (r := r) (e := e) (n := key) (b := d) hf .none (by rw [hu]; exact hmb) hst hcut
      (by rw [hu]; exact hmg)
    obtain ⟨hmem, hget⟩ := hrest hop ((halike.wordsStop d).trans hms)
    have huq : u.core.qm = s.core.qm := by
      rw [hu]
      exact hm.qm.trans hv.qm
    rw [← hu] at hrun
    refine answers_dispatching_at hd (t := (u.headDone r e f (fun s => s)).settleBkt key) ?_ ⟨hleft.of_qm huq, hdone, hget, hmem.trans (by rw [hu])⟩
    rw [hh, if_neg (by decide), atHead_ok _ (headOk_fresh hok hfresh), hrun]
  · intro hok hof hlast hstop
    obtain ⟨u, g, hserved, hg, hrun⟩ := bclose_local hof hlast hstop
    have hget : mget (u.setBkt { b with round := b.round + 1 }).core.rce.buckets b.key = some { b with round := b.round + 1 } := mget_setBkt rfl
    have hgn : mget (u.setBkt { b with round := b.round + 1 }).core.rce.grants b.key = none := by
      show mget u.core.rce.grants b.key = none
      rw [hserved.rce, hkey]
      exact hgr
    obtain ⟨hleft, hdone, ⟨y, z, hbkt⟩, -⟩ := headDone_settle (r := r) (e := e) .none hg hget hst hcut hgn
    rw [← hrun] at hleft hdone hbkt
    refine answers_dispatching_at hd (t := s.bclose r e) ?_ ⟨hleft.of_qm hserved.qm, hdone, y, z, hkey ▸ hbkt⟩
    obtain ⟨h1, h2, -⟩ := id hok
    have hno : (decide (e.op = 0x52) && decide (b.bclose = some e)) = false := by rw [hbc]; simp
    show (match s.head r with
      | none => s
      | some h => match mget s.core.rce.buckets (bktKey h.bucket h.bEpoch) with
        | some b => if h.op = 0x52 && b.bclose = some h then s.settleBkt (bktKey h.bucket h.bEpoch) else if s.headHeld r then s
          else s.atHead r 0x52 (s.bcloseBad r) (fun e s => s.bclose r e)
        | none => s.atHead r 0x52 (s.bcloseBad r) (fun e s => s.bclose r e)) = _
    rw [h1]
    dsimp only
    rw [hb]
    dsimp only
    rw [hno, if_neg (by decide), hh, if_neg (by decide), atHead_ok _ hok]
  · intro hok hep hold
    obtain ⟨u, hu⟩ : ∃ u, u = (s.updCtx e.ctx (fun c => { c with epoch := e.bEpoch })).ctxWrite e.ctx := ⟨_, rfl⟩
    obtain ⟨_, _, _, hur⟩ := (s.updCtx e.ctx (fun c => { c with epoch := e.bEpoch })).ctxWrite_rest e.ctx
    rw [← hu] at hur
    obtain ⟨m, hm⟩ : ∃ m, m = s.epochMoved e := ⟨_, rfl⟩
    have hmr : m.core.mem = u.core.mem ∧ m.core.qm = s.core.qm ∧ m.core.mmu = (s.updCtx e.ctx (fun c => { c with epoch := e.bEpoch })).core.mmu
        ∧ m.core.rce.buckets = s.core.rce.buckets
        ∧ m.core.rce.groups = s.core.rce.groups.map (fun g => if g.2.ctx = e.ctx then (g.1, { g.2 with seq := 0 }) else g) := by
      rw [hm]
      unfold State.epochMoved
      rw [← hu]
      refine ⟨rfl, ?_⟩
      rw [hur]
      exact ⟨rfl, rfl, rfl, rfl⟩
    obtain ⟨hmem, hqm, hmmu, hbk, hgr⟩ := hmr
    obtain ⟨⟨_, _, hrest⟩, hends⟩ := headDone_rest (s := m) (r := r) (e := e) .none .none
    obtain ⟨t, ht⟩ : ∃ t, t = m.headDone r e (fun s => s) (fun s => s) := ⟨_, rfl⟩
    rw [← ht] at hrest hends
    obtain ⟨hleft, hdone⟩ := hends t rfl
    have hctx : ∀ c, t.ctx c = (s.updCtx e.ctx (fun c => { c with epoch := e.bEpoch })).ctx c := ctx_of_mmu (by rw [hrest]; exact hmmu)
    refine answers_dispatching_at hd (t := t) ?_ ⟨hleft.of_qm hqm, hdone, ?_, fun c hc => ?_, fun g hg hgc => ?_, ?_, ?_⟩
    · rw [atHead_ok _ hok, epochGo_moves hep hold, ← hm, ht]
      rfl
    · show (t.ctx e.ctx).epoch = _
      rw [hctx, State.ctx_updCtx_same]
    · show t.ctx c = _
      rw [hctx]
      exact mgetD_mput_ne _ _ _ hc
    · have hg' : g ∈ s.core.rce.groups.map (fun g => if g.2.ctx = e.ctx then (g.1, { g.2 with seq := 0 }) else g) := by
        rw [← hgr]
        rw [hrest] at hg
        exact hg
      obtain ⟨x, -, rfl⟩ := List.mem_map.1 hg'
      by_cases hx : x.2.ctx = e.ctx
      · rw [if_pos hx]
      · rw [if_neg hx] at hgc
        exact absurd hgc hx
    · show t.core.rce.buckets = _
      rw [hrest]
      exact hbk
    · show t.core.mem = _
      rw [hrest]
      exact hmem.trans (by rw [hu])
  · intro g hok hfresh hg
    obtain ⟨hgr, hkept⟩ := beginGather_takes (e := e) hg hfresh
    obtain ⟨t, ht⟩ : ∃ t, t = s.beginGather r e := ⟨_, rfl⟩
    rw [← ht] at hgr hkept
    refine answers_dispatching_at hd (t := t) ?_ ⟨hgr, hkept.imp (fun h => ?_) fun h => h⟩
    · have hany : s.core.rce.gathers.any (fun j => decide (j.e = e)) = false := by
        rw [List.any_eq_false]
        exact fun j hj => by simpa using hfresh j hj
      rw [hh, if_neg (by decide), hok.1]
      dsimp only
      rw [hany, if_neg (by decide), atHead_ok _ hok, ht]
    · obtain ⟨⟨j, hj, hje⟩, hall⟩ := h
      exact ⟨j, hj, hje, hall j hj hje⟩

/-- Settles O57: the collective instructions, and the rounds of buckets. -/
theorem collectives : Obligations.Collectives := ⟨collectiveInstructions, roundsPass⟩

end Sys2Proof.Machine
end

section
/-! PROOF. Transit (O59; 12_mladben_fabric R295-R301). -/
namespace Sys2Proof.Machine
open State

/-- A packet in a receive buffer for another module, and one like it that has left by another port. -/
def onward (d hops : Nat) : Packet := { type := 0x30, vc := 2, hops := hops, dest := d }

/-- Port 2, the route to module 1, has a whole packet from port 4 in its crossbar queue, which it has not sent; port 0 has received a packet for it. -/
def sharedQueue : State :=
  { core := { boot := { phase := .ready }, regs := { csr := [((fldRoute 1).key, 2 ^ 31 + 2)] },
              fab := { ports := [(0, { st := .active, rx := [{ id := 0, pkt := onward 1 1 }] }),
                                 (2, { st := .active, tx := [(2, [{ pkt := onward 1 0, here := 1, src := some (4, 0), moved := 1 }])] }),
                                 (4, { st := .active, rx := [{ id := 0, pkt := onward 1 1, taken := true, outs := 1, freed := 1 }] })] } } }

theorem sharedQueue_route (src vc : Nat) : sharedQueue.routeOf src 1 vc = some 2 := by
  have one : bits (sharedQueue.reg (fldRoute (epModule 1))) 24 2 + 1 = 1 := by decide +kernel
  have first : Config.routeHash src 1 vc % (bits (sharedQueue.reg (fldRoute (epModule 1))) 24 2 + 1) = 0 := by rw [one, Nat.mod_one]
  simp only [State.routeOf, first]
  decide +kernel

/-- The packet that port 0 hands on, as it leaves. -/
def sharedNext : State :=
  (sharedQueue.updRx 0 0 (fun y => { y with taken := true, outs := 1 })).queueFrom 2 { onward 1 1 with hops := 0 } { id := 0, pkt := onward 1 1 } 0

theorem sharedQueue_transit : sharedQueue.transit 0 { id := 0, pkt := onward 1 1 } = sharedNext := by
  have ok : packetOk (onward 1 1) = true := by decide +kernel
  simp only [State.transit, ok, Bool.not_true, Bool.false_eq_true, if_false]
  rw [show (onward 1 1).mc = false from rfl, if_neg Bool.false_ne_true, show (onward 1 1).dest = 1 from rfl, sharedQueue_route]
  rfl

/-- Filling the queue counts zero units of the older packet too: port 4 forgets the packet, of which no unit was left. -/
theorem sharedNext_forgets : (sharedNext.port 4).rx = [] ∧ (sharedQueue.port 4).rx ≠ [] := by decide +kernel

/-- Refutes O59: a transit fills the whole crossbar queue, which touches the receive buffer of a third port whose packet stands there before it. -/
theorem not_transitAndFrames : ¬ Obligations.TransitAndFrames := by
  rintro ⟨transit, -⟩
  obtain ⟨forward, -⟩ := transit sharedQueue 0 0 { id := 0, pkt := onward 1 1 } (by decide +kernel) (by decide +kernel) rfl (by decide +kernel)
    (by decide) rfl (by decide +kernel) (by decide +kernel) 2 (sharedQueue_route 0 2)
  obtain ⟨t, ht, -, -, others⟩ := forward (by decide) (by decide) (by decide +kernel)
  have run : exec (.packetTransit 0 0) sharedQueue = .next { sharedQueue with core := sharedNext.core } := by
    rw [← sharedQueue_transit]
    rfl
  have same := others 4 (by decide) (by decide)
  rw [run] at ht
  obtain rfl : _ = t := Host.Outcome.next.inj ht
  obtain ⟨gone, held⟩ := sharedNext_forgets
  exact held ((congrArg Port.rx same).symm.trans gone)

end Sys2Proof.Machine
end

section
/-! PROOF. Bring-up and control of ports, and the links (O60; 12_mladben_fabric R285-R308, R351-R353). -/
namespace Sys2Proof.Machine
open State

theorem RegsKept.rasLog (s : State) (t c src die unit ctx a d n : Nat) : RegsKept s (s.rasLog t c src die unit ctx a d n) := by
  unfold State.rasLog
  extract_lets m i phase rec_ ovf i' _ _ u at' _ _ v w
  have kept : RegsKept s u := .of_regs rfl
  split
  · exact kept
  · have written : RegsKept s (w.hostWrite at' rec_) :=
      ((kept.trans (.of_regs (t := v) rfl)).trans (Accessed.raiseIf v ovf (by decide) (by decide)).regs).trans (Accessed.hostWrite w at' rec_).regs
    split
    · exact written
    · exact written.trans (.bump _ _ (Accessed.rasCnt _))

/-- From s to t nothing changes but fabric time, registers, interrupts, the ledger, and the log with what it writes to the host. -/
structure Noted (s t : State) : Prop where
  rest : ∃ ft regs irq h b ras ldg, t = { s with ft := ft, core.regs := regs, core.irq := irq, core.mem.host := h, core.mem.hostBad := b, core.ras := ras, core.ldg := ldg }
  regs : RegsKept s t

namespace Noted

theorem refl (s : State) : Noted s s := ⟨⟨_, _, _, _, _, _, _, rfl⟩, .refl s⟩

theorem trans {s t u : State} (h : Noted s t) (k : Noted t u) : Noted s u := by
  obtain ⟨⟨_, _, _, _, _, _, _, rfl⟩, hr⟩ := h
  obtain ⟨⟨_, _, _, _, _, _, _, rfl⟩, kr⟩ := k
  exact ⟨⟨_, _, _, _, _, _, _, rfl⟩, hr.trans kr⟩

theorem of_logOnly {s t : State} (h : LogOnly s t) (r : RegsKept s t) : Noted s t := by
  obtain ⟨_, _, _, _, _, rfl⟩ := h
  exact ⟨⟨_, _, _, _, _, _, _, rfl⟩, r⟩

theorem ofFt (s : State) (ft : FabTime) : Noted s { s with ft := ft } := ⟨⟨_, _, _, _, _, _, _, rfl⟩, .of_regs rfl⟩
theorem ofLdg (s : State) (l : Ledger) : Noted s { s with core.ldg := l } := ⟨⟨_, _, _, _, _, _, _, rfl⟩, .of_regs rfl⟩
theorem bump (s : State) {o : Nat} (n : Nat) (h : quietCnt o) : Noted s (s.bump o n) := ⟨⟨_, _, _, _, _, _, _, rfl⟩, .bump s n h⟩
theorem raise (s : State) {o i : Nat} (h : o % 0x1000 = 0x80) (hi : i < 8) : Noted s (s.raise o i) := of_logOnly (s.raise_logOnly o i) (.raise s h hi)

theorem raiseIf (s : State) (b : Bool) {o i : Nat} (h : o % 0x1000 = 0x80) (hi : i < 8) : Noted s (s.raiseIf b o i) := by
  unfold State.raiseIf
  split
  · exact raise s h hi
  · exact refl s

theorem rasLog (s : State) (t c src die unit ctx a d n : Nat) : Noted s (s.rasLog t c src die unit ctx a d n) :=
  of_logOnly (s.rasLog_logOnly ..) (.rasLog s ..)

theorem setLock (s : State) (l : Lock) : Noted s (s.setLock l) := by
  unfold State.setLock
  split
  · exact refl s
  · extract_lets _ u _ v
    have set : Noted s v := by
      unfold v
      split_ifs <;> exact ofFt s _
    exact (set.trans (rasLog v ..)).trans (raise _ (by decide) (by decide))

theorem loseLock (s : State) : Noted s s.loseLock := by
  unfold State.loseLock
  split
  · exact (ofFt s _).trans (setLock _ _)
  · exact refl s

theorem beginAcquire (s : State) : Noted s s.beginAcquire := by
  unfold State.beginAcquire
  split
  · exact setLock s _
  · exact refl s

theorem chooseParent (s : State) : Noted s s.chooseParent := by
  unfold State.chooseParent
  split
  · split
    · exact (ofFt s _).trans (loseLock _)
    · extract_lets _ u
      have chosen : Noted s u := by
        unfold u
        split_ifs <;> exact ofFt s _
      split
      · exact chosen.trans (ofFt _ _)
      · exact chosen.trans (beginAcquire _)
  · exact ofFt s _

theorem fab {s t : State} (h : Noted s t) : t.core.fab = s.core.fab := by
  obtain ⟨_, _, _, _, _, _, _, rfl⟩ := h.rest
  rfl

end Noted

theorem fabCnt (i n : Nat) : quietCnt (fabBase i + n) := .inr (.inl (by unfold fabBase; omega))
theorem fabInt_int (i : Nat) : fabInt i % 0x1000 = 0x80 := by unfold fabInt fabBase; omega

/-- From s to t port i has become p; of the rest only fabric time, the fabric, registers, the ledger, and the log with what it writes may differ. -/
structure PortAt (i : Nat) (p : Port) (s t : State) : Prop where
  port : t.port i = p
  rest : ∃ ft regs irq h b ras fab ldg, t = { s with ft := ft, core.regs := regs, core.irq := irq, core.mem.host := h, core.mem.hostBad := b, core.ras := ras, core.fab := fab, core.ldg := ldg }
  regs : RegsKept s t

namespace PortAt

variable {i : Nat} {p : Port} {s t u : State}

theorem start (s : State) (i : Nat) : PortAt i (s.port i) s s := ⟨rfl, ⟨_, _, _, _, _, _, _, _, rfl⟩, .refl s⟩

theorem noted (h : PortAt i p s t) (k : Noted t u) : PortAt i p s u := by
  refine ⟨(congrArg (fun f : Fab => mgetD f.ports i {}) k.fab).trans h.port, ?_, h.regs.trans k.regs⟩
  obtain ⟨_, _, _, _, _, _, _, _, rfl⟩ := h.rest
  obtain ⟨_, _, _, _, _, _, _, rfl⟩ := k.rest
  exact ⟨_, _, _, _, _, _, _, _, rfl⟩

theorem trans {q : Port} (h : PortAt i p s t) (k : PortAt i q t u) : PortAt i q s u := by
  refine ⟨k.port, ?_, h.regs.trans k.regs⟩
  obtain ⟨_, _, _, _, _, _, _, _, rfl⟩ := h.rest
  obtain ⟨_, _, _, _, _, _, _, _, rfl⟩ := k.rest
  exact ⟨_, _, _, _, _, _, _, _, rfl⟩

theorem of_fab {q : Port} (h : PortAt i p s t) (k : FabOnly t u) (hp : u.port i = q) : PortAt i q s u := by
  refine ⟨hp, ?_, h.regs.trans (.of_regs (by rw [k]))⟩
  obtain ⟨_, _, _, _, _, _, _, _, rfl⟩ := h.rest
  exact ⟨_, _, _, _, _, _, _, _, k⟩

theorem upd {f : Port → Port} {q : Port} (h : PortAt i p s t) (hq : q = f p) : PortAt i q s (t.updPort i f) := by
  refine ⟨(mgetD_mupd_same _ _ _ _).trans ((congrArg f h.port).trans hq.symm), ?_, h.regs.trans (.of_regs rfl)⟩
  obtain ⟨_, _, _, _, _, _, _, _, rfl⟩ := h.rest
  exact ⟨_, _, _, _, _, _, _, _, rfl⟩

/-- What an answer of the module keeps of fabric time does not matter here. -/
theorem answer (h : PortAt i p s t) (ft : FabTime) : PortAt i p s { s with ft := ft, core := t.core } := by
  refine ⟨h.port, ?_, ⟨h.regs.csr, h.regs.bits, h.regs.cnt⟩⟩
  obtain ⟨_, _, _, _, _, _, _, _, rfl⟩ := h.rest
  exact ⟨_, _, _, _, _, _, _, _, rfl⟩

theorem mem (h : PortAt i p s t) : t.core.mem.hbm = s.core.mem.hbm ∧ t.core.mem.flash = s.core.mem.flash ∧ t.core.mem.pool = s.core.mem.pool := by
  obtain ⟨_, _, _, _, _, _, _, _, rfl⟩ := h.rest
  exact ⟨rfl, rfl, rfl⟩

end PortAt

/-! Changes of state of a port (R302) -/

theorem PortAt.toState {i : Nat} {p : Port} {s t : State} (h : PortAt i p s t) (st : PortState) : PortAt i { p with st := st } s (t.toState i st) :=
  (h.upd (f := fun p => { p with st := st }) rfl).noted (.rasLog ..)

/-- A port as it enters a state; one that leaves ACTIVE says since when. -/
def Port.entered (p : Port) (st : PortState) (now : Nat) : Port :=
  if p.st = .active then { p with st := st, left := true, leftFt := now } else { p with st := st }

theorem PortAt.leaveTo {i : Nat} {p : Port} {s t : State} (h : PortAt i p s t) (st : PortState) :
    ∃ now, PortAt i (p.entered st now) s (t.leaveTo i st) := by
  have k := h.toState st
  unfold State.leaveTo
  simp only [h.port, decide_eq_true_eq]
  by_cases ha : p.st = .active
  · refine ⟨(t.toState i st).now, ?_⟩
    rw [if_pos ha, Port.entered, if_pos ha]
    have left := k.upd (f := fun p => { p with left := true, leftFt := (t.toState i st).now }) rfl
    refine PortAt.noted ?_ ((Noted.ofFt _ _).trans (.chooseParent _))
    split
    · exact (left.noted (.raise (i := 1) _ (fabInt_int i) (by decide))).noted (.loseLock _)
    · exact left.noted (.raise (i := 1) _ (fabInt_int i) (by decide))
  · refine ⟨0, ?_⟩
    rw [if_neg ha, Port.entered, if_neg ha]
    exact k

theorem PortAt.countWait {i : Nat} {p : Port} {s t : State} (h : PortAt i p s t) : PortAt i { p with rsFt := none } s (t.countWait i) := by
  unfold State.countWait
  rw [h.port]
  cases hw : p.rsFt with
  | some t => exact (h.noted (.bump (o := 0x830) _ _ (.inl (by decide)))).upd rfl
  | none => simpa [hw] using (show p = { p with rsFt := none } by cases p; cases hw; rfl) ▸ h

/-- A port back in TRAIN (R302). -/
def Port.trained (p : Port) (now : Nat) : Port :=
  { ({ p with rsFt := none } : Port).entered .train now with
    width := 0, out := none, rsSent := false, rsGot := false, doneSent := false, doneGot := false, lost := false, resend := [] }

theorem PortAt.portReset {i : Nat} {p : Port} {s t : State} (h : PortAt i p s t) (hd : p.st ≠ .down) :
    ∃ now, PortAt i (p.trained now) s (t.portReset i) := by
  obtain ⟨now, k⟩ := h.countWait.leaveTo .train
  unfold State.portReset
  rw [h.port, if_neg hd]
  exact ⟨now, (k.noted (.bump _ _ (fabCnt ..))).upd rfl⟩

@[simp] theorem Port.entered_st (p : Port) (st : PortState) (now : Nat) : (p.entered st now).st = st := by unfold Port.entered; split <;> rfl
theorem Port.entered_kept (p : Port) (st : PortState) (now : Nat) : (p.entered st now).seq = p.seq ∧ (p.entered st now).replay = p.replay
    ∧ (p.entered st now).rx = p.rx ∧ (p.entered st now).fail = p.fail ∧ (p.entered st now).fresh = p.fresh := by
  unfold Port.entered
  split <;> exact ⟨rfl, rfl, rfl, rfl, rfl⟩

/-- What a reset keeps: FIFOs, buffers, lane failures and incarnation (R302). -/
theorem Port.trained_kept (p : Port) (now : Nat) : (p.trained now).st = .train ∧ (p.trained now).seq = p.seq ∧ (p.trained now).replay = p.replay
    ∧ (p.trained now).rx = p.rx ∧ (p.trained now).fail = p.fail ∧ (p.trained now).fresh = p.fresh :=
  ⟨Port.entered_st .., Port.entered_kept ..⟩

theorem State.port_raise (s : State) (o k i : Nat) : (s.raise o k).port i = s.port i := by
  obtain ⟨_, _, h⟩ := s.raise_core o k
  rw [h]
  rfl

/-! A port whose queues and buffers are empty (R347, R352, R353) -/

theorem State.port_updPort_same (s : State) (i : Nat) (f : Port → Port) : (s.updPort i f).port i = f (s.port i) := mgetD_mupd_same _ _ _ _
theorem State.port_updPort_ne (s : State) {i j : Nat} (f : Port → Port) (h : j ≠ i) : (s.updPort i f).port j = s.port j := mgetD_mupd_ne _ _ _ _ h

theorem State.port_freeRx (s : State) {i : Nat} (j id n : Nat) (b : Bool) (h : (s.port i).rx = []) : (s.freeRx j id n b).port i = s.port i := by
  by_cases hj : i = j
  · subst hj
    simp only [State.freeRx, State.rxPkt, h, List.find?_nil]
  · unfold State.freeRx State.freeUnits
    cases s.rxPkt j id with
    | none => rfl
    | some x => cases b <;> dsimp only <;> split <;> exact (State.port_updPort_ne _ _ hj).trans (State.port_updPort_ne s _ hj)

theorem State.port_unitsMoved (s : State) {i : Nat} (x : PartPkt) (n : Nat) (h : (s.port i).rx = []) : (s.unitsMoved x n).port i = s.port i := by
  unfold State.unitsMoved
  split
  · split
    · rfl
    · exact s.port_freeRx _ _ _ _ h
  · unfold State.d2dFreed
    split <;> rfl
  · rfl

/-- What keeps a port while its receive buffer is empty does so as often as it is done. -/
theorem State.port_foldl {α : Type} {i : Nat} {q : Port → Prop} {f : State → α → State} (hf : ∀ s a, q (s.port i) → (f s a).port i = s.port i)
    (l : List α) (s : State) (h : q (s.port i)) : (l.foldl f s).port i = s.port i := by
  induction l generalizing s with
  | nil => rfl
  | cons a l ih =>
    have ha := hf s a h
    exact (ih _ (ha ▸ h)).trans ha

theorem State.port_fillXbar (s : State) {i : Nat} (o v : Nat) (h : (s.port i).tx = [] ∧ (s.port i).rx = []) :
    (s.fillXbar o v).port i = s.port i := by
  unfold State.fillXbar
  dsimp only
  split
  · rfl
  · next hany =>
    by_cases ho : i = o
    · subst ho
      simp [h.1, xbarFill, mgetD] at hany
    · have hs := s.port_updPort_ne (i := o) (j := i) (fun p => { p with tx := mput p.tx v (xbarFill (xbarFifo (mgetD (s.port o).tx v [])).free (mgetD (s.port o).tx v [])).1 }) ho
      exact (State.port_foldl (q := fun p => p.rx = []) (fun s e he => s.port_unitsMoved e.1 e.2 he) _ _ (hs ▸ h.2)).trans hs

theorem State.port_fillEach (l : List (Nat × List PartPkt)) (o : Nat) (s : State) {i : Nat} (h : (s.port i).tx = [] ∧ (s.port i).rx = []) :
    (l.foldl (fun s t => s.fillXbar o t.1) s).port i = s.port i := by
  induction l generalizing s with
  | nil => rfl
  | cons t l ih =>
    have ht := s.port_fillXbar o t.1 h
    rw [List.foldl_cons, ih _ (ht ▸ h), ht]

theorem State.port_fillQueues (s : State) {i : Nat} (h : (s.port i).tx = [] ∧ (s.port i).rx = []) : s.fillQueues.port i = s.port i := by
  unfold State.fillQueues
  generalize s.core.fab.ports = l
  induction l generalizing s with
  | nil => rfl
  | cons e l ih =>
    have he := State.port_fillEach e.2.tx e.1 s h
    rw [List.foldl_cons, ih _ (he ▸ h), he]

theorem State.fillQueues_fab (s : State) : FabOnly s s.fillQueues := by
  have port (s : State) (e : Nat × Port) : FabOnly s (e.2.tx.foldl (fun s t => s.fillXbar e.1 t.1) s) :=
    FabOnly.foldl (fun s (t : Nat × List PartPkt) => s.fillXbar e.1 t.1) (fun s t => s.fillXbar_fab e.1 t.1) e.2.tx s
  unfold State.fillQueues
  generalize s.core.fab.ports = l
  exact FabOnly.foldl _ port l s

theorem PortAt.fillQueues {i : Nat} {p : Port} {s t : State} (h : PortAt i p s t) (hp : p.tx = [] ∧ p.rx = []) : PortAt i p s t.fillQueues :=
  h.of_fab t.fillQueues_fab ((t.port_fillQueues (h.port ▸ hp)).trans h.port)

theorem PortAt.dropQueued {i : Nat} {p : Port} {s t : State} (h : PortAt i p s t) (hp : p.tx = [] ∧ p.rx = []) : PortAt i p s (t.dropQueued i) := by
  unfold State.dropQueued
  simp only [h.port, hp.1, List.flatMap_nil, List.foldl_nil]
  exact PortAt.fillQueues (h.upd (by rw [← hp.1])) hp

theorem PortAt.dropReplay {i : Nat} {p : Port} {s t : State} (h : PortAt i p s t) (hp : p.tx = [] ∧ p.rx = []) (hr : p.replay = []) :
    PortAt i { p with resend := [] } s (t.dropReplay i) := by
  have hheads : p.replayHeads = [] := by simp [Port.replayHeads, hr]
  have hq : ({ p with resend := [] } : Port).tx = [] ∧ ({ p with resend := [] } : Port).rx = [] := hp
  have hf : ({ p with resend := [] } : Port) = { p with replay := [], resend := [], tx := p.tx.map (fun e => (e.1, e.2.filter (fun x => x.sent = 0))) } := by
    rw [hp.1, ← hr, List.map_nil, ← hp.1]
  generalize ({ p with resend := [] } : Port) = q at hq hf ⊢
  unfold State.dropReplay
  simp only [h.port, hp.1, hheads, List.flatMap_nil, List.foldl_nil]
  exact PortAt.fillQueues ((h.noted (.ofLdg _ _)).upd hf) hq

/-- A port that has nothing to discard (R352). -/
theorem PortAt.discardState {i : Nat} {p : Port} {s t : State} (h : PortAt i p s t) (hp : p.tx = [] ∧ p.rx = []) (hr : p.replay = []) (hd : p.st ≠ .down) :
    ∃ q, PortAt i q s (t.discardState i) ∧ q.tx = [] ∧ q.rx = [] ∧ q.fresh = true ∧ q.st = if p.st = .failed then .failed else .train := by
  have k := h.dropReplay hp hr
  unfold State.discardState
  simp only [k.port, hp.2, List.foldl_nil]
  have m := k.upd (f := fun p => { p with incarnInc := (p.incarnInc + 1) % 255, fresh := true }) rfl
  simp only [m.port]
  by_cases hf : p.st = .failed
  · rw [if_pos hf, if_pos hf]
    exact ⟨_, m, hp.1, hp.2, rfl, hf⟩
  · rw [if_neg hf, if_neg hf]
    obtain ⟨now, n⟩ := m.portReset hd
    exact ⟨_, n, by unfold Port.trained Port.entered; split <;> exact hp.1, ((Port.trained_kept _ now).2.2.2.1).trans hp.2,
      (Port.trained_kept _ now).2.2.2.2.2, (Port.trained_kept _ now).1⟩

/-! The commands -/

/-- A port as the statements say what a command keeps of it. -/
theorem PortAt.kept {i : Nat} {p q : Port} {s t : State} (h : PortAt i q s t) (hs : q.seq = p.seq) (hr : q.replay = p.replay) (hx : q.rx = p.rx) :
    (t.port i).seq = p.seq ∧ (t.port i).replay = p.replay ∧ (t.port i).rx = p.rx ∧ t.core.mem.hbm = s.core.mem.hbm
      ∧ t.core.mem.flash = s.core.mem.flash ∧ t.core.mem.pool = s.core.mem.pool := by
  rw [h.port]
  exact ⟨hs, hr, hx, h.mem⟩

theorem flagBit_congr {s t : State} (h : t.core = s.core) (o i : Nat) : t.flagBit o i = s.flagBit o i := by simp only [State.flagBit, h]

/-- A command that makes port i a port q, of which the answer's property follows. -/
theorem answers_port {f : State → State} {s : State} {i : Nat} {p : State → Prop} (hl : s.live = true)
    (h : ∃ q, PortAt i q s (f s) ∧ ∀ t, PortAt i q s t → t.core = (f s).core → p t) : Answers (liftCore (whenLive f) s) p := by
  obtain ⟨q, hq, hp⟩ := h
  exact answers_live hl (hp _ (hq.answer s.ft) rfl)

theorem answers_port_lock {f : State → State} {s : State} {i : Nat} {p : State → Prop} (hl : s.live = true)
    (h : ∃ q, PortAt i q s (f s) ∧ ∀ t, PortAt i q s t → t.core = (f s).core → p t) : Answers (liftLock (whenLive f) s) p := by
  obtain ⟨q, hq, hp⟩ := h
  refine ⟨_, rfl, ?_⟩
  rw [whenLive_pos _ hl]
  exact hp _ (hq.answer _) rfl

theorem answers_port_control {f : State → State} {s : State} {i : Nat} {p : State → Prop} (hd : s.dispatching = true)
    (h : ∃ q, PortAt i q s (f s) ∧ ∀ t, PortAt i q s t → t.core = (f s).core → p t) : Answers (liftLock (whenDispatching f) s) p := by
  obtain ⟨q, hq, hp⟩ := h
  refine ⟨_, rfl, ?_⟩
  rw [whenDispatching_pos _ hd]
  exact hp _ (hq.answer _) rfl

theorem portNamed_of_even {s : State} {i : Nat} (h : s.portPresent (i / 2) = true) (h2 : i % 2 = 0) : s.portNamed i = true := by
  simp [State.portNamed, h, h2]

theorem State.hsBad_updPort (s : State) (i : Nat) (h : Handshake) {f : Port → Port} (hf : (f (s.port i)).degraded = (s.port i).degraded) :
    (s.updPort i f).hsBad i h = s.hsBad i h := by
  have hm : (s.updPort i f).portMode i = s.portMode i := by
    unfold State.portMode
    rw [s.port_updPort_same, hf]
    rfl
  unfold State.hsBad
  rw [hm]
  rfl

/-- The partner's block refused (R303). -/
theorem onHandshake_fails {s : State} {i : Nat} {f : Frame} {h : Handshake} (hbad : s.hsBad i h = true) :
    ∃ q, PortAt i q s (s.onHandshake i f h) ∧ q.st = .failed ∧ (s.onHandshake i f h).flagBit (fabInt i) 6 = true := by
  obtain ⟨now, k⟩ := ((PortAt.start s i).upd (f := fun p => { p with partner := some h, rsGot := true }) rfl).leaveTo .failed
  have hb : (s.updPort i fun p => { p with partner := some h, rsGot := true }).hsBad i h = true := (s.hsBad_updPort i h rfl).trans hbad
  have hs : s.onHandshake i f h = ((s.updPort i fun p => { p with partner := some h, rsGot := true }).leaveTo i .failed).raise (fabInt i) 6 := by
    unfold State.onHandshake
    exact if_pos hb
  rw [hs]
  exact ⟨_, k.noted (.raise _ (fabInt_int i) (by decide)), Port.entered_st .., State.flagBit_raise ..⟩

theorem State.takeFreed_keeps (s : State) (i : Nat) (l : List (Nat × Nat)) :
    FabOnly s (s.takeFreed i l) ∧ ∃ fi, (s.takeFreed i l).port i = { s.port i with freedIn := fi } := by
  induction l generalizing s with
  | nil => exact ⟨rfl, _, rfl⟩
  | cons e l ih =>
    have one : FabOnly s (s.takeFreed i [e]) ∧ ∃ fi, (s.takeFreed i [e]).port i = { s.port i with freedIn := fi } :=
      ⟨rfl, _, State.port_updPort_same _ i _⟩
    obtain ⟨hf1, _, hp1⟩ := one
    obtain ⟨hf, fi, hp⟩ := ih (s.takeFreed i [e])
    exact ⟨hf1.trans hf, fi, by rw [show s.takeFreed i (e :: l) = (s.takeFreed i [e]).takeFreed i l from rfl, hp, hp1]⟩

theorem State.release_keeps (s : State) (i ack : Nat) :
    FabOnly s (s.release i ack) ∧ ∃ a f r d, (s.release i ack).port i = { s.port i with ack := a, ackFt := f, replay := r, resend := d } :=
  ⟨rfl, _, _, _, _, (State.port_updPort_same _ _ _)⟩

theorem State.sendDone_keeps (s : State) (i : Nat) :
    FabOnly s (s.sendDone i) ∧ (s.sendDone i).port i = { s.port i with
      doneSent := true, rsFt := none, out := some (s.mkFrame i 3 (s.port i).seq [] (some (s.handshake i))) } :=
  ⟨.of_updPort .., s.port_updPort_same i _⟩

/-- A port waits for RESYNC_DONE (R304). -/
theorem State.tryActive_waits {s : State} {i : Nat} (h : (s.port i).doneGot = false) : s.tryActive i = s := by
  unfold State.tryActive
  simp only [h, Bool.and_false, Bool.false_eq_true, if_false]

/-- With RESYNC_DONE sent and received a port is ACTIVE, and what its replay FIFO holds comes first (R302, R304). -/
theorem tryActive_goes {s : State} {i : Nat} (hs : (s.port i).doneSent = true) (hg : (s.port i).doneGot = true) :
    ∃ q, PortAt i q s (s.tryActive i) ∧ q.seq = (s.port i).seq ∧ q.replay = (s.port i).replay ∧ q.rx = (s.port i).rx ∧ q.st = .active
      ∧ q.resend = (s.port i).replay ∧ q.fresh = false ∧ (s.tryActive i).flagBit (fabInt i) 0 = true := by
  have k := ((PortAt.start s i).toState .active).noted (.raise (o := fabInt i) (i := 0) _ (fabInt_int i) (by decide))
  have hb := State.flagBit_raise (s.toState i .active) (fabInt i) 0
  unfold State.tryActive
  simp only [hs, hg, Bool.and_self, if_true]
  revert k hb
  generalize (s.toState i .active).raise (fabInt i) 0 = u
  intro k hb
  have m := k.upd (f := fun p => { p with fresh := false, left := false, lost := false, ackFt := u.now, resend := p.replay, nakOn := false, episodes := 0 }) rfl
  split
  · exact ⟨_, m, rfl, rfl, rfl, rfl, rfl, rfl, hb⟩
  · exact ⟨_, m.noted (.bump _ _ (fabCnt ..)), rfl, rfl, rfl, rfl, rfl, rfl, hb⟩

/-- A port with other credits. -/
def Port.credited (p : Port) (sent freed : Map Nat) : Port := { p with sent := sent, freedIn := freed }

/-- Steps that each change the credits of a port only do so together. -/
theorem PortAt.foldl_credits {i : Nat} {s : State} {f : State → Nat → State}
    (hf : ∀ p t v, PortAt i p s t → ∃ a b, PortAt i (p.credited a b) s (f t v)) (l : List Nat) {p : Port} {t : State} (h : PortAt i p s t) :
    ∃ a b, PortAt i (p.credited a b) s (l.foldl f t) := by
  induction l generalizing p t with
  | nil => exact ⟨p.sent, p.freedIn, h⟩
  | cons v l ih =>
    obtain ⟨_, _, k⟩ := hf p t v h
    obtain ⟨a, b, m⟩ := ih k
    exact ⟨a, b, m⟩

/-- SENT is based anew: credits and their counts alone (R304, R351). -/
theorem PortAt.rebase {i : Nat} {p : Port} {s t : State} (h : PortAt i p s t) (l : List (Nat × Nat)) :
    ∃ a b, PortAt i (p.credited a b) s (t.rebase i l) :=
  foldl_credits (fun p t v h => ⟨mput p.sent v _, mput p.freedIn v _, (h.noted (.ofLdg t _)).upd rfl⟩) _ h

/-- The partner's block, where both know what they knew before (R304). -/
theorem onHandshake_keeps {s : State} {i : Nat} {f : Frame} {h : Handshake} (hbad : s.hsBad i h = false) (hf : (s.port i).fresh = false)
    (hsame : (!h.fresh && decide (h.incarn = (s.port i).partnerInc) && decide ((s.port i).partnerInc ≠ 0)) = true)
    (hold : ∀ x ∈ (s.port i).rx, x.old = false) (hdone : (s.port i).doneGot = false) :
    FabOnly s (s.onHandshake i f h) ∧ ∃ q, (s.onHandshake i f h).port i = q ∧ q.st = (s.port i).st ∧ q.rsGot = true ∧ q.doneSent = true ∧ q.seq = (s.port i).seq
      ∧ q.limit = (List.range 16).zip h.limits := by
  have hb : (s.updPort i fun p => { p with partner := some h, rsGot := true }).hsBad i h = false := (s.hsBad_updPort i h rfl).trans hbad
  have hp1 : (s.updPort i fun p => { p with partner := some h, rsGot := true }).port i = { s.port i with partner := some h, rsGot := true } :=
    s.port_updPort_same i _
  have hf1 : FabOnly s (s.updPort i fun p => { p with partner := some h, rsGot := true }) := .of_updPort ..
  unfold State.onHandshake
  revert hb hp1 hf1
  generalize (s.updPort i fun p => { p with partner := some h, rsGot := true }) = u
  intro hb hp1 hf1
  obtain ⟨hft, fi, hpt⟩ := u.takeFreed_keeps i f.freed
  obtain ⟨hfr, a, b, c, d, hpr⟩ := (u.takeFreed i f.freed).release_keeps i h.next
  have hpl := State.port_updPort_same ((u.takeFreed i f.freed).release i h.next) i (fun p => { p with limit := (List.range 16).zip h.limits })
  have hfl := FabOnly.of_updPort ((u.takeFreed i f.freed).release i h.next) i (fun p => { p with limit := (List.range 16).zip h.limits })
  rw [hpr, hpt, hp1] at hpl
  simp only [hb, hp1, hf, hsame, Bool.false_eq_true, if_false, Bool.not_false, Bool.and_true, if_true]
  have hkept := ((hf1.trans hft).trans hfr).trans hfl
  revert hpl hkept
  generalize (((u.takeFreed i f.freed).release i h.next).updPort i (fun p => { p with limit := (List.range 16).zip h.limits })) = v
  intro hpl hkept
  have young : (v.port i).rx.any (·.old) = false := by
    rw [hpl]
    simpa using hold
  obtain ⟨hd, hpd⟩ := v.sendDone_keeps i
  rw [young, if_neg Bool.false_ne_true, State.tryActive_waits (by rw [hpd, hpl]; exact hdone)]
  refine ⟨hkept.trans hd, _, rfl, ?_⟩
  rw [hpd, hpl]
  exact ⟨rfl, rfl, rfl, rfl, rfl⟩

/-- Bring-up and the loss of a signal (R302, R306). -/
theorem portsComeUp : Says.PortsComeUp := by
  intro s i hl hn p kept
  refine ⟨fun pol rev hst => ?_, fun lane hst hlane => ?_, fun f h hst hc hh hgot hdone hcrc => ⟨fun hbad => ?_, fun hbad hf hhf hinc h0 hold => ?_⟩,
    fun t0 hst hft hold hdone => ?_, fun f h hst hc hh hcrc hgot hsent => ?_, fun hleft htmo hnow hna hnd htx hrx hrep => ?_, ?_⟩
  · refine answers_port (i := i) hl ?_
    have good : (!s.portNamed i || decide ((s.port i).st ≠ .train)) = false := by simp [hn, show (s.port i).st = .train from hst]
    simp only [good, Nat.zero_and, ne_eq, not_true_eq_false, decide_false, decide_true, Bool.true_or, ite_self, Bool.false_eq_true,
      if_false, Bool.and_false, Bool.or_false, State.raiseIf, Bool.not_true]
    exact ⟨_, (((((PortAt.start s i).upd rfl).upd rfl).toState .resync).upd rfl), fun t h _ => ⟨h.kept rfl rfl rfl, by rw [h.port], by rw [h.port], by rw [h.port],
      by rw [h.port], by rw [h.port]⟩⟩
  · refine answers_port_lock (i := i) hl ?_
    have on : (s.portNamed i && ((s.port i).st = .active || (s.port i).st = .resync) && (s.lanesOf i).testBit lane) = true := by
      simp [hn, hlane, show (s.port i).st = .active ∨ (s.port i).st = .resync from hst]
    simp only [on, if_true]
    obtain ⟨now, k⟩ := ((PortAt.start s i).upd (f := fun p => { p with fail := p.fail ||| 2 ^ lane }) rfl).portReset
      (show p.st ≠ .down by rcases hst with h | h <;> simp [h])
    obtain ⟨hst, hseq, hrep, hrx, hfail, -⟩ := Port.trained_kept { p with fail := p.fail ||| 2 ^ lane } now
    exact ⟨_, k, fun t h _ => ⟨h.kept hseq hrep hrx, by rw [h.port, hst], by rw [h.port, hfail]; simp⟩⟩
  · refine answers_port_lock (i := i) hl ?_
    have on : (s.portNamed i && decide ((s.port i).st = .resync) && decide (f.ctype = 2) && frameCrcOk f (s.frameSlots i) && !(s.port i).rsGot) = true := by
      simp [hn, hc, hcrc, show (s.port i).st = .resync from hst, show (s.port i).rsGot = false from hgot]
    simp only [hh, on, if_true]
    obtain ⟨q, k, hq, hb⟩ := onHandshake_fails (f := f) hbad
    exact ⟨q, k, fun t h hc => ⟨by rw [h.port, hq], (flagBit_congr hc _ _).trans hb, h.mem.1⟩⟩
  · refine answers_port_lock (i := i) hl ?_
    have on : (s.portNamed i && decide ((s.port i).st = .resync) && decide (f.ctype = 2) && frameCrcOk f (s.frameSlots i) && !(s.port i).rsGot) = true := by
      simp [hn, hc, hcrc, show (s.port i).st = .resync from hst, show (s.port i).rsGot = false from hgot]
    simp only [hh, on, if_true]
    obtain ⟨hk, q, hq, h1, h2, h3, h4, h5⟩ := onHandshake_keeps (f := f) hbad hf (by simp [hhf, hinc, h0, p]) hold hdone
    refine ⟨q, (PortAt.start s i).of_fab hk hq, fun t h hc => ?_⟩
    rw [h.port]
    exact ⟨h1.trans hst, h2, h3, h4, h5, by rw [hc, hk]⟩
  · refine answers_port (i := i) hl ?_
    have young : (s.port i).rx.any (·.old) = false := by simpa using hold
    have hm : (s.countWait i).core.mem = s.core.mem := by
      unfold State.countWait
      rw [show (s.port i).rsFt = some t0 from hft]
      rfl
    simp only [show (s.port i).rsFt = some t0 from hft, show (s.port i).st = .resync from hst, young, Bool.not_false, Bool.and_true, decide_true, if_true]
    have k := (PortAt.start s i).countWait
    obtain ⟨hd, hp⟩ := (s.countWait i).sendDone_keeps i
    rw [k.port] at hp
    rw [State.tryActive_waits (by rw [hp]; exact hdone)]
    exact ⟨_, k.of_fab hd hp, fun t h hc => ⟨by rw [h.port], by rw [h.port], by rw [hc, hd]; exact hm⟩⟩
  · refine answers_port_lock (i := i) hl ?_
    have on : (!(s.portNamed i && decide ((s.port i).st = .resync) && decide (f.ctype = 3) && frameCrcOk f (s.frameSlots i))) = false := by
      simp [hn, hc, hcrc, show (s.port i).st = .resync from hst]
    simp only [hh, on, Bool.false_eq_true, if_false, show (s.port i).rsGot = true from hgot, if_true]
    have based : ∃ a b, PortAt i (p.credited a b) s (if (s.port i).lost then s.rebase i f.freed else s) := by
      split
      · exact (PortAt.start s i).rebase f.freed
      · exact ⟨p.sent, p.freedIn, .start s i⟩
    obtain ⟨a, b, k⟩ := based
    revert k
    generalize (if (s.port i).lost then s.rebase i f.freed else s) = u
    intro k
    have m := k.upd (f := fun p => { p with doneGot := true }) rfl
    rw [if_pos (show (u.port i).st = .resync by rw [k.port]; exact hst)]
    revert m
    generalize u.updPort i (fun p => { p with doneGot := true }) = v
    intro m
    obtain ⟨q, n, h1, h2, h3, h4, h5, h6, hb⟩ := tryActive_goes (s := v) (i := i) (by rw [m.port]; exact hsent) (by rw [m.port])
    rw [m.port] at h1 h2 h3 h5
    exact ⟨q, m.trans n, fun t h hc => ⟨h.kept h1 h2 h3, by rw [h.port, h4], by rw [h.port, h5]; rfl, by rw [h.port, h6], (flagBit_congr hc _ _).trans hb⟩⟩
  · have due : (s.portNamed i && (s.port i).left && decide (s.reg fldLinkTmo ≠ 0) && decide ((s.port i).st ≠ .active)
        && decide (s.now ≥ (s.port i).leftFt + 1000000 * s.reg fldLinkTmo)) = true := by
      rw [hn, show (s.port i).left = true from hleft, decide_eq_true htmo, decide_eq_true (show (s.port i).st ≠ .active from hna),
        decide_eq_true (show s.now ≥ (s.port i).leftFt + 1000000 * s.reg fldLinkTmo from hnow)]
      rfl
    refine ⟨_, rfl, ?_⟩
    simp only [whenLive_pos _ hl, due, if_true]
    obtain ⟨q, k, -, -, hfr, hq⟩ := ((PortAt.start s i).dropQueued ⟨htx, hrx⟩).discardState ⟨htx, hrx⟩ hrep hnd
    have m := k.upd (f := fun p => { p with left := false }) rfl
    revert m
    generalize ((s.dropQueued i).discardState i).updPort i (fun p => { p with left := false }) = u
    intro m
    have hp : (u.raise 0x880 2).port i = { q with left := false } := (State.port_raise ..).trans m.port
    show ((u.raise 0x880 2).port i).st = _ ∧ ((u.raise 0x880 2).port i).left = false ∧ ((u.raise 0x880 2).port i).fresh = true ∧ (u.raise 0x880 2).flagBit 0x880 2 = true
    rw [hp]
    exact ⟨hq, rfl, hfr, State.flagBit_raise ..⟩
  · intro h
    refine liftLock_still ?_
    rw [whenLive_pos _ hl]
    refine if_neg ?_
    simp only [Bool.and_eq_true, decide_eq_true_eq, not_and]
    intro a
    rcases h with h | h
    · exact absurd (h.symm.trans a.1.1.2) Bool.false_ne_true
    · exact Nat.not_le.2 h

/-! Die-to-die links (R21, R308) -/

/-- What a link counts: units passed on, failures, and what it sends again. -/
def D2d.counts (d : D2d) : Nat × Nat × Bool × Option Nat := (d.units, d.fails, d.retry, d.again)

/-- A link that stands in s stands in t with the same counts. -/
def LinkKept (l : Nat) (s t : State) : Prop := ∀ x, mget s.core.fab.d2d l = some x → ∃ y, mget t.core.fab.d2d l = some y ∧ y.counts = x.counts

namespace LinkKept

theorem of_d2d {l : Nat} {s t : State} (h : t.core.fab.d2d = s.core.fab.d2d) : LinkKept l s t := fun x hx => ⟨x, by rw [h, hx], rfl⟩

theorem trans {l : Nat} {s t u : State} (h : LinkKept l s t) (k : LinkKept l t u) : LinkKept l s u := fun x hx => by
  obtain ⟨y, hy, e⟩ := h x hx
  obtain ⟨z, hz, e'⟩ := k y hy
  exact ⟨z, hz, e'.trans e⟩

theorem foldl {α : Type} {l : Nat} {f : State → α → State} (hf : ∀ s a, LinkKept l s (f s a)) (es : List α) (s : State) : LinkKept l s (es.foldl f s) := by
  induction es generalizing s with
  | nil => exact of_d2d rfl
  | cons e es ih => exact (hf s e).trans (ih _)

theorem updD2d {l : Nat} (s : State) (k : Nat) {f : D2d → D2d} (hf : ∀ d, (f d).counts = d.counts) : LinkKept l s (s.updD2d k f) := fun x hx => by
  by_cases hk : l = k
  · subst hk
    refine ⟨f x, ?_, hf x⟩
    show mget (mput s.core.fab.d2d l (f (mgetD s.core.fab.d2d l {}))) l = _
    rw [mget_mput_same, mgetD, hx]
    rfl
  · exact ⟨x, (mget_mput_ne _ _ hk).trans hx, rfl⟩

theorem d2dFreed {l : Nat} (s : State) (k die v n : Nat) : LinkKept l s (s.d2dFreed k die v n) := by
  unfold State.d2dFreed
  split
  · exact of_d2d rfl
  · exact updD2d s k fun _ => rfl

theorem freeRx {l : Nat} (s : State) (j id n : Nat) (b : Bool) : LinkKept l s (s.freeRx j id n b) := by
  refine of_d2d ?_
  unfold State.freeRx State.freeUnits
  cases s.rxPkt j id with
  | none => rfl
  | some x => cases b <;> dsimp only <;> split <;> rfl

theorem copyGone {l : Nat} (s : State) (src : Option (Nat × Nat)) (b : Bool) : LinkKept l s (s.copyGone src b) := by
  unfold State.copyGone State.discardRx
  split
  · exact of_d2d rfl
  · split
    · exact of_d2d rfl
    · split
      · split
        · exact of_d2d rfl
        · exact (of_d2d (t := s.updRx _ _ _) rfl).trans (freeRx _ _ _ _ _)
      · exact of_d2d rfl

theorem unitsMoved {l : Nat} (s : State) (x : PartPkt) (n : Nat) : LinkKept l s (s.unitsMoved x n) := by
  unfold State.unitsMoved
  split
  · split
    · exact of_d2d rfl
    · exact freeRx s _ _ _ _
  · exact d2dFreed s _ _ _ _
  · exact of_d2d rfl

theorem fillXbar {l : Nat} (s : State) (o v : Nat) : LinkKept l s (s.fillXbar o v) := by
  unfold State.fillXbar
  dsimp only
  split
  · exact of_d2d rfl
  · exact (of_d2d (t := s.updPort o _) rfl).trans (foldl (fun s e => unitsMoved s _ _) _ _)

theorem unhold {l : Nat} (s : State) (p : Packet) : LinkKept l s (s.unhold p) := by
  unfold State.unhold
  split
  · exact of_d2d rfl
  · dsimp only
    have less (hs : List Held) : LinkKept l s { s with core.fab.held := hs } := of_d2d rfl
    split
    · exact (less _).trans (copyGone _ _ _)
    · exact (less _).trans (d2dFreed _ _ _ _ _)
    · exact less _

theorem toInbox {l : Nat} (s : State) (h : Held) : LinkKept l s (s.toInbox h) := by
  unfold State.toInbox
  dsimp only
  split
  · refine LinkKept.trans ?_ (unhold _ _)
    exact of_d2d rfl
  · exact of_d2d rfl

theorem unitCrossed {l : Nat} (s : State) (c : Crossing) : LinkKept l s (s.unitCrossed c) := by
  unfold State.unitCrossed
  extract_lets n last _ _ _ u1 u2 u3 p
  have h1 : LinkKept l s u1 := (updD2d s c.link (f := fun d => { d with sent := mupd d.sent (16 * c.die + c.pkt.vc) 0 (fun x => (x + 1) % 2 ^ 24) })
    fun _ => rfl).trans (of_d2d rfl)
  have h2 : LinkKept l u1 u2 := by
    unfold u2
    split
    · split
      · exact of_d2d rfl
      · exact freeRx _ _ _ _ _
    · exact of_d2d rfl
  have h3 : LinkKept l u2 u3 := by
    unfold u3
    split
    · exact copyGone _ _ _
    · exact of_d2d rfl
  refine ((h1.trans h2).trans h3).trans ?_
  split
  · refine LinkKept.trans ?_ (fillXbar _ _ _)
    exact of_d2d rfl
  · exact (d2dFreed u3 _ _ _ _).trans (of_d2d rfl)
  · split
    · exact toInbox _ _
    · exact of_d2d rfl

end LinkKept

theorem State.toInbox_fab (s : State) (h : Held) : FabOnly s (s.toInbox h) := by
  unfold State.toInbox
  dsimp only
  split
  · refine FabOnly.trans ?_ (State.unhold_fab _ _)
    rfl
  · rfl

theorem State.unitCrossed_fab (s : State) (c : Crossing) : FabOnly s (s.unitCrossed c) := by
  unfold State.unitCrossed
  extract_lets n last _ _ _ u1 u2 u3 p
  have h1 : FabOnly s u1 := rfl
  have h2 : FabOnly u1 u2 := by
    unfold u2
    split
    · split
      · rfl
      · exact State.freeRx_fab _ _ _ _ _
    · rfl
  have h3 : FabOnly u2 u3 := by
    unfold u3
    split
    · exact State.copyGone_fab _ _ _
    · rfl
  refine ((h1.trans h2).trans h3).trans ?_
  split
  · refine FabOnly.trans ?_ (State.fillXbar_fab _ _ _)
    rfl
  · refine FabOnly.trans (State.d2dFreed_fab u3 c.link c.die c.pkt.vc 1) ?_
    rfl
  · split
    · exact State.toInbox_fab _ _
    · rfl

/-- The one picked out of a list, pair by pair, is one of the list. -/
theorem foldl_pick {α : Type} {p : α → Prop} {a : α} {l : List α} (ha : p a) (hl : ∀ y ∈ l, p y) (pick : α → α → Bool) :
    p (l.foldl (fun a b => if pick a b then b else a) a) := by
  induction l generalizing a with
  | nil => exact ha
  | cons y l ih =>
    refine ih ?_ fun z hz => hl z (List.mem_cons_of_mem _ hz)
    show p (if pick a y then y else a)
    split
    · exact hl y (List.mem_cons_self ..)
    · exact ha

theorem State.pickCrossing_link {s : State} {l die : Nat} {x : Crossing × Nat × Nat} (h : s.pickCrossing l die = some x) : x.1.link = l := by
  have on {v : Nat} {c : Crossing} (hc : (s.core.fab.crossing.filter (fun c => c.link = l && c.die = die && s.mayCross c)).find? (fun c => c.pkt.vc = v) = some c) :
      c.link = l := by
    have := (List.mem_filter.1 (List.mem_of_find?_eq_some hc)).2
    simp at this
    exact this.1.1
  unfold State.pickCrossing at h
  dsimp only at h
  obtain ⟨⟨c, w⟩, hc, rfl⟩ := Option.map_eq_some_iff.1 h
  simp only [Option.orElse_eq_orElse, Option.orElse_eq_or, Option.or_eq_some_iff, Option.map_eq_some_iff] at hc
  rcases hc with ⟨a, ha, e⟩ | ⟨-, hs | ⟨-, hg⟩⟩
  · cases e
    rcases ha with ha | ⟨-, ha | ⟨-, ha⟩⟩ <;> exact on ha
  · split at hs
    · obtain ⟨a, ha, e⟩ := Option.map_eq_some_iff.1 hs
      cases e
      exact on ha
    · cases hs
  · obtain ⟨k, -, hk⟩ := List.exists_of_findSome?_eq_some hg
    obtain ⟨a, ha, e⟩ := Option.map_eq_some_iff.1 hk
    cases e
    exact on ha

/-- The crossing whose unit comes next over a link is one of that link. -/
theorem State.nextOn_link {s : State} {l : Nat} {c : Crossing} {w : Nat × Nat} (h : s.nextOn l = some (c, w)) : c.link = l := by
  unfold State.nextOn at h
  dsimp only at h
  split at h
  · next hb =>
    obtain ⟨n, -, hf⟩ := Option.bind_eq_some_iff.1 hb
    have := List.find?_some hf
    obtain ⟨rfl, -⟩ := Prod.mk.inj (Option.some.inj h)
    simp at this
    exact this.2
  · split at h
    · cases h
    · next x xs hl =>
      have all : ∀ y ∈ x :: xs, y.1.link = l := fun y hy => by
        rw [← hl] at hy
        obtain ⟨die, -, hp⟩ := List.mem_filterMap.1 hy
        exact State.pickCrossing_link hp
      have := foldl_pick (p := fun y : Crossing × Nat × Nat => y.1.link = l) (all x (List.mem_cons_self ..)) (fun y hy => all y (List.mem_cons_of_mem _ hy))
        (fun a b => min 3 b.1.pkt.vc < min 3 a.1.pkt.vc || (min 3 b.1.pkt.vc = min 3 a.1.pkt.vc && b.1.id < a.1.id))
      rw [← congrArg (fun z => z.1.link) (Option.some.inj h)]
      exact this

/-! The host's control of ports (R286, R302, R310) -/

theorem fldEn_quiet (i : Nat) : ¬ intKey (fldEn i).key := by
  show ¬ (8 * (0x600000 + 0x8000 * (i / 2) + 8) + i % 2) / 8 % 0x1000 = 0x80
  omega

/-- A link that has passed on a unit. -/
def D2d.passed (d : D2d) : D2d := { d with units := d.units + 1, fails := 0, retry := false, again := none }

/-- A link that has passed on a unit of a die, with the sender's place in the round. -/
def D2d.turned (d : D2d) (die : Nat) (w : Nat × Nat) : D2d := { d.passed with wrr := mput d.wrr die w }

/-- A good unit of a link that has come: the next of its crossing, if one is under way (R21, R308). -/
def State.unitPassed (s : State) (l : Nat) : State :=
  match s.nextOn l with
  | none => { s with core.fab.d2d := mput s.core.fab.d2d l (mgetD s.core.fab.d2d l {}).passed }
  | some (c, w) => State.unitCrossed { s with core.fab.d2d := mput s.core.fab.d2d l ((mgetD s.core.fab.d2d l {}).turned c.die w) } c

theorem d2dUnit_good {s : State} {l : Nat} (hl : s.live = true) (hl10 : l < 10) (hf : (mgetD s.core.fab.d2d l {}).failed = false) :
    exec (.d2dUnitReceived l ⟨true, false⟩) s = .next { s with core := (s.unitPassed l).core } := by
  have here : (decide (l ≥ 10) || (mgetD s.core.fab.d2d l {}).failed) = false := by rw [hf]; simpa using hl10
  show liftCore _ s = _
  rw [liftCore_goes, whenLive_pos _ hl]
  simp only [here, Bool.false_eq_true, if_false, if_true, Bool.not_true, State.unitPassed]
  cases s.nextOn l <;> rfl

theorem d2dUnit_bad {s : State} {l : Nat} (k : Bool) (hl : s.live = true) (hl10 : l < 10) (hf : (mgetD s.core.fab.d2d l {}).failed = false) :
    exec (.d2dUnitReceived l ⟨false, k⟩) s = .next { s with core.fab.d2d := mput s.core.fab.d2d l { mgetD s.core.fab.d2d l {} with
      fails := if (mgetD s.core.fab.d2d l {}).retry then (mgetD s.core.fab.d2d l {}).fails + 1 else 0, retry := true
      again := ((s.nextCrossing l).map (·.id)).or (mgetD s.core.fab.d2d l {}).again } } := by
  have here : (decide (l ≥ 10) || (mgetD s.core.fab.d2d l {}).failed) = false := by rw [hf]; simpa using hl10
  show liftCore _ s = _
  rw [liftCore_goes, whenLive_pos _ hl]
  simp only [here, Bool.false_eq_true, if_false, if_true, Bool.not_false, State.nextCrossing]
  cases s.nextOn l <;> rfl

/-- A unit passed on changes the fabric alone, and the link counts it. -/
theorem State.unitPassed_keeps (s : State) (l : Nat) : FabOnly s (s.unitPassed l)
    ∧ ∃ x, mget (s.unitPassed l).core.fab.d2d l = some x ∧ x.counts = (mgetD s.core.fab.d2d l {}).passed.counts := by
  have put (d : D2d) : FabOnly s { s with core.fab.d2d := mput s.core.fab.d2d l d } := rfl
  unfold State.unitPassed
  split
  · exact ⟨put _, _, mget_mput_same _ _ _, rfl⟩
  · next c w _ =>
    have k := put ((mgetD s.core.fab.d2d l {}).turned c.die w)
    refine ⟨k.trans (State.unitCrossed_fab _ c), ?_⟩
    exact LinkKept.unitCrossed (l := l) _ c ((mgetD s.core.fab.d2d l {}).turned c.die w) (mget_mput_same _ _ _)

/-- The unit of a packet for the far die. -/
theorem State.unitPassed_far {s : State} {l : Nat} {c : Crossing} {w : Nat × Nat} (h : s.nextOn l = some (c, w)) (hs : c.src = none) (ho : c.out = none)
    (ht : c.stamp = none) (h11 : c.pkt.type ≠ 0x11) :
    (c.pkt.len ≤ c.sent + 1 → (s.unitPassed l).core.fab.inbox = s.core.fab.inbox ++ [{ c.pkt with poison := c.pkt.poison || !c.ps.isEmpty }]
      ∧ (s.unitPassed l).core.fab.held = s.core.fab.held ++ [{ pkt := { c.pkt with poison := c.pkt.poison || !c.ps.isEmpty }, link := some (l, c.die) }])
    ∧ (¬ c.pkt.len ≤ c.sent + 1 → (s.unitPassed l).core.fab.inbox = s.core.fab.inbox ∧ (s.unitPassed l).core.fab.held = s.core.fab.held)
    ∧ (mgetD (s.unitPassed l).core.fab.d2d l {}).sent = mupd (mgetD s.core.fab.d2d l {}).sent (16 * c.die + c.pkt.vc) 0 (fun n => (n + 1) % 2 ^ 24)
    ∧ (mgetD (s.unitPassed l).core.fab.d2d l {}).wrr = mput (mgetD s.core.fab.d2d l {}).wrr c.die w := by
  have hlink := State.nextOn_link h
  unfold State.unitPassed State.unitCrossed
  simp only [h, hs, ho, ht, hlink, State.copyGone, ite_self]
  have d2d (d : D2d) : mgetD (mupd (mput s.core.fab.d2d l d) l {} (fun d => { d with sent := mupd d.sent (16 * c.die + c.pkt.vc) 0 (fun x => (x + 1) % 2 ^ 24) })) l {}
      = { d with sent := mupd d.sent (16 * c.die + c.pkt.vc) 0 (fun x => (x + 1) % 2 ^ 24) } := by
    rw [mgetD_mupd_same, mgetD, mget_mput_same]
    rfl
  by_cases hlast : c.sent + 1 ≥ c.pkt.len
  · simp only [decide_eq_true hlast, if_true, State.toInbox, h11, decide_false, Bool.false_and, Bool.false_eq_true, if_false]
    exact ⟨fun _ => ⟨rfl, rfl⟩, fun hn => absurd hlast hn, congrArg D2d.sent (d2d _), congrArg D2d.wrr (d2d _)⟩
  · simp only [decide_eq_false hlast, Bool.false_eq_true, if_false]
    exact ⟨fun hn => absurd hn hlast, fun _ => ⟨rfl, rfl⟩, congrArg D2d.sent (d2d _), congrArg D2d.wrr (d2d _)⟩

theorem Accessed.ras {s t : State} (h : Accessed s t) : t.core.ras = s.core.ras := by
  obtain ⟨_, _, _, _, _, _, _, _, rfl⟩ := h.rest
  rfl

/-- A record of the log moves the log's own pointers alone in the RAS state (R409). -/
theorem State.rasLog_ras (s : State) (t c src die unit ctx a d n : Nat) : ∃ kept seq idx w,
    (s.rasLog t c src die unit ctx a d n).core.ras = { s.core.ras with kept := kept, seq := seq, idx := idx, wrapped := w } := by
  unfold State.rasLog
  extract_lets m i phase rec_ ovf i' _ _ u at' _ _ v w
  split
  · exact ⟨_, _, _, _, rfl⟩
  · have hw : w.core.ras = v.core.ras := (Accessed.raiseIf v ovf (o := rasInt) (i := 0) (by decide) (by decide)).ras
    have hh : (w.hostWrite at' rec_).core.ras = v.core.ras := (Accessed.hostWrite w at' rec_).ras.trans hw
    split <;> exact ⟨_, _, _, _, hh.trans rfl⟩

/-- What a fatal error latches (R405, R410). -/
structure Latched (src die unit : Nat) (s t : State) : Prop where
  rest : ∃ regs irq h b ras boot, t = { s with core.regs := regs, core.irq := irq, core.mem.host := h, core.mem.hostBad := b, core.ras := ras, core.boot := boot }
  stop : t.core.ras.stop = true
  frozen : t.core.ras.frozen = s.core.ras.frozen
  first : s.core.ras.stop = false → t.core.ras.v = true ∧ t.core.ras.src = src ∧ t.core.ras.die = die ∧ t.core.ras.unit = unit ∧ t.core.ras.fatalFt = s.now
    ∧ t.core.boot = { s.core.boot with faultN := true } ∧ t.flagBit rasInt 4 = true

theorem State.fatalError_latches (s : State) (src die unit : Nat) : Latched src die unit s (s.fatalError src die unit) := by
  unfold State.fatalError
  split
  · next h =>
    simp only [Bool.and_eq_true] at h
    exact ⟨⟨_, _, _, _, _, _, rfl⟩, h.2, rfl, fun h0 => by rw [h.2] at h0; cases h0⟩
  · extract_lets _ _ _ u
    obtain ⟨_, _, _, _, hr⟩ := u.rasLog_ras 0x10 3 src die 0xFFFF 0xFFFF 0 0 1
    have hk : ((u.rasLog 0x10 3 src die 0xFFFF 0xFFFF 0 0 1).raise rasInt 4).core.ras = (u.rasLog 0x10 3 src die 0xFFFF 0xFFFF 0 0 1).core.ras :=
      (Accessed.raise _ (by decide) (by decide)).ras
    rw [hr] at hk
    obtain ⟨_, _, _, _, _, hl⟩ := (u.rasLog_logOnly 0x10 3 src die 0xFFFF 0xFFFF 0 0 1).trans (State.raise_logOnly _ rasInt 4)
    refine ⟨⟨_, _, _, _, _, _, hl⟩, by rw [hk], by rw [hk], fun _ => ⟨by rw [hk], by rw [hk], by rw [hk], by rw [hk], by rw [hk], by rw [hl], State.flagBit_raise ..⟩⟩

theorem State.freezeNotices_d2d (l : List Nat) (s : State) : (l.foldl State.freezeNotice s).core.fab.d2d = s.core.fab.d2d := by
  induction l generalizing s with
  | nil => rfl
  | cons i l ih =>
    refine (ih _).trans ?_
    unfold State.freezeNotice
    dsimp only
    split <;> rfl

/-- A freeze keeps the stop of the module, memory and the links (R411). -/
theorem State.freeze_keeps (s : State) : s.freeze.core.ras.stop = s.core.ras.stop ∧ s.freeze.core.mem = s.core.mem ∧ s.freeze.core.fab.d2d = s.core.fab.d2d := by
  have hd := s.freezeNotices_d2d (s.core.fab.ports.map (·.1))
  have hf : FabOnly s ((s.core.fab.ports.map (·.1)).foldl State.freezeNotice s) := FabOnly.foldl _ freezeNotice_fab _ _
  unfold State.freeze
  split
  · exact ⟨rfl, rfl, rfl⟩
  · exact ⟨by rw [hf], by rw [hf], hd⟩

/-- A fatal error stops the module, and a freeze leaves it stopped; of memory HBM stays, and the links (R405, R410-R412). -/
theorem State.fatalStop_stops (s : State) (src die unit : Nat) : (s.fatalStop src die unit).core.ras.stop = true
    ∧ (s.fatalStop src die unit).core.mem.hbm = s.core.mem.hbm ∧ (s.fatalStop src die unit).core.fab.d2d = s.core.fab.d2d := by
  have k := s.fatalError_latches src die unit
  have hm : (s.fatalError src die unit).core.mem.hbm = s.core.mem.hbm ∧ (s.fatalError src die unit).core.fab.d2d = s.core.fab.d2d := by
    obtain ⟨_, _, _, _, _, _, h⟩ := k.rest
    rw [h]
    exact ⟨rfl, rfl⟩
  unfold State.fatalStop
  dsimp only
  split
  · obtain ⟨h1, h2, h3⟩ := (s.fatalError src die unit).freeze_keeps
    exact ⟨h1.trans k.stop, (congrArg Memory.hbm h2).trans hm.1, h3.trans hm.2⟩
  · exact ⟨k.stop, hm⟩

/-- The host's control of ports (R286, R302, R310). -/
theorem portControl : Says.PortControl := by
  intro s i hd hpp p
  have hl := live_of_dispatching hd
  refine ⟨fun h2 hst hset => ?_, fun h2 htx hrx hrep => ?_, fun h2 hst => ?_, fun v => ⟨fun h0 h1 => ?_, fun h => ?_⟩, fun id => ⟨fun hdn hen => ?_, fun h => ?_⟩,
    fun l hl10 => ?_, fun n => ⟨?_, fun hn => ?_⟩⟩
  · have odd : (decide (i % 2 = 1) && !(s.setReg (fldEn i) (b2n true)).halfMode i) = false := by simp [show i % 2 ≠ 1 by omega]
    have down : (decide (((s.setReg (fldEn i) (b2n true)).port i).st = .down) && (s.setReg (fldEn i) (b2n true)).core.fab.modidSet) = true := by
      rw [show ((s.setReg (fldEn i) (b2n true)).port i).st = .down from hst, show (s.setReg (fldEn i) (b2n true)).core.fab.modidSet = true from hset]
      rfl
    have k := (PortAt.start (s.setReg (fldEn i) (b2n true)) i).toState .train
    have others : ((s.setReg (fldEn i) (b2n true)).toState i .train).core.fab = ((s.setReg (fldEn i) (b2n true)).updPort i (fun p => { p with st := .train })).core.fab :=
      (Noted.rasLog ..).fab
    refine ⟨_, rfl, ?_⟩
    simp only [whenDispatching_pos _ hd, hpp, if_true, State.setEn, odd, Bool.false_eq_true, if_false, down]
    revert k others
    generalize (s.setReg (fldEn i) (b2n true)).toState i .train = u
    intro k others
    refine ⟨congrArg Port.st k.port, (k.regs.reg (fldEn_quiet i)).trans (State.reg_setReg_same ..), fun j hj => ?_, k.mem.1⟩
    exact (congrArg (fun f : Fab => mgetD f.ports j {}) others).trans (State.port_updPort_ne (s.setReg (fldEn i) (b2n true)) _ hj)
  · have odd : (decide (i % 2 = 1) && !(s.setReg (fldEn i) (b2n false)).halfMode i) = false := by simp [show i % 2 ≠ 1 by omega]
    refine ⟨_, rfl, ?_⟩
    simp only [whenDispatching_pos _ hd, hpp, if_true, State.setEn, odd, Bool.false_eq_true, if_false]
    have k := PortAt.start (s.setReg (fldEn i) (b2n false)) i
    have hen := State.reg_setReg_same s (fldEn i) (b2n false)
    have hport : (s.setReg (fldEn i) (b2n false)).port i = s.port i := rfl
    revert k hen hport
    generalize s.setReg (fldEn i) (b2n false) = u
    intro k hen hport
    rw [hport] at k
    by_cases hst : (u.port i).st = .down
    · rw [if_pos hst]
      exact ⟨hst, hen⟩
    · rw [if_neg hst]
      obtain ⟨q, k, -⟩ := (k.dropQueued ⟨htx, hrx⟩).discardState ⟨htx, hrx⟩ hrep (hport ▸ hst)
      obtain ⟨now, m⟩ := k.countWait.leaveTo .down
      have n := m.upd (f := fun p => { p with
        left := false, lost := false, out := none, width := 0, rsSent := false, rsGot := false, rsFt := none, doneSent := false, doneGot := false, resend := [] }) rfl
      revert n
      generalize ((((u.dropQueued i).discardState i).countWait i).leaveTo i .down).updPort i _ = v
      intro n
      exact ⟨(congrArg Port.st n.port).trans (Port.entered_st ..), (n.regs.reg (fldEn_quiet i)).trans hen⟩
  · refine answers_port_control (i := i) hd ?_
    simp only [portNamed_of_even hpp h2, if_true]
    obtain ⟨now, k⟩ := (PortAt.start s i).portReset hst
    obtain ⟨h1, h2, h3, h4, -⟩ := Port.trained_kept (s.port i) now
    exact ⟨_, k, fun t h _ => ⟨by rw [h.port, h1], by rw [h.port, h2], by rw [h.port, h3], by rw [h.port, h4], h.mem.1⟩⟩
  · refine answers_dispatching_at hd (t := s.setReg (fldHalf (i / 2)) (b2n v)) ?_ ⟨?_, rfl, rfl⟩
    · simp only [hpp, if_true, State.setHalf, h0, h1, decide_true, Bool.and_self]
    · exact (State.reg_setReg_same ..).trans (by cases v <;> rfl)
  · show liftCore _ s = _
    rw [liftCore_goes, whenDispatching_pos _ hd]
    have busy : (decide ((s.port (2 * (i / 2))).st = .down) && decide ((s.port (2 * (i / 2) + 1)).st = .down)) = false := by
      rcases h with h | h <;> simp [h]
    simp only [hpp, if_true, State.setHalf, busy, Bool.false_eq_true, if_false]
  · have idle : s.core.fab.ports.any (fun e => e.2.st ≠ .down) = false := by simpa using hdn
    have still (u : State) (h : ∀ j, j < 40 → u.reg (fldEn j) = 0) :
        ((List.range 40).filter (fun j => u.portNamed j && decide (u.reg (fldEn j) = 1))).foldl (fun s i => s.toState i .train) u = u := by
      rw [List.filter_eq_nil_iff.2 fun j hj => by simp [h j (List.mem_range.1 hj)]]
      rfl
    refine answers_dispatching_at hd (t := { s.setReg fldModid id with core.fab.modidSet := true }) ?_ ⟨State.reg_setReg_same .., rfl, rfl, rfl⟩
    rw [State.modidWrite, idle, if_neg Bool.false_ne_true]
    refine still { s.setReg fldModid id with core.fab.modidSet := true } fun j hj => (State.reg_setReg_ne s fldModid (fldEn j) id ?_).trans (hen j hj)
    show 8 * (0x600000 + 0x8000 * (j / 2) + 8) + j % 2 ≠ 8 * 0x6C0000 + 0
    omega
  · show liftCore _ s = _
    have busy : s.core.fab.ports.any (fun e => e.2.st ≠ .down) = true := by simpa using h
    rw [liftCore_goes, whenDispatching_pos _ hd, State.modidWrite, if_pos busy]
  · intro d hf
    refine ⟨?_, fun k => ?_, fun h16 => ?_, fun h16 => ?_⟩
    · obtain ⟨hk, x, hx, hc⟩ := s.unitPassed_keeps l
      refine ⟨_, d2dUnit_good hl hl10 hf, ⟨x, hx, ?_⟩, by rw [hk], fun hn => ?_, fun c w hcw hs ho ht h11 => ?_⟩
      · obtain ⟨h1, h2, h3, h4⟩ := (by simpa [D2d.counts] using hc : x.units = d.passed.units ∧ x.fails = d.passed.fails ∧ x.retry = d.passed.retry ∧ x.again = d.passed.again)
        exact ⟨h1, h2, h3, h4⟩
      · show (s.unitPassed l).core.fab.crossing = _ ∧ (s.unitPassed l).core.fab.inbox = _
        rw [State.unitPassed, hn]
        exact ⟨rfl, rfl⟩
      · exact State.unitPassed_far hcw hs ho ht h11
    · exact ⟨_, d2dUnit_bad k hl hl10 hf, rfl, rfl⟩
    · have due : (decide (l < 10) && !d.failed && decide (d.fails ≥ 16)) = true := by simp [hl10, hf, h16]
      refine ⟨_, rfl, ?_⟩
      simp only [whenLive_pos _ hl, show (decide (l < 10) && !(mgetD s.core.fab.d2d l {}).failed && decide ((mgetD s.core.fab.d2d l {}).fails ≥ 16)) = true from due,
        if_true]
      obtain ⟨h1, -, h3⟩ := State.fatalStop_stops { s with core.fab.d2d := mput s.core.fab.d2d l { mgetD s.core.fab.d2d l {} with failed := true } } 0x0A (linkDie l) l
      exact ⟨h1, by rw [h3, mgetD, mget_mput_same]; rfl⟩
    · show liftCore _ s = _
      have early : (decide (l < 10) && !d.failed && decide (d.fails ≥ 16)) = false := by simp [h16]
      rw [liftCore_goes, whenLive_pos _ hl]
      simp only [show (decide (l < 10) && !(mgetD s.core.fab.d2d l {}).failed && decide ((mgetD s.core.fab.d2d l {}).fails ≥ 16)) = false from early,
        Bool.false_eq_true, if_false]
  · refine ⟨_, rfl, ?_⟩
    rw [whenLive_pos _ hl]
    obtain ⟨h1, h2, -⟩ := s.fatalStop_stops 8 4 0
    exact ⟨h1, h2⟩
  · refine ⟨_, rfl, ?_⟩
    simp only [whenLive_pos _ hl, hn, if_true]
    obtain ⟨h1, h2, h3⟩ := State.fatalStop_stops { s with core.fab.d2d := mupd s.core.fab.d2d n {} (fun d => { d with failed := true }) } 0x0A (linkDie n) n
    exact ⟨h1, by rw [h3, mgetD_mupd_same], h2⟩

/-- Settles O60: each command makes its port, or its link, what the statement says. -/
theorem portsAndLinks : Obligations.PortsAndLinks := ⟨portsComeUp, portControl⟩

end Sys2Proof.Machine
end

section
/-! PROOF. Fatal errors, scrubbing, and errors in the engines' memories (O51; 17_errors R404-R411, 04_ope R83, R103). -/
namespace Sys2Proof.Machine
open State

theorem answers_timing {s t : State} {f : State → State} {Q : State → Prop} (ht : s.timing = true) (hf : f s = t) (hQ : Q { s with core := t.core }) :
    Answers (liftCore (whenTiming f) s) Q := by
  refine answers_core ?_
  rwa [whenTiming_pos _ ht, hf]

/-- A fatal error keeps every field that is no interrupt bit. -/
theorem State.fatalError_regs (s : State) (src die unit : Nat) : RegsKept s (s.fatalError src die unit) := by
  unfold State.fatalError
  split
  · exact .of_regs rfl
  · extract_lets _ _ _ u
    exact (RegsKept.of_regs (s := s) (t := u) rfl).trans ((RegsKept.rasLog u ..).trans (.raise _ (o := rasInt) (i := 4) (by decide) (by decide)))

/-- Where FRZ_ON_FATAL is clear a fatal error stops the module without a freeze (R410). -/
theorem State.fatalStop_latches {s : State} (h : s.reg fldFrzOnFatal = 0) (src die unit : Nat) : s.fatalStop src die unit = s.fatalError src die unit := by
  unfold State.fatalStop
  exact if_neg (by rw [(s.fatalError_regs src die unit).reg (by unfold intKey; decide), h]; decide)

theorem fatalErrors : Says.FatalErrors := by
  intro s ht hfrz
  have runs (src : Nat) (hs : src ∈ [2, 8, 9, 0xA, 0xD]) (die unit : Nat) (hd : die ≤ 4) :
      (if [2, 8, 9, 0xA, 0xD].contains src && decide (die ≤ 4) then s.fatalStop src die (unit % 256) else s) = s.fatalError src die (unit % 256) := by
    rw [if_pos (by rw [List.contains_iff_mem.2 hs, decide_eq_true hd]; rfl), State.fatalStop_latches hfrz]
  refine ⟨fun src hs die unit hd hstop => ?_, fun src hs die unit hd hstop hv => ?_, fun hstop => ?_, fun hstop => ?_⟩
  · refine answers_timing ht (runs src hs die unit hd) ?_
    obtain ⟨hrest, hst, -, hfirst⟩ := s.fatalError_latches src die (unit % 256)
    obtain ⟨hv, hsrc, hdie, hunit, hft, hboot, hflag⟩ := hfirst hstop
    refine ⟨hst, hv, hsrc, hdie, hunit, hft, congrArg Boot.faultN hboot, hflag, ?_, ?_, ?_⟩
    · simp only [State.dispatching, hst, Bool.not_true, Bool.and_false]
    all_goals
      obtain ⟨_, _, _, _, _, _, h⟩ := hrest
      rw [h]
  · show liftCore _ s = _
    rw [liftCore_goes, whenTiming_pos _ ht]
    dsimp only
    rw [runs src hs die unit hd, State.fatalError, if_pos (by simp [hstop, hv])]
  · obtain ⟨hft, -, hboot, -, -, -, -, -⟩ := resetModule_reborn s 4
    obtain ⟨hv, hfatal, -⟩ := newLife_ras s 4 (if s.core.boot.perst || s.core.boot.trip then .rails else .rom)
    have hst : (s.resetModule 4).core.ras.stop = false := by
      obtain ⟨_, _, h1⟩ := settleProg_rest s
      obtain ⟨_, _, h2⟩ := settleIdx_rest s.settleProg
      unfold State.resetModule State.newLife
      rw [h2, h1]
      rfl
    have hrun : execFatalHoldExpiry s = .next { s with ft := (s.resetModule 4).ft, core := (s.resetModule 4).core } := by
      unfold execFatalHoldExpiry
      rw [liftTime_timing ht, if_neg (by simp [hstop]), if_neg (by rw [hfrz]; decide)]
    exact ⟨_, hrun, congrArg Boot.cause hboot, hft, hfatal.trans (by rw [hstop, Bool.or_true]), hv, hst⟩
  · show execFatalHoldExpiry s = _
    unfold execFatalHoldExpiry
    rw [liftTime_timing ht, if_pos (by simp [hstop])]

/-! Scrubbing -/

/-- The RAS counter of scrubbed lines is moved by a scrub alone. -/
theorem rasLog_scrubs (s : State) (t c src die unit ctx a d n : Nat) : (s.rasLog t c src die unit ctx a d n).counter (rasBase + 0x128) = s.counter (rasBase + 0x128) := by
  have kept (w : State) (at' : Nat) (bs : List Byte) : (w.hostWrite at' bs).counter (rasBase + 0x128) = w.counter (rasBase + 0x128) := by
    unfold State.hostWrite
    split
    · exact State.counter_bump_ne _ _ (by decide)
    · exact (State.counter_raise _ _ _ (by decide)).trans (State.counter_bump_ne _ _ (by decide))
  have raised (w : State) (b : Bool) : (w.raiseIf b rasInt 0).counter (rasBase + 0x128) = w.counter (rasBase + 0x128) := by
    unfold State.raiseIf
    split
    · exact State.counter_raise _ _ _ (by decide)
    · rfl
  unfold State.rasLog
  extract_lets m i phase rec_ ovf i' _ _ u at' _ _ v w
  have hw : w.counter (rasBase + 0x128) = s.counter (rasBase + 0x128) := raised v ovf
  split
  · rfl
  · split
    · exact (kept _ _ _).trans hw
    · exact (State.counter_bump_ne _ _ (by decide)).trans ((kept _ _ _).trans hw)

/-- A corrected error is noted in the log, if anywhere, and counted there (R405). -/
theorem State.rasCe_keeps (s : State) (src die : Nat) : Noted s (s.rasCe src die)
    ∧ (s.rasCe src die).counter (rasBase + 0x128) = s.counter (rasBase + 0x128) ∧ LogOnly s (s.rasCe src die) := by
  unfold State.rasCe
  extract_lets _ _ _ _ _ u _
  have hu : Noted s u := ⟨⟨_, _, _, _, _, _, _, rfl⟩, .of_regs rfl⟩
  have lu : LogOnly s u := ⟨_, _, _, _, _, rfl⟩
  split
  · exact ⟨hu.trans ((Noted.rasLog u ..).trans (.raise _ (by decide) (by decide))),
      (State.counter_raise _ _ _ (by decide)).trans ((rasLog_scrubs ..).trans rfl), lu.trans ((State.rasLog_logOnly ..).trans (State.raise_logOnly ..))⟩
  · exact ⟨hu, rfl, lu⟩

theorem LogOnly.memory {s t : State} (h : LogOnly s t) : t.core.mem.hbm = s.core.mem.hbm ∧ t.core.mem.badLines = s.core.mem.badLines := by
  obtain ⟨_, _, _, _, _, h⟩ := h
  rw [h]
  exact ⟨rfl, rfl⟩

theorem State.rasUc_logOnly (s : State) (src die unit ctx addr n : Nat) : LogOnly s (s.rasUc src die unit ctx addr n) :=
  (s.rasLog_logOnly ..).trans (State.raise_logOnly ..)

theorem State.rasUc_stop (s : State) (src die unit ctx addr n : Nat) : (s.rasUc src die unit ctx addr n).core.ras.stop = s.core.ras.stop := by
  obtain ⟨_, _, _, _, h⟩ := s.rasLog_ras 0x10 1 src die unit ctx addr 0 n
  unfold State.rasUc
  rw [(Accessed.raise _ (by decide) (by decide)).ras, h]

/-- A line that is marked reads as poisoned. -/
theorem hbmPoison_of_marked {s : State} {a : Nat} (h : a / 64 ∈ s.core.mem.badLines) : s.hbmPoison (a / 64 * 64) 64 = true := by
  simp only [State.hbmPoison, List.any_eq_true]
  exact ⟨_, h, by simp⟩

theorem scrubMarks : Says.ScrubMarks := by
  intro s a hl ha
  have hno : ¬ (!s.dpaOk a) = true := by simp [ha]
  refine ⟨?_, fun hf => ?_, fun hf => ?_, fun c => ?_⟩
  · obtain ⟨w, hw⟩ : ∃ w, w = (s.bump (rasBase + 0x128) 1).bump (rasBase + 0x100) 1 := ⟨_, rfl⟩
    obtain ⟨-, hc, hm⟩ := w.rasCe_keeps 1 (a / 2 ^ 37 / 2)
    refine answers_live_at hl (t := w.rasCe 1 (a / 2 ^ 37 / 2)) ?_ ⟨?_, hm.memory.1.trans (by rw [hw]; rfl), hm.memory.2.trans (by rw [hw]; rfl)⟩
    · rw [hw, if_neg hno]
      rfl
    · refine hc.trans ?_
      rw [hw, State.counter_bump_ne _ _ (by decide), State.counter_bump_same]
  · obtain ⟨w, hw⟩ : ∃ w, w = (s.bump (rasBase + 0x128) 1).markLine a := ⟨_, rfl⟩
    have hmem := (w.rasUc_logOnly 1 (a / 2 ^ 37 / 2) 0xFFFF 0xFFFF (a / 64 * 64) 1).memory
    refine answers_live_at hl (t := w.rasUc 1 (a / 2 ^ 37 / 2) 0xFFFF 0xFFFF (a / 64 * 64) 1) ?_
      ⟨hbmPoison_of_marked (hmem.2 ▸ ?_), State.flagBit_raise .., hmem.1.trans (by rw [hw]; rfl), (State.rasUc_stop ..).trans (by rw [hw]; rfl)⟩
    · rw [hw, if_neg hno]
      exact if_neg (c := s.inFirmware a = true) (by rw [hf]; decide)
    · rw [hw]
      exact mem_sins_self ..
  · refine answers_live_at hl (t := (s.bump (rasBase + 0x128) 1).fatalStop 2 (a / 2 ^ 37 / 2) (a / 2 ^ 37)) ?_ (State.fatalStop_stops ..).1
    rw [if_neg hno]
    exact if_pos hf
  · obtain ⟨w, hw⟩ : ∃ w, w = ((s.bump (rasBase + 0x128) 1).bump (rasBase + 0x120) 1).rasUc 8 (a / 2 ^ 37 / 2) 0xFFFF 0xFFFF (a / 64 * 64) 1 := ⟨_, rfl⟩
    obtain ⟨x, hx⟩ : ∃ x : State, x = { w with core.mem.badLines := sins (a / 64) (s.bump (rasBase + 0x128) 1).core.mem.badLines } := ⟨_, rfl⟩
    have hmem : x.core.mem.hbm = s.core.mem.hbm := by
      rw [hx, hw]
      exact (State.rasUc_logOnly ..).memory.1
    have hflag : x.flagBit rasInt 2 = true := by
      rw [hx, hw]
      exact State.flagBit_raise ..
    have hbad : a / 64 ∈ x.core.mem.badLines := by
      rw [hx]
      exact mem_sins_self ..
    obtain ⟨u, hu⟩ : ∃ u, u = if c then (x.bump (rasBase + 0x100) 1).rasCe 1 (a / 2 ^ 37 / 2) else x := ⟨_, rfl⟩
    refine answers_live_at hl (t := u) ?_ ?_
    · rw [hu, hx, hw, if_neg hno]
      rfl
    · rw [hu]
      split
      · obtain ⟨hn, -, hlog⟩ := (x.bump (rasBase + 0x100) 1).rasCe_keeps 1 (a / 2 ^ 37 / 2)
        exact ⟨hbmPoison_of_marked (hlog.memory.2 ▸ hbad), hn.regs.flagBit (by decide) (by decide) hflag, hlog.memory.1.trans hmem⟩
      · exact ⟨hbmPoison_of_marked hbad, hflag, hmem⟩

/-! Errors in the engines' memories -/

theorem Logged.opes {s t : State} (h : Logged s t) : t.core.opes = s.core.opes := by
  obtain ⟨_, _, _, _, _, _, _, _, rfl⟩ := h
  rfl

theorem Logged.ope {s t : State} (h : Logged s t) (n : Nat) : t.ope n = s.ope n := by unfold State.ope; rw [h.opes]

theorem Logged.duty {s t : State} (h : Logged s t) : t.core.pwr = s.core.pwr := by
  obtain ⟨_, _, _, _, _, _, _, _, rfl⟩ := h
  rfl

/-- One error is met before the cycle. -/
theorem opeErrors_one {s : State} {n : Nat} (h : n < 64) (x : OpeErr) : s.opeErrors n [x] = s.opeError n x := if_pos h

theorem young_filter {l : List OpeStep} (h : ∀ y ∈ l, y.age < 23) : l.filter (fun t => t.age ≥ 23) = [] ∧ l.filter (fun t => t.age < 23) = l := by
  refine ⟨List.filter_eq_nil_iff.2 fun y hy => ?_, List.filter_eq_self.2 fun y hy => ?_⟩
  · simp [Nat.not_le.2 (h y hy)]
  · simp [h y hy]

/-- Where no step has reached stage 23 the cell writes leave the engine as it is (R79). -/
theorem State.cellWrites_young {s : State} {n : Nat} (h : ∀ y ∈ (s.ope n).pipe, y.age < 23) : (s.cellWrites n).ope n = s.ope n := by
  obtain ⟨h0, h1⟩ := young_filter h
  unfold State.cellWrites
  dsimp only
  rw [h0, List.foldl_nil, State.ope_setOpe_same, h1]

theorem mem_struck (l m : List Nat) (k : Nat) : k ∈ l.foldl (fun m k => sins k m) m ↔ k ∈ m ∨ k ∈ l := by
  induction l generalizing m with
  | nil => simp
  | cons x l ih =>
    rw [List.foldl_cons, ih, mem_sins, List.mem_cons]
    tauto

/-- An error in a cell of a tile that stands (R90, R346). -/
theorem cellError {s : State} {n p t k : Nat} {tl : Tile} (h : mget ((s.ope n).part p).tiles t = some tl) :
    (s.opeError n (.cell p t k)).ope n = (s.ope n).setPart p { (s.ope n).part p with tiles := mput ((s.ope n).part p).tiles t (tl.poisonCell k) } := by
  obtain ⟨u, hu⟩ : ∃ u, u = s.ramError 3 1 ⟨(s.ope n).mode, n, p⟩ := ⟨_, rfl⟩
  have ho : u.ope n = s.ope n := by rw [hu]; exact (Logged.ramError ..).ope n
  have he : s.opeError n (.cell p t k) = u.setTile n p t (tl.poisonCell k) := by
    unfold State.opeError State.memError
    dsimp only
    rw [h, hu]
  rw [he, State.setTile, State.ope_setOpe_same, ho]

/-- An error in a line of the operand buffer under an OPA in progress (R83). -/
theorem lineError {s : State} {n l : Nat} {x : OpaRun} (h : ((s.ope n).part (l / (s.ope n).per)).run = some x) :
    (s.opeError n (.line l)).ope n = (s.ope n).setPart (l / (s.ope n).per) { (s.ope n).part (l / (s.ope n).per) with
      run := some { x with struck := (struckBy (s.ope n) (l / (s.ope n).per) x l).foldl (fun m k => sins k m) x.struck } }
    ∧ (s.opeError n (.line l)).core.pwr = s.core.pwr := by
  obtain ⟨u, hu⟩ : ∃ u, u = s.ramError 4 1 ⟨(s.ope n).mode, n, l / (s.ope n).per⟩ := ⟨_, rfl⟩
  have he : s.opeError n (.line l) = u.setOpe n ((s.ope n).setPart (l / (s.ope n).per) { (s.ope n).part (l / (s.ope n).per) with
      run := some { x with struck := (struckBy (s.ope n) (l / (s.ope n).per) x l).foldl (fun m k => sins k m) x.struck } }) := by
    unfold State.opeError State.memError
    dsimp only
    rw [h, hu]
  refine ⟨by rw [he, State.ope_setOpe_same], ?_⟩
  rw [he, hu]
  exact (Logged.ramError ..).duty

/-- An error in the control state of a partition that works for no queue fences it (R103, R405). -/
theorem controlError_fences {s : State} {n p : Nat} (hp : p < (s.ope n).count) (hf : ((s.ope n).part p).fence = 0)
    (hu : s.slotUser ⟨(s.ope n).mode, n, p⟩ = none) : ∃ tile q c, (s.opeError n (.control p)).ope n = (s.ope n).fence p 2 tile q c := by
  have hb : (s.bump (rasBase + 0x118) 1).slotUser ⟨(s.ope n).mode, n, p⟩ = none := hu
  obtain ⟨tile, ht⟩ : ∃ tile, tile = (match ((s.ope n).part p).run with | some x => x.e.tile | none => 0) := ⟨_, rfl⟩
  refine ⟨tile, 0xFFFF, 0xFFFF, ?_⟩
  unfold State.opeError
  dsimp only
  rw [if_pos hp]
  unfold State.controlError
  dsimp only
  rw [hb, if_pos hf, Option.getD_none, if_pos rfl]
  refine (Logged.ope (.of_logOnly ((State.rasLog_logOnly ..).trans (State.raise_logOnly ..))) n).trans ?_
  subst ht
  exact State.ope_setOpe_same _ _ _

theorem tile_word_struck (sh : Nat) (m : List Byte) (bad : Nat → Bool) {k : Nat} (hk : k < shapeCells sh) (hb : bad (8 * k / 64) = true) :
    (tileOfImage false sh m bad).poisonAt k = true := by
  unfold tileOfImage Tile.poisonAt Tile.cell
  simp only [Bool.false_eq_true, if_false, mgetD]
  rw [mget_map_key _ (List.mem_range.2 hk), Option.getD_some, hb]
  simp only [Bool.or_true, Bool.true_or, if_true, Cell.ofWord]
  generalize bits _ _ _ = w
  rw [show 16 = 2 ^ 4 from rfl, Nat.testBit_mod_two_pow, Nat.testBit_or, show Nat.testBit 4 2 = true from rfl]
  simp

/-- A cell that is struck reads as poisoned. -/
theorem poisonCell_poisonAt (t : Tile) {k : Nat} (hk : k < shapeCells t.shape) : (t.poisonCell k).poisonAt k = true := by
  unfold Tile.poisonCell
  rw [if_neg (not_le.2 hk)]
  by_cases ha : t.a32 = true
  · rw [if_pos ha]
    unfold Tile.poisonAt Tile.row
    dsimp only
    rw [if_pos ha, mgetD_mupd_same, Nat.testBit_or, show Nat.testBit 4 2 = true from rfl, Bool.or_true]
  · rw [if_neg ha]
    unfold Tile.poisonAt Tile.cell
    dsimp only
    rw [if_neg ha, mgetD_mupd_same, Nat.testBit_or, show Nat.testBit 4 2 = true from rfl, Bool.or_true]

/-- A TU with its poison bit set (R346). -/
theorem tuPoison_poisonTu {tu : List Byte} (h : 2 ≤ tu.length) : tuPoison (poisonTu tu) = true := by
  match tu, h with
  | a :: b :: tu, _ =>
    show (b ||| 1).toNat.testBit 0 = true
    rw [BitVec.toNat_or, Nat.testBit_or]
    simp

theorem fetch_struck {f : Fetch} {k : Nat} {tu : List Byte} (hs : f.staged = true) (h : f.tus[k]? = some tu) (hl : 2 ≤ tu.length) :
    tuPoison ((f.struck [k]).tus.getD k []) = true := by
  unfold Fetch.struck
  rw [if_pos (by rw [hs]; rfl)]
  dsimp only
  rw [List.getD_eq_getElem?_getD, List.getElem?_map, List.getElem?_zipIdx, h]
  simp [tuPoison_poisonTu hl]

theorem storageErrors : Says.StorageErrors := by
  refine ⟨fun s n p hl hn hyoung => ?_, fun t k hk => poisonCell_poisonAt t hk, fun sh m errs k hk h => tile_word_struck sh m _ hk h,
    fun f k tu hs h hlen => fetch_struck hs h hlen⟩
  refine ⟨fun t k tl ht => ?_, fun l x hp hx hduty => ?_, fun hp hf hu => ?_⟩
  · have hcell := cellError (k := k) ht
    generalize hu : s.opeError n (.cell p t k) = u at hcell
    have hkept := State.cellWrites_young (s := u) (n := n) (by rw [hcell]; exact hyoung)
    refine answers_live_at hl (t := u.cellWrites n) (by rw [opeErrors_one hn, hu]) ?_
    show mget (((u.cellWrites n).ope n).part p).tiles t = _ ∧ (∀ j, j ≠ t → mget (((u.cellWrites n).ope n).part p).tiles j = _) ∧ ((u.cellWrites n).ope n).pipe = _
    rw [hkept, hcell, Ope.part_setPart_same]
    exact ⟨mget_mput_same _ _ _, fun j hj => mget_mput_ne _ _ hj, rfl⟩
  · subst hp
    obtain ⟨hline, hpwr⟩ := lineError hx
    generalize hu : s.opeError n (.line l) = u at hline hpwr
    obtain ⟨v, hv, hvp⟩ : ∃ v, u.issueCycle n true = v ∧ (v.ope n).parts = (u.ope n).parts := by
      refine ⟨_, rfl, ?_⟩
      unfold State.issueCycle
      dsimp only
      have h0 : (u.ope n).pipe.any (fun t => t.age ≥ 23) = false := by
        rw [hline]
        simp only [List.any_eq_false, decide_eq_true_eq, not_le]
        exact hyoung
      have hd : (u.setOpe n (u.ope n).advance).core.pwr.duty < 64 := by
        show u.core.pwr.duty < 64
        rwa [hpwr]
      rw [h0, decide_eq_true hd]
      simp only [Bool.false_eq_true, if_false, Bool.and_self, if_true, State.ope_setOpe_same]
      rfl
    refine answers_live_at hl (t := v) (by rw [opeErrors_one hn, hu, hv]) ⟨{ x with
      struck := (struckBy (s.ope n) (l / (s.ope n).per) x l).foldl (fun m k => sins k m) x.struck }, ?_, rfl, rfl, rfl, mem_struck _ _⟩
    show (mgetD (v.ope n).parts _ {}).run = _
    rw [hvp, hline]
    exact congrArg OPart.run (Ope.part_setPart_same _ _ _)
  · obtain ⟨tile, q, c, hc⟩ := controlError_fences hp hf hu
    generalize hu : s.opeError n (.control p) = u at hc
    have hage : ∀ y ∈ (u.ope n).pipe, y.age < 23 := by
      rw [hc]
      intro y hy
      obtain ⟨z, hz, rfl⟩ := List.mem_map.1 hy
      split
      · exact hyoung z hz
      · exact hyoung z hz
    refine answers_live_at hl (t := u.cellWrites n) (by rw [opeErrors_one hn, hu]) ?_
    show (((u.cellWrites n).ope n).part p).fence = 2 ∧ (((u.cellWrites n).ope n).part p).run = none ∧ (((u.cellWrites n).ope n).part p).tiles = _
      ∧ (∀ k, k ≠ p → ((u.cellWrites n).ope n).part k = _) ∧ ∀ y ∈ ((u.cellWrites n).ope n).pipe, y.part = p → y.dead = true
    rw [State.cellWrites_young hage, hc]
    have same : ((s.ope n).fence p 2 tile q c).part p = { (s.ope n).part p with fence := 2, fenceTile := tile, fenceQ := q, fenceCtx := c, run := none } :=
      Ope.part_setPart_same _ _ _
    refine ⟨by rw [same], by rw [same], by rw [same], fun k hk => Ope.part_setPart_ne _ _ hk, fun y hy hyp => ?_⟩
    obtain ⟨z, hz, rfl⟩ := List.mem_map.1 hy
    split
    · rfl
    · next h => exact absurd (by rwa [if_neg h] at hyp) h

/-- Settles O51: a fatal error is latched once and ends the life at the hold's end, a scrub corrects or marks, and an error in an engine's memory strikes what it
is met in. -/
theorem errorsHandled : Obligations.ErrorsHandled := ⟨fatalErrors, scrubMarks, storageErrors⟩

end Sys2Proof.Machine
end

section
/-! PROOF. The stream engines' instructions: TCOPY, PUSH, POP, PIN, UNPIN, UPD, and a stack's registers (O56; 07_tile R186, 09_memory R223-R225,
11_training R267-R281). -/
namespace Sys2Proof.Machine
open State

@[simp] theorem State.se_setSe_same (s : State) (n : Nat) (x : Se) : (s.setSe n x).se n = x := mgetD_mput_same ..

@[simp] theorem State.sed_setSed_same (s : State) (c : Nat) (x : Sed) : (s.setSed c x).sed c = x := mgetD_mput_same ..

theorem Sed.mb_mput_same (x : Sed) (k : Nat) (m : SedMb) : Sed.mb { x with mbs := mput x.mbs k m } k = m := mgetD_mput_same ..

theorem Sed.mb_mput_ne (x : Sed) {k j : Nat} (m : SedMb) (h : j ≠ k) : Sed.mb { x with mbs := mput x.mbs k m } j = x.mb j := mgetD_mput_ne _ _ _ h

/-! Jobs -/

/-- A head that becomes a job of its SE, with what its context's stack then is. -/
theorem job_begins (s : State) (r : SlotRef) (seds : Map Sed) (j : SeJob) :
    let t : State := { s.popHead r with core.seds := seds }
    let u := t.setSe r.unit { t.se r.unit with jobs := (t.se r.unit).jobs ++ [j] }
    Left s u r ∧ (u.se r.unit).jobs = (s.se r.unit).jobs ++ [j] ∧ u.core.mem = s.core.mem ∧ u.core.opes = s.core.opes ∧ u.core.seds = seds := by
  intro t u
  obtain ⟨_, _, h⟩ := s.popHead_rest r
  have ht : t.core.ses = s.core.ses ∧ t.core.mem = s.core.mem ∧ t.core.opes = s.core.opes := by
    unfold t
    rw [h]
    exact ⟨rfl, rfl, rfl⟩
  refine ⟨s.popHead_left r, ?_, ht.2.1, ht.2.2, rfl⟩
  rw [State.se_setSe_same]
  simp only [State.se, ht.1]

/-- A head that ends at once. -/
theorem head_finishes (s : State) (r : SlotRef) (e : Entry) :
    Left s ((s.popHead r).finish e.q e.seq) r ∧ Done ((s.popHead r).finish e.q e.seq) e
      ∧ ∃ qm ldg, (s.popHead r).finish e.q e.seq = { s with core.qm := qm, core.ldg := ldg } := by
  obtain ⟨hrest, hends⟩ := headDone_rest (s := s) (r := r) (e := e) .none .none
  obtain ⟨hl, hd⟩ := hends _ rfl
  exact ⟨hl, hd, hrest⟩

theorem tcopy_begins {s : State} {r : SlotRef} {e : Entry} (hd : s.dispatching = true) (hi : s.seIssuing r = false)
    (h : HeadOk s r 0x32 s.tcopyBad e) (hh : s.headHeld r = false) {p : State → Prop} (hp : p { s with core := (s.beginTcopy r e).core }) :
    Answers (exec (.tcopy r) s) p := by
  refine answers_dispatching_at hd (t := s.beginTcopy r e) ?_ hp
  rw [hi, hh, Bool.or_self, if_neg Bool.false_ne_true, atHead_ok _ h]

/-! A vector copied into slots of MVUs (R113, R205) -/

/-- Two states that differ in registers, interrupts, counts of work and queues' own state. -/
def Counted (s t : State) : Prop := ∃ regs irq work queues, t = { s with
  core.regs := regs, core.irq := irq, core.pmc.work := work, core.qm.queues := queues }

theorem Counted.refl (s : State) : Counted s s := ⟨_, _, _, _, rfl⟩

theorem Counted.trans {s t u : State} (h : Counted s t) (k : Counted t u) : Counted s u := by
  obtain ⟨_, _, _, _, rfl⟩ := h
  obtain ⟨_, _, _, _, rfl⟩ := k
  exact ⟨_, _, _, _, rfl⟩

theorem Counted.bump (s : State) (o n : Nat) : Counted s (s.bump o n) := ⟨_, _, _, _, rfl⟩

theorem Counted.raise (s : State) (o i : Nat) : Counted s (s.raise o i) := by
  obtain ⟨_, _, h⟩ := s.raise_core o i
  exact ⟨_, _, _, _, h⟩

theorem Counted.noteCount (s : State) (e : Entry) (c n : Nat) : Counted s (s.noteCount e c n) := by
  obtain ⟨_, h⟩ := s.noteCount_rest e c n
  exact ⟨_, _, _, _, h⟩

/-- A slot of an MVU that no MVX reads, and for which no write waits, takes a vector at once. -/
theorem State.vecWrite_free {s : State} {n slot : Nat} {v : MvuVec} {e : Entry} (hr : (s.mvu n).reads slot = false)
    (hh : ∀ h ∈ (s.mvu n).held, h.1 ≠ slot) : s.vecWrite n slot v e = s.setMvu n { s.mvu n with vecs := mput (s.mvu n).vecs slot v } := by
  have hany : (s.mvu n).held.any (fun h => h.1 = slot) = false := List.any_eq_false.2 fun h hm => by simp [hh h hm]
  unfold State.vecWrite
  dsimp only
  rw [hr, hany]
  rfl

/-- A slot is free for a vector. -/
def SlotFree (s : State) (p : Nat × Nat) : Prop := (s.mvu p.1).reads p.2 = false ∧ ∀ h ∈ (s.mvu p.1).held, h.1 ≠ p.2

theorem vecHeld_setMvu {s : State} {q seq n : Nat} {m : Mvu} (h : s.vecHeld q seq = false) (hm : m.held = (s.mvu n).held) :
    (s.setMvu n m).vecHeld q seq = false := by
  have hold : ∀ x ∈ s.core.mvus, x.2.held.any (fun h => h.2.2.1 = q && h.2.2.2 = seq) = false := fun x hx =>
    Bool.eq_false_iff.2 (List.any_eq_false.1 h x hx)
  have hn : (s.mvu n).held.any (fun h => h.2.2.1 = q && h.2.2.2 = seq) = false := by
    obtain he | hx := mgetD_cases s.core.mvus n {}
    · rw [State.mvu, he]
      rfl
    · exact hold _ hx
  refine List.any_eq_false.2 fun x hx => ?_
  obtain rfl | hx := mem_mput hx
  · rw [hm, hn]
    exact Bool.false_ne_true
  · rw [hold x hx]
    exact Bool.false_ne_true

/-- Distinct MVUs with free slots take the vector, each in its slot. -/
theorem vecWrites_land (v : MvuVec) (e : Entry) : ∀ (l : List (Nat × Nat)) (s : State), (l.map (·.1)).Nodup → (∀ p ∈ l, SlotFree s p) →
    s.vecHeld e.q e.seq = false →
    let t := l.foldl (fun s p => s.vecWrite p.1 p.2 v e) s
    (∃ mvus, t = { s with core.mvus := mvus }) ∧ (∀ p ∈ l, mget (t.mvu p.1).vecs p.2 = some v) ∧ (∀ n, n ∉ l.map (·.1) → t.mvu n = s.mvu n)
      ∧ t.vecHeld e.q e.seq = false
  | [], s, _, _, hq => ⟨⟨_, rfl⟩, fun _ h => absurd h List.not_mem_nil, fun _ _ => rfl, hq⟩
  | p :: l, s, hnd, hfree, hq => by
    rw [List.map_cons, List.nodup_cons] at hnd
    obtain ⟨hr, hh⟩ := hfree p List.mem_cons_self
    have hw := State.vecWrite_free (v := v) (e := e) hr hh
    obtain ⟨u, hu⟩ : ∃ u, u = s.vecWrite p.1 p.2 v e := ⟨_, rfl⟩
    have hother (n : Nat) (hn : n ≠ p.1) : u.mvu n = s.mvu n := by
      rw [hu, hw]
      exact State.mvu_setMvu_ne _ _ hn
    obtain ⟨⟨_, hrest⟩, hland, hkeep, hheld⟩ := vecWrites_land v e l u hnd.2 (fun x hx => by
      have hne : x.1 ≠ p.1 := fun h => hnd.1 (h ▸ List.mem_map_of_mem hx)
      rw [SlotFree, hother _ hne]
      exact hfree x (List.mem_cons_of_mem _ hx)) (by
      rw [hu, hw]
      exact vecHeld_setMvu hq rfl)
    intro t
    have ht : t = l.foldl (fun s p => s.vecWrite p.1 p.2 v e) u := by rw [hu]; rfl
    rw [ht]
    refine ⟨⟨_, hrest.trans (by rw [hu, hw]; rfl)⟩, fun x hx => ?_, fun n hn => ?_, hheld⟩
    · obtain rfl | hx := List.mem_cons.1 hx
      · rw [hkeep _ hnd.1, hu, hw, State.mvu_setMvu_same]
        exact mget_mput_same _ _ _
      · exact hland x hx
    · rw [List.map_cons, List.mem_cons, not_or] at hn
      exact (hkeep n hn.2).trans (hother n hn.1)

/-- The MVUs that a destination names are distinct. -/
theorem vecTargets_nodup (w : Nat) : ((vecTargets w).map (·.1)).Nodup := by
  unfold vecTargets
  split
  · exact List.nodup_singleton _
  · rw [List.map_map]
    refine (List.map_id' (setBits 8 (bits w 0 8))).symm ▸ ?_
    exact List.nodup_range.filter _
  · exact List.nodup_nil

theorem Counted.iff (s : State) (b : Bool) {f : State → State} (h : Counted s (f s)) : Counted s (s.iff b f) := by
  unfold State.iff
  split
  · exact h
  · exact .refl s

/-- A block array of a context as a vector of an MVU holds it (R113). -/
def vecOf (code n : Nat) (g : List Byte × Bool) : MvuVec :=
  let el := elemBytes code * (n / 32)
  let sc := scaleBytes code * (n / 32)
  let padE := if code = 4 then el else pad64 el
  let padS := if code = 4 then 0 else pad64 sc
  { fmt := code, n := n, bytes := g.1.take el ++ (g.1.drop padE).take sc ++ (if code = 2 then (g.1.drop (padE + padS)).take (4 * (n / 32)) else [])
    poison := g.2 }

/-- What a copied vector counts and marks before it is written. -/
def State.vecMarks (s : State) (r : SlotRef) (e : Entry) (v : MvuVec) (n : Nat) : State :=
  let s := s.iff v.poison (fun s => ((s.bump (seBase r.unit + 0x120) 1).raise (seInt r.unit) 0).noteCount e 1 1)
  (((s.effect e.q e.seq).worked r 1).moved e.q e.seq (n + v.bytes.length)).bump (seBase r.unit + 0x108) v.bytes.length

theorem State.vecMarks_counted (s : State) (r : SlotRef) (e : Entry) (v : MvuVec) (n : Nat) : Counted s (s.vecMarks r e v n) := by
  obtain ⟨u, hu⟩ : ∃ u, u = s.iff v.poison (fun s => ((s.bump (seBase r.unit + 0x120) 1).raise (seInt r.unit) 0).noteCount e 1 1) := ⟨_, rfl⟩
  have hs : Counted s u := hu ▸ .iff _ _ (((Counted.bump ..).trans (.raise ..)).trans (.noteCount ..))
  unfold State.vecMarks
  rw [← hu]
  exact hs.trans ⟨_, _, _, _, rfl⟩

/-- A vector that its slots can hold is written to each, and its instruction is finished. -/
theorem copyVector_lands {s : State} {r : SlotRef} {e : Entry} (v : MvuVec)
    (hv : v = vecOf (e.f 36 1 % 16) (e.eff 0 16 24) (s.vget e.ctx (e.eff 1 24 56) (arrayBytes (e.f 36 1 % 16) (e.eff 0 16 24)) true))
    (hroom : s.roomFor r e.q e.ctx (e.eff 1 24 56) (arrayBytes (e.f 36 1 % 16) (e.eff 0 16 24)) = true)
    (hc : s.vcheck e.ctx (e.eff 1 24 56) (arrayBytes (e.f 36 1 % 16) (e.eff 0 16 24)) false true = .none) (hq : s.vecHeld e.q e.seq = false)
    (hfit : ∀ p ∈ vecTargets e.dest, (s.mvu p.1).fits p.2 v = true ∧ SlotFree s p) :
    let t := s.copyVector r e
    Left s t r ∧ Done t e ∧ (∀ p ∈ vecTargets e.dest, mget (t.mvu p.1).vecs p.2 = some v) ∧ t.core.ses = s.core.ses ∧ t.core.opes = s.core.opes := by
  obtain ⟨x, hx⟩ : ∃ x, x = s.vtouch e.ctx (e.eff 1 24 56) (arrayBytes (e.f 36 1 % 16) (e.eff 0 16 24)) false true := ⟨_, rfl⟩
  obtain ⟨y, hy⟩ : ∃ y, y = (x.popHead r).vecMarks r e v (arrayBytes (e.f 36 1 % 16) (e.eff 0 16 24)) := ⟨_, rfl⟩
  have hrun : s.copyVector r e = y.vecWriteAll e.dest v e := by
    unfold State.copyVector
    dsimp only
    rw [hroom, if_neg (by decide), hc, hy, hv, hx]
    rfl
  obtain ⟨⟨_, _, _, _, _, _, _, _, hxs⟩, -⟩ := hx ▸ Accessed.vtouch s e.ctx (e.eff 1 24 56) (arrayBytes (e.f 36 1 % 16) (e.eff 0 16 24)) false true
  obtain ⟨_, _, hp⟩ := x.popHead_rest r
  obtain ⟨_, _, _, _, hys⟩ := hy ▸ (x.popHead r).vecMarks_counted r e v (arrayBytes (e.f 36 1 % 16) (e.eff 0 16 24))
  have hmvu : y.core.mvus = s.core.mvus := by rw [hys, hp, hxs]
  have hm (n : Nat) : y.mvu n = s.mvu n := by simp only [State.mvu, hmvu]
  have hall : (vecTargets e.dest).all (fun t => (y.mvu t.1).fits t.2 v) = true := List.all_eq_true.2 fun p hp => by rw [hm]; exact (hfit p hp).1
  obtain ⟨⟨_, hz⟩, hland, -, hheld⟩ := vecWrites_land v e (vecTargets e.dest) y (vecTargets_nodup _)
    (fun p hp => by rw [SlotFree, hm]; exact (hfit p hp).2) (by rw [State.vecHeld, hmvu]; exact hq)
  generalize hzs : (vecTargets e.dest).foldl (fun s p => s.vecWrite p.1 p.2 v e) y = z at hz hland hheld
  have hfin : s.copyVector r e = z.finish e.q e.seq := by
    rw [hrun, State.vecWriteAll, hall]
    dsimp only
    rw [hzs, hheld]
    rfl
  rw [hfin]
  intro t
  obtain ⟨hl, hd⟩ := left_done (s := s) (x := x) (y := z) (r := r) (e := e) (t := t) (by rw [hxs]) (by rw [hz, hys]) rfl
  exact ⟨hl, hd, hland, by show z.core.ses = _; rw [hz, hys, hp, hxs], by show z.core.opes = _; rw [hz, hys, hp, hxs]⟩

/-! PUSH and POP (R268-R270) -/

theorem beginPush_within {s : State} {r : SlotRef} {e : Entry} (hm : ((s.sed e.ctx).mb e.mb).entries ≠ []) (hn : e.count24 ≠ 0)
    (hfree : e.count24 ≤ ((s.sed e.ctx).mb e.mb).free) :
    s.beginPush r e =
      let places := (freePlaces (s.sed e.ctx).size ((s.sed e.ctx).used 0) e.count24).map (2 * ·)
      let t := (s.popHead r).setSed e.ctx { s.sed e.ctx with mbs := mput (s.sed e.ctx).mbs e.mb (((s.sed e.ctx).mb e.mb).push e.layer places) }
      t.setSe r.unit { t.se r.unit with jobs := (t.se r.unit).jobs ++ [{ e := e, total := e.count24, places := places, moves := [] }] } := by
  have hne : ((s.sed e.ctx).mb e.mb).entries.isEmpty = false := by simpa using hm
  unfold State.beginPush
  simp only [hne, Bool.false_and, Bool.false_eq_true, if_false, hn, hfree, if_true]

theorem beginPush_over {s : State} {r : SlotRef} {e : Entry} (hm : ((s.sed e.ctx).mb e.mb).entries ≠ []) (hn : e.count24 ≠ 0)
    (hfree : ((s.sed e.ctx).mb e.mb).free < e.count24) (hf : (s.ctx e.ctx).flag 3 = false) :
    s.beginPush r e = s.overflow r e 2 (e.count24 - ((s.sed e.ctx).mb e.mb).free) := by
  have hne : ((s.sed e.ctx).mb e.mb).entries.isEmpty = false := by simpa using hm
  unfold State.beginPush
  simp only [hne, Bool.false_and, Bool.false_eq_true, if_false, hn, Nat.not_le.2 hfree, hf, Bool.not_false, if_true]

theorem overflow_ends (s : State) (r : SlotRef) (e : Entry) (code short : Nat) : let t := s.overflow r e code short
    Ended s t r e 0xD ∧ t.core.seds = s.core.seds ∧ t.flagBit sedInt 2 = true ∧ t.core.mem = s.core.mem := by
  obtain ⟨_, _, hp⟩ := s.popHead_rest r
  obtain ⟨_, _, hr⟩ := (s.popHead r).raise_core sedInt 2
  have hflag := (s.popHead r).flagBit_raise sedInt 2
  unfold State.overflow
  generalize hu : ((s.popHead r).raise sedInt 2).bump (sedBase + 0x128) 1 = u
  have hus : u.core.qm = (s.popHead r).core.qm ∧ u.core.seds = s.core.seds ∧ u.core.mem = s.core.mem ∧ u.flagBit sedInt 2 = true := by
    rw [← hu]
    refine ⟨by rw [hr]; rfl, ?_, ?_, hflag⟩
    · rw [hr, hp]
      rfl
    · rw [hr, hp]
      rfl
  obtain ⟨hqm, hseds, hmem, hfl⟩ := hus
  intro t
  refine ⟨⟨?_, fun i hi => ?_⟩, hseds, hfl, hmem⟩
  · show mgetD u.core.qm.eiq _ _ = _
    rw [hqm]
    exact s.popHead_left r
  · rw [inst_finishWith] at hi
    obtain ⟨j, -, rfl⟩ := Option.map_eq_some_iff.1 hi
    exact ⟨rfl, j.out_has ..⟩

theorem beginPop_takes {s : State} {r : SlotRef} {e : Entry} {top : SedEntry} {rest : List SedEntry}
    (hm : ((s.sed e.ctx).mb e.mb).entries = top :: rest) (hw : top.writing = 0) (hn : e.count24 ≠ 0) :
    s.beginPop r e =
      let m : SedMb := { (s.sed e.ctx).mb e.mb with
        entries := if (top.places.drop e.count24).isEmpty then rest else { top with places := top.places.drop e.count24 } :: rest,
        claimed := ((s.sed e.ctx).mb e.mb).claimed ++ top.places.take e.count24 }
      let t := (s.popHead r).setSed e.ctx { s.sed e.ctx with mbs := mput (s.sed e.ctx).mbs e.mb m }
      t.setSe r.unit { t.se r.unit with jobs := (t.se r.unit).jobs ++ [{ e := e, total := e.count24, places := top.places.take e.count24 }] } := by
  unfold State.beginPop
  simp only [hm, hw, hn, ne_eq, not_true_eq_false, if_false]

theorem movesBegin : Says.MovesBegin := by
  intro s r e hd hi
  dsimp only
  refine ⟨fun h hh hvec => ⟨fun hn => ?_, fun hn => ?_⟩, fun h hh hvec hroom hc hq hfit => ?_, fun h hm hn => ⟨fun hfree => ?_, fun hfree hf => ?_⟩,
    fun top rest h hm hw hn => ?_⟩
  · refine tcopy_begins hd hi h hh ?_
    unfold State.beginTcopy
    rw [if_neg (by rw [hvec]; decide), if_neg hn]
    obtain ⟨_, _, hp⟩ := s.popHead_rest r
    obtain ⟨h1, h2, h3, h4, h5⟩ := job_begins s r (s.popHead r).core.seds { e := e, total := e.eff 0 16 24 }
    exact ⟨⟨h1, h2, h3, h4⟩, h5.trans (by rw [hp])⟩
  · refine tcopy_begins hd hi h hh ?_
    unfold State.beginTcopy
    rw [if_neg (by rw [hvec]; decide), if_pos hn]
    obtain ⟨hl, hdone, _, _, hrest⟩ := head_finishes s r e
    exact ⟨hl, hdone, by rw [hrest], by rw [hrest]⟩
  · refine tcopy_begins hd hi h hh ?_
    unfold State.beginTcopy
    rw [if_pos hvec]
    obtain ⟨h1, h2, h3, h4, h5⟩ := copyVector_lands (s := s) (r := r) (e := e) _ rfl hroom hc hq hfit
    exact ⟨h1, h2, h3, by simp only [State.se, h4], h5⟩
  · obtain ⟨h1, h2, h3, h4, h5⟩ := job_begins s r (mput (s.popHead r).core.seds e.ctx { s.sed e.ctx with
      mbs := mput (s.sed e.ctx).mbs e.mb (((s.sed e.ctx).mb e.mb).push e.layer ((freePlaces (s.sed e.ctx).size ((s.sed e.ctx).used 0) e.count24).map (2 * ·))) })
      { e := e, total := e.count24, places := (freePlaces (s.sed e.ctx).size ((s.sed e.ctx).used 0) e.count24).map (2 * ·), moves := [] }
    refine answers_dispatching_at hd (t := s.beginPush r e) ?_ ?_
    · rw [hi, if_neg Bool.false_ne_true, atHead_ok _ h]
    · rw [beginPush_within hm hn hfree]
      refine ⟨⟨h1, h2, h3, h4⟩, ?_, fun k hk => ?_⟩
      · simp only [State.sed, State.setSed]
        exact (congrArg (fun x : Sed => x.mb e.mb) (State.sed_setSed_same _ _ _)).trans (Sed.mb_mput_same ..)
      · exact (congrArg (fun x : Sed => x.mb k) (State.sed_setSed_same _ _ _)).trans (Sed.mb_mput_ne _ _ hk)
  · obtain ⟨h1, h2, h3, h4⟩ := overflow_ends s r e 2 (e.count24 - ((s.sed e.ctx).mb e.mb).free)
    refine answers_dispatching_at hd (t := s.beginPush r e) ?_ ?_
    · rw [hi, if_neg Bool.false_ne_true, atHead_ok _ h]
    · rw [beginPush_over hm hn hfree hf]
      exact ⟨h1, h2, h3, h4⟩
  · obtain ⟨m, hmdef⟩ : ∃ m : SedMb, m = { (s.sed e.ctx).mb e.mb with
        entries := if (top.places.drop e.count24).isEmpty then rest else { top with places := top.places.drop e.count24 } :: rest,
        claimed := ((s.sed e.ctx).mb e.mb).claimed ++ top.places.take e.count24 } := ⟨_, rfl⟩
    obtain ⟨h1, h2, h3, h4, h5⟩ := job_begins s r (mput (s.popHead r).core.seds e.ctx { s.sed e.ctx with mbs := mput (s.sed e.ctx).mbs e.mb m })
      { e := e, total := e.count24, places := top.places.take e.count24 }
    refine answers_dispatching_at hd (t := s.beginPop r e) ?_ ?_
    · rw [hi, if_neg Bool.false_ne_true, atHead_ok _ h]
    · rw [beginPop_takes hm hw hn]
      dsimp only
      rw [← hmdef]
      have hmb : (State.sed { s with core := (State.setSe ((s.popHead r).setSed e.ctx { s.sed e.ctx with mbs := mput (s.sed e.ctx).mbs e.mb m }) r.unit
          { ((s.popHead r).setSed e.ctx { s.sed e.ctx with mbs := mput (s.sed e.ctx).mbs e.mb m }).se r.unit with
            jobs := (((s.popHead r).setSed e.ctx { s.sed e.ctx with mbs := mput (s.sed e.ctx).mbs e.mb m }).se r.unit).jobs
              ++ [{ e := e, total := e.count24, places := top.places.take e.count24 }] }).core } e.ctx).mb e.mb = m :=
        (congrArg (fun x : Sed => x.mb e.mb) (State.sed_setSed_same _ _ _)).trans (Sed.mb_mput_same ..)
      refine ⟨⟨h1, h2, h3, h4⟩, (congrArg SedMb.entries hmb).trans ?_, (congrArg SedMb.claimed hmb).trans ?_⟩
      · rw [hmdef]
      · rw [hmdef]

/-! PIN and UNPIN (R223, R224) -/

theorem State.setPool_setPool (s : State) (k : Nat) (p x : PoolTu) : (s.setPool k p).setPool k x = s.setPool k x := by
  simp only [State.setPool, mput_mput]

theorem State.poolEntry_setPool (s : State) (key k c : Nat) (p : PoolTu) : (s.setPool key p).poolEntry key k c = p := mgetD_mput_same ..

/-- Which granule of the pool an address of a range lies in. -/
theorem pinRange_mem {s : State} {e : Entry} {key k i : Nat} {l : Loc} {x : Nat × Nat} (h : s.pinRange e = [(key, k)]) (hi : i < e.pinCount)
    (hx : s.xlate e.ctx (e.pinVa + tuBytes * i) false true = .ok l) (hl : poolKey l = some x) : x = (key, k) := by
  have hm : x ∈ s.pinRange e := List.mem_filterMap.2 ⟨i, List.mem_range.2 hi, by rw [hx]; exact hl⟩
  rwa [h, List.mem_singleton] at hm

/-- The entry of a pinned granule but for the address that it was pinned at. -/
def Repinned (p y : PoolTu) : Prop := ∃ va, y = { p with va := va } ∧ (p.resident = true → va = p.va)

/-- The addresses of a pinned range change at most the address that the range's one granule was pinned at. -/
theorem pinAt_range {s : State} {e : Entry} {key k : Nat} {p : PoolTu} (h : s.pinRange e = [(key, k)]) : ∀ (l : List Nat) (y : PoolTu), Repinned p y →
    (∀ i ∈ l, i < e.pinCount) → ∃ z, Repinned p z ∧ l.foldl (fun s i => s.pinAt e (e.pinVa + tuBytes * i)) (s.setPool key y) = s.setPool key z
  | [], y, hy, _ => ⟨y, hy, rfl⟩
  | i :: l, y, hy, hl => by
    have step : ∃ z, Repinned p z ∧ (s.setPool key y).pinAt e (e.pinVa + tuBytes * i) = s.setPool key z := by
      have hx : (s.setPool key y).xlate e.ctx (e.pinVa + tuBytes * i) false true = s.xlate e.ctx (e.pinVa + tuBytes * i) false true := rfl
      unfold State.pinAt
      rw [hx]
      cases ht : s.xlate e.ctx (e.pinVa + tuBytes * i) false true with
      | fault _ => exact ⟨y, hy, rfl⟩
      | ats _ => exact ⟨y, hy, rfl⟩
      | ok a =>
        dsimp only
        cases hk : poolKey a with
        | none => exact ⟨y, hy, rfl⟩
        | some x =>
          obtain rfl := pinRange_mem h (hl i List.mem_cons_self) ht hk
          dsimp only
          rw [State.poolEntry_setPool]
          split
          · exact ⟨y, hy, rfl⟩
          · next hr =>
            refine ⟨{ y with va := e.pinVa + tuBytes * i }, ?_, State.setPool_setPool ..⟩
            obtain ⟨va, rfl, -⟩ := hy
            exact ⟨_, rfl, fun hp => absurd (by simp [hp]) hr⟩
    obtain ⟨z, hz, hs⟩ := step
    rw [List.foldl_cons, hs]
    exact pinAt_range h l z hz fun j hj => hl j (List.mem_cons_of_mem _ hj)

/-- A head that has its effect on the pool and ends. -/
theorem pooled_finishes {s u : State} {r : SlotRef} {e : Entry} {key : Nat} {y : PoolTu} {ef : State → State} (he : OnQueues ef) (hu : u = s.setPool key y) :
    Left s (((ef u).popHead r).finish e.q e.seq) r ∧ Done (((ef u).popHead r).finish e.q e.seq) e
      ∧ (((ef u).popHead r).finish e.q e.seq).core.mem = (s.setPool key y).core.mem := by
  subst hu
  obtain ⟨⟨_, _, hrest⟩, hends⟩ := headDone_rest (s := s.setPool key y) (r := r) (e := e) he .none
  obtain ⟨hl, hd⟩ := hends _ rfl
  exact ⟨hl, hd, (congrArg (fun x : State => x.core.mem) hrest).trans rfl⟩

/-! UPD (R276-R281) -/

theorem Served.writeBlk (s : State) (c a code n k : Nat) (q : QBlk) (se : Bool) : Served s (s.writeBlk c a code n k q se) := by
  unfold State.writeBlk
  exact foldl (f := fun s (p : (Nat × Nat) × List Byte) => s.vput c p.1.1 p.2 se) (fun s p => vput s c p.1.1 p.2 se wqData) _ s

/-- One block of an update works on memory alone. -/
theorem Served.updBlock (s : State) (e : Entry) (d b : Nat) : Served s (s.updBlock e d b).1 := by
  unfold State.updBlock
  extract_lets n k u rd p g m v w far x r seed outs dr y z
  have hu : Served s u := by
    unfold u
    split
    · exact refl s
    · exact vtouch ..
  have hw : Served u w := foldl (f := fun s (a : Nat × Nat × Bool) => s.touchBlk e.ctx a.1 a.2.1 n b false) (fun s a => touchBlk s ..) _ u
  have hx : Served w x := by
    unfold x
    split
    · exact refl w
    · exact bump ..
  have hy : Served x y := foldl (f := fun s (o : (Nat × List Dy) × Nat) => s.writeBlk e.ctx o.1.1 5 n b
    (quantise 5 false (recSr d) 0 0 o.1.2 (fun i => dr.getD (32 * o.2 + i) 0) false) false) (fun s o => writeBlk s ..) _ x
  have hz : Served y z := by
    unfold z
    split
    · exact bump ..
    · exact refl y
  split
  · exact hu.trans (bump u (nmuBase k + 0x108) 1)
  · split
    · have h := ((hu.trans hw).trans hx).trans ((bump x (nmuBase k + 0x110) 1).trans (raise _ (nmuInt k) 0))
      dsimp only
      exact h
    · exact (((hu.trans hw).trans hx).trans hy).trans (hz.trans (bump z (nmuBase k + 0x100) 1))

/-- The last block of a parameter block of one, with its record read: the command ends. -/
theorem stepUpd_last {u : State} {r : SlotRef} {e : Entry} {d : Nat} (hb : e.updBlks = 1) (hs : (u.updStop e d 0).1 = .none) :
    ∃ x y : State, x.core.qm.eiq = u.core.qm.eiq ∧ y.core.qm.eiq = (x.popHead r).core.qm.eiq ∧ u.stepUpd r { e := e } d = y.finish e.q e.seq
      ∧ y.core.mem = (u.updBlock e d 0).1.core.mem ∧ (y.se r.unit).upds = (((u.updBlock e d 0).1.se r.unit).upds.filter (fun u => u.e ≠ e)) := by
  have hg : u.updBlocks e d 1 0 0 = ((u.updBlock e d 0).1, 1, 0 + b2n (u.updBlock e d 0).2, .none, false) := by
    rw [State.updBlocks, if_neg (by rw [hs]; exact not_not_intro rfl)]
    rfl
  obtain ⟨_, _, _, _, _, _, _, _, _, hv⟩ := Served.updBlock u e d 0
  generalize (u.updBlock e d 0).1 = v at hg hv
  generalize (u.updBlock e d 0).2 = bad at hg
  obtain ⟨n, hn⟩ : ∃ n, n = sumNat ((updArrays e d).map (fun a => arrayBytes a.2.1 (32 * (1 - 0)) * (if a.2.2 then 2 else 1))) := ⟨_, rfl⟩
  obtain ⟨w, hw⟩ : ∃ w, w = ((v.effect e.q e.seq).moved e.q e.seq n).worked r (1 - 0) := ⟨_, rfl⟩
  obtain ⟨x, hx⟩ : ∃ x, x = w.setSe r.unit { v.se r.unit with upds := (v.se r.unit).upds.filter (fun u => u.e ≠ e) } := ⟨_, rfl⟩
  obtain ⟨_, _, hp⟩ := x.popHead_rest r
  obtain ⟨_, hc⟩ := (x.popHead r).noteCount_rest e 1 (0 + b2n bad)
  refine ⟨x, (x.popHead r).noteCount e 1 (0 + b2n bad), ?_, by rw [hc], ?_, ?_, ?_⟩
  · rw [hx, hw, hv]
    rfl
  · unfold State.stepUpd
    dsimp only
    rw [hb, Nat.sub_zero, Nat.min_self, hg]
    rw [hx, hw, hn]
    rfl
  · rw [hc, hp, hx, hw]
    rfl
  · rw [hc, hp, hx]
    exact congrArg Se.upds (State.se_setSe_same _ _ _)

theorem runUpd_first {s : State} {r : SlotRef} {e : Entry} (hu : (s.se r.unit).upds = []) (hc : s.vcheck e.ctx e.orec 64 false false = .none)
    (hbad : firstBad (recBad e.opt (s.vnat e.ctx e.orec 64 false)) = none) :
    s.runUpd r e = (s.vtouch e.ctx e.orec 64 false false).stepUpd r { e := e } (s.vnat e.ctx e.orec 64 false) := by
  unfold State.runUpd
  dsimp only
  rw [hu, List.find?_nil, Option.getD_none]
  dsimp only
  rw [hc]
  dsimp only
  rw [hbad]

/-! A stack's registers (R284) -/

theorem sedConfig_free {s : State} (h : ∀ m ∈ (s.sed (s.reg fldSedSel)).mbs, m.2.entries = [] ∧ m.2.resv = 0) :
    (s.sed (s.reg fldSedSel)).mbs.any (fun m => !m.2.entries.isEmpty || m.2.resv ≠ 0) = false := by
  refine List.any_eq_false.2 fun m hm => ?_
  obtain ⟨he, hr⟩ := h m hm
  simp [he, hr]

theorem pinsAndUpdates : Says.PinsAndUpdates := by
  intro s r e hd hi hh
  have runs {op : Nat} {bad : Entry → List Bad} {f : Entry → State → State} (h : HeadOk s r op bad e) :
      (if s.seIssuing r || s.headHeld r then s else s.atHead r op bad f) = f e s := by
    rw [hi, hh, Bool.or_self, if_neg Bool.false_ne_true, atHead_ok _ h]
  refine ⟨fun h hs hf => ⟨fun key k hm hr hlim => ?_, fun d hlim => ?_⟩, fun key k p h hs hr hp hres => ?_, ?_, fun v => ?_⟩
  · obtain ⟨p, hpdef⟩ : ∃ p, p = s.poolEntry key k e.ctx := ⟨_, rfl⟩
    obtain ⟨z, ⟨va, hz, hva⟩, hfold⟩ := pinAt_range (p := { p with pin := p.pin + 1, evict := false }) hr (List.range e.pinCount)
      { p with pin := p.pin + 1, evict := false } ⟨_, rfl, fun _ => rfl⟩ (fun i hi => List.mem_range.1 hi)
    have hrun : s.pin r e = (((s.setPool key z).effect e.q e.seq).popHead r).finish e.q e.seq := by
      unfold State.pin State.pinGo
      rw [hs]
      dsimp only
      rw [hf, if_neg Bool.false_ne_true, hlim, hr]
      dsimp only [List.foldl_cons, List.foldl_nil]
      rw [← hpdef, hfold, State.pinEnd, if_neg (by rw [hm]; decide)]
    refine answers_dispatching_at hd (t := s.pin r e) (runs h) ?_
    rw [hrun]
    obtain ⟨hl, hdone, hmem⟩ := pooled_finishes (r := r) (e := e) (ef := fun s => s.effect e.q e.seq) ⟨fun _ => ⟨_, rfl⟩⟩ (show s.setPool key z = _ from rfl)
    refine ⟨hl, hdone, ⟨z, (congrArg (fun m : Memory => mget m.pool key) hmem).trans (mget_mput_same _ _ _), ?_, ?_, fun hres => ?_⟩,
      (congrArg Memory.hbm hmem).trans rfl, fun j hj => (congrArg (fun m : Memory => mget m.pool j) hmem).trans (mget_mput_ne _ _ hj)⟩
    · rw [hz, ← hpdef]
    · rw [hz]
    · rw [← hpdef] at hres ⊢
      rw [hz, hva hres]
  · have hrun : s.pin r e = (s.popHead r).finishWith e.q e.seq 0xE d := by
      unfold State.pin State.pinGo
      rw [hs]
      dsimp only
      rw [hf, if_neg Bool.false_ne_true, hlim]
    refine answers_dispatching_at hd (t := s.pin r e) (runs h) ?_
    rw [hrun]
    exact ⟨ended_popHead s r e 0xE d, s.popHead_mem r⟩
  · have hp' : s.poolEntry key k e.ctx = p := by
      unfold State.poolEntry mgetD
      rw [hp, Option.getD_some]
    have hrun : s.unpin r e = ((s.setPool key { p with pin := p.pin - 1, imagePin := false }).popHead r).finish e.q e.seq := by
      have hhas : mhas s.core.mem.pool key = true := by
        unfold mhas
        rw [hp]
        rfl
      unfold State.unpin State.pinGo
      rw [hs]
      dsimp only
      rw [hr]
      dsimp only [List.foldl_cons, List.foldl_nil]
      rw [hhas, if_pos rfl, hp', if_neg (by rw [hres]; simp)]
    refine answers_dispatching_at hd (t := s.unpin r e) (runs h) ?_
    rw [hrun]
    obtain ⟨hl, hdone, hmem⟩ := pooled_finishes (r := r) (e := e) (ef := fun s => s) .none
      (show s.setPool key { p with pin := p.pin - 1, imagePin := false } = _ from rfl)
    exact ⟨hl, hdone, (congrArg (fun m : Memory => mget m.pool key) hmem).trans (mget_mput_same _ _ _), (congrArg Memory.hbm hmem).trans rfl⟩
  · intro d u h hup hb hc hbad hst
    have hok : HeadOk s r 0x40 (fun e => if (s.se r.unit).upds.any (fun u => u.e = e) then [] else s.updBad e) e := by
      simpa [HeadOk, hup] using h
    obtain ⟨x, y, hx, hy, hrun, hmem, hupds⟩ := stepUpd_last (u := u) (r := r) hb hst
    have hacc : Served s u := .vtouch ..
    have hses : ((u.updBlock e d 0).1.se r.unit).upds = [] := by
      obtain ⟨_, _, _, _, _, _, _, _, _, h1⟩ := hacc
      obtain ⟨_, _, _, _, _, _, _, _, _, h2⟩ := Served.updBlock u e d 0
      rw [h2, h1]
      exact hup
    have hall : s.runUpd r e = y.finish e.q e.seq := (runUpd_first hup hc hbad).trans hrun
    obtain ⟨hl, hdone⟩ := left_done (s := s) (r := r) (e := e) (t := y.finish e.q e.seq) (hx.trans (by rw [hacc.qm])) hy rfl
    refine answers_dispatching_at hd (t := y.finish e.q e.seq) ((runs hok).trans hall) ⟨hl, hdone, hmem, ?_⟩
    exact hupds.trans (by rw [hses]; rfl)
  · intro c hfree
    have hany := sedConfig_free hfree
    have at_ {off : Nat} {x : Sed} (hx : s.sedConfig off v = s.setSed c x) : Answers (exec (.sedConfigWrite off v) s) (fun t => t.sed c = x ∧ t.core.mem = s.core.mem) :=
      answers_dispatching_at hd hx ⟨State.sed_setSed_same .., rfl⟩
    have no : ¬ (s.sed (s.reg fldSedSel)).mbs.any (fun m => !m.2.entries.isEmpty || m.2.resv ≠ 0) = true := by rw [hany]; exact Bool.false_ne_true
    have hlow : bits v 0 32 = v % 2 ^ 32 := by simp [bits]
    exact ⟨at_ ((if_neg no).trans (congrArg (fun n => s.setSed c { s.sed c with size := n }) hlow)), at_ (if_neg no), at_ (if_neg no),
      at_ ((if_neg no).trans (congrArg (fun n => s.setSed c { s.sed c with spsize := n }) hlow))⟩

/-- Settles O56: an instruction of a stream engine at its head begins its job, or does what it says at once. -/
theorem movesAndPins : Obligations.MovesAndPins := ⟨movesBegin, pinsAndUpdates⟩

end Sys2Proof.Machine
end

section
/-! PROOF. The engines' cycles and events (O53; 04_ope R77-R109, 10_translation R258). -/
namespace Sys2Proof.Machine
open State

/-! A cycle of issue (R83-R86) -/

theorem opeErrors_nil (s : State) (n : Nat) : s.opeErrors n [] = s := by
  unfold State.opeErrors
  split <;> rfl

/-- What a cycle records of the causes that its partitions meet (R84). -/
def Ope.noted (o : Ope) (l : List (Nat × Meets)) : Ope := { o with
  frz := l.any (fun e => e.2.any), causeA := l.any (·.2.a), causeB := l.any (·.2.b), causeSlot := l.any (·.2.slot), causeDrain := l.any (·.2.drain) }

/-- The causes that the partitions which could issue meet. -/
def Ope.met (o : Ope) : List (Nat × Meets) := o.ready.map (fun e => (e.1, meets o e.1 e.2))

theorem no_old {l : List OpeStep} (h : ∀ y ∈ l, y.age < 23) : l.any (fun t => t.age ≥ 23) = false := by
  simp only [List.any_eq_false, decide_eq_true_eq, not_le]
  exact h

/-- A cycle of issue where no step has reached stage 23: the steps move on, and then partitions issue, freeze, or are withheld. -/
theorem issueCycle_young {s : State} {n : Nat} (g : Bool) (h : ∀ y ∈ (s.ope n).pipe, y.age < 23) :
    s.issueCycle n g =
      let o := (s.ope n).advance
      let gated := g && decide (s.core.pwr.duty < 64)
      let l := if gated then [] else o.met
      let u := s.setOpe n (o.noted l)
      if gated then u
      else if l.any (fun e => e.2.any) then u.frozenCycle n l
      else
        let t := o.ready.foldl (fun s e => (s.issue n e.1 e.2).worked ⟨0, n, e.1⟩ 1) u
        if stepped u t n then t.bump (opeBase n + 0x100) 1 else t := by
  unfold State.issueCycle
  dsimp only
  rw [no_old h, if_neg Bool.false_ne_true]
  simp only [State.ope_setOpe_same, State.setOpe_setOpe]
  rfl

/-- A cycle in which one partition could issue, meets nothing, and issues a step. -/
theorem issueCycle_issues {s u t : State} {n p : Nat} {x : OpaRun} (h : ∀ y ∈ (s.ope n).pipe, y.age < 23) (hr : (s.ope n).advance.ready = [(p, x)])
    (hm : (meets (s.ope n).advance p x).any = false) (hu : u = s.setOpe n ((s.ope n).advance.noted (s.ope n).advance.met))
    (ht : t = (u.issue n p x).worked ⟨0, n, p⟩ 1) (hlen : (u.ope n).pipe.length < (t.ope n).pipe.length) :
    s.issueCycle n false = t.bump (opeBase n + 0x100) 1 := by
  have hany : (s.ope n).advance.met.any (fun e => e.2.any) = false := by
    rw [Ope.met, hr]
    simp [hm]
  rw [issueCycle_young false h]
  dsimp only
  rw [Bool.false_and, if_neg Bool.false_ne_true, if_neg Bool.false_ne_true, hany, if_neg Bool.false_ne_true, hr, List.foldl_cons, List.foldl_nil, ← hu, ← ht]
  exact if_pos (decide_eq_true hlen)

/-- Two states that differ in registers other than one counter. -/
structure CountsElse (o : Nat) (s t : State) : Prop where
  rest : ∃ regs, t = { s with core.regs := regs }
  counter : t.counter o = s.counter o

namespace CountsElse

theorem refl (o : Nat) (s : State) : CountsElse o s s := ⟨⟨_, rfl⟩, rfl⟩

theorem trans {o : Nat} {s t u : State} (h : CountsElse o s t) (k : CountsElse o t u) : CountsElse o s u := by
  obtain ⟨⟨_, rfl⟩, hc⟩ := h
  obtain ⟨⟨_, rfl⟩, kc⟩ := k
  exact ⟨⟨_, rfl⟩, kc.trans hc⟩

theorem bump {o p : Nat} (s : State) (n : Nat) (h : p ≠ o) : CountsElse o s (s.bump p n) := ⟨⟨_, rfl⟩, State.counter_bump_ne _ _ h.symm⟩

theorem bumpIf {o p : Nat} (s : State) (b : Bool) (n : Nat) (h : p ≠ o) : CountsElse o s (if b then s.bump p n else s) := by
  split
  · exact bump s n h
  · exact refl o s

theorem foldl {o : Nat} {α : Type} {f : State → α → State} (hf : ∀ s a, CountsElse o s (f s a)) (l : List α) (s : State) : CountsElse o s (l.foldl f s) := by
  induction l generalizing s with
  | nil => exact refl o s
  | cons a l ih => exact (hf s a).trans (ih _)

end CountsElse

/-- The counters of a frozen cycle move nothing else, and the first of them by one (R86). -/
theorem frozenCycle_counts (s : State) (n : Nat) (l : List (Nat × Meets)) : (∃ regs, s.frozenCycle n l = { s with core.regs := regs })
    ∧ (s.frozenCycle n l).counter (opeBase n + 0x108) = (s.counter (opeBase n + 0x108) + 1) % 2 ^ 64 := by
  obtain ⟨⟨_, h⟩, hc⟩ : CountsElse (opeBase n + 0x108) (s.bump (opeBase n + 0x108) 1) (s.frozenCycle n l) := by
    unfold State.frozenCycle
    extract_lets b any u1 u2 u3 u4 u5
    have h2 : CountsElse (b + 0x108) u1 u2 := .bumpIf u1 _ 1 (by omega)
    have h3 : CountsElse (b + 0x108) u2 u3 := .bumpIf u2 _ 1 (by omega)
    have h4 : CountsElse (b + 0x108) u3 u4 := .bumpIf u3 _ 1 (by omega)
    have h5 : CountsElse (b + 0x108) u4 u5 := .bumpIf u4 _ 1 (by omega)
    exact (((h2.trans h3).trans h4).trans h5).trans
      (.foldl (f := fun s (e : Nat × Meets) => s.bump (b + 0x140 + 8 * e.1) 1) (fun s e => .bump s 1 (by omega)) _ u5)
  exact ⟨⟨_, h⟩, hc.trans (State.counter_bump_same ..)⟩

/-! One step issued (R77-R80) -/

/-- The tile an OPA names is held: of the engine the tiles of its partition alone change. -/
theorem holdTile_rest (s : State) (n p t : Nat) (a32 : Bool) (sh : Nat) :
    (∃ opes free, (s.holdTile n p t a32 sh).1 = { s with core.opes := opes, core.free := free })
    ∧ ((s.holdTile n p t a32 sh).1.ope n).pipe = (s.ope n).pipe := by
  unfold State.holdTile
  dsimp only
  split
  · exact ⟨⟨_, _, rfl⟩, rfl⟩
  · split
    · exact ⟨⟨_, _, rfl⟩, (congrArg Ope.pipe (State.ope_setOpe_same ..)).trans rfl⟩
    · exact ⟨⟨_, _, rfl⟩, (congrArg Ope.pipe (State.ope_setOpe_same ..)).trans rfl⟩

/-- The blocks of a side with those struck whose operand tile met an error (R83). -/
def struckBlocks (struck : List Nat) (side : Nat) (l : List Blk) : List Blk :=
  l.zipIdx.map (fun b => { b.1 with poison := b.1.poison || struck.contains (2 * side + b.2 / 128) })

theorem struckBlocks_poison {struck : List Nat} {side i : Nat} {l : List Blk} (hi : i < l.length) (hs : 2 * side + i / 128 ∈ struck) :
    ((struckBlocks struck side l).getD i {}).poison = true := by
  unfold struckBlocks
  rw [List.getD_eq_getElem?_getD, List.getElem?_map, List.getElem?_zipIdx, List.getElem?_eq_getElem hi]
  simp [hs]

theorem sideBlocks_length (o : Ope) (p : Nat) (e : Entry) (side kb : Nat) :
    (sideBlocks o p e side kb).length = if side = 0 then (shapeDims e.shape).1 else (shapeDims e.shape).2 := by
  unfold sideBlocks
  rw [List.length_map, List.length_range]

/-- The OPA in progress after one more step of its K-block, or none after its last. -/
def OpaRun.next (x : OpaRun) (bad : List Nat) : Option OpaRun :=
  if x.cyc + 1 = x.e.cycles then (if x.kb + 1 = x.e.nkb then none else some { x with kb := x.kb + 1, cyc := 0, started := true, bad := bad, struck := [] })
  else some { x with cyc := x.cyc + 1, started := true }

/-- A partition issues one step of its OPA. -/
theorem issue_steps {u : State} {n p : Nat} {x : OpaRun} (hc : x.started = true ∨ (u.ope n).clash p x.e (fun _ => true) = false)
    (hm : x.cyc = 0 → mismatch (u.ope n) p x = none) : ∃ y bad a b,
    let v := u.issue n p x
    (v.ope n).pipe = (u.ope n).pipe ++ [y] ∧ (x.cyc + 1 = x.e.cycles → y.kb = some (struckBlocks x.struck 0 a, struckBlocks x.struck 1 b))
      ∧ a.length = (shapeDims x.e.shape).1 ∧ b.length = (shapeDims x.e.shape).2 ∧ ((v.ope n).part p).run = x.next bad
      ∧ v.core.regs = u.core.regs ∧ v.core.mem = u.core.mem := by
  have hc' : ¬ (!x.started && (u.ope n).clash p x.e (fun _ => true)) = true := by
    obtain h | h := hc <;> simp [h]
  have hm' : (if x.cyc = 0 then mismatch (u.ope n) p x else none) = none := by
    split
    · next h => exact hm h
    · rfl
  generalize hv : u.issue n p x = v
  unfold State.issue at hv
  extract_lets o e kt _ s1 o1 last final endTile rel rels hit as_ bs badOf bad step used o2 y pt stop o3 s2 at hv
  rw [if_neg hc', hm'] at hv
  dsimp only at hv
  obtain ⟨⟨_, _, hrest⟩, hpipe⟩ : (∃ opes free, s1 = { u with core.opes := opes, core.free := free }) ∧ o1.pipe = (u.ope n).pipe := holdTile_rest u n p x.e.tile x.e.a32 x.e.shape
  obtain ⟨_, hq⟩ : ∃ queues, v = { s2 with core.qm.queues := queues } := by
    rw [← hv]
    split
    · exact s2.noteCount_rest e 1 bad.length
    · exact ⟨_, rfl⟩
  have hope : v.ope n = o3 := by
    have hs2 : s2.core.opes = mput s1.core.opes n o3 := rfl
    rw [hq]
    show mgetD s2.core.opes n {} = o3
    rw [hs2]
    exact mgetD_mput_same ..
  have hrun : (o3.part p).run = if final then none else some y := congrArg OPart.run (Ope.part_setPart_same o2 p _)
  refine ⟨step, bad, sideBlocks o1 p e 0 x.kb, sideBlocks o1 p e 1 x.kb, ?_, fun hl => ?_, sideBlocks_length .., sideBlocks_length .., ?_, ?_, ?_⟩
  · rw [hope]
    show o1.pipe ++ [step] = _
    rw [hpipe]
  · have hlast : last = true := decide_eq_true hl
    show (if last then some (as_, bs) else none) = _
    rw [if_pos hlast]
    show some (as_, bs) = some (hit 0 _, hit 1 _)
    unfold as_ bs
    rw [if_pos hlast, if_pos hlast]
  · rw [hope, hrun, OpaRun.next]
    unfold final y last
    by_cases h1 : x.cyc + 1 = x.e.cycles
    · by_cases h2 : x.kb + 1 = x.e.nkb
      · simp [e, h1, h2]
      · simp [e, h1, h2]
    · simp [e, h1]
  · rw [hq]
    show s1.core.regs = _
    rw [hrest]
  · rw [hq]
    show s1.core.mem = _
    rw [hrest]

theorem issueOrFreeze : Says.IssueOrFreeze := by
  intro s n hl hyoung o
  refine ⟨fun g x hg hx hm => ?_, fun hd => ?_, fun p x hr hm hc hmis => ?_⟩
  · have hg' : (g && decide (s.core.pwr.duty < 64)) = false := by
      obtain h | h := hg
      · rw [h, Bool.false_and]
      · rw [decide_eq_false (Nat.not_lt.2 h), Bool.and_false]
    have hany : o.met.any (fun e => e.2.any) = true := List.any_eq_true.2 ⟨_, List.mem_map_of_mem hx, hm⟩
    obtain ⟨⟨_, hrest⟩, hcnt⟩ := frozenCycle_counts (s.setOpe n (o.noted o.met)) n o.met
    refine answers_live_at hl (t := (s.setOpe n (o.noted o.met)).frozenCycle n o.met) ?_ ?_
    · rw [opeErrors_nil, issueCycle_young g hyoung]
      dsimp only
      rw [hg', if_neg Bool.false_ne_true, if_neg Bool.false_ne_true, if_pos hany]
    · have hope : ((s.setOpe n (o.noted o.met)).frozenCycle n o.met).ope n = o.noted o.met := by
        rw [hrest]
        exact State.ope_setOpe_same s n _
      refine ⟨(congrArg Ope.parts hope).trans rfl, (congrArg Ope.pipe hope).trans rfl, (congrArg Ope.frz hope).trans hany, hcnt, ?_, ?_⟩
      · rw [hrest]
        rfl
      · rw [hrest]
        rfl
  · refine answers_live_at hl (t := s.setOpe n (o.noted [])) ?_ ?_
    · rw [opeErrors_nil, issueCycle_young true hyoung]
      dsimp only
      rw [Bool.true_and, decide_eq_true hd, if_pos rfl, if_pos rfl]
    · have hope : (s.setOpe n (o.noted [])).ope n = o.noted [] := State.ope_setOpe_same s n _
      exact ⟨(congrArg Ope.parts hope).trans rfl, (congrArg Ope.pipe hope).trans rfl, rfl, rfl, rfl⟩
  · obtain ⟨u, hu⟩ : ∃ u, u = s.setOpe n (o.noted o.met) := ⟨_, rfl⟩
    have huo : u.ope n = o.noted o.met := by rw [hu]; exact State.ope_setOpe_same s n _
    obtain ⟨y, bad, a, b, hpipe, hkb, ha, hb, hrun, hregs, hmem⟩ := issue_steps (u := u) (n := n) (p := p) (x := x)
      (by rw [huo]; exact hc) (by rw [huo]; exact hmis)
    generalize hv : u.issue n p x = v at hpipe hrun hregs hmem
    rw [huo] at hpipe
    have hlen : (u.ope n).pipe.length < ((v.worked ⟨0, n, p⟩ 1).ope n).pipe.length := by
      show _ < (v.ope n).pipe.length
      rw [hpipe, huo, List.length_append]
      exact Nat.lt_succ_self _
    refine answers_live_at hl (t := (v.worked ⟨0, n, p⟩ 1).bump (opeBase n + 0x100) 1) ?_ ?_
    · rw [opeErrors_nil, issueCycle_issues hyoung hr hm hu (by rw [hv]) hlen]
    · refine ⟨?_, (congrArg List.length hpipe).trans List.length_append, hmem.trans (by rw [hu]; rfl), fun h1 h2 => ?_, fun h1 => ?_, fun h1 h2 => ?_, fun h1 => ?_⟩
      · refine (State.counter_bump_same ..).trans ?_
        show (mgetD v.core.regs.cnt _ 0 + 1) % _ = _
        rw [hregs, hu]
        rfl
      · exact hrun.trans (by rw [OpaRun.next, if_pos h1, if_pos h2])
      · exact hrun.trans (by rw [OpaRun.next, if_neg h1])
      · exact ⟨{ x with kb := x.kb + 1, cyc := 0, started := true, bad := bad, struck := [] }, hrun.trans (by rw [OpaRun.next, if_pos h1, if_neg h2]), rfl, rfl, rfl⟩
      · refine ⟨y, _, hpipe, hkb h1, fun i hi hs => ?_, fun i hi hs => ?_⟩
        · exact struckBlocks_poison (ha.symm ▸ hi) (by rwa [Nat.mul_zero, Nat.zero_add])
        · exact struckBlocks_poison (hb.symm ▸ hi) hs

/-! A completion leaves the engines alone -/

theorem Recorded.opes {s t : State} (h : Recorded s t) : t.core.opes = s.core.opes := by
  obtain ⟨_, _, _, _, _, _, _, rfl⟩ := h.rest
  rfl

theorem flushSamples_opes (s : State) (l : List (List Byte)) : (s.flushSamples l).core.opes = s.core.opes := by
  induction l generalizing s with
  | nil => rfl
  | cons bs l ih =>
    have lost : ∀ s : State, s.sampleLost.core.opes = s.core.opes := fun s => (Recorded.raise _ (by decide) (by decide)).opes
    unfold State.flushSamples
    split
    · rw [ih, lost]
    · dsimp only
      split
      · rw [ih]
        exact (Recorded.vput _ _ _ _ _ _).opes
      · rw [ih, lost]
      · rw [ih, lost]
      · exact (Recorded.askFor _ _ _).opes

theorem freeScratch_opes (s : State) (q seq : Nat) : (s.freeScratch q seq).core.opes = s.core.opes := by
  unfold State.freeScratch
  generalize s.core.vus = l
  induction l generalizing s with
  | nil => rfl
  | cons v l ih =>
    rw [List.foldl_cons]
    refine (ih _).trans ?_
    dsimp only
    split <;> rfl

theorem retire_opes (s : State) (q : Nat) (i : InFlight) (c d : Nat) : (s.retire q i c d).core.opes = s.core.opes := by
  unfold State.retire
  dsimp only
  split
  · obtain ⟨_, _, _, _, _, _, _, _, h⟩ := (emitRecord_emitted (s.setQueue q { s.queue q with fl := (s.queue q).fl.filter (fun j => j.seq ≠ i.seq) }) q i.tag
      (statusByte (s.queue q).lateErr c) i.op i.gen d i.unit (some i.tag)).rest
    rw [State.emitRecord]
    exact (congrArg (fun x : State => x.core.opes) h).trans rfl
  · rfl

theorem completeInst_opes (s : State) (q seq : Nat) : (s.completeInst q seq).core.opes = s.core.opes := by
  unfold State.completeInst
  split
  · rfl
  · dsimp only
    generalize statusOf _ _ = st
    generalize isError _ _ = err
    generalize InFlight.lateOut _ _ = i
    have hlate (u : State) : (u.countLate i).core.opes = u.core.opes := by
      unfold State.countLate
      split
      · rfl
      · split
        · rfl
        · dsimp only
          split <;> rfl
    have hsig (u : State) (b : Bool) (r c : Nat) : (if b then u else u.signal r c q err).core.opes = u.core.opes := by
      split
      · rfl
      · obtain ⟨_, h⟩ := (State.signal_signalled u r c q err).qm
        rw [h]
    have hsample (u : State) (k c : Nat) : (u.sampleDone q i k c).core.opes = u.core.opes := by
      unfold State.sampleDone
      split
      · rfl
      · exact (flushSamples_opes _ _).trans rfl
    exact (hsample _ _ _).trans ((retire_opes ..).trans ((hsig _ _ _ _).trans ((hlate _).trans (freeScratch_opes ..))))

theorem settleCtl_opes (n : Nat) (s : State) (q : Nat) : (s.settleCtl q n).core.opes = s.core.opes := by
  induction n generalizing s with
  | zero => rfl
  | succ n ih =>
    unfold State.settleCtl
    dsimp only
    split
    · rfl
    · exact (ih _).trans (completeInst_opes s q _)

theorem dropSaved_opes (s : State) (q : Nat) : (s.dropSaved q).core.opes = s.core.opes := by
  have free (u : State) (k m : Nat) (p : Option Nat) : (u.asideFree k m p).core.opes = u.core.opes := by
    unfold State.asideFree
    split
    · rfl
    · split <;> rfl
  have frees (r : SlotRef) (l : List (Tile × Option Nat)) : ∀ u : State, (l.foldl (fun (s : State) (t : Tile × Option Nat) => s.unAside r.unit t.1 t.2) u).core.opes = u.core.opes := by
    induction l with
    | nil => exact fun _ => rfl
    | cons t l ih => exact fun u => (ih _).trans (free ..)
  unfold State.dropSaved
  split
  · exact (free ..).trans (frees ..)
  · rfl

theorem settleStop_opes (s : State) (q : Nat) : (s.settleStop q).core.opes = s.core.opes := by
  have table (u : State) : (u.tableWrite q).core.opes = u.core.opes := by
    unfold State.tableWrite
    dsimp only
    split <;> rfl
  have slot (u : State) : (u.freeSlot q).core.opes = u.core.opes := by
    unfold State.freeSlot
    split <;> rfl
  unfold State.settleStop
  dsimp only
  split
  · rfl
  · split
    · rw [(Recorded.raise _ (by decide) (by decide)).opes]
      exact (table _).trans ((slot _).trans (dropSaved_opes ..))
    · split <;> rfl

/-- A completion leaves the outer-product engines alone (R146). -/
theorem complete_opes (s : State) (q seq : Nat) : (s.complete q seq).core.opes = s.core.opes :=
  (settleStop_opes ..).trans ((settleCtl_opes _ (s.completeInst q seq) q).trans (completeInst_opes s q seq))

/-! The end of what waited at a fence -/

/-- Instructions ended and completed, one after the other. -/
def State.endAll (s : State) (l : List Entry) : State := l.foldl (fun s e => (s.finishWith e.q e.seq 5 0).complete e.q e.seq) s

theorem State.endAll_cons (s : State) (e : Entry) (l : List Entry) : s.endAll (e :: l) = ((s.finishWith e.q e.seq 5 0).complete e.q e.seq).endAll l := rfl

theorem endAll_opes (l : List Entry) (s : State) : (s.endAll l).core.opes = s.core.opes := by
  induction l generalizing s with
  | nil => rfl
  | cons e l ih =>
    obtain ⟨_, h⟩ := s.finishWith_rest e.q e.seq 5 0
    rw [State.endAll_cons, ih, complete_opes, h]

theorem Settles.finishWith (s : State) (q seq c d : Nat) : Settles s (s.finishWith q seq c d) :=
  (Settles.updQueue s q (f := fun x => x.updFl seq (fun i => i.out c d false)) fun x => .updFl x seq fun _ => rfl).trans
    (Settles.updQueue _ q (f := fun x => x.updFl seq (fun i => { i with done := true, fid := none })) fun x => .updFl x seq fun _ => rfl)

/-- Each of them is in flight no longer. -/
theorem endAll_gone (l : List Entry) (s : State) : Settles s (s.endAll l) ∧ ∀ e ∈ l, ((s.endAll l).queue e.q).inst e.seq = none := by
  induction l generalizing s with
  | nil => exact ⟨.refl s, fun e he => absurd he List.not_mem_nil⟩
  | cons e l ih =>
    obtain ⟨hs, hgone⟩ := ih ((s.finishWith e.q e.seq 5 0).complete e.q e.seq)
    have hc : Settles (s.finishWith e.q e.seq 5 0) ((s.finishWith e.q e.seq 5 0).complete e.q e.seq) :=
      Settles.trans (Settles.completeInst (s.finishWith e.q e.seq 5 0) e.q e.seq) (Settles.settle ((s.finishWith e.q e.seq 5 0).completeInst e.q e.seq) e.q)
    rw [State.endAll_cons]
    refine ⟨((Settles.finishWith s e.q e.seq 5 0).trans hc).trans hs, fun x hx => ?_⟩
    obtain rfl | hx := List.mem_cons.1 hx
    · exact (hs x.q).fl _ (complete_gone ..).1
    · exact hgone x hx

/-! A step at stage 23, a stop, a mode, and a release -/

/-- The tile of a step with the K-block that the step closes merged into it, zeroed first where the step says so (R79, R182). -/
def OpeStep.merged (x : OpeStep) (tl : Tile) (ab : List Blk × List Blk) : Tile × Nat :=
  (if x.zero then Tile.zero tl.a32 tl.shape else tl).mergeKBlock (fun i j => blockSum (ab.1.getD i {}) (ab.2.getD j {}))

/-- The one step that has reached stage 23 is merged into its tile, and leaves the pipeline (R79, R80). -/
theorem cellWrites_merges {s : State} {n p : Nat} {x : OpeStep} {tl : Tile} {ab : List Blk × List Blk}
    (hf : (s.ope n).pipe.filter (fun t => decide (t.age ≥ 23)) = [x]) (hd : x.dead = false) (hp : x.part = p) (hfence : ((s.ope n).part p).fence = 0)
    (ht : mget ((s.ope n).part p).tiles x.tile = some tl) (hk : x.kb = some ab) :
    let y : OPart := { (s.ope n).part p with tiles := mput ((s.ope n).part p).tiles x.tile (x.merged tl ab).1 }
    ∃ pipe, (s.cellWrites n).ope n = { (s.ope n).setPart p y with pipe := pipe } ∧ (∀ y ∈ pipe, y.age < 23) ∧ (s.cellWrites n).core.mem = s.core.mem := by
  subst hp
  intro y
  obtain ⟨u, hu⟩ : ∃ u, u = (s.setTile n x.part x.tile (x.merged tl ab).1).bump (opeBase n + 0x160 + 8 * x.part) (x.merged tl ab).2 := ⟨_, rfl⟩
  have hw : s.writeStep n x = if x.final && !x.dead then u.finish x.q x.seq else u := by
    have hno : ¬ (x.dead || ((s.ope n).part x.part).fence ≠ 0) = true := by simp [hd, hfence]
    unfold State.writeStep
    dsimp only
    rw [if_neg hno, ht]
    dsimp only
    rw [hk, hu]
    rfl
  obtain ⟨v, hv⟩ : ∃ v, v = s.writeStep n x := ⟨_, rfl⟩
  have hvo : v.core.opes = u.core.opes ∧ v.core.mem = u.core.mem := by
    rw [hv, hw]
    split <;> exact ⟨rfl, rfl⟩
  have huo : v.ope n = (s.ope n).setPart x.part y := by
    show mgetD v.core.opes n {} = _
    rw [hvo.1, hu]
    exact State.ope_setOpe_same s n _
  have hc : s.cellWrites n = v.setOpe n { v.ope n with pipe := (v.ope n).pipe.filter (fun t => t.age < 23) } := by
    unfold State.cellWrites
    dsimp only
    rw [hf, List.foldl_cons, List.foldl_nil, ← hv]
  refine ⟨(v.ope n).pipe.filter (fun t => t.age < 23), ?_, fun y hy => by simpa using (List.mem_filter.1 hy).2, ?_⟩
  · rw [hc, State.ope_setOpe_same, huo]
  · rw [hc]
    exact hvo.2.trans (by rw [hu]; rfl)

/-- The engine without what it held in a partition whose fence is released (R258). -/
def Ope.released (o : Ope) (p : Nat) : Ope :=
  let per := if o.mode = 3 then 1024 else if o.mode = 0 then 4096 else 2048
  let inPart (l : Nat) : Bool := decide (l / per = p)
  { o with
    parts := mput o.parts p { tiles := [], clean := List.range 16 }
    pend := o.pend.filter (fun e => e.1 ≠ p)
    obuf := o.obuf.filter (fun e => !inPart e.1)
    drop := o.drop.filter (fun l => !inPart l.1)
    unkeep := o.unkeep.filter (fun l => !inPart l.1)
    pipe := o.pipe.filter (fun t => t.part ≠ p)
    drains := o.drains.filter (fun d => d.part ≠ p)
    back := o.back.map (fun (d : DrainImg × Option Nat) => if d.1.part = p then ({ d.1 with part := 4 }, d.2) else d)
    staged := o.staged.map (fun x => if x.part = p then { x with part := 4 } else x) }

/-- What waited at a partition, in the order in which it ends. -/
def Ope.waiting (o : Ope) (p : Nat) : List Entry :=
  ((o.pend.filter (fun e => e.1 = p)).map (·.2)) ++ (o.drains.filter (fun d => d.part = p) ++ (o.back.filter (fun d => d.1.part = p)).map (·.1)).map (·.e)

/-- A release of a partition that was not fenced by a format mismatch: nothing of it stays, and what waited there ends. -/
theorem releasePart_ends {s : State} {n p : Nat} (hf : ((s.ope n).part p).fence ≠ 1) :
    ∃ u : State, (∃ ldg, u = { s with core.ldg := ldg }) ∧ s.releasePart n p = (u.setOpe n ((s.ope n).released p)).endAll ((s.ope n).waiting p) := by
  obtain ⟨k, hk⟩ : ∃ k, k = sumNat (((s.ope n).drains.filter (fun d => d.part = p)).map (·.units)) := ⟨_, rfl⟩
  refine ⟨if ((s.ope n).part p).fence = 2 then s.reclaim 9 n k else s.give 9 n k, ?_, ?_⟩
  · split <;> exact ⟨_, rfl⟩
  · have hr : (mgetD (mgetD s.core.opes n {}).parts p {}).reloads = [] := if_neg hf
    have hf' : ¬ (mgetD (mgetD s.core.opes n {}).parts p {}).fence = 1 := hf
    unfold State.releasePart
    dsimp only
    rw [hr, List.foldl_nil, if_neg hf', if_neg hf', hk]
    rfl

theorem engineEvents : Says.EngineEvents := by
  intro s n p hl
  refine ⟨fun x tl ab hf hd hp hfence ht hk => ?_, fun x hx => ?_, fun m g sd hn hslots hobuf hdr hpipe hpend hparts hmode => ?_, fun h0 h1 hctx => ?_⟩
  · obtain ⟨pipe, hope, hage, hmem⟩ := cellWrites_merges hf hd hp hfence ht hk
    generalize hv : s.cellWrites n = v at hope hmem
    have htiles : ((v.ope n).part p).tiles = mput ((s.ope n).part p).tiles x.tile (x.merged tl ab).1 := by
      rw [hope]
      exact congrArg OPart.tiles (Ope.part_setPart_same (s.ope n) p _)
    refine answers_live_at hl (t := v) (by rw [opeErrors_nil, hv]) ⟨?_, fun k hne => ?_, fun y hy => hage y ?_, hmem⟩
    · exact (congrArg (mget · x.tile) htiles).trans (mget_mput_same _ _ _)
    · exact (congrArg (mget · k) htiles).trans (mget_mput_ne _ _ hne)
    · have hpipe : (v.ope n).pipe = pipe := by rw [hope]
      exact hpipe ▸ hy
  · obtain ⟨y, hy⟩ : ∃ y : OPart, y = { (s.ope n).part p with stopAsk := true, stopAt := if x.cyc = 0 then some x.kb else ((s.ope n).part p).stopAt } := ⟨_, rfl⟩
    obtain ⟨u, hu⟩ : ∃ u, u = s.setOpe n ((s.ope n).setPart p y) := ⟨_, rfl⟩
    have hope : u.ope n = (s.ope n).setPart p y := hu ▸ State.ope_setOpe_same ..
    have hpart : (u.ope n).part p = y := by rw [hope, Ope.part_setPart_same]
    refine answers_live_at hl (t := u) ?_ ⟨?_, ?_, fun h => ?_, fun k hk => ?_, ?_⟩
    · unfold State.stopPart
      dsimp only
      rw [hu, hy]
      simp only [hx]
    · exact (congrArg OPart.stopAsk hpart).trans (by rw [hy])
    · exact (congrArg OPart.run hpart).trans (by rw [hy]; exact hx)
    · exact (congrArg OPart.stopAt hpart).trans (by rw [hy]; exact if_pos h)
    · exact (congrArg (Ope.part · k) hope).trans (Ope.part_setPart_ne _ _ hk)
    · rw [hu]
      rfl
  · have hbound : s.core.qm.slots.any (fun e => e.1 / 16 = n) = false := List.any_eq_false.2 fun e he => by simp [hslots e he]
    have hholds : (s.ope n).parts.any (fun e => !e.2.tiles.isEmpty || decide (e.2.fence ≠ 0) || e.2.run.isSome) = false :=
      List.any_eq_false.2 fun e he => by
        obtain ⟨h1, h2, h3⟩ := hparts e he
        simp [h1, h2, h3]
    have hok : (decide (n ≥ s.opeCount) || decide (m > 3) || !(decide (g < 8) || decide (g = 0xF)) || (decide (g < 8) && decide (m ≠ 0))) = false := by
      obtain ⟨rfl, hg⟩ | ⟨hm, rfl⟩ := hmode
      · simp [hn, hg]
      · simp [hn, hm]
    simp only [Bool.or_eq_false_iff] at hok
    obtain ⟨⟨⟨h1, h2⟩, h3⟩, h4⟩ := hok
    refine answers_live_at hl (t := s.setOpe n { s.ope n with mode := m, gang := g, gside := sd, parts := [] }) ?_
      ⟨State.ope_setOpe_same .., fun k hk => State.ope_setOpe_ne _ _ hk, rfl, rfl⟩
    dsimp only
    rw [hbound, hholds, hobuf, hdr, hpipe, hpend, h1, h2, h3, h4]
    exact if_neg Bool.false_ne_true
  · obtain ⟨u, ⟨_, hu⟩, hrun⟩ := releasePart_ends h1
    obtain ⟨l, hlw⟩ : ∃ l, l = (s.ope n).waiting p := ⟨_, rfl⟩
    rw [← hlw] at hrun
    obtain ⟨-, hgone⟩ := endAll_gone l (u.setOpe n ((s.ope n).released p))
    have hopes := endAll_opes l (u.setOpe n ((s.ope n).released p))
    have hmem : l = [] → ((u.setOpe n ((s.ope n).released p)).endAll l).core.mem = s.core.mem := by
      rintro rfl
      show u.core.mem = _
      rw [hu]
    generalize (u.setOpe n ((s.ope n).released p)).endAll l = v at hrun hgone hopes hmem
    have hope : v.ope n = (s.ope n).released p := by
      show mgetD v.core.opes n {} = _
      rw [hopes]
      exact State.ope_setOpe_same ..
    have hpart : (v.ope n).part p = { tiles := [], clean := List.range 16 } := by
      rw [hope]
      exact mgetD_mput_same ..
    have hdue : (if ((s.ope n).part p).fence = 1 then (s.queue ((s.ope n).part p).fenceQ).st ≠ QState.error && (s.queue ((s.ope n).part p).fenceQ).cont
        && (s.queue ((s.ope n).part p).fenceQ).fl.all (fun i => !(i.op = 0x10 && i.done))
      else (s.ctx ((s.ope n).part p).fenceCtx).st = CtxState.free : Bool) = true := by
      rw [if_neg h1]
      exact decide_eq_true hctx
    refine answers_live_at hl (t := v) ?_ ⟨?_, ?_, fun k hk => ?_, fun y hy => ?_, fun y hy => ?_, fun y hy hyp i hi => ?_, fun hpe hdr hba => ?_⟩
    · dsimp only
      rw [hdue, decide_eq_true h0, Bool.and_self, if_pos rfl, hrun]
    · exact (congrArg OPart.fence hpart).trans rfl
    · exact (congrArg OPart.tiles hpart).trans rfl
    · exact (congrArg (Ope.part · k) hope).trans (mgetD_mput_ne _ _ _ hk)
    · have hy' : y ∈ ((s.ope n).released p).pipe := hope ▸ hy
      simpa using (List.mem_filter.1 hy').2
    · have hy' : y ∈ ((s.ope n).released p).pend := hope ▸ hy
      simpa using (List.mem_filter.1 hy').2
    · have hin : y.2 ∈ l := by
        rw [hlw]
        exact List.mem_append_left _ (List.mem_map_of_mem (List.mem_filter.2 ⟨hy, decide_eq_true hyp⟩))
      have hi' : (v.queue y.2.q).inst y.2.seq = some i := hi
      rw [hgone _ hin] at hi'
      cases hi'
    · refine hmem ?_
      rw [hlw, Ope.waiting, List.filter_eq_nil_iff.2 (fun y hy => by simpa using hpe y hy), List.filter_eq_nil_iff.2 (fun d hd => by simpa using hdr d hd),
        List.filter_eq_nil_iff.2 (fun d hd => by simpa using hba d hd)]
      rfl

/-- Settles O53: an engine's cycle freezes, is withheld or issues, and its steps, stops, modes and releases change what they name. -/
theorem engineCycles : Obligations.EngineCycles := ⟨issueOrFreeze, engineEvents⟩

end Sys2Proof.Machine
end

section
/-! PROOF. Streams and their fetches (O55; 08_streams R186-R210). -/
namespace Sys2Proof.Machine
open State

@[simp] theorem State.stream_setStream_same (s : State) (n : Nat) (x : Stream) : (s.setStream n x).stream n = x := mgetD_mput_same ..

theorem State.stream_setStream_ne (s : State) {n k : Nat} (x : Stream) (h : k ≠ n) : (s.setStream n x).stream k = s.stream k := mgetD_mput_ne _ _ _ h

/-- What a descriptor is checked against is not changed by an access to memory. -/
theorem Accessed.streamBad {s t : State} (h : Accessed s t) (c d : Nat) : t.streamBad c d = s.streamBad c d := by
  obtain ⟨_, _, _, _, _, _, _, _, rfl⟩ := h.rest
  rfl

theorem Accessed.destAbsent {s t : State} (h : Accessed s t) (w : Nat) : t.destAbsent w = s.destAbsent w := by
  obtain ⟨_, _, _, _, _, _, _, _, rfl⟩ := h.rest
  rfl

/-! SARM and SCAN (R186, R189, R206) -/

/-- A stream that has been armed from IDLE, under the next generation (R189, R207). -/
def State.armedFresh (s : State) (r : SlotRef) (e : Entry) (d : Nat) : Stream :=
  let g := nextGen (s.stream e.stream).gen
  let a : Arming := { gen := g, at_ := e.descAt, desc := d, q := e.q, darm := (s.queue e.q).dep }
  { st := 1, ctx := e.ctx, slot := r, cur := a, gen := g, order := s.core.armNext }

/-- An IDLE stream is armed anew. -/
theorem arm_idle {s : State} {r : SlotRef} {e : Entry} (d : Nat) (h : (s.stream e.stream).st = 0) :
    s.arm r e d = ({ s.take 0xB 0 1 with core.armNext := s.core.armNext + 1 }.setStream e.stream (s.armedFresh r e d), nextGen (s.stream e.stream).gen) := by
  have hb (b : Bool) : ¬ (b && [1, 2, 5, 7].contains (s.stream e.stream).st) = true := by rw [h]; simp
  unfold State.arm
  dsimp only
  rw [if_neg (hb _), h]
  rfl

theorem sarm_arms {s : State} {r : SlotRef} {e : Entry} (hd : s.dispatching = true) (hi : s.seIssuing r = false) (h : HeadOk s r 0x30 (sarmBad s r) e)
    (hh : s.headHeld r = false) (hc : s.vcheck e.ctx e.descAt 48 false true = .none) (h0 : (s.stream e.stream).st = 0)
    (hb : firstBad (s.streamBad e.ctx (s.vnat e.ctx e.descAt 48 true)) = none) (ha : s.destAbsent (bits (s.vnat e.ctx e.descAt 48 true) 192 64) = none) :
    Answers (exec (.sarm r) s) (fun t => Left s t r ∧ Done t e ∧ (t.stream e.stream).st = 1 ∧ (t.stream e.stream).ctx = e.ctx
      ∧ (t.stream e.stream).slot = r ∧ (t.stream e.stream).cur.desc = s.vnat e.ctx e.descAt 48 true ∧ (t.stream e.stream).cur.at_ = e.descAt
      ∧ (∀ n, n ≠ e.stream → t.stream n = s.stream n) ∧ t.core.mem = (s.vtouch e.ctx e.descAt 48 false true).core.mem) := by
  have hacc := Accessed.vtouch s e.ctx e.descAt 48 false true
  obtain ⟨u, hu⟩ : ∃ u, u = s.vtouch e.ctx e.descAt 48 false true := ⟨_, rfl⟩
  obtain ⟨d, hdd⟩ : ∃ d, d = s.vnat e.ctx e.descAt 48 true := ⟨_, rfl⟩
  rw [← hu] at hacc ⊢
  rw [← hdd] at hb ha ⊢
  obtain ⟨_, _, _, _, _, _, _, _, hr⟩ := hacc.rest
  have hus (n : Nat) : u.stream n = s.stream n := by rw [hr]; rfl
  obtain ⟨y, hy⟩ : ∃ y, y = u.armedFresh r e d := ⟨_, rfl⟩
  obtain ⟨v, hv⟩ : ∃ v, v = { u.take 0xB 0 1 with core.armNext := u.core.armNext + 1 }.setStream e.stream y := ⟨_, rfl⟩
  have harm : u.arm r e d = (v, nextGen (u.stream e.stream).gen) := by
    rw [arm_idle d ((congrArg Stream.st (hus _)).trans h0), hv, hy]
  obtain ⟨w, hw⟩ : ∃ w, w = (v.popHead r).updInst e.q e.seq (fun i => { i with gen := nextGen (u.stream e.stream).gen, effect := true }) := ⟨_, rfl⟩
  have hvq : v.core.qm.eiq = s.core.qm.eiq := by rw [hv]; show u.core.qm.eiq = _; rw [hr]
  obtain ⟨hl, hdone⟩ := left_done (s := s) (x := v) (y := w) (r := r) (e := e) (t := w.finish e.q e.seq) hvq (by rw [hw]; rfl) rfl
  obtain ⟨_, _, hp⟩ := v.popHead_rest r
  have hws : (w.finish e.q e.seq).core.streams = v.core.streams ∧ (w.finish e.q e.seq).core.mem = u.core.mem := by
    rw [hw]
    constructor
    · show (v.popHead r).core.streams = _
      rw [hp]
    · show (v.popHead r).core.mem = _
      rw [hp, hv]
      rfl
  have hstr (n : Nat) : (w.finish e.q e.seq).stream n = v.stream n := by unfold State.stream; rw [hws.1]
  have hsame : (w.finish e.q e.seq).stream e.stream = y := by rw [hstr, hv, State.stream_setStream_same]
  refine answers_dispatching_at hd (t := w.finish e.q e.seq) ?_ ⟨hl, hdone, ?_, ?_, ?_, ?_, ?_, fun n hn => ?_, hws.2⟩
  · rw [hi, hh, Bool.or_self, if_neg Bool.false_ne_true, atHead_ok _ h]
    unfold State.readDesc
    rw [hc]
    dsimp only
    rw [← hu, ← hdd, hacc.streamBad, hb]
    dsimp only
    rw [hacc.destAbsent, ha]
    dsimp only
    rw [harm, hw]
  · exact (congrArg Stream.st hsame).trans (by rw [hy]; rfl)
  · exact (congrArg Stream.ctx hsame).trans (by rw [hy]; rfl)
  · exact (congrArg Stream.slot hsame).trans (by rw [hy]; rfl)
  · exact (congrArg (fun x : Stream => x.cur.desc) hsame).trans (by rw [hy]; rfl)
  · exact (congrArg (fun x : Stream => x.cur.at_) hsame).trans (by rw [hy]; rfl)
  · refine (hstr n).trans ?_
    rw [hv, State.stream_setStream_ne _ _ hn]
    exact hus n

/-- SCAN of a stream that is not armed. -/
theorem scan_ends {s : State} {r : SlotRef} {e : Entry} (hd : s.dispatching = true) (hi : s.seIssuing r = false) (h : HeadOk s r 0x31 (fun e => s.streamIdBad r e) e)
    (hst : (s.stream e.stream).st = 0 ∨ (s.stream e.stream).st = 4 ∨ (s.stream e.stream).st = 6) (hw : ∀ w ∈ (s.se r.unit).wbs, (e.q, e.seq) ∉ w.scans) :
    Answers (exec (.scan r) s) (fun t => Ended s t r e 5 ∧ t.core.streams = s.core.streams ∧ t.core.ses = s.core.ses ∧ t.core.mem = s.core.mem) := by
  have hin : [0, 4, 6].contains (s.stream e.stream).st = true := by obtain h | h | h := hst <;> rw [h] <;> rfl
  have hno : (s.se r.unit).wbs.any (fun w => w.scans.contains (e.q, e.seq)) = false := List.any_eq_false.2 fun w hwm => by simpa using hw w hwm
  obtain ⟨_, _, hp⟩ := s.popHead_rest r
  refine answers_dispatching_at hd (t := (s.popHead r).finishWith e.q e.seq 5 0) ?_ ⟨ended_popHead s r e 5 0, ?_, ?_, s.popHead_mem r⟩
  · rw [hi, if_neg Bool.false_ne_true, atHead_ok _ h, State.scan, if_pos hin, hno]
    rfl
  · show (s.popHead r).core.streams = _
    rw [hp]
  · show (s.popHead r).core.ses = _
    rw [hp]

/-! STREAM_ACTIVATE (R189, R190) -/

/-- A running stream whose every landed entry has been signalled, and with entries to come, settles as it is. -/
theorem settleStream_running {s : State} {n : Nat} {x : Stream} (h : s.stream n = x) (hst : x.st = 2) (hold : x.old = none) (hs : x.cur.sigs = [])
    (hi : x.illegal = none) (he : x.entry < x.cur.nent) : s.settleStream n = s.setStream n x := by
  have hsig (u : State) (c low : Nat) : u.applySigs c low x.cur = (u, x.cur) := by
    unfold State.applySigs
    rw [hs]
    simp only [List.filter_nil, List.foldl_nil, Nat.max_zero]
    rw [← hs]
  have hon (p : Bool) : (if x.st = 7 && p then 2 else x.st) = x.st := if_neg (by rw [hst]; simp)
  have hlt : ¬ x.entry ≥ x.cur.nent := not_le.2 he
  unfold State.settleStream
  dsimp only
  rw [h, if_neg (show ¬ x.st = 5 by rw [hst]; decide), hold, Bool.and_assoc, hon]
  dsimp only
  rw [hsig, hi]
  dsimp only
  rw [if_neg (by simp [hlt])]
  refine congrArg (s.setStream n) ?_
  cases x
  dsimp only at hold hi
  rw [hold, hi]

/-- A stream whose descriptor reads and passes becomes active with it. -/
theorem activate_runs {s : State} {n : Nat} {d : Nat} (hdd : d = s.vnat (s.stream n).ctx (s.stream n).cur.at_ 48 true)
    (hc : s.vcheck (s.stream n).ctx (s.stream n).cur.at_ 48 false true = .none) (hold : (s.stream n).old = none) (hr : (s.stream n).redo = [])
    (hs : (s.stream n).cur.sigs = []) (hi : (s.stream n).illegal = none) (he : (s.stream n).entry < bits d 16 16)
    (hb : firstBad (s.streamBad (s.stream n).ctx d) = none) :
    let y : Stream := { s.stream n with st := 2, cur := { (s.stream n).cur with desc := d } }
    s.activate n = ((s.vtouch (s.stream n).ctx (s.stream n).cur.at_ 48 false true).setStream n y).setStream n y := by
  intro y
  have hon : (if (s.stream n).old.isSome || !(s.stream n).redo.isEmpty then 7 else 2) = 2 := by rw [hold, hr]; rfl
  have hacc := Accessed.vtouch s (s.stream n).ctx (s.stream n).cur.at_ 48 false true
  unfold State.activate
  dsimp only
  rw [hc]
  dsimp only
  rw [← hdd, hacc.streamBad, hb, hon]
  exact settleStream_running (x := y) (State.stream_setStream_same ..) rfl hold hs hi he

/-! STREAM_DEADLINE (R206, R210) -/

/-- Landed places that are released: of the engines their operand buffers alone change. -/
theorem releasePlaces_rest (s : State) (n g : Nat) : ∃ opes, (s.releasePlaces n g).1 = { s with core.opes := opes } := by
  unfold State.releasePlaces
  generalize 0 = k
  generalize s.core.opes = l
  induction l generalizing s k with
  | nil => exact ⟨_, rfl⟩
  | cons e l ih =>
    rw [List.foldl_cons]
    dsimp only
    split
    · exact ih s k
    · obtain ⟨_, h⟩ := ih (s.setOpe e.1 _) _
      exact ⟨_, h⟩

/-- Is a fetch one of a stream? -/
def Fetch.ofStream (f : Fetch) (n : Nat) : Bool := match f.tag with | some g => decide (g.stream = n) | none => false

/-- A fetch of a stream that is cancelled is silt when it arrives (R206). -/
def Fetch.silted (f : Fetch) (n : Nat) : Fetch := if f.ofStream n then { f with silt := true } else f

/-- The tracker of an SE with what it holds of a stream turned into silt. -/
def siltOf (n : Nat) (l : Map Fetch) : Map Fetch := l.map (fun t => (t.1, t.2.silted n))

theorem mem_fetchesOf {x : Se} {n : Nat} {f : Fetch} : f ∈ x.fetchesOf n (fun _ => true) ↔ ∃ k, (k, f) ∈ x.tracker ∧ f.ofStream n = true := by
  unfold Se.fetchesOf
  simp only [List.mem_map, List.mem_filter, Bool.and_true, Prod.exists, exists_eq_right]
  rfl

theorem silted_ofStream (f : Fetch) (n : Nat) : (f.silted n).ofStream n = f.ofStream n ∧ (f.ofStream n = true → (f.silted n).silt = true) := by
  unfold Fetch.silted
  split
  · exact ⟨rfl, fun _ => rfl⟩
  · next h => exact ⟨rfl, fun k => absurd k h⟩

theorem siltOf_fetches {x y : Se} {n : Nat} (hy : y.tracker = siltOf n x.tracker) (h : x.fetchesOf n (fun _ => true) ≠ []) :
    y.fetchesOf n (fun _ => true) ≠ [] ∧ ∀ f ∈ y.fetchesOf n (fun _ => true), f.silt = true := by
  constructor
  · obtain ⟨f, hf⟩ := List.exists_mem_of_ne_nil _ h
    obtain ⟨k, hk, ho⟩ := mem_fetchesOf.1 hf
    refine List.ne_nil_of_mem (mem_fetchesOf.2 ⟨k, ?_, (silted_ofStream f n).1.trans ho⟩)
    rw [hy]
    exact List.mem_map.2 ⟨_, hk, rfl⟩
  · intro f hf
    obtain ⟨k, hk, ho⟩ := mem_fetchesOf.1 hf
    rw [hy] at hk
    obtain ⟨⟨j, g⟩, -, he⟩ := List.mem_map.1 hk
    obtain ⟨rfl, rfl⟩ := Prod.mk.inj he
    exact (silted_ofStream g n).2 ((silted_ofStream g n).1.symm.trans ho)

/-- A stream that is being cancelled, with transfers in flight, waits for them. -/
theorem settleStream_waits {s : State} {n : Nat} (h : (s.stream n).st = 5) (hf : (s.se (s.stream n).slot.unit).fetchesOf n (fun _ => true) ≠ []) :
    s.settleStream n = s := by
  unfold State.settleStream
  dsimp only
  rw [if_pos h, if_neg (by simpa using hf)]

/-- A running stream with transfers in flight that is cancelled ends when they have landed, as silt; of its SE the tracker alone changes (R206). -/
theorem cancelStream_waits {s : State} {n code : Nat} (hst : (s.stream n).st ≠ 5)
    (hf : (s.se (s.stream n).slot.unit).fetchesOf n (fun _ => true) ≠ []) :
    let t := s.cancelStream n code none
    (t.stream n).st = 5 ∧ (t.stream n).endCode = code ∧ (∀ f ∈ (t.se (s.stream n).slot.unit).fetchesOf n (fun _ => true), f.silt = true)
      ∧ (∀ m, m ≠ n → t.stream m = s.stream m) ∧ t.core.mem = s.core.mem := by
  obtain ⟨u, hu⟩ : ∃ u, u = (s.stream n).slot.unit := ⟨_, rfl⟩
  rw [← hu] at hf ⊢
  generalize ht : s.cancelStream n code none = t
  unfold State.cancelStream at ht
  extract_lets st u' r r' s1 x s2 _ s3 at ht
  rw [if_neg hst] at ht
  obtain ⟨_, h1⟩ := releasePlaces_rest s n st.cur.gen
  have h2 : ∃ opes, r'.1 = { s with core.opes := opes } := by
    unfold r'
    split
    · next o _ =>
      obtain ⟨_, h⟩ := releasePlaces_rest r.1 n o.gen
      exact ⟨_, h.trans (by rw [show r.1 = _ from h1])⟩
    · exact ⟨_, h1⟩
  obtain ⟨_, _, h3⟩ : ∃ opes regs, s1 = { s with core.opes := opes, core.regs := regs } := by
    obtain ⟨_, h2⟩ := h2
    unfold s1 State.silt
    rw [h2]
    split <;> exact ⟨_, _, rfl⟩
  have hx : x = s.se u := by
    unfold x
    rw [h3, hu]
    rfl
  have hse : (s3.se u).tracker = siltOf n (s.se u).tracker := by
    have hmap (l : Map Fetch) : l.map (fun t => match t.2.tag with
        | some g => if g.stream = n then (t.1, { t.2 with silt := true }) else t
        | none => t) = siltOf n l := by
      refine List.map_congr_left fun t _ => ?_
      unfold Fetch.silted Fetch.ofStream
      split
      · next g hg => by_cases h : g.stream = n <;> simp [hg, h]
      · simp
    have h4 : s3.se u' = { x with tracker := siltOf n x.tracker } := by
      rw [← hmap]
      exact State.se_setSe_same s1 u' _
    rw [hu, ← hu]
    have hu' : u' = u := hu.symm
    rw [← hu', h4, hx, hu']
  have hmem : s3.core.mem = s.core.mem := by
    show s1.core.mem = _
    rw [h3]
  have hstream (m : Nat) (hm : m ≠ n) : s3.stream m = s.stream m := by
    refine (State.stream_setStream_ne s2 _ hm).trans ?_
    show mgetD s1.core.streams m {} = _
    rw [h3]
    rfl
  have hn : (s3.stream n).st = 5 ∧ (s3.stream n).endCode = code ∧ (s3.stream n).slot.unit = u := by
    unfold s3
    rw [State.stream_setStream_same]
    exact ⟨rfl, rfl, hu.symm⟩
  obtain ⟨hn5, hcode, hunit⟩ := hn
  clear_value s3
  obtain ⟨hne, hsilt⟩ := siltOf_fetches hse hf
  rw [settleStream_waits hn5 (hunit ▸ hne)] at ht
  subst ht
  exact ⟨hn5, hcode, hsilt, hstream, hmem⟩

theorem streamStates : Says.StreamStates := by
  intro s r e hd hi
  refine ⟨?_, fun h hst hw => scan_ends hd hi h hst hw, fun u n x hact hfirst => ?_, fun n => ?_⟩
  · intro d h hh hc h0 hb ha
    exact sarm_arms hd hi h hh hc h0 hb ha
  · intro st d hc hold hr _ hs hil he hb
    have hrun := activate_runs (s := s) (n := n) (d := d) rfl hc hold hr hs hil he hb
    obtain ⟨_, _, _, _, _, _, _, _, hv⟩ := (Accessed.vtouch s (s.stream n).ctx (s.stream n).cur.at_ 48 false true).rest
    generalize s.vtouch (s.stream n).ctx (s.stream n).cur.at_ 48 false true = v at hrun hv
    obtain ⟨y, hy⟩ : ∃ y : Stream, y = { s.stream n with st := 2, cur := { (s.stream n).cur with desc := d } } := ⟨_, rfl⟩
    have hrun' : s.activate n = (v.setStream n y).setStream n y := by rw [hy]; exact hrun
    have hsame : ((v.setStream n y).setStream n y).stream n = y := State.stream_setStream_same ..
    refine answers_dispatching_at hd (t := (v.setStream n y).setStream n y) ?_ ⟨?_, ?_, ?_, fun m hm => ?_⟩
    · rw [if_neg (not_le.2 hact), hfirst]
      exact hrun'
    · exact (congrArg Stream.st hsame).trans (by rw [hy])
    · exact (congrArg (fun x : Stream => x.cur.desc) hsame).trans (by rw [hy])
    · exact (congrArg (fun x : Stream => x.cur.gen) hsame).trans (by rw [hy])
    · refine ((State.stream_setStream_ne _ _ hm).trans (State.stream_setStream_ne _ _ hm)).trans ?_
      rw [hv]
      rfl
  · intro st
    refine ⟨fun hrt hab hdl hdue hst hend hf => ?_, fun hlt => ?_⟩
    · obtain ⟨_, hsch⟩ : ∃ k, s.scheduled = { s with core.unsync := k } := by
        unfold State.scheduled
        split <;> exact ⟨_, rfl⟩
      have hin : [1, 2, 7].contains st.st = true := by obtain h | h := hst <;> rw [h] <;> rfl
      have h5 : st.st ≠ 5 := by obtain h | h := hst <;> rw [h] <;> decide
      have hrun : s.streamDeadline n = s.scheduled.cancelStream n 3 none := by
        unfold State.streamDeadline
        rw [whenLive_pos _ (live_of_dispatching hd)]
        exact if_pos (by rw [hrt, hab, hend, hin, decide_eq_true hdl, decide_eq_true (show s.nowAt (st.slot.unit / 8) ≥ st.cur.deadline from hdue)]; rfl)
      obtain ⟨u, hu⟩ : ∃ u, u = s.scheduled := ⟨_, rfl⟩
      have hus (m : Nat) : u.stream m = s.stream m := by rw [hu, hsch]; rfl
      have hue (m : Nat) : u.se m = s.se m := by rw [hu, hsch]; rfl
      have hum : u.core.mem = s.core.mem := by rw [hu, hsch]
      obtain ⟨h1, h2, h3, h4, h6⟩ := cancelStream_waits (s := u) (n := n) (code := 3) (by rw [hus]; exact h5) (by rw [hus, hue]; exact hf)
      rw [hus] at h3
      exact answers_core (f := fun s => s.streamDeadline n) (by rw [hrun, ← hu]; exact ⟨h1, h2, h3, fun m hm => (h4 m hm).trans (hus m), h6.trans hum⟩)
    · have hno : s.streamDeadline n = s := by
        unfold State.streamDeadline
        rw [whenLive_pos _ (live_of_dispatching hd)]
        exact if_neg (by rw [decide_eq_false (show ¬ s.nowAt (st.slot.unit / 8) ≥ st.cur.deadline from not_le.2 hlt)]; simp)
      show liftCore (fun s => s.streamDeadline n) s = _
      rw [liftCore_goes, hno]

/-! What settling a stream leaves alone -/

/-- The outer-product engines, and what every SE has in flight, are kept. -/
structure FlightKept (s t : State) : Prop where
  opes : t.core.opes = s.core.opes
  tracker : ∀ n, (t.se n).tracker = (s.se n).tracker

namespace FlightKept

theorem refl (s : State) : FlightKept s s := ⟨rfl, fun _ => rfl⟩

theorem trans {s t u : State} (h : FlightKept s t) (k : FlightKept t u) : FlightKept s u :=
  ⟨k.opes.trans h.opes, fun n => (k.tracker n).trans (h.tracker n)⟩

theorem of_eq {s t : State} (ho : t.core.opes = s.core.opes) (hs : t.core.ses = s.core.ses) : FlightKept s t :=
  ⟨ho, fun n => by simp only [State.se, hs]⟩

theorem of_served {s t : State} (h : Served s t) : FlightKept s t := by
  obtain ⟨_, _, _, _, _, _, _, _, _, rfl⟩ := h
  exact of_eq rfl rfl

theorem setStream (s : State) (n : Nat) (x : Stream) : FlightKept s (s.setStream n x) := of_eq rfl rfl

theorem signal (s : State) (r c q : Nat) (e : Bool) : FlightKept s (s.signal r c q e) := by
  obtain ⟨_, h⟩ := (State.signal_signalled s r c q e).qm
  rw [h]
  exact of_eq rfl rfl

theorem setSe (s : State) (n : Nat) {x : Se} (h : x.tracker = (s.se n).tracker) : FlightKept s (s.setSe n x) := by
  refine ⟨rfl, fun m => ?_⟩
  by_cases hm : m = n
  · subst hm
    rw [State.se_setSe_same, h]
  · exact congrArg Se.tracker (mgetD_mput_ne _ _ _ hm)

theorem putBack (s : State) (w : WriteBack) : FlightKept s (s.putBack w).1 := by
  refine of_served ?_
  unfold State.putBack
  dsimp only
  split
  · exact .vput ..
  · exact .refl s
  · split
    · exact .refl s
    · exact .raiseFault ..
  · split
    · exact .refl s
    · exact .of_recorded (.askFor ..)

theorem writeBack (s : State) (n : Nat) (st : Stream) (a : Arming) (code tail : Nat) (scans : List (Nat × Nat)) (silt : Nat) :
    FlightKept s (s.writeBack n st a code tail scans silt) := by
  unfold State.writeBack
  extract_lets late bs r x
  exact (putBack s _).trans (setSe r.1 _ rfl)

theorem ite {s t u : State} {p : Prop} [Decidable p] (h : FlightKept s t) (k : FlightKept s u) : FlightKept s (if p then t else u) := by
  split
  · exact h
  · exact k

theorem applySigs (s : State) (c low : Nat) (a : Arming) : FlightKept s (s.applySigs c low a).1 := by
  have fold (l : List Nat) : ∀ u : State, FlightKept u (l.foldl (fun s _ => s.signal a.sigref c a.q false) u) := by
    induction l with
    | nil => exact refl
    | cons b l ih => exact fun u => (signal u _ _ _ _).trans (ih _)
  exact fold _ s

theorem endCancel (s : State) (n : Nat) (st : Stream) : FlightKept s (s.endCancel n st) := by
  unfold State.endCancel
  extract_lets u s1 s2 s3 s4 s5 ended
  have h1 : FlightKept s s1 := by
    unfold s1
    split
    · exact writeBack ..
    · exact refl s
  have h2 : FlightKept s1 s2 := by
    unfold s2
    split
    · exact .ite (writeBack ..) (refl s1)
    · exact refl s1
  have h3 : FlightKept s2 s3 := writeBack ..
  have h4 : FlightKept s3 s4 := .ite (of_served (.bump ..)) (refl s3)
  have h5 : FlightKept s4 s5 := of_served (.raise ..)
  exact ((((h1.trans h2).trans h3).trans h4).trans h5).trans (setStream s5 n _)

theorem endDone (s : State) (n : Nat) (st : Stream) : FlightKept s (s.endDone n st) := by
  unfold State.endDone
  extract_lets a u late lateErr outs tail s1
  have h1 : FlightKept s s1 := .ite (of_served ((Served.raise s (seInt u) 1).trans (.bump ..))) (refl s)
  exact .ite (setStream ..) ((h1.trans (writeBack ..)).trans (setStream ..))

theorem settleStream (s : State) (n : Nat) : FlightKept s (s.settleStream n) := by
  unfold State.settleStream
  extract_lets st x on r s1 st1 p s2 st2 s3 idle
  have h1 : FlightKept s s1 := by
    unfold s1 r
    split
    · exact refl s
    · extract_lets redo p1
      have hp : FlightKept s p1.1 := applySigs ..
      split
      · exact hp.trans (writeBack ..)
      · exact hp
  have h2 : FlightKept s1 s2 := applySigs ..
  have h3 : FlightKept s2 s3 := setStream ..
  have h : FlightKept s s3 := (h1.trans h2).trans h3
  split
  · exact .ite (endCancel ..) (refl s)
  · split
    · exact .ite (h.trans ((writeBack ..).trans (setStream ..))) h
    · exact .ite (h.trans (endDone ..)) h

theorem killedLanding (s : State) (f : Fetch) : FlightKept s (s.killedLanding f) := by
  unfold State.killedLanding
  split
  · dsimp only
    split
    · exact .ite (of_eq rfl rfl) (of_eq rfl rfl)
    · exact of_eq rfl rfl
  · exact refl s

end FlightKept

/-! A fetch issues (R195-R199) -/

theorem touchSrc_accessed (s : State) (w : Want) : Accessed s (s.touchSrc w) :=
  Accessed.foldl (f := fun s a => s.vtouch w.ctx a tuBytes false true) (fun s _ => .vtouch s ..) _ s

/-- A fetch takes the first free entry of the tracker. -/
theorem track_rest {s : State} {n k : Nat} {f : Fetch} (h : firstFree 256 ((s.se n).tracker.map (·.1)) = some k) :
    ∃ regs ldg, s.track n f = { s.setSe n { s.se n with tracker := mput (s.se n).tracker k f } with core.regs := regs, core.ldg := ldg } := by
  unfold State.track
  dsimp only
  rw [h]
  dsimp only
  split <;> split <;> exact ⟨_, _, rfl⟩

/-- What the issue of a stream's fetch changes of its SE and of the streams. -/
structure Issued (u n k : Nat) (f : Fetch) (x : Stream) (s t : State) : Prop where
  tracker : mget (t.se u).tracker k = some f
  turn : (t.se u).turn = (s.se u).turn
  stream : t.stream n = x
  others : ∀ m, m ≠ n → t.stream m = s.stream m

/-- A fetch that nothing stops or holds is issued. -/
theorem fetchTu_issues {s : State} {u n k : Nat} {w : Want} {a : Arming} {tag : TuTag} {next : Stream → Stream} (hstop : (s.wantStop w).1 = .none)
    (hwin : (s.se u).tusOf n (fun _ => true) + (s.fetchOf w a.q 0 (some tag) false).tus.length ≤ a.window)
    (hfit : (s.se u).fits (s.fetchOf w a.q 0 (some tag) false) = true) (hbusy : s.busyLines w.engines w.plines = [])
    (hk : firstFree 256 ((s.se u).tracker.map (·.1)) = some k) : ∃ t, s.fetchTu u n w a tag next = (t, true)
      ∧ Issued u n k (s.fetchOf w a.q 0 (some tag) false) (next (s.stream n)) s t := by
  obtain ⟨_, _, _, _, _, _, _, _, hv⟩ := (touchSrc_accessed s w).rest
  obtain ⟨v, hvd⟩ : ∃ v, v = s.touchSrc w := ⟨_, rfl⟩
  rw [← hvd] at hv
  obtain ⟨f, hf⟩ : ∃ f, f = s.fetchOf w a.q 0 (some tag) false := ⟨_, rfl⟩
  rw [← hf] at hwin hfit ⊢
  have hse : v.se u = s.se u := by rw [hv]; rfl
  obtain ⟨_, _, ht⟩ := track_rest (s := v) (n := u) (f := f) (by rw [hse]; exact hk)
  obtain ⟨x, hx⟩ : ∃ x, x = v.track u f := ⟨_, rfl⟩
  rw [← hx] at ht
  have hxs (m : Nat) : x.stream m = s.stream m := by rw [ht, hv]; rfl
  have hxe : x.se u = { s.se u with tracker := mput (s.se u).tracker k f } := by
    rw [ht, ← hse]
    exact State.se_setSe_same v u _
  refine ⟨(x.setStream n (next (x.stream n))).worked (x.stream n).slot 1, ?_, ?_, ?_, ?_, fun m hm => ?_⟩
  · have hno : ¬ ((s.se u).tusOf n (fun _ => true) + f.tus.length > a.window || !(s.se u).fits f) = true := by simp [hwin, hfit]
    unfold State.fetchTu
    dsimp only
    rw [hstop, if_neg (not_not_intro rfl), ← hf, if_neg hno, hbusy, ← hvd, ← hx]
    rfl
  · show mget (x.se u).tracker k = _
    rw [hxe]
    exact mget_mput_same _ _ _
  · show (x.se u).turn = _
    rw [hxe]
  · exact (State.stream_setStream_same x n _).trans (by rw [hxs])
  · exact (State.stream_setStream_ne x _ hm).trans (hxs m)

/-- The first of the streams that may fetch, at an entry that its program has reached, issues its next fetch. -/
theorem tryStream_issues {s : State} {u n d k : Nat} {side : Bool} (hfid : (s.stream n).fid = none) (hil : (s.stream n).illegal = none)
    (hredo : (s.stream n).redo = []) (hent : (s.stream n).entry < (s.stream n).cur.nent) (hlb : s.lbarPending (s.stream n).slot = false)
    (hd : (s.stream n).ent = some d) (hdep : bits d 128 16 ≤ ((s.queue (s.stream n).cur.q).dep + 65536 - (s.stream n).cur.darm) % 65536) {f : Fetch} {w : Want}
    (hw : w = s.streamWant (s.stream n) d side)
    (hf : f = s.fetchOf w (s.stream n).cur.q 0 (some ⟨n, (s.stream n).cur.gen, (s.stream n).cur.k, (s.stream n).entry, (s.stream n).tu⟩) false)
    (hstop : (s.wantStop w).1 = .none) (hwin : (s.se u).tusOf n (fun _ => true) + f.tus.length ≤ (s.stream n).cur.window)
    (hfit : (s.se u).fits f = true) (hbusy : s.busyLines w.engines w.plines = []) (hk : firstFree 256 ((s.se u).tracker.map (·.1)) = some k) :
    ∃ t x, s.tryStream u n side = (t, true) ∧ Issued u n k f x s t ∧ x.cur.k = (s.stream n).cur.k + 1 := by
  have hgo : ¬ ((s.stream n).fid.isSome || ((s.stream n).redo.isEmpty && ((s.stream n).illegal.isSome || decide ((s.stream n).entry ≥ (s.stream n).cur.nent)))) = true := by
    rw [hfid, hil, decide_eq_false (not_le.2 hent)]
    simp
  subst hf
  unfold State.tryStream
  dsimp only
  rw [if_neg hgo, if_neg (by rw [hlb]; decide), hredo, hd]
  dsimp only
  rw [Option.isNone_some, if_neg Bool.false_ne_true]
  rw [hd]
  dsimp only
  rw [if_neg (not_lt.2 hdep), ← hw]
  obtain ⟨t, ht, his⟩ := fetchTu_issues (s := s) (u := u) (n := n) (k := k) (a := (s.stream n).cur) (tag := ⟨n, (s.stream n).cur.gen, (s.stream n).cur.k,
    (s.stream n).entry, (s.stream n).tu⟩) (next := _) hstop hwin hfit hbusy hk
  refine ⟨t, _, ht, his, ?_⟩
  split <;> rfl

/-! A fetch arrives (R193, R200-R206) -/

theorem untrack_rest (s : State) (n k : Nat) (f : Fetch) : (s.untrack n k f).core.opes = s.core.opes ∧ mget ((s.untrack n k f).se n).tracker k = none := by
  have hse (t : State) (h : t.core.ses = (s.setSe n { s.se n with tracker := mdel (s.se n).tracker k }).core.ses) : mget (t.se n).tracker k = none := by
    have ht : t.se n = { s.se n with tracker := mdel (s.se n).tracker k } := by
      unfold State.se
      rw [h]
      exact mgetD_mput_same ..
    rw [ht]
    exact mget_mdel_same _ _
  unfold State.untrack
  dsimp only
  split
  · exact ⟨rfl, hse _ rfl⟩
  · exact ⟨rfl, hse _ rfl⟩

/-- A TU of a cancelled generation leaves the tracker, and lands nowhere. -/
theorem landStream_silt {s : State} {n k : Nat} {f : Fetch} {g : TuTag} (hf : f.silt = true) :
    mget ((s.landStream n k f g).se n).tracker k = none ∧ (s.landStream n k f g).core.opes = s.core.opes := by
  obtain ⟨ho, ht⟩ := untrack_rest s n k f
  generalize hu : s.untrack n k f = u at ho ht
  have h : FlightKept u (s.landStream n k f g) := by
    unfold State.landStream
    dsimp only
    rw [if_pos hf, hu]
    refine FlightKept.trans (t := u.silt n (tuBytes * f.tus.length)) ?_ ((FlightKept.setStream ..).trans (.settleStream ..))
    unfold State.silt
    exact .ite (.refl u) (.of_eq rfl rfl)
  exact ⟨by rw [h.tracker]; exact ht, h.opes.trans ho⟩

/-- The units of a tile as they land in an operand buffer. -/
def ObufTile.ofTus (l : List (List Byte)) (g : TuTag) : ObufTile := { lines := landLines l, tus := l, by_ := some g }

/-- A tile that fits its place lands there, and nowhere else. -/
theorem landTile_lands {s : State} {m line plines : Nat} {l : List (List Byte)} {g : TuTag} (hd : (s.ope m).drop.contains (line, 0) = false)
    (hl : landLines l ≤ plines) : mget ((s.landTile m line plines l (some g)).ope m).obuf line = some (.ofTus l g)
      ∧ ∀ j, j ≠ m → (s.landTile m line plines l (some g)).ope j = s.ope j := by
  unfold State.landTile
  dsimp only
  rw [hd, if_neg Bool.false_ne_true, if_neg (not_lt.2 hl)]
  exact ⟨(congrArg (fun o : Ope => mget o.obuf line) (State.ope_setOpe_same ..)).trans (mget_mput_same _ _ _), fun j hj => State.ope_setOpe_ne _ _ hj⟩

/-- A TU of a stream lands in its place, and leaves the tracker. -/
theorem landStream_lands {s : State} {n k m line : Nat} {f : Fetch} {g : TuTag} (hf : f.silt = false) (ha : f.addrs = []) (he : f.engines = [(m, line)])
    (ht : f.transpose = false) (hd : (s.ope m).drop.contains (line, 0) = false) (hl : landLines (f.tus.map (fun x => withGen x g.gen)) ≤ f.plines)
    (hg : f.tag = some g) : mget ((s.landStream n k f g).se n).tracker k = none
      ∧ mget ((s.landStream n k f g).ope m).obuf line = some (.ofTus (f.tus.map (fun x => withGen x g.gen)) g)
      ∧ ∀ j, j ≠ m → (s.landStream n k f g).ope j = s.ope j := by
  obtain ⟨hland, hothers⟩ := landTile_lands (g := g) hd hl
  obtain ⟨v, hv⟩ : ∃ v, v = s.writeOut n f (some g.gen) := ⟨_, rfl⟩
  have hvo : v.core.opes = (s.landTile m line f.plines (f.tus.map (fun x => withGen x g.gen)) (some g)).core.opes := by
    rw [hv, State.writeOut, Fetch.out, ht, ha, he, hg]
    rfl
  obtain ⟨ho, htr⟩ := untrack_rest v n k f
  generalize hu : v.untrack n k f = u at ho htr
  have h : FlightKept u (s.landStream n k f g) := by
    unfold State.landStream
    dsimp only
    rw [if_neg (by rw [hf]; decide), ← hv, hu]
    have hc : FlightKept u (u.countPoison n f.poisoned) := by
      unfold State.countPoison
      exact .ite (.refl u) (.of_served ((Served.bump ..).trans (.raise ..)))
    generalize u.countPoison n f.poisoned = x at hc
    refine hc.trans (FlightKept.trans ?_ ((FlightKept.setStream ..).trans (.settleStream ..)))
    exact FlightKept.trans (.ite (.of_served (.bump x (seBase n + 0x158) f.tus.length)) (.refl x)) (.of_eq rfl rfl)
  have hope (j : Nat) : (s.landStream n k f g).ope j = (s.landTile m line f.plines (f.tus.map (fun x => withGen x g.gen)) (some g)).ope j := by
    unfold State.ope
    rw [h.opes, ho, hvo]
  exact ⟨by rw [h.tracker]; exact htr, by rw [hope]; exact hland, fun j hj => (hope j).trans (hothers j hj)⟩

/-- A fetch of a stream without memory addresses arrives. -/
theorem tuLand_lands {s : State} {u k : Nat} {f : Fetch} {g : TuTag} (hl : s.live = true) (hk : mget (s.se u).tracker k = some f) (hg : f.tag = some g)
    (ha : f.addrs = []) {p : State → Prop} (h : p { s with core := ((s.landStream u k f g).killedLanding f).core }) : Answers (exec (.tuLand u k []) s) p := by
  have hf : f.struck [] = f := by
    unfold Fetch.struck
    rw [List.isEmpty_nil]
    simp
  refine answers_live_at hl (t := (s.landStream u k f g).killedLanding f) ?_ h
  simp only [hk, hf, if_true, ha, List.foldl_nil, hg, Option.isSome_some, ne_eq, not_true_eq_false, decide_false, Bool.and_false,
    Bool.false_eq_true, if_false]

theorem fetchesMove : Says.FetchesMove := by
  intro s u hd
  have hl := live_of_dispatching hd
  refine ⟨fun side n cs d hcand => ?_, fun k f g hk hg ha _ _ => ⟨fun m line hf he ht hdr hle => ?_, fun hf => ?_⟩, fun k w hw hs hr hwr => ?_, fun k w hw hwr => ?_⟩
  · intro st w f hfid hil hredo hent hlb hen hdep hstop hwin hfit hbusy k hk
    obtain ⟨t, x, ht, his, hx⟩ := tryStream_issues (side := side) hfid hil hredo hent hlb hen hdep rfl rfl hstop hwin hfit hbusy hk
    have hkk {v : State} (h : Issued u n k f x s v) : (v.stream n).cur.k = st.cur.k + 1 := by rw [h.stream]; exact hx
    have hrun : s.issueFirst u side (s.candidates u) = if st.cur.rt then t else t.setSe u { t.se u with turn := n + 1 } := by
      rw [hcand, State.issueFirst]
      simp only [Cand.run, ht, if_true]
      rfl
    have hkx := hkk his
    obtain ⟨htr, htn, -, hot⟩ := his
    by_cases hrt : st.cur.rt = true
    · refine answers_dispatching_at hd (t := t) (hrun.trans (if_pos hrt)) ⟨htr, ?_, hkx, hot⟩
      rw [if_pos hrt]
      exact htn
    · refine answers_dispatching_at hd (t := t.setSe u { t.se u with turn := n + 1 }) (hrun.trans (if_neg hrt)) ⟨?_, ?_, hkx, hot⟩
      · exact (congrArg (fun x : Se => mget x.tracker k) (State.se_setSe_same t u _)).trans htr
      · rw [if_neg hrt]
        exact congrArg Se.turn (State.se_setSe_same t u _)
  · obtain ⟨h1, h2, h3⟩ := landStream_lands (n := u) (k := k) hf ha he ht hdr hle hg
    have hkept := FlightKept.killedLanding (s.landStream u k f g) f
    have hope (j : Nat) : ((s.landStream u k f g).killedLanding f).ope j = (s.landStream u k f g).ope j := by
      unfold State.ope
      rw [hkept.opes]
    refine tuLand_lands hl hk hg ha ⟨?_, (congrArg (fun o : Ope => mget o.obuf line) (hope m)).trans h2, fun j hj => (hope j).trans (h3 j hj)⟩
    exact (congrArg (mget · k) (hkept.tracker u)).trans h1
  · obtain ⟨h1, h2⟩ := landStream_silt (s := s) (n := u) (k := k) (g := g) hf
    have hkept := FlightKept.killedLanding (s.landStream u k f g) f
    exact tuLand_lands hl hk hg ha ⟨(congrArg (mget · k) (hkept.tracker u)).trans h1, hkept.opes.trans h2⟩
  · obtain ⟨t, ht⟩ : ∃ t, t = (s.setSe u { s.se u with wbs := (s.se u).wbs.eraseIdx k }).invPass (fun i => { i with backs := i.backs.erase (u, w.at_) }) := ⟨_, rfl⟩
    have hsig (c q : Nat) (e : Bool) : t.signal w.endref c q e = t := by
      simp only [State.signal, hr]
    refine answers_live_at hl (t := t) ?_ ⟨?_, ?_, ?_, ?_⟩
    · simp only [hw, hwr, Bool.not_true, Bool.false_eq_true, if_false, ← ht, hsig, hs, List.foldl_nil]
    · have hse : t.se u = { s.se u with wbs := (s.se u).wbs.eraseIdx k } := by
        rw [ht]
        exact State.se_setSe_same s u _
      exact (congrArg Se.wbs hse).trans rfl
    · rw [ht]
      rfl
    · rw [ht]
      rfl
    · rw [ht]
      rfl
  · show liftCore _ s = _
    rw [liftCore_goes, whenLive_pos _ hl]
    simp only [hw, hwr, Bool.not_false, if_true]

/-- Settles O55: a stream is armed, becomes active, is cancelled at its deadline; its fetches enter the tracker and land, and its write-backs are acknowledged. -/
theorem streams : Obligations.Streams := ⟨streamStates, fetchesMove⟩

end Sys2Proof.Machine
end

section
/-! PROOF. The vector units (O54; 05 R117-R126, 07_tile R185). -/
namespace Sys2Proof.Machine
open State

/-! An instruction that is done stays so -/

theorem Done.updInst {x : State} {f : Entry} (h : Done x f) (q n : Nat) {g : InFlight → InFlight} (hs : ∀ i, (g i).seq = i.seq)
    (hd : ∀ i, i.done = true → (g i).done = true) : Done (x.updInst q n g) f := by
  intro i hi
  by_cases hq : f.q = q
  · subst hq
    rw [State.updInst, State.queue_updQueue_same, Queue.updFl, Queue.inst_map (fun i => by split <;> simp [hs])] at hi
    obtain ⟨j, hj, rfl⟩ := Option.map_eq_some_iff.1 hi
    have := h j hj
    split
    · exact hd j this
    · exact this
  · rw [State.updInst, State.queue_updQueue_ne _ _ hq] at hi
    exact h i hi

theorem Done.finish {x : State} {f : Entry} (h : Done x f) (q n : Nat) : Done (x.finish q n) f := h.updInst q n (fun _ => rfl) (fun _ _ => rfl)

theorem Done.popHead {x : State} {f : Entry} (h : Done x f) (r : SlotRef) : Done (x.popHead r) f := by
  intro i hi
  obtain ⟨g, hg, hq⟩ := x.popHead_queue r f.q
  rw [hq, Queue.inst_map hg.seq] at hi
  obtain ⟨j, hj, rfl⟩ := Option.map_eq_some_iff.1 hi
  obtain ⟨_, _, he⟩ := hg j
  rw [he]
  exact h j hj

theorem Done.of_queues {x y : State} {f : Entry} (h : Done x f) (hq : y.core.qm.queues = x.core.qm.queues) : Done y f := fun i hi =>
  h i (by rwa [← State.queue_congr hq])

/-! The work of a vector unit -/

/-- Memory, counts, seeds and notes of instructions: all that a vector unit's work reaches. -/
def VecWork (s t : State) : Prop :=
  ∃ regs irq inv invs invDone mem ldg cmds queues vus, t = { s with
    core.regs := regs, core.irq := irq, core.mmu.inv := inv, core.mmu.invs := invs, core.mmu.invDone := invDone, core.mem := mem, core.ldg := ldg
    core.cmds := cmds, core.qm.queues := queues, core.vus := vus }

namespace VecWork

theorem trans {s t u : State} (h : VecWork s t) (k : VecWork t u) : VecWork s u := by
  obtain ⟨_, _, _, _, _, _, _, _, _, _, rfl⟩ := h
  obtain ⟨_, _, _, _, _, _, _, _, _, _, rfl⟩ := k
  exact ⟨_, _, _, _, _, _, _, _, _, _, rfl⟩

theorem of_accessed {s t : State} (h : Accessed s t) : VecWork s t := by
  obtain ⟨_, _, _, _, _, _, _, _, rfl⟩ := h.rest
  exact ⟨_, _, _, _, _, _, _, _, _, _, rfl⟩

theorem noteCount (s : State) (e : Entry) (c n : Nat) : VecWork s (s.noteCount e c n) := by
  obtain ⟨_, h⟩ := s.noteCount_rest e c n
  rw [h]
  exact ⟨_, _, _, _, _, _, _, _, _, _, rfl⟩

theorem qOutcomes (s : State) (e : Entry) (l : List QBlk) : VecWork s (s.qOutcomes e l) := (noteCount _ _ _ _).trans (noteCount _ _ _ _)

theorem vuTouch (s : State) (e : Entry) (l : List (Nat × Nat)) : VecWork s (s.vuTouch e l) := by
  have h : Accessed s (l.foldl (fun s p => s.vtouch e.ctx p.1 p.2 false false) s) := Accessed.foldl (fun t p => .vtouch t _ _ _ _ _) l s
  exact (of_accessed h).trans ⟨_, _, _, _, _, _, _, _, _, _, rfl⟩

theorem eiq {s t : State} (h : VecWork s t) : t.core.qm.eiq = s.core.qm.eiq := by
  obtain ⟨_, _, _, _, _, _, _, _, _, _, rfl⟩ := h
  rfl

theorem mvus {s t : State} (h : VecWork s t) : t.core.mvus = s.core.mvus := by
  obtain ⟨_, _, _, _, _, _, _, _, _, _, rfl⟩ := h
  rfl

end VecWork

/-- A change of registers alone. -/
def OnRegs (s t : State) : Prop := ∃ regs, t = { s with core.regs := regs }

theorem OnRegs.bump {s t : State} (h : OnRegs s t) (o n : Nat) : OnRegs s (t.bump o n) := by
  obtain ⟨_, rfl⟩ := h
  exact ⟨_, rfl⟩

theorem countBlk_rest (s : State) (n k m : Nat) (sr : Bool) (b : QBlk) : OnRegs s (s.countBlk n k m sr b) := by
  have h : OnRegs s s := ⟨_, rfl⟩
  unfold State.countBlk
  dsimp only
  split
  · exact (((((h.bump _ _).bump _ _).bump _ _).bump _ _).bump _ _).bump _ _
  · exact ((((h.bump _ _).bump _ _).bump _ _).bump _ _).bump _ _

/-- Quantised blocks change counts and their own slot's generator, which moves only with stochastic rounding (R46, R125, R126). -/
theorem quantiseAll_cons (s : State) (n k spec : Nat) (b : VBlk) (bs : List VBlk) : ∃ rng m q, (qSr spec = false → rng = ((s.vu n).slot k).rng)
    ∧ (s.quantiseAll n k spec (b :: bs)).1
      = (((s.setVu n ((s.vu n).setSlot k { (s.vu n).slot k with rng := rng })).countBlk n k m (qSr spec) q).quantiseAll n k spec bs).1 := by
  rw [State.quantiseAll]
  exact ⟨(if qSr spec then rngDraws (rngSeed ((s.vu n).slot k).rng) b.vs.length else ([], ((s.vu n).slot k).rng)).2, b.vs.length, _,
    fun h => by rw [if_neg (by simp [h])], rfl⟩

theorem quantiseAll_rest (n k spec : Nat) : ∀ (bs : List VBlk) (s : State),
    ∃ regs vus, (s.quantiseAll n k spec bs).1 = { s with core.regs := regs, core.vus := vus }
  | [], s => ⟨_, _, rfl⟩
  | b :: bs, s => by
    obtain ⟨rng, m, q, -, hq⟩ := quantiseAll_cons s n k spec b bs
    obtain ⟨v, hv⟩ : ∃ v, v = (s.vu n).setSlot k { (s.vu n).slot k with rng := rng } := ⟨_, rfl⟩
    rw [← hv] at hq
    obtain ⟨_, hc⟩ := countBlk_rest (s.setVu n v) n k m (qSr spec) q
    obtain ⟨_, _, hr⟩ := quantiseAll_rest n k spec bs ((s.setVu n v).countBlk n k m (qSr spec) q)
    rw [hq, hr, hc]
    exact ⟨_, _, rfl⟩

@[simp] theorem State.vu_setVu_same (s : State) (n : Nat) (v : Vu) : (s.setVu n v).vu n = v := mgetD_mput_same ..

@[simp] theorem Vu.slot_setSlot_same (v : Vu) (k : Nat) (x : VuSlot) : (v.setSlot k x).slot k = x := mgetD_mput_same ..

theorem Vu.slot_setSlot_ne (v : Vu) {k j : Nat} (x : VuSlot) (h : j ≠ k) : (v.setSlot k x).slot j = v.slot j := mgetD_mput_ne _ _ _ h

theorem quantiseAll_slot (n k spec : Nat) : ∀ (bs : List VBlk) (s : State), ∃ rng, (qSr spec = false → rng = ((s.vu n).slot k).rng)
    ∧ (((s.quantiseAll n k spec bs).1.vu n).slot k) = { (s.vu n).slot k with rng := rng }
  | [], s => ⟨_, fun _ => rfl, rfl⟩
  | b :: bs, s => by
    obtain ⟨rng, m, q, hsr, hq⟩ := quantiseAll_cons s n k spec b bs
    obtain ⟨u, hu⟩ : ∃ u, u = s.setVu n ((s.vu n).setSlot k { (s.vu n).slot k with rng := rng }) := ⟨_, rfl⟩
    rw [← hu] at hq
    obtain ⟨_, hc⟩ := countBlk_rest u n k m (qSr spec) q
    have hx : ((u.countBlk n k m (qSr spec) q).vu n).slot k = { (s.vu n).slot k with rng := rng } := by
      rw [hc]
      show (u.vu n).slot k = _
      rw [hu, State.vu_setVu_same, Vu.slot_setSlot_same]
    obtain ⟨rng', hsr', hr⟩ := quantiseAll_slot n k spec bs (u.countBlk n k m (qSr spec) q)
    rw [hx] at hr hsr'
    exact ⟨rng', fun h => (hsr' h).trans (hsr h), by rw [hq, hr]⟩

theorem VecWork.quantiseAll (s : State) (n k spec : Nat) (bs : List VBlk) : VecWork s (s.quantiseAll n k spec bs).1 := by
  obtain ⟨_, _, h⟩ := quantiseAll_rest n k spec bs s
  rw [h]
  exact ⟨_, _, _, _, _, _, _, _, _, _, rfl⟩

/-! A vector instruction that has run ends -/

theorem vuRan_rest (s t : State) (r : SlotRef) (e : Entry) : ∃ regs work, s.vuRan t r e = { t with core.regs := regs, core.pmc.work := work } := by
  unfold State.vuRan
  split
  · exact ⟨_, _, rfl⟩
  · dsimp only
    split <;> exact ⟨_, _, rfl⟩

/-- What holds of a vector instruction's end once its last effect is in x. -/
structure VecEnded (s x t : State) (r : SlotRef) (e : Entry) : Prop where
  left : Left s t r
  done : Done t e
  vus : t.core.vus = x.core.vus
  mem : t.core.mem = x.core.mem
  mvus : t.core.mvus = x.core.mvus
  kept : ∀ f, Done x f → Done t f

/-- Its lanes counted, the head that is finished has left its slot. -/
theorem vecEnded_of_finish {s x : State} (s' : State) (r : SlotRef) (e : Entry) (hx : x.core.qm.eiq = s.core.qm.eiq) :
    VecEnded s x (s'.vuRan ((x.finish e.q e.seq).popHead r) r e) r e := by
  obtain ⟨_, _, hr⟩ := vuRan_rest s' ((x.finish e.q e.seq).popHead r) r e
  have hl := (x.finish e.q e.seq).popHead_left r
  have hd (f : Entry) (hf : Done (x.finish e.q e.seq) f) := hf.popHead r
  obtain ⟨_, _, hp⟩ := (x.finish e.q e.seq).popHead_rest r
  obtain ⟨t, ht⟩ : ∃ t, t = (x.finish e.q e.seq).popHead r := ⟨_, rfl⟩
  rw [hr]
  rw [← ht] at hl hd hp ⊢
  refine ⟨?_, hd e (done_finish x e), ?_, ?_, ?_, fun f hf => hd f (hf.finish _ _)⟩
  · unfold Left at hl ⊢
    rw [← hx]
    exact hl
  · exact (congrArg (fun t : State => t.core.vus) hp).trans rfl
  · exact (congrArg (fun t : State => t.core.mem) hp).trans rfl
  · exact (congrArg (fun t : State => t.core.mvus) hp).trans rfl

/-- Where nothing stops, the result blocks are made in one (R117, R246). -/
theorem vuBlocks_made {s : State} {r : SlotRef} {e : Entry} {nb : Nat} {all : List (Nat × Nat)} {ins : Nat → List (Nat × Nat)}
    {run : State → Nat → Nat → State × List QBlk} {form : VuForm} {done : State → List QBlk → State} (ho : (s.vuPos r e).outs = [])
    (hp : s.piecesStop e.ctx all false false = .none) (hk : destKind e.dest = 0)
    (hc : (s.vuTouch e all).vcheck e.ctx (destAddr e.dest) (form.whole (run (s.vuTouch e all) 0 nb).2).length true false = .none) :
    s.vuBlocks r e nb all ins run form done = ((((done (run (s.vuTouch e all) 0 nb).1 (run (s.vuTouch e all) 0 nb).2).vput e.ctx (destAddr e.dest)
        (form.whole (run (s.vuTouch e all) 0 nb).2) false).moved e.q e.seq (form.whole (run (s.vuTouch e all) 0 nb).2).length).finish e.q e.seq).popHead r := by
  unfold State.vuBlocks
  dsimp only
  rw [if_pos (by simp [ho, hp]), if_pos (by simp [hk, hc])]

/-- A vector instruction whose blocks are made in one has ended, its results written. -/
theorem vuBlocks_ends {s v : State} (s' : State) {r : SlotRef} {e : Entry} {nb : Nat} {all : List (Nat × Nat)} {ins : Nat → List (Nat × Nat)}
    {run : State → Nat → Nat → State × List QBlk} {form : VuForm} {done : State → List QBlk → State} (ho : (v.vuPos r e).outs = [])
    (hp : v.piecesStop e.ctx all false false = .none) (hk : destKind e.dest = 0)
    (hc : (v.vuTouch e all).vcheck e.ctx (destAddr e.dest) (form.whole (run (v.vuTouch e all) 0 nb).2).length true false = .none)
    (hv : (done (run (v.vuTouch e all) 0 nb).1 (run (v.vuTouch e all) 0 nb).2).core.qm.eiq = s.core.qm.eiq) :
    let y := done (run (v.vuTouch e all) 0 nb).1 (run (v.vuTouch e all) 0 nb).2
    let bs := form.whole (run (v.vuTouch e all) 0 nb).2
    let t := s'.vuRan (v.vuBlocks r e nb all ins run form done) r e
    Left s t r ∧ Done t e ∧ t.core.vus = y.core.vus ∧ t.core.mem = (y.vput e.ctx (destAddr e.dest) bs false).core.mem ∧ t.core.mvus = y.core.mvus
      ∧ ∀ f, Done y f → Done t f := by
  intro y bs t
  obtain ⟨x, hx⟩ : ∃ x, x = (y.vput e.ctx (destAddr e.dest) bs false).moved e.q e.seq bs.length := ⟨_, rfl⟩
  have ht : t = s'.vuRan ((x.finish e.q e.seq).popHead r) r e := by
    show s'.vuRan _ r e = _
    rw [vuBlocks_made ho hp hk hc, hx]
  obtain ⟨_, _, _, _, _, _, _, _, hr⟩ := (Accessed.vput y e.ctx (destAddr e.dest) bs false wqData).rest
  have hyx : x.core.qm.eiq = y.core.qm.eiq ∧ x.core.vus = y.core.vus ∧ x.core.mvus = y.core.mvus := by
    rw [hx, hr]
    exact ⟨rfl, rfl, rfl⟩
  obtain ⟨hq, hvus, hmvus⟩ := hyx
  obtain ⟨hl, hd, h1, h2, h3, h4⟩ := vecEnded_of_finish s' r e (hq.trans hv)
  rw [ht]
  refine ⟨hl, hd, h1.trans hvus, h2.trans (by rw [hx]; rfl), h3.trans hmvus, fun f hf => h4 f ?_⟩
  rw [hx]
  exact (hf.of_queues ((congrArg (fun t : State => t.core.qm.queues) hr).trans rfl)).updInst _ _ (fun _ => rfl) fun _ h => h

/-! The element-wise functions (R119) -/

theorem map_zipIdx_at {a : List Dy} {i : Nat} {x : Dy} (h : a[i]? = some x) (f : Dy × Nat → Dy) : (a.zipIdx.map f)[i]? = some (f (x, i)) := by
  simp [h]

theorem map_at {a : List Dy} {i : Nat} {x : Dy} (h : a[i]? = some x) (f : Dy → Dy) : (a.map f)[i]? = some (f x) := by
  simp [h]

theorem vectorFunctions : Says.VectorFunctions := by
  intro s n k e a b i x hx y r
  have hr : r = (s.vopValues n k e a b)[i]? := rfl
  refine ⟨fun h => ?_, fun h => ?_, fun h => ?_, fun h => ?_, fun h => ?_, fun h => ?_, fun h => ?_, fun h => ?_, fun h => ?_⟩
  all_goals
    simp only [State.vopValues, h] at hr
    rw [hr]
  · exact map_zipIdx_at hx _
  · exact map_zipIdx_at hx _
  · exact map_zipIdx_at hx _
  · exact map_zipIdx_at hx _
  · exact map_zipIdx_at hx _
  · exact map_at hx _
  · exact map_at hx _
  · exact map_zipIdx_at hx _
  · exact map_zipIdx_at hx _

/-! Issue with scratch (R118, R124) -/

/-- A slot's instruction that holds its scratch, which it held already or gets now. -/
def State.scratched (s : State) (r : SlotRef) (e : Entry) (u : Nat) : State :=
  if u = 0 ∨ ((s.vu r.unit).slot r.slot).scr.any (fun x => x.1 = e.q && x.2.1 = e.seq) = true then s else (s.take 0x0E r.unit u).holdScratch r e u

theorem withScratch_runs {s : State} {r : SlotRef} {e : Entry} {u : Nat} (f : State → State)
    (h : u = 0 ∨ ((s.vu r.unit).slot r.slot).scr.any (fun x => x.1 = e.q && x.2.1 = e.seq) = true ∨ u ≤ s.scratchFree r.unit) :
    s.withScratch r e u f = f (s.scratched r e u) := by
  unfold State.withScratch State.scratched
  by_cases hm : u = 0 ∨ ((s.vu r.unit).slot r.slot).scr.any (fun x => x.1 = e.q && x.2.1 = e.seq) = true
  · rw [if_pos (by simpa using hm), if_pos hm]
  · obtain ⟨h0, hm'⟩ := not_or.1 hm
    have hfree : ¬ s.scratchFree r.unit < u := Nat.not_lt.2 ((h.resolve_left h0).resolve_left hm')
    rw [if_neg (by simpa using hm), if_neg hfree, if_neg hm]

theorem scratched_vecWork (s : State) (r : SlotRef) (e : Entry) (u : Nat) : VecWork s (s.scratched r e u) := by
  unfold State.scratched
  split <;> exact ⟨_, _, _, _, _, _, _, _, _, _, rfl⟩

theorem scratched_slot (s : State) (r : SlotRef) (e : Entry) (u : Nat) :
    ∃ scr, ((s.scratched r e u).vu r.unit).slot r.slot = { (s.vu r.unit).slot r.slot with scr := scr } := by
  unfold State.scratched
  split
  · exact ⟨_, rfl⟩
  · exact ⟨_, (congrArg (fun v : Vu => v.slot r.slot) (State.vu_setVu_same _ _ _)).trans (Vu.slot_setSlot_same _ _ _)⟩

theorem vuPos_of_run {s t : State} {r : SlotRef} {e : Entry} (h : ((t.vu r.unit).slot r.slot).run = ((s.vu r.unit).slot r.slot).run) :
    t.vuPos r e = s.vuPos r e := by
  simp only [State.vuPos, h]

theorem scratched_vuPos (s : State) (r : SlotRef) (e : Entry) (u : Nat) : (s.scratched r e u).vuPos r e = s.vuPos r e := by
  obtain ⟨_, h⟩ := scratched_slot s r e u
  exact vuPos_of_run (by rw [h])

/-! VOP (R119, R121) -/

def vopUnits (e : Entry) : Nat := if e.func = 0xC then 12 else 0

theorem vop_runs {s : State} {r : SlotRef} {e : Entry} (hd : s.dispatching = true) (hs : s.headStopped r = false) (h : HeadOk s r 0x20 vopBad e)
    (hu : vopUnits e = 0 ∨ ((s.vu r.unit).slot r.slot).scr.any (fun x => x.1 = e.q && x.2.1 = e.seq) = true ∨ vopUnits e ≤ s.scratchFree r.unit)
    {p : State → Prop} (hp : p { s with core := ((s.scratched r e (vopUnits e)).vuRan ((s.scratched r e (vopUnits e)).runVop r e []) r e).core }) :
    Answers (exec (.vop r []) s) p := by
  refine answers_dispatching_at hd ?_ hp
  rw [if_neg (by simp [hs]), atHead_ok _ h]
  exact withScratch_runs (fun v => v.vuRan (v.runVop r e []) r e) hu

theorem vuRead_ok {s : State} {r : SlotRef} {e : Entry} {a n : Nat} (h : s.vcheck e.ctx a n false false = .none) (f : State → List Byte × Bool → State) :
    s.vuRead r e a n f = f ((s.vtouch e.ctx a n false false).moved e.q e.seq n) (s.vget e.ctx a n false) := by
  simp only [State.vuRead, h]

theorem ldtbl_loads {s : State} {r : SlotRef} {e : Entry} (hd : s.dispatching = true) (hs : s.headStopped r = false) (h : HeadOk s r 0x20 vopBad e)
    (hf : ∀ i ∈ (s.queue e.q).fl, ¬ (i.op = 0x20 ∧ i.fn = 0x0B ∧ i.unit = slotCode r ∧ i.seq < e.seq)) (he : e.func = 0x0D)
    (hc : s.vcheck e.ctx (e.eff 0 24 56) 1040 false false = .none) :
    Answers (exec (.vop r []) s) (fun t => Left s t r ∧ Done t e ∧ ((t.vu r.unit).slot r.slot).table = (s.vget e.ctx (e.eff 0 24 56) 1040 false).1
      ∧ (∀ k, k ≠ r.slot → (t.vu r.unit).slot k = (s.vu r.unit).slot k) ∧ t.core.mem = (s.vtouch e.ctx (e.eff 0 24 56) 1040 false false).core.mem) := by
  have hun : vopUnits e = 0 := by simp [vopUnits, he]
  have hsc : s.scratched r e (vopUnits e) = s := if_pos (.inl hun)
  refine vop_runs hd hs h (.inl hun) ?_
  rw [hsc]
  obtain ⟨u, hu⟩ : ∃ u, u = s.vtouch e.ctx (e.eff 0 24 56) 1040 false false := ⟨_, rfl⟩
  obtain ⟨g, hg⟩ : ∃ g, g = s.vget e.ctx (e.eff 0 24 56) 1040 false := ⟨_, rfl⟩
  obtain ⟨_, _, _, _, _, _, _, _, hr⟩ := (Accessed.vtouch s e.ctx (e.eff 0 24 56) 1040 false false).rest
  rw [← hu] at hr ⊢
  rw [← hg]
  obtain ⟨w, hw⟩ : ∃ w, w = u.moved e.q e.seq 1040 := ⟨_, rfl⟩
  have hwv : w.core.vus = s.core.vus ∧ w.core.qm.eiq = s.core.qm.eiq ∧ w.core.mem = u.core.mem := by
    rw [hw]
    exact ⟨(congrArg (fun t : State => t.core.vus) hr).trans rfl, (congrArg (fun t : State => t.core.qm.eiq) hr).trans rfl, rfl⟩
  obtain ⟨hvus, heiq, hmem⟩ := hwv
  obtain ⟨z, hz⟩ : ∃ z, z = (w.setVu r.unit ((w.vu r.unit).setSlot r.slot { (w.vu r.unit).slot r.slot with table := g.1 })).noteCount e 1 (b2n g.2) :=
    ⟨_, rfl⟩
  have hrun : s.runVop r e [] = (z.popHead r).finish e.q e.seq := by
    unfold State.runVop
    rw [if_pos he, if_neg (by simpa using hf), vuRead_ok hc, ← hu, ← hg, ← hw, hz]
  rw [hrun]
  obtain ⟨_, hn⟩ := State.noteCount_rest (w.setVu r.unit ((w.vu r.unit).setSlot r.slot { (w.vu r.unit).slot r.slot with table := g.1 })) e 1 (b2n g.2)
  obtain ⟨_, _, hv⟩ := vuRan_rest s ((z.popHead r).finish e.q e.seq) r e
  obtain ⟨_, _, hp⟩ := z.popHead_rest r
  have hzf : z.core.qm.eiq = s.core.qm.eiq ∧ z.core.mem = u.core.mem
      ∧ z.vu r.unit = (s.vu r.unit).setSlot r.slot { (s.vu r.unit).slot r.slot with table := g.1 } := by
    rw [hz, hn]
    refine ⟨heiq, hmem, (State.vu_setVu_same _ _ _).trans ?_⟩
    simp only [State.vu, hvus]
  obtain ⟨hze, hzm, hzv⟩ := hzf
  rw [hv]
  obtain ⟨hl, hdn⟩ := left_done (s := s) (x := z) (y := z.popHead r) (r := r) (e := e) (t := (z.popHead r).finish e.q e.seq) hze rfl rfl
  have hvu : ((z.popHead r).finish e.q e.seq).vu r.unit = z.vu r.unit := (congrArg (fun t : State => t.vu r.unit) hp).trans rfl
  refine ⟨hl, hdn, ?_, fun k hk => ?_, ((congrArg (fun t : State => t.core.mem) hp).trans rfl).trans hzm⟩
  · exact (congrArg (fun v : Vu => (v.slot r.slot).table) (hvu.trans hzv)).trans (congrArg VuSlot.table (Vu.slot_setSlot_same _ _ _))
  · exact (congrArg (fun v : Vu => v.slot k) (hvu.trans hzv)).trans (Vu.slot_setSlot_ne _ _ hk)

theorem qOutcomes_rest (s : State) (e : Entry) (l : List QBlk) : ∃ queues, s.qOutcomes e l = { s with core.qm.queues := queues } := by
  unfold State.qOutcomes
  obtain ⟨_, h⟩ := s.noteCount_rest e 1 (l.filter (·.poison)).length
  obtain ⟨_, k⟩ := (s.noteCount e 1 (l.filter (·.poison)).length).noteCount_rest e 0xB (l.filter (·.raised)).length
  rw [k, h]
  exact ⟨_, rfl⟩

theorem vopRun_vecWork (r : SlotRef) (e : Entry) (struck : List Nat) (s : State) (j k : Nat) : VecWork s (State.vopRun r e struck s j k).1 := by
  have h : VecWork s (s.bump (vuCnt r.unit r.slot 0) (s.vopClamps r.unit r.slot e (((s.vopResult r e struck).1.take (32 * k)).drop (32 * j)))) :=
    ⟨_, _, _, _, _, _, _, _, _, _, rfl⟩
  exact h.trans (VecWork.quantiseAll _ _ _ _ _)

theorem vop_writes {s : State} {r : SlotRef} {e : Entry} (hd : s.dispatching = true) (hs : s.headStopped r = false) (ho : (s.vuPos r e).outs = [])
    (h : HeadOk s r 0x20 vopBad e) (he : e.func ≠ 0x0D)
    (hm : ((s.vu r.unit).slot r.slot).scr.any (fun x => x.1 = e.q && x.2.1 = e.seq) = true ∨ vopUnits e ≤ s.scratchFree r.unit)
    (hk : destKind e.dest = 0) :
    let v := s.scratched r e (vopUnits e)
    let u := v.vuTouch e (vopAll e)
    let q := State.vopRun r e [] u 0 (e.vopN / 32)
    let bs := blockArray (qCode (e.f 20 4)) q.2
    v.piecesStop e.ctx (vopAll e) false false = .none → u.vcheck e.ctx (destAddr e.dest) bs.length true false = .none →
    Answers (exec (.vop r []) s) (fun t => Left s t r ∧ Done t e ∧ t.core.vus = q.1.core.vus
      ∧ t.core.mem = ((q.1.qOutcomes e q.2).vput e.ctx (destAddr e.dest) bs false).core.mem) := by
  intro v u q bs hp hc
  refine vop_runs hd hs h (.inr hm) ?_
  have hrun : v.runVop r e [] = v.vuBlocks r e (e.vopN / 32) (vopAll e) (vopPieces e) (State.vopRun r e [])
      (arrayForm (destAddr e.dest) (qCode (e.f 20 4)) (e.vopN / 32)) (fun s l => s.qOutcomes e l) := if_neg he
  have hq : VecWork s (q.1.qOutcomes e q.2) :=
    ((scratched_vecWork s r e (vopUnits e)).trans (.vuTouch v e (vopAll e))).trans ((vopRun_vecWork r e [] u _ _).trans (.qOutcomes _ _ _))
  have hends := vuBlocks_ends (s := s) (nb := e.vopN / 32) (ins := vopPieces e) (run := State.vopRun r e [])
    (form := arrayForm (destAddr e.dest) (qCode (e.f 20 4)) (e.vopN / 32)) (done := fun s l => s.qOutcomes e l) v
    ((congrArg VuRun.outs (scratched_vuPos s r e _)).trans ho) hp hk hc hq.eiq
  rw [← hrun] at hends
  obtain ⟨hl, hdn, hvus, hmem, -, -⟩ := hends
  obtain ⟨_, hqr⟩ := qOutcomes_rest q.1 e q.2
  exact ⟨hl, hdn, hvus.trans ((congrArg (fun t : State => t.core.vus) hqr).trans rfl), hmem⟩

/-! VRED (R120) -/

theorem vred_runs {s : State} {r : SlotRef} {e : Entry} (hd : s.dispatching = true) (hs : s.headStopped r = false) (h : HeadOk s r 0x22 vredBad e)
    {p : State → Prop} (hp : p { s with core := (s.vuRan (s.runVred r e []) r e).core }) : Answers (exec (.vred r []) s) p := by
  refine answers_dispatching_at hd ?_ hp
  rw [if_neg (by simp [hs]), atHead_ok _ h]
  rfl

theorem vuTouch_vus (s : State) (e : Entry) (l : List (Nat × Nat)) : (s.vuTouch e l).core.vus = s.core.vus := by
  have h : Accessed s (l.foldl (fun s p => s.vtouch e.ctx p.1 p.2 false false) s) := Accessed.foldl (fun t p => .vtouch t _ _ _ _ _) l s
  obtain ⟨_, _, _, _, _, _, _, _, hr⟩ := h.rest
  exact (congrArg (fun t : State => t.core.vus) hr).trans rfl

theorem vredRun_vecWork (r : SlotRef) (e : Entry) (struck : List Nat) (s : State) (j k : Nat) (he : e.func ≠ 5) :
    VecWork s (State.vredRun r e struck s j k).1 := by
  unfold State.vredRun
  dsimp only
  rw [if_neg he]
  exact .quantiseAll _ _ _ _ _

theorem vred_writes {s : State} {r : SlotRef} {e : Entry} (hd : s.dispatching = true) (hs : s.headStopped r = false) (ho : (s.vuPos r e).outs = [])
    (h : HeadOk s r 0x22 vredBad e) (he : e.func ≠ 5) (hk : destKind e.dest = 0) (hp : s.piecesStop e.ctx (vredAll e) false false = .none) :
    let u := s.vuTouch e (vredAll e)
    let q := State.vredRun r e [] u 0 (ceilDiv e.redRows 32)
    let bs := blockArray (qCode (e.f 20 4)) q.2
    u.vcheck e.ctx (destAddr e.dest) bs.length true false = .none →
    Answers (exec (.vred r []) s) (fun t => Left s t r ∧ Done t e ∧ t.core.vus = q.1.core.vus
      ∧ t.core.mem = ((q.1.qOutcomes e q.2).vput e.ctx (destAddr e.dest) bs false).core.mem) := by
  intro u q bs hc
  refine vred_runs hd hs h ?_
  have hrun : s.runVred r e [] = s.vuBlocks r e (ceilDiv e.redRows 32) (vredAll e) (vredPieces e) (State.vredRun r e [])
      (arrayForm (destAddr e.dest) (qCode (e.f 20 4)) (ceilDiv e.redRows 32)) (fun s l => s.qOutcomes e l) := if_neg he
  have hq : VecWork s (q.1.qOutcomes e q.2) :=
    (VecWork.vuTouch s e (vredAll e)).trans ((vredRun_vecWork r e [] u _ _ he).trans (.qOutcomes _ _ _))
  have hends := vuBlocks_ends (s := s) (nb := ceilDiv e.redRows 32) (ins := vredPieces e) (run := State.vredRun r e [])
    (form := arrayForm (destAddr e.dest) (qCode (e.f 20 4)) (ceilDiv e.redRows 32)) (done := fun s l => s.qOutcomes e l) s ho hp hk hc hq.eiq
  rw [← hrun] at hends
  obtain ⟨hl, hdn, hvus, hmem, -, -⟩ := hends
  obtain ⟨_, hqr⟩ := qOutcomes_rest q.1 e q.2
  exact ⟨hl, hdn, hvus.trans ((congrArg (fun t : State => t.core.vus) hqr).trans rfl), hmem⟩

/-- Lists taken n at a time, in as many pieces as hold them, are the list. -/
theorem flatMap_pieces {α β : Type} (n : Nat) (f : α → List β) : ∀ (m : Nat) (l : List α), l.length ≤ n * m →
    (List.range m).flatMap (fun k => ((l.drop (n * k)).take n).flatMap f) = l.flatMap f
  | 0, l, h => by
    have : l = [] := List.length_eq_zero_iff.1 (by omega)
    simp [this]
  | m + 1, l, h => by
    have ih := flatMap_pieces n f m (l.drop n) (by simp; rw [Nat.mul_succ] at h; omega)
    simp only [List.drop_drop] at ih
    rw [List.range_succ_eq_map, List.flatMap_cons, List.flatMap_map]
    simp only [Nat.mul_succ, Nat.mul_zero, List.drop_zero, Nat.add_comm (n * _) n]
    rw [ih, ← List.flatMap_append, List.take_append_drop]

/-- The index of the greatest value of a row, as four bytes (R120). -/
def rowIndex (s : State) (e : Entry) (i : Nat) : List Byte :=
  leBytes 4 (argMax (s.vredVals e i).1 0 (0, (s.vredVals e i).1.getD 0 {})).1

/-- The blocks of ARGMAX hold the rows' indices in order. -/
theorem vredRun_argMax {s : State} {r : SlotRef} {e : Entry} (he : e.func = 5) (a : Nat) :
    (State.vredRun r e [] s 0 (ceilDiv e.redRows 32)).1 = s
    ∧ (indexForm a e.redRows).whole (State.vredRun r e [] s 0 (ceilDiv e.redRows 32)).2 = (List.range e.redRows).flatMap (rowIndex s e) := by
  have hn : min e.redRows (32 * ceilDiv e.redRows 32) - 32 * 0 = e.redRows := by
    unfold ceilDiv
    omega
  obtain ⟨v, hv⟩ : ∃ v, v = (List.range e.redRows).map (fun i => s.vredVals e i) := ⟨_, rfl⟩
  have hrun : State.vredRun r e [] s 0 (ceilDiv e.redRows 32) = (s, (List.range (ceilDiv e.redRows 32)).map (fun k =>
      { codes := ((v.zipIdx.drop (32 * k)).take 32).map (fun x => ((argMax x.1.1 0 (0, x.1.1.getD 0 {})).1 : Int))
        us := ((v.zipIdx.drop (32 * k)).take 32).map (fun x => b2n (x.1.2 || [].contains (32 * 0 + x.2))) })) := by
    unfold State.vredRun
    dsimp only
    rw [if_pos he, hn, hv]
    simp only [Nat.mul_zero, Nat.zero_add, Nat.sub_zero]
  rw [hrun]
  refine ⟨rfl, ?_⟩
  show ((List.range _).map _).flatMap _ = _
  rw [List.flatMap_map]
  simp only [List.flatMap_map, Int.toNat_natCast]
  have hp := flatMap_pieces 32 (fun x : (List Dy × Bool) × Nat => leBytes 4 (argMax x.1.1 0 (0, x.1.1.getD 0 {})).1) (ceilDiv e.redRows 32) v.zipIdx
    (by rw [List.length_zipIdx, hv, List.length_map, List.length_range]; unfold ceilDiv; omega)
  rw [hp, ← List.flatMap_map (f := Prod.fst) (g := fun x : List Dy × Bool => leBytes 4 (argMax x.1 0 (0, x.1.getD 0 {})).1), List.zipIdx_map_fst, hv,
    List.flatMap_map]
  rfl

theorem length_rowIndices (s : State) (e : Entry) (n : Nat) : ((List.range n).flatMap (rowIndex s e)).length = 4 * n := by
  have h : ∀ i, (rowIndex s e i).length = 4 := fun i => leBytes_length _ _
  simp [List.length_flatMap, h, Nat.mul_comm]

theorem vred_argMax {s : State} {r : SlotRef} {e : Entry} (hd : s.dispatching = true) (hs : s.headStopped r = false) (ho : (s.vuPos r e).outs = [])
    (h : HeadOk s r 0x22 vredBad e) (he : e.func = 5) (hk : destKind e.dest = 0) (hp : s.piecesStop e.ctx (vredAll e) false false = .none) :
    let u := s.vuTouch e (vredAll e)
    let bs := (List.range e.redRows).flatMap (rowIndex u e)
    u.vcheck e.ctx (destAddr e.dest) (4 * e.redRows) true false = .none →
    Answers (exec (.vred r []) s) (fun t => Left s t r ∧ Done t e ∧ t.core.vus = s.core.vus
      ∧ ∃ k, t.core.mem = ((u.noteCount e 1 k).vput e.ctx (destAddr e.dest) bs false).core.mem) := by
  intro u bs hc
  refine vred_runs hd hs h ?_
  have hrun : s.runVred r e [] = s.vuBlocks r e (ceilDiv e.redRows 32) (vredAll e) (vredPieces e) (State.vredRun r e [])
      (indexForm (destAddr e.dest) e.redRows) (fun s l => s.noteCount e 1 (sumNat (l.map (fun q => sumNat q.us)))) := if_pos he
  obtain ⟨hstate, hwhole⟩ := vredRun_argMax (s := u) (r := r) he (destAddr e.dest)
  have hlen : (indexForm (destAddr e.dest) e.redRows).whole (State.vredRun r e [] u 0 (ceilDiv e.redRows 32)).2 = bs := hwhole
  have hc' : u.vcheck e.ctx (destAddr e.dest) ((indexForm (destAddr e.dest) e.redRows).whole (State.vredRun r e [] u 0 (ceilDiv e.redRows 32)).2).length
      true false = .none := by rw [hlen, length_rowIndices, hc]
  have hu : (u.noteCount e 1 (sumNat ((State.vredRun r e [] u 0 (ceilDiv e.redRows 32)).2.map (fun q => sumNat q.us)))).core.qm.eiq = s.core.qm.eiq :=
    ((VecWork.vuTouch s e (vredAll e)).trans (.noteCount _ _ _ _)).eiq
  have hends := vuBlocks_ends (s := s) (nb := ceilDiv e.redRows 32) (ins := vredPieces e) (run := State.vredRun r e [])
    (form := indexForm (destAddr e.dest) e.redRows) (done := fun s l => s.noteCount e 1 (sumNat (l.map (fun q => sumNat q.us)))) s ho hp hk hc'
    (by rw [hstate]; exact hu)
  rw [← hrun, hlen, hstate] at hends
  obtain ⟨hl, hdn, hvus, hmem, -, -⟩ := hends
  obtain ⟨_, hn⟩ := u.noteCount_rest e 1 (sumNat ((State.vredRun r e [] u 0 (ceilDiv e.redRows 32)).2.map (fun q => sumNat q.us)))
  have hsame := (congrArg (fun t : State => t.core.vus) hn).trans (vuTouch_vus s e (vredAll e))
  refine ⟨hl, hdn, hvus.trans hsame, sumNat ((State.vredRun r e [] u 0 (ceilDiv e.redRows 32)).2.map (fun q => sumNat q.us)), ?_⟩
  exact hmem

theorem vopAndVred : Says.VopAndVred := by
  intro s r e hd hs ho
  refine ⟨fun h hf he hc => ?_, fun h he hm hk hp hc => ?_, fun h he hk hp hc => ?_, fun h he hk hp hc => ?_⟩
  · have hun : vopUnits e = 0 := by simp [vopUnits, he]
    have hsc : s.scratched r e (vopUnits e) = s := if_pos (.inl hun)
    change (s.scratched r e (vopUnits e)).vcheck e.ctx (e.eff 0 24 56) 1040 false false = .none at hc
    show Answers _ (fun t => Left s t r ∧ Done t e
      ∧ ((t.vu r.unit).slot r.slot).table = ((s.scratched r e (vopUnits e)).vget e.ctx (e.eff 0 24 56) 1040 false).1
      ∧ (∀ k, k ≠ r.slot → (t.vu r.unit).slot k = (s.vu r.unit).slot k)
      ∧ t.core.mem = ((s.scratched r e (vopUnits e)).vtouch e.ctx (e.eff 0 24 56) 1040 false false).core.mem)
    rw [hsc] at hc ⊢
    exact ldtbl_loads hd hs h hf he hc
  · exact vop_writes hd hs ho h he hm hk hp hc
  · exact vred_argMax hd hs ho h he hk hp hc
  · exact vred_writes hd hs ho h he hk hp hc

/-! QNT (R124, R125, R185) -/

theorem qntBegin_vecWork (s : State) (n k : Nat) (e : Entry) : VecWork s (s.qntBegin n k e) := by
  unfold State.qntBegin
  dsimp only
  split <;> exact ⟨_, _, _, _, _, _, _, _, _, _, rfl⟩

theorem qntBegin_run (s : State) (n k : Nat) (e : Entry) : (((s.qntBegin n k e).vu n).slot k).run = ((s.vu n).slot k).run := by
  unfold State.qntBegin
  dsimp only
  split
  · rfl
  · rw [State.vu_setVu_same, Vu.slot_setSlot_same]

/-- A QNT that begins takes the seed last written. -/
theorem qntBegin_seed {s : State} {n k : Nat} {e : Entry} (h : ((s.vu n).slot k).qnt ≠ some (e.q, e.seq)) :
    (((s.qntBegin n k e).vu n).slot k).seedNext = none
      ∧ (((s.qntBegin n k e).vu n).slot k).rng = ((s.vu n).slot k).seedNext.getD ((s.vu n).slot k).rng := by
  unfold State.qntBegin
  dsimp only
  rw [if_neg h, State.vu_setVu_same, Vu.slot_setSlot_same]
  exact ⟨rfl, rfl⟩

theorem qnt_runs {s : State} {r : SlotRef} {e : Entry} (hd : s.dispatching = true) (hs : s.headStopped r = false) (h : HeadOk s r 0x21 qntBad e)
    (h2 : e.f 16 1 ≠ 2) {p : State → Prop} (hp : p { s with core := (s.vuRan (s.runQnt r e []) r e).core }) : Answers (exec (.qnt r []) s) p := by
  have h' : HeadOk s r 0x21 (fun e => qntBad e ++ (if e.f 16 1 = 2 then s.imageBad e else [])) e := by
    simp only [HeadOk, if_neg h2, List.append_nil] at h ⊢
    exact h
  refine answers_dispatching_at hd ?_ hp
  rw [if_neg (by simp [hs]), atHead_ok _ h']
  rfl

/-- A QNT with its scratch, begun. -/
def State.qntBegun (s : State) (r : SlotRef) (e : Entry) (u : Nat) : State := (s.scratched r e u).qntBegin r.unit r.slot e

theorem qntBegun_vecWork (s : State) (r : SlotRef) (e : Entry) (u : Nat) : VecWork s (s.qntBegun r e u) :=
  (scratched_vecWork s r e u).trans (qntBegin_vecWork _ _ _ _)

theorem qntBegun_vuPos (s : State) (r : SlotRef) (e : Entry) (u : Nat) : (s.qntBegun r e u).vuPos r e = s.vuPos r e :=
  (vuPos_of_run (qntBegin_run _ _ _ _)).trans (scratched_vuPos s r e u)

/-- The values of a block array as a QNT quantises them. -/
def State.arrayVBlks (u : State) (e : Entry) : List VBlk :=
  let a := e.eff 0 24 56
  let c := e.f 17 1 % 16
  let n := e.f 32 4 % 2 ^ 24
  let bl := (List.range (n / 32)).map (u.arrBlk e.ctx a c n (u.vget e.ctx a (arrayBytes c n) false).1)
  strike [] (toVBlks (bl.flatMap Blk.vals) (fun i => (bl.getD i {}).poison) (fun _ => false) (fun i => c = 6 && (bl.getD i {}).raised))

theorem qntArray_writes {s v : State} {r : SlotRef} {e : Entry} (hd : s.dispatching = true) (hs : s.headStopped r = false)
    (h : HeadOk s r 0x21 qntBad e) (hk : destKind e.dest = 0) (ho : (s.vuPos r e).outs = []) (h3 : e.f 16 1 = 3)
    (hm : ((s.vu r.unit).slot r.slot).scr.any (fun x => x.1 = e.q && x.2.1 = e.seq) = true ∨ 1 ≤ s.scratchFree r.unit) (hv : v = s.qntBegun r e 1) :
    let l := [(e.eff 0 24 56, arrayBytes (e.f 17 1 % 16) (e.f 32 4 % 2 ^ 24))]
    let u := v.vuTouch e l
    let q := u.quantiseAll r.unit r.slot (e.f 20 4) (((u.arrayVBlks e).take (e.f 32 4 % 2 ^ 24 / 32)).drop 0)
    let bs := blockArray (qCode (e.f 20 4)) q.2
    v.piecesStop e.ctx l false false = .none → u.vcheck e.ctx (destAddr e.dest) bs.length true false = .none →
    Answers (exec (.qnt r []) s) (fun t =>
      let x := (s.vu r.unit).slot r.slot
      let y := (t.vu r.unit).slot r.slot
      Left s t r ∧ Done t e ∧ t.core.mem = ((q.1.qOutcomes e q.2).vput e.ctx (destAddr e.dest) bs false).core.mem
      ∧ (x.qnt ≠ some (e.q, e.seq) → y.seedNext = none ∧ (qSr (e.f 20 4) = false → ∀ k, x.seedNext = some k → y.rng = k))) := by
  intro l u q bs hp hc
  refine qnt_runs hd hs h (by omega) ?_
  have hrun : s.runQnt r e [] = v.qntArray r e [] := by
    rw [hv]
    unfold State.runQnt
    simp only [h3]
    exact withScratch_runs _ (.inr hm)
  have hq : VecWork s (q.1.qOutcomes e q.2) := by
    have hsv : VecWork s v := hv ▸ qntBegun_vecWork s r e 1
    exact hsv.trans ((VecWork.vuTouch v e l).trans ((VecWork.quantiseAll u _ _ _ _).trans (.qOutcomes _ _ _)))
  have hpos : (v.vuPos r e).outs = [] := by rw [hv, qntBegun_vuPos, ho]
  have hends := vuBlocks_ends (s := s) (nb := e.f 32 4 % 2 ^ 24 / 32) (ins := blkPieces (e.eff 0 24 56) (e.f 17 1 % 16) (e.f 32 4 % 2 ^ 24 / 32))
    (run := fun s k0 k1 => s.quantiseAll r.unit r.slot (e.f 20 4) (((s.arrayVBlks e).take k1).drop k0))
    (form := arrayForm (destAddr e.dest) (qCode (e.f 20 4)) (e.f 32 4 % 2 ^ 24 / 32)) (done := fun s l => s.qOutcomes e l) s hpos hp hk hc hq.eiq
  rw [hrun]
  obtain ⟨hl, hdn, hvus, hmem, -, -⟩ := hends
  refine ⟨hl, hdn, hmem, fun hx => ?_⟩
  obtain ⟨_, hqr⟩ := qOutcomes_rest q.1 e q.2
  obtain ⟨rng, hsr, hslot⟩ := quantiseAll_slot r.unit r.slot (e.f 20 4) (((u.arrayVBlks e).take (e.f 32 4 % 2 ^ 24 / 32)).drop 0) u
  obtain ⟨scr, hsc⟩ := scratched_slot s r e 1
  have huv : (u.vu r.unit).slot r.slot = (v.vu r.unit).slot r.slot := by
    simp only [State.vu, show u.core.vus = v.core.vus from vuTouch_vus v e l]
  obtain ⟨hnext, hrng⟩ := qntBegin_seed (s := s.scratched r e 1) (n := r.unit) (k := r.slot) (e := e) (by rw [hsc]; exact hx)
  have hvslot : ((v.vu r.unit).slot r.slot).seedNext = none
      ∧ ((v.vu r.unit).slot r.slot).rng = ((s.vu r.unit).slot r.slot).seedNext.getD ((s.vu r.unit).slot r.slot).rng := by
    rw [hsc] at hrng
    rw [hv]
    exact ⟨hnext, hrng⟩
  obtain ⟨hvn, hvr⟩ := hvslot
  have hy (t : State) (ht : t.core.vus = (q.1.qOutcomes e q.2).core.vus) : (t.vu r.unit).slot r.slot = { (v.vu r.unit).slot r.slot with rng := rng } := by
    rw [← huv, ← hslot]
    simp only [State.vu, ht, hqr]
    rfl
  rw [hy { s with core := (s.vuRan (v.qntArray r e []) r e).core } hvus]
  refine ⟨hvn, fun h0 k hx' => ?_⟩
  show rng = k
  rw [hsr h0, huv, hvr, hx']
  rfl

theorem Done.noteCount {x : State} {f : Entry} (h : Done x f) (e : Entry) (c n : Nat) : Done (x.noteCount e c n) f := by
  unfold State.noteCount
  split
  · exact h
  · exact h.updInst _ _ (fun _ => rfl) fun _ h => h

/-- The end of the MVX whose result a QNT takes (R115). -/
def State.mvxTaken (s : State) (n : Nat) (x : MvxRun) : State :=
  (((s.setMvu n { s.mvu n with result := none }).bump (mvuBase n + 0x120) (6 * (x.e.outs * x.e.vsel.length) + 128)).mvxOutcomes x).finish x.e.q x.e.seq

theorem mvxTaken_rest (s : State) (n : Nat) (x : MvxRun) :
    ∃ regs queues, s.mvxTaken n x = { s.setMvu n { s.mvu n with result := none } with core.regs := regs, core.qm.queues := queues } := by
  obtain ⟨u, hu⟩ : ∃ u, u = (s.setMvu n { s.mvu n with result := none }).bump (mvuBase n + 0x120) (6 * (x.e.outs * x.e.vsel.length) + 128) := ⟨_, rfl⟩
  obtain ⟨_, h1⟩ := u.noteCount_rest x.e 1 (mcount x.acc (fun r => r.st.testBit 2))
  obtain ⟨_, h2⟩ := (u.noteCount x.e 1 (mcount x.acc (fun r => r.st.testBit 2))).noteCount_rest x.e 2 (mcount x.acc (fun r => r.st.testBit 0))
  unfold State.mvxTaken State.mvxOutcomes
  rw [← hu, h2, h1, hu]
  exact ⟨_, _, rfl⟩

/-- The values of an MVU result as a QNT quantises them (R115). -/
def mvxVBlks (x : MvxRun) (now : Nat) : List VBlk :=
  let l := mvxVals (mvxImage x now 0 0) (x.e.outs * x.e.vsel.length)
  let vs := l.map (·.1)
  strike [] (toVBlks (vs ++ List.replicate (32 * ceilDiv vs.length 32 - vs.length) ({} : Dy))
    (fun i => ((l.drop (32 * i)).take 32).any (·.2)) (fun _ => false))

/-- How many blocks they fill. -/
def mvxBlks (x : MvxRun) (now : Nat) : Nat := ceilDiv ((mvxVals (mvxImage x now 0 0) (x.e.outs * x.e.vsel.length)).map (·.1)).length 32

theorem qntMvu_takes {s v : State} {r : SlotRef} {e : Entry} {x : MvxRun} (hd : s.dispatching = true) (hs : s.headStopped r = false)
    (h : HeadOk s r 0x21 qntBad e) (hk : destKind e.dest = 0) (ho : (s.vuPos r e).outs = []) (h1 : e.f 16 1 = 1)
    (hm : ((s.vu r.unit).slot r.slot).scr.any (fun x => x.1 = e.q && x.2.1 = e.seq) = true ∨ 5 ≤ s.scratchFree r.unit) (hv : v = s.qntBegun r e 5)
    (hx : (s.mvu (bits (e.f 24 1) 0 3)).result = some x) (hn : bits x.e.dest 0 4 = r.unit) (hl : bits x.e.dest 4 2 = r.slot) :
    let u := v.vuTouch e []
    let q := u.quantiseAll r.unit r.slot (e.f 20 4) (((mvxVBlks x s.now).take (mvxBlks x s.now)).drop 0)
    u.vcheck e.ctx (destAddr e.dest) (blockArray (qCode (e.f 20 4)) q.2).length true false = .none →
    Answers (exec (.qnt r []) s) (fun t => Left s t r ∧ Done t e ∧ Done t x.e ∧ (t.mvu (bits (e.f 24 1) 0 3)).result = none
      ∧ (∀ k, k ≠ bits (e.f 24 1) 0 3 → t.mvu k = s.mvu k)) := by
  intro u q hc
  obtain ⟨n, hnd⟩ : ∃ n, n = bits (e.f 24 1) 0 3 := ⟨_, rfl⟩
  rw [← hnd] at hx ⊢
  have hsv : VecWork s v := hv ▸ qntBegun_vecWork s r e 5
  have hvx : (v.mvu n).result = some x := by rw [← hx]; simp only [State.mvu, hsv.mvus]
  have hnow : v.now = s.now := by
    obtain ⟨_, _, _, _, _, _, _, _, _, _, hr⟩ := hsv
    rw [hr]
  refine qnt_runs hd hs h (by omega) ?_
  have hrun : s.runQnt r e [] = v.vuBlocks r e (mvxBlks x s.now) [] (fun _ => [])
      (fun t k0 k1 => t.quantiseAll r.unit r.slot (e.f 20 4) (((mvxVBlks x s.now).take k1).drop k0))
      (arrayForm (destAddr e.dest) (qCode (e.f 20 4)) (mvxBlks x s.now)) (fun t l => (t.mvxTaken n x).qOutcomes e l) := by
    have hq : s.runQnt r e [] = v.qntMvu r e [] n := by
      rw [hv, hnd]
      unfold State.runQnt
      simp only [h1]
      exact withScratch_runs _ (.inr hm)
    rw [hq]
    unfold State.qntMvu
    simp only [hvx]
    rw [if_neg (by simp [hn, hl]), hnow]
    rfl
  have hqe : VecWork s q.1 := hsv.trans ((VecWork.vuTouch v e []).trans (VecWork.quantiseAll u _ _ _ _))
  obtain ⟨_, _, ht⟩ := mvxTaken_rest q.1 n x
  obtain ⟨_, hqr⟩ := qOutcomes_rest (q.1.mvxTaken n x) e q.2
  have hy : ((q.1.mvxTaken n x).qOutcomes e q.2).core.qm.eiq = s.core.qm.eiq ∧ ((q.1.mvxTaken n x).qOutcomes e q.2).core.mvus
      = mput s.core.mvus n { s.mvu n with result := none } := by
    rw [hqr, ht]
    refine ⟨hqe.eiq, ?_⟩
    show mput q.1.core.mvus n { mgetD q.1.core.mvus n {} with result := none } = _
    rw [hqe.mvus]
    rfl
  obtain ⟨hye, hym⟩ := hy
  have hpos : (v.vuPos r e).outs = [] := by rw [hv, qntBegun_vuPos, ho]
  obtain ⟨hleft, hdn, -, -, hmvus, hkept⟩ := vuBlocks_ends (s := s) (nb := mvxBlks x s.now) (ins := fun _ => [])
    (run := fun t k0 k1 => t.quantiseAll r.unit r.slot (e.f 20 4) (((mvxVBlks x s.now).take k1).drop k0))
    (form := arrayForm (destAddr e.dest) (qCode (e.f 20 4)) (mvxBlks x s.now)) (done := fun t l => (t.mvxTaken n x).qOutcomes e l) s hpos
    (show v.piecesStop e.ctx [] false false = .none from rfl) hk hc hye
  rw [hrun]
  have hm' := hmvus.trans hym
  refine ⟨hleft, hdn, hkept x.e (((done_finish _ x.e).noteCount _ _ _).noteCount _ _ _), ?_, fun k hk => ?_⟩
  · exact congrArg Mvu.result ((congrArg (fun m => mgetD m n {}) hm').trans (mgetD_mput_same _ _ _ _))
  · exact (congrArg (fun m => mgetD m k {}) hm').trans (mgetD_mput_ne _ _ _ hk)

theorem qntCompletes : Says.QntCompletes := by
  intro s r e hd hs h hk ho
  have hb (u : Nat) (hu : u ≠ 0) : (if ((s.vu r.unit).slot r.slot).scr.any (fun x => x.1 = e.q && x.2.1 = e.seq) then s
      else (s.take 0x0E r.unit u).holdScratch r e u).qntBegin r.unit r.slot e = s.qntBegun r e u := by
    simp only [State.qntBegun, State.scratched, hu, false_or]
  exact ⟨fun h3 hm hp hc => qntArray_writes hd hs h hk ho h3 hm (hb 1 (by decide)) hp hc,
    fun x h1 hm hx hn hl hc => qntMvu_takes hd hs h hk ho h1 hm (hb 5 (by decide)) hx hn hl hc⟩

/-! VU_DRAIN_GRANT, VU_SEED_WRITE and VU_CNT_CLR (R93, R124, R125, R126) -/

theorem drainGrant_lands {s : State} {r : SlotRef} {e : Entry} {n : Nat} {d : DrainImg} (hd : s.dispatching = true) (hh : s.head r = some e)
    (hcls : r.cls = 5) (hop : e.op = 0x21) (h0 : e.f 16 1 = 0) (he : s.engineOf (e.f 24 2) = .ok n)
    (hf : (s.ope n).drains.find? (fun d => d.part = bits (e.f 24 4) 16 2 && destKind d.e.dest = 1 && bits d.e.dest 0 4 = r.unit
      && bits d.e.dest 4 2 = r.slot) = some d)
    (hfe : ((s.ope n).part (bits (e.f 24 4) 16 2)).fence = 0) (hfree : (if d.tile.a32 then 5 else 9) ≤ s.scratchFree r.unit) :
    Answers (exec (.vuDrainGrant r) s) (fun t => (t.ope n).drains = (s.ope n).drains.erase d ∧ Done t d.e ∧ t.core.mem = s.core.mem
      ∧ ((t.vu r.unit).slot r.slot).landed
        = ((s.vu r.unit).slot r.slot).landed ++ [(n, bits (e.f 24 4) 16 2, if d.tile.a32 then 5 else 9, d.tile)]) := by
  obtain ⟨v, hv⟩ : ∃ v, v = (s.vu r.unit).setSlot r.slot { (s.vu r.unit).slot r.slot with landed := ((s.vu r.unit).slot r.slot).landed
      ++ [(n, bits (e.f 24 4) 16 2, if d.tile.a32 then 5 else 9, d.tile)] } := ⟨_, rfl⟩
  obtain ⟨w, hw⟩ : ∃ w, w = (((s.setVu r.unit v).take 0x0E r.unit (if d.tile.a32 then 5 else 9)).dropDrain n d).bump (opeBase n + 0x180) d.bytes.length :=
    ⟨_, rfl⟩
  obtain ⟨_, hr⟩ := State.tileOutcomes_rest w d.e d.tile
  refine answers_live_at (live_of_dispatching hd) (t := (w.tileOutcomes d.e d.tile).finish d.e.q d.e.seq) ?_ ?_
  · rw [hw, hv]
    simp only [hh, hcls, hop, h0, he, hf, hfe, Nat.not_lt.2 hfree, ne_eq, not_true_eq_false, decide_false, Bool.or_self, Bool.false_eq_true, if_false]
  · obtain ⟨x, hx⟩ : ∃ x, x = (s.setVu r.unit v).take 0x0E r.unit (if d.tile.a32 then 5 else 9) := ⟨_, rfl⟩
    have hxf : x.core.vus = mput s.core.vus r.unit v ∧ x.ope n = s.ope n ∧ x.core.mem = s.core.mem := by
      rw [hx]
      exact ⟨rfl, rfl, rfl⟩
    obtain ⟨hxv, hxo, hxm⟩ := hxf
    have hwf : (w.ope n).drains = (s.ope n).drains.erase d ∧ w.core.mem = s.core.mem ∧ w.vu r.unit = v := by
      have hwx : w.core.vus = x.core.vus ∧ w.core.mem = x.core.mem ∧ w.ope n = { x.ope n with drains := (x.ope n).drains.erase d } := by
        rw [hw, ← hx]
        exact ⟨rfl, rfl, State.ope_setOpe_same x n _⟩
      obtain ⟨h1, h2, h3⟩ := hwx
      refine ⟨by rw [h3, hxo], h2.trans hxm, ?_⟩
      rw [State.vu, h1, hxv]
      exact mgetD_mput_same ..
    obtain ⟨hwd, hwm, hwv⟩ := hwf
    obtain ⟨y, hy⟩ : ∃ y, y = (w.tileOutcomes d.e d.tile).finish d.e.q d.e.seq := ⟨_, rfl⟩
    have hdn : Done y d.e := hy ▸ done_finish _ d.e
    have hyf : y.ope n = w.ope n ∧ y.core.mem = w.core.mem ∧ y.vu r.unit = w.vu r.unit := by
      rw [hy, hr]
      exact ⟨rfl, rfl, rfl⟩
    obtain ⟨hyo, hym, hyv⟩ := hyf
    rw [← hy]
    refine ⟨(congrArg Ope.drains hyo).trans hwd, hdn, hym.trans hwm, ?_⟩
    exact (congrArg (fun v : Vu => (v.slot r.slot).landed) ((hyv.trans hwv).trans hv)).trans (congrArg VuSlot.landed (Vu.slot_setSlot_same _ _ _))

theorem seedWrite_sets {s : State} {n k : Nat} (seed : Nat) (hd : s.dispatching = true) (hn : n < 16) (hk : k < 4) :
    Answers (exec (.vuSeedWrite n k seed) s) (fun t =>
      (t.vu n).slot k = (if s.qntOn n k then { (s.vu n).slot k with seedNext := some (seedState (seed % 2 ^ 64)) }
        else { (s.vu n).slot k with rng := seedState (seed % 2 ^ 64), seedNext := none })
      ∧ (∀ j, j ≠ k → (t.vu n).slot j = (s.vu n).slot j) ∧ t.core.mem = s.core.mem ∧ t.core.qm = s.core.qm) := by
  obtain ⟨y, hy⟩ : ∃ y, y = (if s.qntOn n k then { (s.vu n).slot k with seedNext := some (seedState (seed % 2 ^ 64)) }
    else { (s.vu n).slot k with rng := seedState (seed % 2 ^ 64), seedNext := none }) := ⟨_, rfl⟩
  have ht : s.vuSeed n k seed = s.setVu n ((s.vu n).setSlot k y) := by
    unfold State.vuSeed
    rw [hy, if_pos ⟨hn, hk⟩]
  rw [← hy]
  refine answers_dispatching_at hd ht ⟨?_, fun j hj => ?_, rfl, rfl⟩
  · exact (congrArg (fun v : Vu => v.slot k) (State.vu_setVu_same s n _)).trans (Vu.slot_setSlot_same _ _ _)
  · exact (congrArg (fun v : Vu => v.slot j) (State.vu_setVu_same s n _)).trans (Vu.slot_setSlot_ne _ _ hj)

/-- Which counters VU_CNT_CLR names. -/
theorem cntClr_names {n m o : Nat} : (setBits 4 m).any (fun k => decide (vuCnt n k 0 ≤ o) && decide (o < vuCnt n k 0x100)) = true
    ↔ ∃ k, k < 4 ∧ m.testBit k = true ∧ vuCnt n k 0 ≤ o ∧ o < vuCnt n k 0x100 := by
  simp [setBits]

theorem cntClr_clears (s : State) (n m : Nat) :
    (∀ k, k < 4 → m.testBit k = true → ∀ o, o < 0x100 → (s.vuCntClr n m).counter (vuCnt n k o) = 0)
    ∧ (∀ o, (∀ k, k < 4 → m.testBit k = true → o < vuCnt n k 0 ∨ vuCnt n k 0x100 ≤ o) → (s.vuCntClr n m).counter o = s.counter o) := by
  refine ⟨fun k hk hm o ho => mgetD_filter_none 0 fun _ => ?_, fun o ho => ?_⟩
  · have := cntClr_names (n := n) (o := vuCnt n k o) |>.2 ⟨k, hk, hm, by unfold vuCnt; omega, by unfold vuCnt; omega⟩
    simp [this]
  · have hkeep : mget (s.vuCntClr n m).core.regs.cnt o = mget s.core.regs.cnt o := mget_filter_keep fun _ => by
      have : ¬ (setBits 4 m).any (fun k => decide (vuCnt n k 0 ≤ o) && decide (o < vuCnt n k 0x100)) = true := fun h => by
        obtain ⟨k, hk, hm, h1, h2⟩ := cntClr_names.1 h
        have := ho k hk hm
        omega
      simpa using this
    simp only [State.counter, mgetD, hkeep]

theorem vectorEvents : Says.VectorEvents := by
  intro s r hd
  refine ⟨fun e n d hh hcls hop h0 he hf hfe hfree => drainGrant_lands hd hh hcls hop h0 he hf hfe hfree,
    fun n k seed hn hk => seedWrite_sets seed hd hn hk, fun n m => ?_⟩
  obtain ⟨h1, h2⟩ := cntClr_clears s n m
  exact answers_dispatching_at hd (t := s.vuCntClr n m) rfl ⟨h1, h2, rfl, rfl, rfl⟩

/-- Settles O54: where nothing stops, an instruction's blocks are made in one; the state then differs from its start by what vector work reaches. -/
theorem vectorUnits : Obligations.VectorUnits := ⟨vectorFunctions, vopAndVred, qntCompletes, vectorEvents⟩

end Sys2Proof.Machine
end

section
/-! PROOF. Packets at their endpoints (O58; 12_mladben R290-R301). -/
namespace Sys2Proof.Machine
open State

/-! What leaves a buffer changes nothing that a packet of the endpoint meets -/

/-- A change of ports, links and held packets: the inbox and what crosses stay. -/
def OnPorts (s t : State) : Prop := ∃ held ports d2d ldg, t = { s with core.fab.held := held, core.fab.ports := ports, core.fab.d2d := d2d, core.ldg := ldg }

theorem OnPorts.trans {s t u : State} (h : OnPorts s t) (k : OnPorts t u) : OnPorts s u := by
  obtain ⟨_, _, _, _, rfl⟩ := h
  obtain ⟨_, _, _, _, rfl⟩ := k
  exact ⟨_, _, _, _, rfl⟩

/-- Buffers of ports and links have given units back: transmit queues and states of ports stand as they did. -/
structure UnitsFreed (s t : State) : Prop where
  rest : OnPorts s t
  tx : ∀ i, (t.port i).tx = (s.port i).tx
  st : ∀ i, (t.port i).st = (s.port i).st

namespace UnitsFreed

theorem refl (s : State) : UnitsFreed s s := ⟨⟨_, _, _, _, rfl⟩, fun _ => rfl, fun _ => rfl⟩

theorem trans {s t u : State} (h : UnitsFreed s t) (k : UnitsFreed t u) : UnitsFreed s u :=
  ⟨h.rest.trans k.rest, fun i => (k.tx i).trans (h.tx i), fun i => (k.st i).trans (h.st i)⟩

theorem updPort (s : State) (i : Nat) {f : Port → Port} (htx : ∀ p, (f p).tx = p.tx) (hst : ∀ p, (f p).st = p.st) : UnitsFreed s (s.updPort i f) := by
  refine ⟨⟨_, _, _, _, rfl⟩, fun j => ?_, fun j => ?_⟩
  · by_cases h : j = i
    · rw [h, State.port_updPort_same, htx]
    · rw [State.port_updPort_ne _ _ h]
  · by_cases h : j = i
    · rw [h, State.port_updPort_same, hst]
    · rw [State.port_updPort_ne _ _ h]

theorem updRx (s : State) (i id : Nat) (f : RxPkt → RxPkt) : UnitsFreed s (s.updRx i id f) := updPort s i (fun _ => rfl) fun _ => rfl

theorem freeUnits (s : State) (i v n : Nat) (b : Bool) : UnitsFreed s (s.freeUnits i v n b) := by
  unfold State.freeUnits
  refine (updPort s i (f := fun p => { p with
    rxUsed := mupd p.rxUsed v 0 (· - n), freedOut := mupd p.freedOut v 0 (fun f => (f + n) % 2 ^ 24) }) (fun _ => rfl) fun _ => rfl).trans ?_
  dsimp only
  split <;> exact ⟨⟨_, _, _, _, rfl⟩, fun _ => rfl, fun _ => rfl⟩

theorem freeRx (s : State) (i id n : Nat) (b : Bool) : UnitsFreed s (s.freeRx i id n b) := by
  unfold State.freeRx
  split
  · exact refl s
  · dsimp only
    split
    · exact (freeUnits s i _ _ b).trans (updPort _ i (fun _ => rfl) fun _ => rfl)
    · exact (freeUnits s i _ _ b).trans (updRx _ _ _ _)

theorem discardRx (s : State) (i id : Nat) (b : Bool) : UnitsFreed s (s.discardRx i id b) := by
  unfold State.discardRx
  split
  · exact refl s
  · exact (updRx s i id _).trans (freeRx _ _ _ _ _)

theorem copyGone (s : State) (src : Option (Nat × Nat)) (b : Bool) : UnitsFreed s (s.copyGone src b) := by
  unfold State.copyGone
  split
  · exact refl s
  · split
    · exact refl s
    · split
      · exact discardRx _ _ _ _
      · exact updRx _ _ _ _

theorem d2dFreed (s : State) (l die v n : Nat) : UnitsFreed s (s.d2dFreed l die v n) := by
  unfold State.d2dFreed
  split
  · exact refl s
  · exact ⟨⟨_, _, _, _, rfl⟩, fun _ => rfl, fun _ => rfl⟩

theorem unhold (s : State) (p : Packet) : UnitsFreed s (s.unhold p) := by
  have h0 (l : List Held) : UnitsFreed s { s with core.fab.held := l } := ⟨⟨_, _, _, _, rfl⟩, fun _ => rfl, fun _ => rfl⟩
  unfold State.unhold
  split
  · exact refl s
  · dsimp only
    split
    · exact (h0 _).trans (copyGone _ _ _)
    · exact (h0 _).trans (d2dFreed _ _ _ _ _)
    · exact h0 _

theorem unitsMoved (s : State) (x : PartPkt) (n : Nat) : UnitsFreed s (s.unitsMoved x n) := by
  unfold State.unitsMoved
  split
  · split
    · exact refl s
    · exact freeRx _ _ _ _ _
  · exact d2dFreed _ _ _ _ _
  · exact refl s

theorem foldl {α : Type} {f : State → α → State} (hf : ∀ s a, UnitsFreed s (f s a)) (l : List α) (s : State) : UnitsFreed s (l.foldl f s) := by
  induction l generalizing s with
  | nil => exact refl s
  | cons a l ih => exact (hf s a).trans (ih _)

end UnitsFreed

/-! A packet goes out -/

/-- Filling a crossbar queue moves units of the packets that wait, and keeps the packets and their order (R344). -/
theorem xbarFill_pkts : ∀ (l : List PartPkt) (n : Nat), (xbarFill n l).1.map (·.pkt) = l.map (·.pkt)
  | [], _ => rfl
  | x :: l, n => by
    unfold xbarFill
    dsimp only
    split
    · rfl
    · simp [xbarFill_pkts l]

theorem fillXbar_pkts (s : State) (o v : Nat) :
    OnPorts s (s.fillXbar o v) ∧ (mgetD ((s.fillXbar o v).port o).tx v []).map (·.pkt) = (mgetD (s.port o).tx v []).map (·.pkt) := by
  unfold State.fillXbar
  dsimp only
  split
  · exact ⟨⟨_, _, _, _, rfl⟩, rfl⟩
  · obtain ⟨w, hw⟩ : ∃ w, w = s.updPort o (fun p => { p with
        tx := mput p.tx v (xbarFill (xbarFifo (mgetD (s.port o).tx v [])).free (mgetD (s.port o).tx v [])).1 }) := ⟨_, rfl⟩
    rw [← hw]
    obtain ⟨hr, htx, -⟩ := UnitsFreed.foldl (f := fun s e => s.unitsMoved e.1 e.2) (fun s e => .unitsMoved s e.1 e.2)
      (xbarFill (xbarFifo (mgetD (s.port o).tx v [])).free (mgetD (s.port o).tx v [])).2 w
    refine ⟨?_, ?_⟩
    · have hsw : OnPorts s w := by
        rw [hw]
        exact ⟨_, _, _, _, rfl⟩
      exact hsw.trans hr
    · rw [htx, hw, State.port_updPort_same, mgetD_mput_same, xbarFill_pkts]

theorem queueTx_joins (s : State) (o v : Nat) (x : PartPkt) :
    OnPorts s (s.queueTx o v x) ∧ (mgetD ((s.queueTx o v x).port o).tx v []).map (·.pkt) = (mgetD (s.port o).tx v []).map (·.pkt) ++ [x.pkt] := by
  obtain ⟨w, hw⟩ : ∃ w, w = s.updPort o (fun t => { t with tx := mupd t.tx v [] (· ++ [x]) }) := ⟨_, rfl⟩
  obtain ⟨hr, htx⟩ := fillXbar_pkts w o v
  have hq : s.queueTx o v x = w.fillXbar o v := by rw [hw]; rfl
  have hsw : OnPorts s w := ⟨_, _, _, _, hw⟩
  rw [hq]
  refine ⟨hsw.trans hr, htx.trans ?_⟩
  rw [hw, State.port_updPort_same, mgetD_mupd_same, List.map_append, List.map_singleton]

/-- A packet that leaves by a port joins that port's queue; only the fabric and its credits change. -/
theorem queueOut_joins (s : State) (die o : Nat) (x : Packet) : (∃ fab ldg, s.queueOut die o x = { s with core.fab := fab, core.ldg := ldg })
    ∧ (s.queueOut die o x).core.fab.inbox = s.core.fab.inbox
    ∧ (mgetD ((s.queueOut die o x).port o).tx x.vc []).map (·.pkt) = (mgetD (s.port o).tx x.vc []).map (·.pkt) ++ [x] := by
  unfold State.queueOut State.toPort
  split
  · obtain ⟨⟨_, _, _, _, hr⟩, htx⟩ := queueTx_joins s o x.vc { pkt := x, here := x.len }
    refine ⟨?_, ?_, htx⟩
    · rw [hr]
      exact ⟨_, _, rfl⟩
    · rw [hr]
  · next l hl =>
    obtain ⟨w, hw⟩ : ∃ w, w = { s with core.fab.crossNext := s.core.fab.crossNext + 1, core.fab.crossing := s.core.fab.crossing
      ++ [(⟨s.core.fab.crossNext, l, die, x, x.len, 0, [], none, some o, none⟩ : Crossing)] } := ⟨_, rfl⟩
    obtain ⟨⟨_, _, _, _, hr⟩, htx⟩ := queueTx_joins w o x.vc { pkt := x, here := 0, via := some s.core.fab.crossNext, hop := some (l, die) }
    have hc : s.cross l die { pkt := x, here := x.len } (some o)
        = w.queueTx o x.vc { pkt := x, here := 0, via := some s.core.fab.crossNext, hop := some (l, die) } := by
      rw [hw]
      rfl
    rw [hc]
    refine ⟨?_, ?_, htx.trans (by rw [hw]; rfl)⟩
    · rw [hr, hw]
      exact ⟨_, _, rfl⟩
    · rw [hr, hw]

/-! The answer to a request (R290, R291) -/

/-- The answer to a request. -/
def State.answer (s : State) (p : Packet) (type status : Nat) (data : List Byte) : Packet :=
  { s.mkPacket type 2 p.src (epDie p.dest) p.txid (hdrPut 16 1 status) data with poison := decide (status = 1) }

theorem hdrField_status (s : State) (p : Packet) (type : Nat) {status : Nat} (data : List Byte) (h : status < 256) :
    hdrField (s.answer p type status data) 16 1 = status := by
  show bits (hdrPut 16 1 status) 0 8 = status
  unfold hdrPut put bits
  simp
  omega

/-- An answer to an endpoint of this module is delivered. -/
theorem respond_home {s : State} {p : Packet} (type status : Nat) (data : List Byte) (h : epModule p.src = s.modid) :
    s.respond p type status data = s.deliver (epDie p.dest) (s.answer p type status data) := by
  have hs : s.sendOn (epDie p.dest) (s.answer p type status data) = (s.deliver (epDie p.dest) (s.answer p type status data), true) := if_pos h
  show (if (s.sendOn (epDie p.dest) (s.answer p type status data)).2 then (s.sendOn (epDie p.dest) (s.answer p type status data)).1 else _) = _
  rw [hs]
  exact if_pos rfl

/-- An answer to another module leaves by the port of its route. -/
theorem respond_away {s : State} {p : Packet} (type status : Nat) (data : List Byte) {i : Nat} (h : epModule p.src ≠ s.modid)
    (hr : s.routeOf (s.ep (epDie p.dest)) p.src 2 = some i) :
    s.respond p type status data = s.queueOut (epDie p.dest) i (s.answer p type status data) := by
  have hs : s.sendOn (epDie p.dest) (s.answer p type status data) = (s.queueOut (epDie p.dest) i (s.answer p type status data), true) := by
    unfold State.sendOn
    rw [if_neg (show ¬ epModule (s.answer p type status data).dest = s.modid from h)]
    simp only [show s.routeOf (s.answer p type status data).src (s.answer p type status data).dest (s.answer p type status data).vc = some i from hr]
  show (if (s.sendOn (epDie p.dest) (s.answer p type status data)).2 then (s.sendOn (epDie p.dest) (s.answer p type status data)).1 else _) = _
  rw [hs]
  exact if_pos rfl

/-! A packet is taken from the inbox (R18, R295) -/

/-- What holds of the state once a packet of the inbox has been taken. -/
structure Took (s : State) (p : Packet) (t : State) : Prop where
  rest : ∃ fab ldg, t = { s with core.fab := fab, core.ldg := ldg }
  inbox : t.core.fab.inbox = s.core.fab.inbox.erase p
  crossing : t.core.fab.crossing = s.core.fab.crossing
  outst : t.core.fab.outst = s.core.fab.outst
  tx : ∀ i, (t.port i).tx = (s.port i).tx
  st : ∀ i, (t.port i).st = (s.port i).st

theorem took_unhold (s : State) (p q : Packet) : Took s p ({ s with core.fab.inbox := s.core.fab.inbox.erase p }.unhold q) := by
  obtain ⟨⟨_, _, _, _, hr⟩, htx, hst⟩ := UnitsFreed.unhold { s with core.fab.inbox := s.core.fab.inbox.erase p } q
  refine ⟨?_, ?_, ?_, ?_, htx, hst⟩
  · rw [hr]
    exact ⟨_, _, rfl⟩
  · rw [hr]
  · rw [hr]
  · rw [hr]

theorem onPacket_first {s : State} {p : Packet} {type : Nat} (f : State → State) (hf : s.firstIn p = true) (ht : p.type = type) :
    ∃ t, Took s p t ∧ s.onPacket p type f = f t := by
  refine ⟨_, took_unhold s p p, ?_⟩
  unfold State.onPacket State.takePacket
  rw [if_neg (by simp [ht]), if_pos hf]

namespace Took
variable {s t : State} {p : Packet} (h : Took s p t)
include h

theorem sameSpace : SameSpace s t := by
  obtain ⟨_, _, hr⟩ := h.rest
  rw [hr]
  exact ⟨rfl, rfl, rfl, rfl, rfl, fun _ => rfl⟩

theorem regs : t.core.regs = s.core.regs := by
  obtain ⟨_, _, hr⟩ := h.rest
  rw [hr]

theorem qm : t.core.qm = s.core.qm := by
  obtain ⟨_, _, hr⟩ := h.rest
  rw [hr]

theorem rce : t.core.rce = s.core.rce := by
  obtain ⟨_, _, hr⟩ := h.rest
  rw [hr]

theorem modid : t.modid = s.modid := by
  simp only [State.modid, State.reg, h.regs]

theorem denied : t.denied p = s.denied p := by
  simp only [State.denied, h.modid]

theorem routeOf (a b v : Nat) : t.routeOf a b v = s.routeOf a b v := by
  have hreg : t.reg = s.reg := by
    funext f
    simp only [State.reg, h.regs]
  have hn : t.portNamed = s.portNamed := by
    funext i
    simp only [State.portNamed, State.portPresent, State.halfMode, hreg, h.sameSpace.fuse]
  simp only [State.routeOf, hreg, hn, h.st]

theorem vcheck (c va n : Nat) (w se : Bool) : t.vcheck c va n w se = s.vcheck c va n w se := by
  have ha : Alike s t := by
    obtain ⟨_, _, hr⟩ := h.rest
    rw [hr]
    exact ⟨rfl, rfl, rfl, rfl, rfl, fun _ => rfl⟩
  exact ha.vcheck c va n w se

end Took

/-! Memory of an access to HBM -/

/-- A read whose pieces all lie in HBM changes nothing that a translation or a read sees. -/
theorem vtouch_hbm {s t : State} (ht : SameSpace s t) {c va n : Nat}
    (hx : ∀ p ∈ s.cut c va n false false, ∃ d, s.xlate c p.1 false false = .ok (.hbm d)) : SameSpace s (t.vtouch c va n false false) := by
  refine SameSpace.foldl _ (fun u p hp hu => ?_) ht
  rw [ht.cut] at hp
  obtain ⟨d, hd⟩ := hx p hp
  have hl : u.xlate c p.1 false false = .ok (.hbm d) := by rw [hu.xlate, hd]
  have htouch : ∀ v : State, v.touch c p.1 (.hbm d) false = v := fun v => rfl
  simp only [hl, htouch]
  exact (hu.trans (.missWalk u c p.1)).trans (.hbmTouch _ d p.2)

/-- One piece of a write of device physical addresses. -/
def writePiece (acc : State × List Byte) (p : Nat × Nat) : State × List Byte :=
  (if acc.1.dpaOk p.1 then acc.1.hbmWrite p.1 (acc.2.take p.2) wqData else acc.1, acc.2.drop p.2)

theorem vput_pieces (s : State) (a : Nat) (bs : List Byte) :
    s.vput 0 a bs false = ((s.cut 0 a bs.length true false).foldl writePiece (s, bs)).1 := by
  unfold State.vput
  congr 2
  funext acc p
  have hx : acc.1.xlate 0 p.1 true false = if acc.1.dpaOk p.1 then .ok (.hbm p.1) else .fault 4 := rfl
  unfold writePiece
  by_cases hd : acc.1.dpaOk p.1 = true
  · rw [if_pos hd] at hx ⊢
    simp only [hx]
    rfl
  · rw [if_neg hd] at hx ⊢
    simp only [hx]

theorem hbmWrite_fuse (s : State) (a : Nat) (bs : List Byte) (c : Nat) : (s.hbmWrite a bs c).fuse = s.fuse := rfl

theorem writePiece_mem {x y : State × List Byte} (p : Nat × Nat) (hf : y.1.fuse = x.1.fuse) (hm : y.1.core.mem = x.1.core.mem) (hb : y.2 = x.2) :
    (writePiece y p).1.fuse = (writePiece x p).1.fuse ∧ (writePiece y p).1.core.mem = (writePiece x p).1.core.mem
      ∧ (writePiece y p).2 = (writePiece x p).2 := by
  have hd : y.1.dpaOk p.1 = x.1.dpaOk p.1 := by simp only [State.dpaOk, State.stackPresent, hf]
  unfold writePiece
  rw [hd, hb]
  by_cases h : x.1.dpaOk p.1 = true
  · rw [if_pos h, if_pos h]
    refine ⟨by rw [hbmWrite_fuse, hbmWrite_fuse, hf], ?_, rfl⟩
    simp [State.hbmWrite, State.wqPut, State.bump, State.take, State.give, hm]
  · rw [if_neg h, if_neg h]
    exact ⟨hf, hm, rfl⟩

/-- Two writes of device physical addresses that begin with the same memory end with the same. -/
theorem vput_mem {s t : State} (hs : SameSpace s t) (a : Nat) (bs : List Byte) : (t.vput 0 a bs false).core.mem = (s.vput 0 a bs false).core.mem := by
  have key : ∀ (l : List (Nat × Nat)) (x y : State × List Byte), y.1.fuse = x.1.fuse → y.1.core.mem = x.1.core.mem → y.2 = x.2 →
      (l.foldl writePiece y).1.core.mem = (l.foldl writePiece x).1.core.mem := by
    intro l
    induction l with
    | nil => exact fun x y _ h _ => h
    | cons p l ih =>
      intro x y h1 h2 h3
      obtain ⟨k1, k2, k3⟩ := writePiece_mem p h1 h2 h3
      exact ih _ _ k1 k2 k3
  rw [vput_pieces, vput_pieces, hs.cut]
  exact key _ _ _ hs.fuse hs.mem rfl

/-! Requests at their responder (R291, R292) -/

/-- The state that has answered a request of this module, from u, in which the fabric still is as it was when the request had been taken. -/
theorem respond_sets_out {s t u : State} {p : Packet} (ht : Took s p t) (hu : u.core.fab = t.core.fab) (hm : epModule p.src = u.modid)
    (type status : Nat) (data : List Byte) :
    let y := u.respond p type status data
    let x := u.answer p type status data
    (linkOf (epDie p.dest) (epDie p.src) = none → y.core.fab.inbox = s.core.fab.inbox.erase p ++ [x])
    ∧ (∀ l, linkOf (epDie p.dest) (epDie p.src) = some l → y.core.fab.inbox = s.core.fab.inbox.erase p
      ∧ ∃ c : Crossing, y.core.fab.crossing = s.core.fab.crossing ++ [c] ∧ c.link = l ∧ c.die = epDie p.dest ∧ c.pkt = x ∧ c.out = none)
    ∧ y.core.mem = u.core.mem := by
  intro y x
  have hy : y = u.deliver (epDie p.dest) x := respond_home type status data hm
  have hi : u.core.fab.inbox = s.core.fab.inbox.erase p := by rw [hu, ht.inbox]
  have hc : u.core.fab.crossing = s.core.fab.crossing := by rw [hu, ht.crossing]
  have hdest : x.dest = p.src := rfl
  unfold State.deliver at hy
  rw [hdest] at hy
  refine ⟨fun hl => ?_, fun l hl => ?_, ?_⟩
  · simp only [hl] at hy
    rw [hy, ← hi]
  · simp only [hl] at hy
    rw [hy, ← hi, ← hc]
    exact ⟨rfl, _, rfl, rfl, rfl, rfl, rfl⟩
  · rw [hy]
    split <;> rfl

theorem serveRead_hbm {s t : State} {p : Packet} (ht : Took s p t) (hd : s.denied p = false) (h1 : reqT1 p = false)
    (hc : s.vcheck (reqCtx p) (reqAddr p) (reqBytes p) false false = .none) :
    t.serveRead p = (t.vtouch (reqCtx p) (reqAddr p) (reqBytes p) false false).respond p 0x30
      (b2n (t.vget (reqCtx p) (reqAddr p) (reqBytes p) false).2) (t.vget (reqCtx p) (reqAddr p) (reqBytes p) false).1 := by
  unfold State.serveRead
  dsimp only
  rw [if_neg (by simp [ht.denied, hd]), if_neg (by simp [h1])]
  simp only [ht.vcheck, hc]

theorem serveWrite_made {s t : State} {p : Packet} (ht : Took s p t) (hd : s.denied p = false) (h1 : reqT1 p = false) (hn : p.data.length = reqBytes p)
    (hp : p.poison = false) (hc : s.vcheck (reqCtx p) (reqAddr p) (reqBytes p) true false = .none) :
    t.serveWrite p = (t.vput (reqCtx p) (reqAddr p) p.data false).respond p 0x31 0 [] := by
  unfold State.serveWrite
  dsimp only
  rw [if_neg (by simp [ht.denied, hd, hn]), if_neg (by simp [h1])]
  simp only [ht.vcheck, hc, hp, Bool.false_eq_true, if_false]
  rfl

theorem Accessed.modid {s t : State} (h : Accessed s t) : t.modid = s.modid := h.regs.reg (by unfold intKey; decide)

theorem Accessed.fab {s t : State} (h : Accessed s t) : t.core.fab = s.core.fab := by
  obtain ⟨_, _, _, _, _, _, _, _, hr⟩ := h.rest
  exact (congrArg (fun t : State => t.core.fab) hr).trans rfl

/-- A denied request of another module is answered at its route's port. -/
theorem respond_denied {s t : State} {p : Packet} {i : Nat} (ht : Took s p t) (hm : epModule p.src ≠ s.modid)
    (hr : s.routeOf (s.ep (epDie p.dest)) p.src 2 = some i) (type : Nat) (data : List Byte) :
    ∃ x : Packet, (mgetD ((t.respond p type 2 data).port i).tx 2 []).map (·.pkt) = (mgetD (s.port i).tx 2 []).map (·.pkt) ++ [x] ∧ x.type = type
      ∧ x.dest = p.src ∧ x.txid = p.txid ∧ hdrField x 16 1 = 2 ∧ (t.respond p type 2 data).core.mem = s.core.mem
      ∧ (t.respond p type 2 data).core.fab.inbox = s.core.fab.inbox.erase p := by
  have hep : t.ep (epDie p.dest) = s.ep (epDie p.dest) := by simp only [State.ep, ht.modid]
  have ha := respond_away (s := t) (p := p) type 2 data (by rw [ht.modid]; exact hm) (by rw [hep, ht.routeOf]; exact hr)
  obtain ⟨⟨_, _, hq⟩, hin, htx⟩ := queueOut_joins t (epDie p.dest) i (t.answer p type 2 data)
  rw [ha]
  refine ⟨t.answer p type 2 data, ?_, rfl, rfl, rfl, hdrField_status t p type data (by decide), ?_, hin.trans ht.inbox⟩
  · rw [← ht.tx]
    exact htx
  · rw [hq]
    exact ht.sameSpace.mem

theorem denied_away {s : State} {p : Packet} (hm : epModule p.src ≠ s.modid) (h0 : reqCtx p ≠ 0) : s.denied p = true := by
  have h0' : hdrField p 24 2 % 4096 ≠ 0 := h0
  simp [State.denied, hm, h0']

theorem requestsServed : Says.RequestsServed := by
  intro s p hd hf
  refine ⟨fun hm hden h1 => ⟨fun hty hc hx => ?_, fun hty hn hpo h0 hc => ?_⟩, fun i hm h0 hr _ => ⟨fun hty => ?_, fun hty => ?_⟩⟩
  · obtain ⟨t, ht, hon⟩ := onPacket_first (fun s => s.serveRead p) hf hty
    rw [serveRead_hbm ht hden h1 hc] at hon
    have hacc := Accessed.vtouch t (reqCtx p) (reqAddr p) (reqBytes p) false false
    have hl : t.core.host.linkUp = s.core.host.linkUp := by
      obtain ⟨_, _, hr⟩ := ht.rest
      rw [hr]
    have hmem : (t.vtouch (reqCtx p) (reqAddr p) (reqBytes p) false false).core.mem = (s.vtouch (reqCtx p) (reqAddr p) (reqBytes p) false false).core.mem :=
      (vtouch_hbm ht.sameSpace hx).mem.trans (vtouch_hbm (.refl s) hx).mem.symm
    obtain ⟨h1, h2, h3⟩ := respond_sets_out ht hacc.fab (by rw [hacc.modid, ht.modid, hm]) 0x30
      (b2n (t.vget (reqCtx p) (reqAddr p) (reqBytes p) false).2) (t.vget (reqCtx p) (reqAddr p) (reqBytes p) false).1
    rw [ht.sameSpace.vget hl] at h1 h2 h3 hon
    refine answers_dispatching_at hd hon ⟨⟨State.answer (t.vtouch (reqCtx p) (reqAddr p) (reqBytes p) false false) p 0x30
      (b2n (s.vget (reqCtx p) (reqAddr p) (reqBytes p) false).2) (s.vget (reqCtx p) (reqAddr p) (reqBytes p) false).1,
      rfl, ?_, rfl, rfl, rfl, hdrField_status _ _ _ _ ?_, rfl⟩, h3.trans hmem⟩
    · split
      · next hl => exact h1 hl
      · next l hl => exact h2 l hl
    · unfold b2n
      split <;> decide
  · obtain ⟨t, ht, hon⟩ := onPacket_first (fun s => s.serveWrite p) hf hty
    rw [serveWrite_made ht hden h1 hn hpo hc] at hon
    have hacc := Accessed.vput t (reqCtx p) (reqAddr p) p.data false wqData
    have hmem : (t.vput (reqCtx p) (reqAddr p) p.data false).core.mem = (s.vput (reqCtx p) (reqAddr p) p.data false).core.mem := by
      rw [h0]
      exact vput_mem ht.sameSpace _ _
    obtain ⟨h1, h2, h3⟩ := respond_sets_out ht hacc.fab (by rw [hacc.modid, ht.modid, hm]) 0x31 0 []
    refine answers_dispatching_at hd hon ⟨⟨State.answer (t.vput (reqCtx p) (reqAddr p) p.data false) p 0x31 0 [], rfl, ?_, rfl, rfl, rfl,
      hdrField_status _ _ _ _ (by decide), rfl⟩, h3.trans hmem⟩
    split
    · next hl => exact h1 hl
    · next l hl => exact h2 l hl
  · obtain ⟨t, ht, hon⟩ := onPacket_first (fun s => s.serveRead p) hf hty
    exact answers_dispatching_at hd (hon.trans (if_pos (ht.denied.trans (denied_away hm h0)))) (respond_denied ht hm hr 0x30 _)
  · obtain ⟨t, ht, hon⟩ := onPacket_first (fun s => s.serveWrite p) hf hty
    exact answers_dispatching_at hd (hon.trans (if_pos (by simp [ht.denied, denied_away hm h0]))) (respond_denied ht hm hr 0x31 _)

/-! Responses and notices (R203, R291, R293) -/

/-- An instruction of a queue that has been finished is done. -/
theorem inst_finish_done {w : State} {q n : Nat} {i : InFlight} (h : ((w.finish q n).queue q).inst n = some i) : i.done = true := by
  rw [State.finish, State.updInst, State.queue_updQueue_same, Queue.inst_updFl_same] at h
  · obtain ⟨j, -, rfl⟩ := Option.map_eq_some_iff.1 h
    rfl
  · exact fun _ => rfl

/-- A response ends its transaction: its instruction is done, with POISONED where the response is bad. -/
theorem onResponse_ends {s t : State} {p : Packet} {o : Outst} (ht : Took s p t) (ho : mget s.core.fab.outst p.txid = some o) (htu : o.tu = none)
    (hq : o.queue ≠ 0xFFFF) :
    let ok := decide (hdrField p 16 1 = 0) && !p.poison
    let y := t.onResponse p
    y.core.fab.inbox = s.core.fab.inbox.erase p ∧ mget y.core.fab.outst p.txid = none ∧ y.core.mem = s.core.mem
      ∧ (∀ i, (y.queue o.queue).inst o.seq = some i → i.done = true ∧ (ok = false → mhas i.outs 1 = true)) := by
  intro ok y
  obtain ⟨w, hw⟩ : ∃ w, w = { t with core.fab.outst := mdel t.core.fab.outst p.txid } := ⟨_, rfl⟩
  have hy : y = if (!ok) = true then w.finishWith o.queue o.seq 1 1 else w.finish o.queue o.seq := by
    show t.onResponse p = _
    unfold State.onResponse
    simp only [ht.outst, ho, htu]
    unfold State.endOutst
    dsimp only
    rw [if_neg hq, ← hw]
  have hwf : w.core.fab.inbox = s.core.fab.inbox.erase p ∧ mget w.core.fab.outst p.txid = none ∧ w.core.mem = s.core.mem := by
    rw [hw]
    exact ⟨ht.inbox, mget_mdel_same _ _, ht.sameSpace.mem⟩
  obtain ⟨hwi, hwo, hwm⟩ := hwf
  rw [hy]
  split
  · refine ⟨hwi, hwo, hwm, fun i hi => ?_⟩
    rw [inst_finishWith] at hi
    obtain ⟨j, -, rfl⟩ := Option.map_eq_some_iff.1 hi
    exact ⟨rfl, fun _ => j.out_has 1 1 false⟩
  · next h =>
    exact ⟨hwi, hwo, hwm, fun i hi => ⟨inst_finish_done hi, fun hok => absurd hok (by simpa using h)⟩⟩

/-- The packet of a flag update is taken: the flags' own state stays. -/
theorem takeFlagUpd_rest (s : State) (f op q : Nat) : ∃ fab ldg, s.takeFlagUpd f op q = { s with core.fab := fab, core.ldg := ldg } :=
  ⟨_, _, State.takeOne_fab s _⟩

theorem flagArrive_owned {s : State} {f c : Nat} (u : FlagUpdate) (h : s.ownsFlag c f = true) :
    mgetD (s.flagArrive f c u).core.qm.upd f [] = mgetD s.core.qm.upd f [] ++ [u] ∧ (s.flagArrive f c u).core.mem = s.core.mem := by
  unfold State.flagArrive
  rw [if_pos h]
  exact ⟨mgetD_mupd_same s.core.qm.upd f [] (· ++ [u]), rfl⟩

/-- A flag update of the context that owns the block is queued for its flag. -/
theorem flagUpd_reaches {s : State} {f c q op : Nat} {u : FlagUpdate} (hl : s.live = true) (ho : s.ownsFlag c f = true)
    (h : exec (.flagUpd f c op q) s = liftCore (whenLive (fun s => (s.takeFlagUpd f op q).flagArrive f c u)) s) :
    Answers (exec (.flagUpd f c op q) s) (fun t => mgetD t.core.qm.upd f [] = mgetD s.core.qm.upd f [] ++ [u] ∧ t.core.mem = s.core.mem) := by
  obtain ⟨_, _, hr⟩ := takeFlagUpd_rest s f op q
  rw [h]
  refine answers_live hl ?_
  rw [hr]
  exact flagArrive_owned u ho

/-- One of a context that does not is taken and that is all. -/
theorem flagUpd_alien {s : State} {f c q op : Nat} {u : FlagUpdate} (hl : s.live = true) (ho : s.ownsFlag c f = false)
    (h : exec (.flagUpd f c op q) s = liftCore (whenLive (fun s => (s.takeFlagUpd f op q).flagArrive f c u)) s) :
    exec (.flagUpd f c op q) s = .next (s.takeFlagUpd f op q) := by
  obtain ⟨_, _, hr⟩ := takeFlagUpd_rest s f op q
  have hn : (s.takeFlagUpd f op q).flagArrive f c u = s.takeFlagUpd f op q := by
    have : (s.takeFlagUpd f op q).ownsFlag c f = false := by
      rw [hr]
      exact ho
    exact if_neg (by simp [this])
  rw [h, liftCore_goes, whenLive_pos _ hl, hn, hr]

theorem responsesAndNotices : Says.ResponsesAndNotices := by
  intro s p hl hf
  refine ⟨fun o type ho htu hq hty htype => ?_, fun hty h40 h4f => ?_, fun hty => ?_, fun hty hsub => ?_, fun hty hsub => ?_,
    fun f c q ho => ⟨flagUpd_reaches hl ho rfl, flagUpd_reaches hl ho rfl⟩, fun f c q ho => ⟨flagUpd_alien hl ho rfl, flagUpd_alien hl ho rfl⟩⟩
  · have hexec : ∀ P : State → Prop, (∀ t, Took s p t → P { s with core := (t.onResponse p).core }) →
        Answers (exec (if type = 0x30 then Instr.rdRsp p else .wrAck p) s) P := by
      intro P hP
      obtain ⟨t, ht, hon⟩ := onPacket_first (fun s => s.onResponse p) hf hty
      rcases htype with rfl | rfl
      · exact answers_live_at hl hon (hP t ht)
      · exact answers_live_at hl hon (hP t ht)
    refine ⟨fun h0 hpo => hexec _ fun t ht => ?_, fun h0 => hexec _ fun t ht => ?_⟩
    · obtain ⟨h1, h2, h3, h4⟩ := onResponse_ends ht ho htu hq
      exact ⟨h1, h2, fun i hi => (h4 i hi).1, h3⟩
    · obtain ⟨h1, h2, h3, h4⟩ := onResponse_ends ht ho htu hq
      refine ⟨h1, h2, fun i hi => ?_, h3⟩
      obtain ⟨hd, hp⟩ := h4 i hi
      exact ⟨hd, hp (by simp [h0])⟩
  · obtain ⟨t, ht, hon⟩ := onPacket_first (fun s => s.onDrop p) hf hty
    obtain ⟨n, hn⟩ : ∃ n, n = hdrField p 20 4 / 65536 % 16 := ⟨_, rfl⟩
    obtain ⟨k, hk⟩ : ∃ k, k = hdrField p 20 4 % 65536 := ⟨_, rfl⟩
    have hdrop : t.onDrop p = (t.bump (rceBase n + 0x138) k).raise (rceInt n) 4 := by
      unfold State.onDrop
      dsimp only
      rw [if_pos (by simp [h40, h4f]), ← hn, ← hk]
    rw [hdrop] at hon
    rw [← hn, ← hk]
    obtain ⟨_, _, hr⟩ := State.raise_core (t.bump (rceBase n + 0x138) k) (rceInt n) 4
    have hcnt : ((t.bump (rceBase n + 0x138) k).raise (rceInt n) 4).counter (rceBase n + 0x138) = (s.counter (rceBase n + 0x138) + k) % 2 ^ 64 := by
      rw [State.counter_raise _ _ _ (by unfold rceBase hifBase; omega), State.counter_bump_same]
      simp only [State.counter, ht.regs]
    obtain ⟨y, hy⟩ : ∃ y, y = (t.bump (rceBase n + 0x138) k).raise (rceInt n) 4 := ⟨_, rfl⟩
    have hbit : y.flagBit (rceInt n) 4 = true := hy ▸ State.flagBit_raise _ _ _
    have hyf : y.core.fab = t.core.fab ∧ y.core.mem = t.core.mem := by
      rw [hy, hr]
      exact ⟨rfl, rfl⟩
    obtain ⟨hfab, hmem⟩ := hyf
    rw [← hy] at hon hcnt
    exact answers_live_at hl hon ⟨(congrArg Fab.inbox hfab).trans ht.inbox, hbit, hcnt, hmem.trans ht.sameSpace.mem⟩
  · obtain ⟨t, ht, hon⟩ := onPacket_first (fun s => s) hf hty
    exact answers_live_at hl hon ⟨ht.inbox, ht.sameSpace.mem, ht.qm, ht.rce⟩
  · obtain ⟨t, ht, hon⟩ := onPacket_first (fun s => s) hf hty
    exact answers_live_at hl ((if_pos hsub).trans hon) ⟨ht.inbox, ht.sameSpace.mem, ht.qm⟩
  · obtain ⟨t, ht, hon⟩ := onPacket_first (fun s => s) hf hty
    exact answers_live_at hl ((if_pos hsub).trans hon) ⟨ht.inbox, ht.sameSpace.mem, ht.qm⟩

/-- Settles O58: a packet that is taken leaves the inbox and nothing else that its command meets; each command is then its one branch. -/
theorem packetsServed : Obligations.PacketsServed := ⟨requestsServed, responsesAndNotices⟩

end Sys2Proof.Machine
end
